-- ==== Sys2Proof/Syntax.lean ====
section
/-! DEFINITION. The commands that the block takes from outside: core and debug accesses, events on pins and clocks, and
the steps of its own sequencers, one constructor per row of the table. Operands say what comes from outside the model:
addresses, values, which unit acts, pin levels, converter codes, error outcomes. -/

namespace Sys2Proof

/-- What the ECC check of a word finds (R21, R115). -/
inductive Ecc where
  | none | single | double
deriving DecidableEq, Repr

/-- An ECC event met by the issue of a Stake operation (R115): on its Strand-store word, or on a slot word that it reads:
0 SRCA, 1 SRCB, 2 SRCB + 1, 3 SRCC, 4 SRCC + 1, 5 DST, 6 DST + 1, 7 its predicate. -/
inductive Upset where
  | none | storeSingle | storeDouble
  | slotSingle
  | slotDouble (which : Fin 8)
deriving DecidableEq, Repr

/-- Which operation issues, and when: lane, Loop Set, logical Stake, its place among the operations of that stream that
have not issued (R129), and the lane cycle, counted since the lane started (R108, R130, R138). -/
structure Issue where
  lane : Fin 2
  ls : Fin 16
  stake : Fin 32
  place : Fin 16
  cycle : Nat
  upset : Upset
deriving DecidableEq, Repr

/-- Kinds of core access. -/
inductive Access where
  | load | store | fetch
deriving DecidableEq, Repr

/-- Access sizes. -/
inductive Size where
  | byte | half | word
deriving DecidableEq, Repr

/-- LR, SC and the AMO operations of the A extension. -/
inductive Amo where
  | lr | sc | swap | add | xor | and | or | min | max | minu | maxu
deriving DecidableEq, Repr


/-- Trims of a converter slice, in steps of R178. -/
structure Trim where
  skew : Int
  gain : Int
  offset : Int
deriving DecidableEq, Repr

/-- A voltage in volts, num / den. -/
structure Volts where
  num : Int
  den : Nat
deriving DecidableEq, Repr

/-- A unit that BIST finds failing (R514): a physical Stake, a physical converter slice, a row of an SRAM macro with the
address of its 512 bytes (no rule numbers the macros by address), or a delay-line tap. -/
inductive BadUnit where
  | stake (lane : Fin 2) (phys : Fin 34)
  | slice (conv : Fin 4) (phys : Fin 9)
  | row (mac : Fin 100) (row : Fin 128) (base : Word)
  | tap (leg : Fin 48) (tap : Fin 32)
deriving DecidableEq, Repr

/-- Half an operation word in the Strand store of a physical Stake (R116). -/
structure StrandCell where
  lane : Fin 2
  phys : Fin 34
  idx : Fin 2048
  hi : Bool
deriving DecidableEq, Repr

/-- What a debug read reads: a place of the memory map, or a half of an operation word, which the map does not hold (R7,
R116). -/
inductive DebugPlace where
  | mem (addr : Word)
  | strand (cell : StrandCell)
deriving DecidableEq, Repr

/-- Levels at the release of a power-on reset: TESTMODE, and whether VDDIO_B stands at 3.3 V (R58, R531). -/
structure ReleasePins where
  testmode : Bool
  vddioB : Bool
deriving DecidableEq, Repr

/-- What ECC finds in a granted access of one or two words: the verdict, and whether it is of the second word (R113,
R115). -/
structure GrantEcc where
  ecc : Ecc
  second : Bool
deriving DecidableEq, Repr

/-- A CAN frame (R461, R465): extended identifier, remote, error-state indicator, FD format, bit-rate switch, the
identifier (11 or 29 bits), the DLC and the data bytes. -/
structure CanFrame where
  xtd : Bool
  rtr : Bool
  esi : Bool
  fdf : Bool
  brs : Bool
  id : Nat
  dlc : Fin 16
  data : List Byte
deriving DecidableEq, Repr

/-- A frame as a controller receives it, with the short time of its SOF (R465). -/
structure RxFrame where
  frame : CanFrame
  sof : Word
deriving DecidableEq, Repr

/-- How a transmission attempt ends (R470 to R472): success, a lost arbitration, an ack error (with a dominant bit during
a passive error flag or not), or an error of a LASTERR code; `exempt`: the case in which ISO 11898-1 leaves TEC unchanged
for a stuff error in arbitration; `eights`: the further steps of 8 that ISO 11898-1 counts for bit errors in the error flag
and for dominant bits after it. -/
inductive TxEnd where
  | success
  | lostArb
  | ackErr (dominant : Bool) (eights : Nat)
  | err (code : Fin 8) (exempt : Bool) (eights : Nat)
deriving DecidableEq, Repr

/-- The commands of the table, one constructor per row of opcode_table.json, in its order. -/
inductive Instr where
  /-- REGISTER_WRITE (R6). -/
  | registerWrite (core : Fin 4) (addr data : Word)
  /-- CORE_MEMORY_ACCESS (R19). -/
  | coreMemoryAccess (core : Fin 4) (kind : Access) (size : Size) (addr data : Word) (ecc : Ecc) (mac : Fin 100) (parity : Bool) (way : Fin 4)
  /-- AMO_ACCESS (R414). -/
  | amoAccess (core : Fin 4) (op : Amo) (addr data : Word) (ecc : Ecc) (mac : Fin 100) (parity : Bool)
  /-- MCINVAL (R413). -/
  | mcinval (core : Fin 4) (value : Word)
  /-- BUS_ACCESS_TIMEOUT (R17). -/
  | busAccessTimeout (agent : Fin 5) (addr : Word)
  /-- DEBUG_READ (R7). -/
  | debugRead (size : Size) (addr : DebugPlace) (ecc : Ecc)
  /-- SCRUB_WORD (R21). -/
  | scrubWord (addr : Word) (ecc : Ecc) (mac : Fin 100) (row : Fin 128)
  /-- HOOP_STALL (R15). -/
  | hoopStall (ch : Fin 256) (recv : Fin 14)
  /-- HOOP_HANDSHAKE_COMPLETE (R13). -/
  | hoopHandshakeComplete (ch : Fin 256) (recv : Fin 14)
  /-- FORK_WORD (R18). -/
  | forkWord (ch : Fin 8)
  /-- SAMPLE_PORT_WORD (R118). -/
  | samplePortWord (lane : Fin 2) (ch : Fin 8)
  /-- MODE_REQ_CONTROL (R37). -/
  | modeReqControl (key : BitVec 16) (target : Fin 6) (preempted : Bool)
  /-- MODE_REQ_STOP (R37). -/
  | modeReqStop (key : BitVec 16) (preempted : Bool)
  /-- MODE_REQ_RELOAD (R38). -/
  | modeReqReload (key : BitVec 16) (preempted : Bool)
  /-- MODE_REQ_CHECK (R66). -/
  | modeReqCheck (key : BitVec 16) (preempted : Bool)
  /-- MODE_REQ_SERVICE (R38). -/
  | modeReqService (key : BitVec 16) (preempted : Bool)
  /-- MODE_REQ_FORBIDDEN (R37). -/
  | modeReqForbidden (key : BitVec 16) (target : Fin 16)
  /-- MODE_REQ_TIMEOUT (R46). -/
  | modeReqTimeout
  /-- MODE_COMMIT (R36). -/
  | modeCommit
  /-- PROFILE_WINDOW_UPDATE (R284). -/
  | profileWindowUpdate
  /-- POWER_ON_RESET (R50). -/
  | powerOnReset
  /-- VDDAON_BROWNOUT (R532). -/
  | vddaonBrownout
  /-- WARM_RESET_PIN (R50). -/
  | warmResetPin
  /-- RST_REQ_WARM (R54). -/
  | rstReqWarm (key : BitVec 16)
  /-- DEBUG_RESET (R50). -/
  | debugReset
  /-- RESET_RELEASE (R56). -/
  | resetRelease (straps : BitVec 8) (boot : BitVec 3) (pins : ReleasePins)
  /-- WDOG_KICK (R55). -/
  | wdogKick (value : Word)
  /-- WDOG_EXPIRE (R55). -/
  | wdogExpire
  /-- WDOG_WARM_RESET (R55). -/
  | wdogWarmReset
  /-- XTAL_QUALIFIED (R492). -/
  | xtalQualified
  /-- PLL_LOCK (R494). -/
  | pllLock (pll : Fin 3) (band : BitVec 4)
  /-- PLL_LOCK_FAIL (R494). -/
  | pllLockFail (pll : Fin 3)
  /-- PLL_RETRY (R497). -/
  | pllRetry (pll : Fin 3)
  /-- REFERENCE_LOSS (R495). -/
  | referenceLoss
  /-- LOSS_OF_LOCK (R495). -/
  | lossOfLock (pll : Fin 3)
  /-- PATTERN_LOAD (R84). -/
  | patternLoad
  /-- FLASH_NO_RESPONSE (R546). -/
  | flashNoResponse
  /-- HOST_BOOT_IMAGE (R86). -/
  | hostBootImage (patLen : Word) (pattern : List Byte) (fwLen entry : Word) (firmware signature : List Byte)
  /-- BIST_COMPLETE (R514). -/
  | bistComplete (bad : List BadUnit)
  /-- STANDBY_ENTRY (R62). -/
  | standbyEntry
  /-- EXT_SAFE (R65). -/
  | extSafe
  /-- SAFE_N_RELEASE (R65). -/
  | safeNRelease
  /-- COLOPHON_SPLIT (R100). -/
  | colophonSplit
  /-- COLOPHON_LO_READ (R104). -/
  | colophonLoRead (core : Fin 4) (which : Fin 3)
  /-- COEF_COMMIT (R96). -/
  | coefCommit (count : BitVec 7) (ls : Fin 16)
  /-- LEG_COMMIT (R252). -/
  | legCommit (leg : Fin 48)
  /-- GSUP_COMMIT (R92). -/
  | gsupCommit
  /-- ADC_COMMIT (R205). -/
  | adcCommit (c : Fin 4)
  /-- SDF_COMMIT (R233). -/
  | sdfCommit
  /-- ACC_COMMIT (R348). -/
  | accCommit
  /-- ACC_COMMIT_APPLY (R92). -/
  | accCommitApply
  /-- ISO_COMMIT (R402). -/
  | isoCommit
  /-- ARCH_COMMIT (R384). -/
  | archCommit
  /-- LOOPSET_TRIGGER (R124). -/
  | loopsetTrigger (lane : Fin 2) (ch : Fin 8)
  /-- LOOPSET_RUN_COMPLETE (R126). -/
  | loopsetRunComplete (lane : Fin 2) (ls : Fin 16) (cycles : Nat)
  /-- LOOPSET_HUNG (R128). -/
  | loopsetHung (lane : Fin 2) (ls : Fin 16)
  /-- WINDOW_FULL (R138). -/
  | windowFull (lane : Fin 2) (ls : Fin 16)
  /-- OPERATION_COMPLETE (R133). -/
  | operationComplete (lane : Fin 2) (tag : Fin 256) (residueFails : Bool)
  /-- PORT_WRITE_COMPLETE (R122). -/
  | portWriteComplete (lane : Fin 2) (tag : Fin 256)
  /-- MEMORY_GRANT (R134). -/
  | memoryGrant (lane : Fin 2) (tag : Fin 256) (ecc : GrantEcc)
  /-- NOP (R161). -/
  | opNop (i : Issue)
  /-- PRD (R117). -/
  | opPrd (i : Issue)
  /-- PWR (R121). -/
  | opPwr (i : Issue)
  /-- RTIME (R161). -/
  | opRtime (i : Issue)
  /-- LD (R113). -/
  | opLd (i : Issue)
  /-- ST (R113). -/
  | opSt (i : Issue)
  /-- LDP (R162). -/
  | opLdp (i : Issue)
  /-- STP (R162). -/
  | opStp (i : Issue)
  /-- RAISE (R161). -/
  | opRaise (i : Issue)
  /-- MOV (R161). -/
  | opMov (i : Issue)
  /-- LDI (R161). -/
  | opLdi (i : Issue)
  /-- LDIH (R161). -/
  | opLdih (i : Issue)
  /-- GETF (R158). -/
  | opGetf (i : Issue)
  /-- ADD (R161). -/
  | opAdd (i : Issue)
  /-- SUB (R161). -/
  | opSub (i : Issue)
  /-- ADDI (R154). -/
  | opAddi (i : Issue)
  /-- NEG (R161). -/
  | opNeg (i : Issue)
  /-- ABS (R161). -/
  | opAbs (i : Issue)
  /-- ABSD (R161). -/
  | opAbsd (i : Issue)
  /-- CPYS (R161). -/
  | opCpys (i : Issue)
  /-- MIN (R161). -/
  | opMin (i : Issue)
  /-- MAX (R161). -/
  | opMax (i : Issue)
  /-- MID3 (R161). -/
  | opMid3 (i : Issue)
  /-- CLAMP (R161). -/
  | opClamp (i : Issue)
  /-- SEL (R161). -/
  | opSel (i : Issue)
  /-- CMPLT (R162). -/
  | opCmplt (i : Issue)
  /-- CMPLE (R162). -/
  | opCmple (i : Issue)
  /-- CMPEQ (R162). -/
  | opCmpeq (i : Issue)
  /-- CMPNE (R162). -/
  | opCmpne (i : Issue)
  /-- HYST (R162). -/
  | opHyst (i : Issue)
  /-- ISAT (R162). -/
  | opIsat (i : Issue)
  /-- SGN (R161). -/
  | opSgn (i : Issue)
  /-- AVG (R161). -/
  | opAvg (i : Issue)
  /-- DZONE (R161). -/
  | opDzone (i : Issue)
  /-- RLIM (R161). -/
  | opRlim (i : Issue)
  /-- ANGADD (R155). -/
  | opAngadd (i : Issue)
  /-- ANGDIFF (R155). -/
  | opAngdiff (i : Issue)
  /-- WRAPA (R155). -/
  | opWrapa (i : Issue)
  /-- LDEXP (R161). -/
  | opLdexp (i : Issue)
  /-- RINT (R161). -/
  | opRint (i : Issue)
  /-- FRAC (R162). -/
  | opFrac (i : Issue)
  /-- CVT (R161). -/
  | opCvt (i : Issue)
  /-- TOI (R162). -/
  | opToi (i : Issue)
  /-- TOU (R162). -/
  | opTou (i : Issue)
  /-- ITO (R161). -/
  | opIto (i : Issue)
  /-- UTO (R161). -/
  | opUto (i : Issue)
  /-- IPRE (R165). -/
  | opIpre (i : Issue)
  /-- SATT (R166). -/
  | opSatt (i : Issue)
  /-- SATTL (R166). -/
  | opSattl (i : Issue)
  /-- IADD (R161). -/
  | opIadd (i : Issue)
  /-- ISUB (R161). -/
  | opIsub (i : Issue)
  /-- IADDI (R161). -/
  | opIaddi (i : Issue)
  /-- IABS (R161). -/
  | opIabs (i : Issue)
  /-- IMIN (R161). -/
  | opImin (i : Issue)
  /-- IMAX (R161). -/
  | opImax (i : Issue)
  /-- AND (R161). -/
  | opAnd (i : Issue)
  /-- OR (R161). -/
  | opOr (i : Issue)
  /-- XOR (R161). -/
  | opXor (i : Issue)
  /-- ANDN (R161). -/
  | opAndn (i : Issue)
  /-- SHL (R161). -/
  | opShl (i : Issue)
  /-- SHR (R161). -/
  | opShr (i : Issue)
  /-- SAR (R161). -/
  | opSar (i : Issue)
  /-- ROR (R161). -/
  | opRor (i : Issue)
  /-- BFX (R161). -/
  | opBfx (i : Issue)
  /-- BFI (R161). -/
  | opBfi (i : Issue)
  /-- ICMPLT (R161). -/
  | opIcmplt (i : Issue)
  /-- ICMPLTU (R161). -/
  | opIcmpltu (i : Issue)
  /-- ICMPEQ (R161). -/
  | opIcmpeq (i : Issue)
  /-- CLZ (R161). -/
  | opClz (i : Issue)
  /-- POPC (R161). -/
  | opPopc (i : Issue)
  /-- MUL (R161). -/
  | opMul (i : Issue)
  /-- MAC (R161). -/
  | opMac (i : Issue)
  /-- MSUB (R161). -/
  | opMsub (i : Issue)
  /-- MSBR (R161). -/
  | opMsbr (i : Issue)
  /-- MULI (R154). -/
  | opMuli (i : Issue)
  /-- SQR (R161). -/
  | opSqr (i : Issue)
  /-- LPF1 (R161). -/
  | opLpf1 (i : Issue)
  /-- INTG (R164). -/
  | opIntg (i : Issue)
  /-- IMUL (R161). -/
  | opImul (i : Issue)
  /-- IMULH (R161). -/
  | opImulh (i : Issue)
  /-- IMAC (R161). -/
  | opImac (i : Issue)
  /-- SINCOS (R163). -/
  | opSincos (i : Issue)
  /-- SIN (R163). -/
  | opSin (i : Issue)
  /-- COS (R163). -/
  | opCos (i : Issue)
  /-- ROT (R163). -/
  | opRot (i : Issue)
  /-- ATAN2 (R163). -/
  | opAtan2 (i : Issue)
  /-- HYPOT (R163). -/
  | opHypot (i : Issue)
  /-- VEC (R163). -/
  | opVec (i : Issue)
  /-- EXP (R163). -/
  | opExp (i : Issue)
  /-- LN (R163). -/
  | opLn (i : Issue)
  /-- DIV (R162). -/
  | opDiv (i : Issue)
  /-- RECIP (R162). -/
  | opRecip (i : Issue)
  /-- SQRT (R162). -/
  | opSqrt (i : Issue)
  /-- RSQRT (R162). -/
  | opRsqrt (i : Issue)
  /-- IDIV (R162). -/
  | opIdiv (i : Issue)
  /-- IDIVU (R162). -/
  | opIdivu (i : Issue)
  /-- ADC_SEQ_TRIGGER (R181). -/
  | adcSeqTrigger (c : Fin 4)
  /-- ADC_SLOT_GRANT (R177). -/
  | adcSlotGrant (pair : Fin 2)
  /-- CONVERSION_COMPLETE (R174). -/
  | conversionComplete (c : Fin 4) (x y : Volts)
  /-- INJ_SW_REQUEST (R186). -/
  | injSwRequest (c : Fin 4) (req : BitVec 4)
  /-- INJECTED_TRIGGER (R186). -/
  | injectedTrigger (c k : Fin 4)
  /-- CAL_START (R190). -/
  | calStart (c : Fin 4)
  /-- CAL_COMPLETE (R193). -/
  | calComplete (c : Fin 4) (trims : List Trim)
  /-- TRIM_BLOCK_END (R178). -/
  | trimBlockEnd (c : Fin 4) (estimates : List Trim) (spare : Trim)
  /-- TALLY_WINDOW_CLOSE (R200). -/
  | tallyWindowClose (c j : Fin 4)
  /-- TALLY_LIMIT (R202). -/
  | tallyLimit (c j : Fin 4)
  /-- QTIME_READ (R197). -/
  | qtimeRead (core c : Fin 4)
  /-- SDF_ENABLE (R212). -/
  | sdfEnable
  /-- SD_OUTPUT_WORD (R223). -/
  | sdOutputWord (high mid low : BitVec 8)
  /-- S1_WINDOW_TRUNC (R218). -/
  | s1WindowTrunc (group : Fin 3) (k : Fin 8)
  /-- SD_STUCK (R236). -/
  | sdStuck (n : Fin 24)
  /-- RESAMPLER_ENABLE (R226). -/
  | resamplerEnable (n : Fin 24) (value : Word)
  /-- RESAMPLER_OUTPUT (R227). -/
  | resamplerOutput (n : Fin 24)
  /-- DCB_EST_WRITE (R221). -/
  | dcbEstWrite (n : Fin 24) (value : Word)
  /-- SD_DATA_READ (R242). -/
  | sdDataRead (core : Fin 4) (n : Fin 24)
  /-- PWM_BLOCK_ENABLE (R246). -/
  | pwmBlockEnable
  /-- PWM_RESYNC (R246). -/
  | pwmResync (groups : BitVec 16)
  /-- PERIOD_EVENT (R247). -/
  | periodEvent (leg : Fin 48)
  /-- GUARD_WINDOW_OPEN (R253). -/
  | guardWindowOpen (leg : Fin 48)
  /-- PWM_RELOAD (R253). -/
  | pwmReload (leg : Fin 48) (misplacedEdge : Bool)
  /-- COMMIT_WORD_CMPA (R251). -/
  | commitWordCmpa (lane : Fin 2) (hi : Bool)
  /-- COMMIT_WORD_CMPB (R251). -/
  | commitWordCmpb (lane : Fin 2) (hi : Bool)
  /-- COMMIT_WORD_PERIOD (R251). -/
  | commitWordPeriod (lane : Fin 2) (hi : Bool)
  /-- COMMIT_WORD_DT (R251). -/
  | commitWordDt (lane : Fin 2) (hi : Bool)
  /-- COMMIT_WORD_EVT (R251). -/
  | commitWordEvt (lane : Fin 2) (hi : Bool)
  /-- COMMIT_WORD_ENABLE (R261). -/
  | commitWordEnable (lane : Fin 2) (hi : Bool)
  /-- COMMIT_WORD_RESERVED (R251). -/
  | commitWordReserved (lane : Fin 2) (hi : Bool)
  /-- LEG_ENABLE_REQUEST (R261). -/
  | legEnableRequest (leg : Fin 48) (en : Bool)
  /-- LEG_CLR_FAULT (R262). -/
  | legClrFault (leg : Fin 48) (inputsInactive : Bool)
  /-- TAP_DRIFT (R258). -/
  | tapDrift (leg : Fin 48) (tap : Fin 32)
  /-- DESAT_CONFIRM (R267). -/
  | desatConfirm (k : Fin 24)
  /-- GUARD_TRIP (R266). -/
  | guardTrip (k : Fin 24)
  /-- SOFTOFF_DELAY_END (R268). -/
  | softoffDelayEnd (leg : Fin 48)
  /-- DRVFLT_CONFIRM (R270). -/
  | drvfltConfirm (k : Fin 24)
  /-- OSV_SWEEP_START (R272). -/
  | osvSweepStart (k : Fin 24) (every sample : BitVec 8)
  /-- OSV_SWEEP_SAMPLE (R272). -/
  | osvSweepSample (k : Fin 24) (active : Bool)
  /-- LANE_COMMIT_WORD (R324). -/
  | laneCommitWord (lane : Fin 2)
  /-- PARTNER_MISSING (R326). -/
  | partnerMissing (lane : Fin 2)
  /-- LANE_FAULT (R323). -/
  | laneFault (lane : Fin 2)
  /-- HOLD_DRAIN_COMPLETE (R328). -/
  | holdDrainComplete
  /-- HOLD_DRAIN_TIMEOUT (R328). -/
  | holdDrainTimeout
  /-- CHECK_VECTOR_COMPLETE (R330). -/
  | checkVectorComplete (failA failB : Word)
  /-- MIRROR_CAPTURE_COMPLETE (R336). -/
  | mirrorCaptureComplete (ls : Fin 16)
  /-- MIRROR_WRITE_START (R336). -/
  | mirrorWriteStart (ls : Fin 16)
  /-- MIRROR_WRITE_COMPLETE (R336). -/
  | mirrorWriteComplete (ls : Fin 16)
  /-- LANE_RESTART (R337). -/
  | laneRestart (test : Bool) (key : BitVec 16)
  /-- RESTART_CHECK_COMPLETE (R337). -/
  | restartCheckComplete (fails : Word) (bad : List BadUnit)
  /-- RESTART_COPY_COMPLETE (R337). -/
  | restartCopyComplete
  /-- LANE_RESTART_FAIL (R337). -/
  | laneRestartFail
  /-- LANE_SWAP (R338). -/
  | laneSwap (key : BitVec 16)
  /-- FAULT_REPORT (R355). -/
  | faultReport (chs : List (Fin 14))
  /-- GRACE_EXPIRY (R357). -/
  | graceExpiry (src : Fin 192) (ack : Bool)
  /-- ACC_ACK (R362). -/
  | accAck (src : BitVec 8) (key : BitVec 16)
  /-- ACC_ACK_ALL (R362). -/
  | accAckAll (key : BitVec 16)
  /-- ACC_FORCE (R363). -/
  | accForce (src : BitVec 8) (key : BitVec 16)
  /-- LOG_WRITE (R366). -/
  | logWrite
  /-- LOG_W0_READ (R369). -/
  | logW0Read (core : Fin 4)
  /-- LOG_W3_READ (R369). -/
  | logW3Read (core : Fin 4)
  /-- ARCH_ENABLE (R373). -/
  | archEnable
  /-- ARCH_SAMPLE (R375). -/
  | archSample (ch : Fin 3)
  /-- ARCH_SLOT_READ (R375). -/
  | archSlotRead (ch : Fin 64)
  /-- ARCH_RECORD_TIMEOUT (R378). -/
  | archRecordTimeout
  /-- ARCH_HEADER_WRITTEN (R377). -/
  | archHeaderWritten
  /-- ARCH_ARM (R384). -/
  | archArm
  /-- ARCH_DISARM (R378). -/
  | archDisarm
  /-- ARCH_SWTRIG (R380). -/
  | archSwtrig
  /-- ARCH_RELEASE (R378). -/
  | archRelease (banks : BitVec 4)
  /-- ARMIO_EDGE (R384). -/
  | armioEdge
  /-- DPL_ARM_TIME (R384). -/
  | dplArmTime
  /-- TRIGIO_EDGE (R386). -/
  | trigioEdge
  /-- ARCH_TRIGIO_STUCK (R386). -/
  | archTrigioStuck
  /-- TRIGIO_PULSE_END (R386). -/
  | trigioPulseEnd
  /-- ARMIO_PULSE_END (R384). -/
  | armioPulseEnd
  /-- RELAY_COMMAND (R392). -/
  | relayCommand
  /-- RELAY_SETTLE (R394). -/
  | relaySettle (chain : Fin 2)
  /-- RELAY_READBACK_CHANGE (R394). -/
  | relayReadbackChange (relay : Fin 4) (level : Bool)
  /-- WELD_STEP_TIMEOUT (R397). -/
  | weldStepTimeout
  /-- ISO_WELD_DUE (R401). -/
  | isoWeldDue
  /-- ISO_WELD_OVERDUE (R401). -/
  | isoWeldOverdue
  /-- CLR_WELD (R395). -/
  | clrWeld (key : BitVec 16)
  /-- SET_WELD (R395). -/
  | setWeld (key : BitVec 16)
  /-- TEST_PULSE_START (R402). -/
  | testPulseStart (supply : Fin 2)
  /-- TEST_PULSE_END (R402). -/
  | testPulseEnd (supply : Fin 2)
  /-- SIN_PRE_SAMPLE (R403). -/
  | sinPreSample (levels : BitVec 8)
  /-- SIN_IN_SAMPLE (R403). -/
  | sinInSample (supply : Fin 2) (levels : BitVec 8)
  /-- SEAL_SAMPLE (R406). -/
  | sealSample (levels : BitVec 8)
  /-- TAKE (R420). -/
  | take (core target : Fin 4)
  /-- GIVE_YIELD (R421). -/
  | giveYield (core : Fin 4)
  /-- GIVE_WAIT (R421). -/
  | giveWait (core : Fin 4) (all : Bool) (group : Fin 4) (ticks : BitVec 24)
  /-- GIVE_DELAY (R428). -/
  | giveDelay (core : Fin 4) (ticks : BitVec 24)
  /-- GIVE_UNTIL (R428). -/
  | giveUntil (core : Fin 4) (ticks : BitVec 24)
  /-- GIVE_EXIT (R421). -/
  | giveExit (core : Fin 4)
  /-- GIVE_SUSPEND (R421). -/
  | giveSuspend (core : Fin 4)
  /-- CMD_START (R419). -/
  | cmdStart (core : Fin 4) (slot : Fin 256)
  /-- CMD_SUSPEND (R419). -/
  | cmdSuspend (core : Fin 4) (slot : Fin 256)
  /-- CMD_RESUME (R419). -/
  | cmdResume (core : Fin 4) (slot : Fin 256)
  /-- CMD_STOP (R419). -/
  | cmdStop (core : Fin 4) (slot : Fin 256)
  /-- FLAG_SET (R424). -/
  | flagSet (group : Fin 4) (bits : Word)
  /-- FLAG_CLEAR (R424). -/
  | flagClear (group : Fin 4) (bits : Word) (isls : List (Fin 14))
  /-- FLAG_REQUEST (R424). -/
  | flagRequest (isl : Fin 14)
  /-- SHELF_TICK (R427). -/
  | shelfTick (isls : List (Fin 14))
  /-- CIRC_STARVE (R430). -/
  | circStarve (slot : Fin 256)
  /-- CIRC_RUN_LONG (R430). -/
  | circRunLong (slot : Fin 256)
  /-- CORE_DEBUG_HALT (R417). -/
  | coreDebugHalt (core : Fin 4)
  /-- TIME_NS_READ (R440). -/
  | timeNsRead (core : Fin 4)
  /-- TIME_ADJUST_START (R443). -/
  | timeAdjustStart (k : BitVec 24)
  /-- TIME_ADJUST_END (R443). -/
  | timeAdjustEnd
  /-- TIME_STEP_REQUEST (R444). -/
  | timeStepRequest
  /-- TIME_STEP (R444). -/
  | timeStep
  /-- COMPARATOR_ARM (R446). -/
  | comparatorArm (k : Fin 8) (mode : Bool)
  /-- TIME_COMPARATOR_FIRE (R445). -/
  | timeComparatorFire (k : Fin 8)
  /-- SECOND_CARRY (R448). -/
  | secondCarry
  /-- PPS_OUT_END (R448). -/
  | ppsOutEnd
  /-- PPS_IN_EDGE (R447). -/
  | ppsInEdge
  /-- TIME_PPS_LOSS (R447). -/
  | timePpsLoss
  /-- ETH_FRAME_RECEIVED (R453). -/
  | ethFrameReceived (mac : Fin 2) (frame : List Byte) (fcsBad : Bool)
  /-- ETH_TX_START (R457). -/
  | ethTxStart (mac : Fin 2)
  /-- ETH_LAUNCH_TIME (R456). -/
  | ethLaunchTime (mac : Fin 2) (q : Fin 8)
  /-- ETH_TX_COMPLETE (R451). -/
  | ethTxComplete (mac : Fin 2)
  /-- ETH_TX_KICK (R460). -/
  | ethTxKick (mac : Fin 2) (q : Fin 8)
  /-- MDIO_GO (R450). -/
  | mdioGo (data : BitVec 16) (reg phy : Fin 32) (op : Fin 4)
  /-- MDIO_COMPLETE (R450). -/
  | mdioComplete (read : Option (BitVec 16))
  /-- ETH_MDIO_TIMEOUT (R450). -/
  | ethMdioTimeout
  /-- ETH_LINK_CHANGE (R452). -/
  | ethLinkChange (mac : Fin 2) (up : Bool)
  /-- CAN_ENABLE (R464). -/
  | canEnable (bus : Fin 4)
  /-- CAN_FRAME_RECEIVED (R467). -/
  | canFrameReceived (bus : Fin 4) (f : RxFrame)
  /-- DPL_FRAME_RECEIVED (R479). -/
  | dplFrameReceived (f : RxFrame)
  /-- CAN_TX_REQUEST (R469). -/
  | canTxRequest (bus : Fin 4) (slots : Word)
  /-- CAN_TX_ABORT (R470). -/
  | canTxAbort (bus : Fin 4) (slots : Word)
  /-- CAN_ARBITRATION_ENTRY (R469). -/
  | canArbitrationEntry (bus : Fin 4)
  /-- CAN_TX_ATTEMPT_END (R470). -/
  | canTxAttemptEnd (bus : Fin 4) (res : TxEnd)
  /-- CAN_RECOVER (R473). -/
  | canRecover (bus : Fin 4) (key : BitVec 16)
  /-- CAN_RECOVERY_COMPLETE (R473). -/
  | canRecoveryComplete (bus : Fin 4)
  /-- CAN_REJOIN (R463). -/
  | canRejoin (bus : Fin 4)
  /-- INBOX_DONE (R468). -/
  | inboxDone (bus : Fin 4) (inbox : Fin 2) (idx : BitVec 6)
  /-- RECEIPT_DONE (R489). -/
  | receiptDone (bus : Fin 4) (idx : BitVec 5)
  /-- DPL_ENABLE (R483). -/
  | dplEnable
  /-- DPL_HEARTBEAT_DUE (R483). -/
  | dplHeartbeatDue
  /-- DPL_PEER_TIMEOUT (R485). -/
  | dplPeerTimeout (k : Fin 32)
  /-- DPL_TOKEN_REFILL (R479). -/
  | dplTokenRefill
  /-- DPL_PEER_FREE (R485). -/
  | dplPeerFree (k : Fin 32)
  /-- DPL_KEY_WRITE (R476). -/
  | dplKeyWrite (key : Fin 2) (i : Fin 4) (value : Word)
  /-- SSC_ENABLE (R498). -/
  | sscEnable (en : Bool)
  /-- CLOCK_GATE_WRITE (R499). -/
  | clockGateWrite (blocks : BitVec 10)
  /-- PWRB_EPOCH (R501). -/
  | pwrbEpoch (power tj : BitVec 16)
  /-- LEDGER_ENABLE (R511). -/
  | ledgerEnable
  /-- LEDGER_AGE_TICK (R504). -/
  | ledgerAgeTick
  /-- LEDGER_POINT (R510). -/
  | ledgerPoint (ro : List (BitVec 16)) (margin : BitVec 4)
  /-- LEDGER_POINT_NOW (R510). -/
  | ledgerPointNow (ro : List (BitVec 16)) (margin : BitVec 4)
  /-- LEDGER_MEAS_START (R506). -/
  | ledgerMeasStart
  /-- LEDGER_MEAS_TRIGGER (R506). -/
  | ledgerMeasTrigger (current : Bool)
  /-- LEDGER_MEAS_COMPLETE (R507). -/
  | ledgerMeasComplete (survived : Nat) (v1re v1im i1re i1im : Int)
  /-- REPAIR_RUN (R516). -/
  | repairRun (commit : Bool) (key : BitVec 16)
  /-- REPAIR_RUN_COMPLETE (R516). -/
  | repairRunComplete (bad : List BadUnit)
  /-- READ_TO_CLEAR (R6). -/
  | readToClear (core : Fin 4) (addr : Word)
  /-- DEBUG_WRITE (R114). -/
  | debugWrite (size : Size) (addr data : Word)
  /-- CRYSTAL_NOT_QUALIFIED (R64). -/
  | crystalNotQualified
  /-- TRIGIO_READS_HIGH (R386). -/
  | trigioReadsHigh
  /-- SAFE_N_LINE_CHANGE (R66). -/
  | safeNLineChange (low : Bool)
  /-- POWER_DOWN (R532). -/
  | powerDown
  /-- CAN_RX_ERROR (R471). -/
  | canRxError (bus : Fin 4) (code : Fin 8) (eights : Nat)
deriving DecidableEq, Repr

end Sys2Proof
end

