-- ==== Sys2Proof/Decode.lean ====
section
/-! DEFINITION. The decoder over the rows of the opcode table that give bits. No row of this block's table gives any:
a command is no word, so no word spells one. -/

namespace Sys2Proof

/-- The command that the lowest `nbits` bits of `w` spell by the table: none, as no row has bits. -/
def decodeTableWord (_nbits _w : Nat) : Option Instr := none

end Sys2Proof
end

