-- ==== Sys2Proof/Config.lean ====
section
/-! DEFINITION. What one implementation fixes and the spec leaves open, and the free values: opaque constants with no
body, of which nothing can be computed or proved. Each is named in the assumption log. -/

namespace Sys2Proof.Config

/-- DEVID.STEPPING of the part, as the letter and the digit that R2 codes: the spec gives no value (log entry 13). -/
opaque stepping : Fin 6 × Fin 10

/-- The `n`-th free value: what the spec leaves open and the machine goes on with (log entry 10). -/
opaque freeWord : Nat → BitVec 32

/-- The rounded result of a CORDIC-unit function whose enclosures do not separate at the model's largest precision:
function number, format, rounding, operand words (log entry 30). -/
opaque cordicFree : Nat → Nat → Nat → List (BitVec 32) → BitVec 32

/-- The resampler's ROM, whose coefficients the spec does not give (R227): phase, tap (log entry 31). -/
opaque resamplerRom : Nat → Nat → BitVec 24

end Sys2Proof.Config
end

