-- ==== Sys2Proof/Machine/Numeric.lean ====
section
/-! DEFINITION. The three numeric formats of the Stakes, exact values, rounding, and what lies outside a format
(R149 to R153). A typed operation forms an exact value, rounds it once (`roundVal`) and writes it (`finish`). -/

namespace Sys2Proof.Machine

/-- FMT of an operation word (R149). -/
inductive Fmt where
  | fp32 | q31 | q16
deriving DecidableEq, Repr

/-- RND of an operation word (R147). -/
inductive Rnd where
  | even | zero | floor | ceil
deriving DecidableEq, Repr

/-- The four flags of a Stake (R157). -/
structure Flags where
  s : Bool := false
  v : Bool := false
  n : Bool := false
  z : Bool := false
deriving DecidableEq, Repr

/-- An exact value: NaN, an infinity, or plus or minus num / den (a zero keeps its sign). -/
inductive Val where
  | nan
  | inf (neg : Bool)
  | fin (neg : Bool) (num den : Nat)
deriving DecidableEq, Repr

/-- What happens to a rounded value outside a Q format (R152): SAT = 1, SAT = 0, an operation without S, an angle. -/
inductive Ovf where
  | sat | wrap | limit | angle
deriving DecidableEq, Repr

/-- Fraction bits of a Q format. -/
def Fmt.frac : Fmt → Nat
  | .fp32 => 0
  | .q31 => 31
  | .q16 => 16

/-- 2^e as a fraction. -/
def pow2 (neg : Bool) (m : Nat) (e : Int) : Val :=
  if 0 ≤ e then .fin neg (m * 2 ^ e.toNat) 1 else .fin neg m (2 ^ (-e).toNat)

/-- An integer as a value. -/
def Val.ofInt (z : Int) : Val := .fin (z < 0) z.natAbs 1

/-- Reads a slot word in a format; a binary32 subnormal reads as zero of its sign (R149, R153). -/
def readFmt (f : Fmt) (w : Word) : Val :=
  let n := w.toNat
  match f with
  | .fp32 =>
    let neg := n.testBit 31
    let e := bits n 23 8
    let m := bits n 0 23
    if e = 255 then (if m = 0 then .inf neg else .nan)
    else if e = 0 then .fin neg 0 1
    else pow2 neg (2 ^ 23 + m) (e - 150)
  | .q31 => let z := signed 32 n; .fin (z < 0) z.natAbs (2 ^ 31)
  | .q16 => let z := signed 32 n; .fin (z < 0) z.natAbs (2 ^ 16)

namespace Val

def isNan : Val → Bool
  | .nan => true
  | _ => false

def isInf : Val → Bool
  | .inf _ => true
  | _ => false

def isZero : Val → Bool
  | .fin _ 0 _ => true
  | _ => false

/-- The sign bit of a value that is not NaN. -/
def neg? : Val → Bool
  | .nan => false
  | .inf s => s
  | .fin s _ _ => s

def neg : Val → Val
  | .nan => .nan
  | .inf s => .inf (!s)
  | .fin s n d => .fin (!s) n d

def abs : Val → Val
  | .nan => .nan
  | .inf _ => .inf false
  | .fin _ n d => .fin false n d

/-- Exact sum; the sign of an exact zero follows IEEE 754, negative under floor only (R153). -/
def add (r : Rnd) : Val → Val → Val
  | .nan, _ => .nan
  | _, .nan => .nan
  | .inf s, .inf t => if s = t then .inf s else .nan
  | .inf s, _ => .inf s
  | _, .inf t => .inf t
  | .fin s n d, .fin t m e =>
    if s = t then .fin s (n * e + m * d) (d * e)
    else if m * d < n * e then .fin s (n * e - m * d) (d * e)
    else if n * e < m * d then .fin t (m * d - n * e) (d * e)
    else .fin (r == .floor) 0 1

def sub (r : Rnd) (x y : Val) : Val := add r x (neg y)

/-- Exact product; zero times infinity is invalid. -/
def mul : Val → Val → Val
  | .nan, _ => .nan
  | _, .nan => .nan
  | .inf s, .inf t => .inf (s != t)
  | .inf s, .fin t m _ => if m = 0 then .nan else .inf (s != t)
  | .fin s n _, .inf t => if n = 0 then .nan else .inf (s != t)
  | .fin s n d, .fin t m e => .fin (s != t) (n * m) (d * e)

/-- Exact quotient of a nonzero divisor; a zero divisor is the caller's case (R162). -/
def div : Val → Val → Val
  | .nan, _ => .nan
  | _, .nan => .nan
  | .inf _, .inf _ => .nan
  | .inf s, .fin t _ _ => .inf (s != t)
  | .fin s _ _, .inf t => .fin (s != t) 0 1
  | .fin s n d, .fin t m e => .fin (s != t) (n * e) (d * m)

/-- The exact value times 2^k. -/
def scale (k : Int) (x : Val) : Val := mul x (pow2 false 1 k)

/-- Numeric order of two values that are not NaN (zeros of both signs are equal). -/
def lt : Val → Val → Bool
  | .nan, _ => false
  | _, .nan => false
  | .inf s, .inf t => s && !t
  | .inf s, _ => s
  | _, .inf t => !t
  | .fin s n d, .fin t m e =>
    let x : Int := if s then -(n * e : Int) else n * e
    let y : Int := if t then -(m * d : Int) else m * d
    x < y

def eq (x y : Val) : Bool := !x.isNan && !y.isNan && !lt x y && !lt y x

def le (x y : Val) : Bool := lt x y || eq x y

/-- Order with minus zero below plus zero, as MIN and MAX take it (R153). -/
def ltZ (x y : Val) : Bool := lt x y || (eq x y && x.isZero && x.neg? && !y.neg?)

def min (x y : Val) : Val := if ltZ y x then y else x
def max (x y : Val) : Val := if ltZ x y then y else x

end Val

/-- Rounds the magnitude n / d of a value of sign `neg` to an integer (R151). -/
def roundNat (r : Rnd) (neg : Bool) (n d : Nat) : Nat :=
  let q := n / d
  let m := n % d
  let up := match r with
    | .even => d < 2 * m || (2 * m == d && q % 2 == 1)
    | .zero => false
    | .floor => neg && m != 0
    | .ceil => !neg && m != 0
  if up then q + 1 else q

/-- Exponent e with 2^e ≤ n / d < 2^(e+1), for n and d not zero. -/
def ilog2 (n d : Nat) : Int :=
  let e : Int := (Nat.log2 n : Int) - Nat.log2 d
  let below := if 0 ≤ e then n < d * 2 ^ e.toNat else n * 2 ^ (-e).toNat < d
  if below then e - 1 else e

/-- Rounds an exact value once to the grid of a format, without regard to the format's range. A binary32 magnitude
below 2^-126 becomes zero of its sign (R151, R153). -/
def roundVal (f : Fmt) (r : Rnd) : Val → Val
  | .nan => .nan
  | .inf s => .inf s
  | .fin s n d =>
    if n = 0 then .fin s 0 1
    else match f with
    | .fp32 =>
      let e := ilog2 n d
      if e < -126 then .fin s 0 1
      else
        let q := 23 - e
        let m := if 0 ≤ q then roundNat r s (n * 2 ^ q.toNat) d else roundNat r s n (d * 2 ^ (-q).toNat)
        pow2 s m (-q)
    | _ => .fin s (roundNat r s (n * 2 ^ f.frac) d) (2 ^ f.frac)

/-- The NaN result of R153, or zero in a Q format, with N. -/
def nanResult (f : Fmt) (sat : Bool) : Word × Flags :=
  (if f = .fp32 ∧ !sat then 0x7FC00000 else 0, { n := true })

/-- The largest finite binary32 of a sign. -/
def maxFinite (neg : Bool) : Word := if neg then 0xFF7FFFFF else 0x7F7FFFFF

def infWord (neg : Bool) : Word := if neg then 0xFF800000 else 0x7F800000

/-- The extreme value of a Q format or of a signed integer, by sign. -/
def extreme (neg : Bool) : Word := if neg then 0x80000000 else 0x7FFFFFFF

/-- A signed integer outside or inside 32 bits, as R152 handles it. -/
def finishInt (o : Ovf) (z : Int) : Word × Flags :=
  if -(2 ^ 31) ≤ z ∧ z < 2 ^ 31 then (word (toBits 32 z), {})
  else match o with
    | .sat => (extreme (z < 0), { s := true })
    | .limit => (extreme (z < 0), { s := true })
    | .wrap => (word (toBits 32 z), { v := true })
    | .angle => (word (toBits 32 z), {})

/-- Writes a value that lies on the format's grid, with the handling of R152 and R153 where it lies outside the range. -/
def finish (f : Fmt) (o : Ovf) : Val → Word × Flags
  | .nan => nanResult f (o == .sat)
  | .inf s =>
    match f with
    | .fp32 => if o = .sat then (maxFinite s, { s := true }) else (infWord s, {})
    | _ => (extreme s, { s := true })
  | .fin s n d =>
    match f with
    | .fp32 =>
      if n = 0 then (if s then 0x80000000 else 0, {})
      else
        let e := ilog2 n d
        if 127 < e then (if o = .sat then (maxFinite s, { s := true }) else (infWord s, { v := true }))
        else
          let q := 23 - e
          let m := if 0 ≤ q then n * 2 ^ q.toNat / d else n / (d * 2 ^ (-q).toNat)
          (word ((b2n s) * 2 ^ 31 + (e + 127).toNat * 2 ^ 23 + m % 2 ^ 23), {})
    | _ =>
      let m := n * 2 ^ f.frac / d
      finishInt o (if s then -(m : Int) else m)

/-- Rounds once and writes (R150). -/
def writeVal (f : Fmt) (r : Rnd) (o : Ovf) (v : Val) : Word × Flags := finish f o (roundVal f r v)

/-- Integer square root, by the digit recurrence on `k` bit pairs. -/
def isqrtAux : Nat → Nat → Nat → Nat
  | 0, _, r => r
  | k + 1, n, r =>
    let t := r + 2 ^ k
    if t * t ≤ n then isqrtAux k n t else isqrtAux k n r

def isqrt (n : Nat) : Nat := isqrtAux (Nat.log2 n / 2 + 1) n 0

/-- A value that rounds as √(n / d) does in every format: the root itself where it is a fraction of 2^k, else a point
inside the interval of width 2^-k that holds it, in which no rounding boundary of a format lies. -/
def sqrtVal (n d : Nat) : Val :=
  if n = 0 then .fin false 0 1
  else
    let k : Nat := (64 + (Nat.log2 d - Nat.log2 n)) / 2 + 40
    let s := isqrt (n * 4 ^ k / d)
    if s * s * d = n * 4 ^ k then .fin false s (2 ^ k) else .fin false (2 * s + 1) (2 ^ (k + 1))

end Sys2Proof.Machine
end

