-- ==== Sys2Proof/Machine/Operands.lean ====
section
/-! DEFINITION. The operation word of a Stake (R147), its operand forms, and what the opcode table says of each code:
unit, latency, operands, results, and the fields it uses (R161, R162). -/

namespace Sys2Proof.Machine

/-- Execution units of a Stake (R133); `none` is NOP's. -/
inductive OpUnit where
  | none | port | memory | add | mac | cordic | divide
deriving DecidableEq, Repr

/-- Operands of the Operation column of R161. -/
inductive Src where
  | a | b | b' | c | c' | d | d' | imm
deriving DecidableEq, Repr

/-- One row of the opcode table: unit, latency, operands read, number of slots written, and whether FMT, RND and SAT
are used. -/
structure OpInfo where
  unit : OpUnit
  latency : Nat
  srcs : List Src
  dsts : Nat
  typed : Bool
  rnd : Bool
  sat : Bool
deriving DecidableEq, Repr

/-- An operation word taken apart (R147). -/
structure OpWord where
  opc : Nat
  dst : Nat
  srca : Nat
  srcb : Nat
  imm : Nat
  rnd : Nat
  sat : Bool
  fmt : Nat
  chain : Bool
  pen : Bool
  pinv : Bool
  psel : Nat
deriving DecidableEq, Repr

/-- Takes a 64-bit operation word apart (R147). -/
def opWord (w : BitVec 64) : OpWord :=
  let n := w.toNat
  { opc := bits n 57 7, dst := bits n 47 10, srca := bits n 37 10, srcb := bits n 27 10, imm := bits n 11 16
    rnd := bits n 9 2, sat := n.testBit 8, fmt := bits n 5 3, chain := n.testBit 4, pen := n.testBit 3
    pinv := n.testBit 2, psel := bits n 0 2 }

/-- Rows 0x00 to 0x37 of R161. -/
def opTableLow : List (Nat × OpInfo) := [
  (0x00, ⟨.none, 0, [], 0, false, false, false⟩),
  (0x01, ⟨.port, 1, [.imm], 1, false, false, false⟩),
  (0x02, ⟨.port, 1, [.a, .imm], 0, false, false, false⟩),
  (0x03, ⟨.port, 1, [], 1, false, false, false⟩),
  (0x04, ⟨.memory, 4, [.a, .imm], 1, false, false, false⟩),
  (0x05, ⟨.memory, 4, [.a, .b, .imm], 0, false, false, false⟩),
  (0x06, ⟨.memory, 4, [.a, .imm], 2, false, false, false⟩),
  (0x07, ⟨.memory, 4, [.a, .b, .b', .imm], 0, false, false, false⟩),
  (0x08, ⟨.port, 1, [.imm], 0, false, false, false⟩),
  (0x10, ⟨.add, 2, [.a], 1, false, false, false⟩),
  (0x11, ⟨.add, 2, [.imm], 1, false, false, false⟩),
  (0x12, ⟨.add, 2, [.a, .imm], 1, false, false, false⟩),
  (0x13, ⟨.add, 2, [], 1, false, false, false⟩),
  (0x14, ⟨.add, 2, [.a, .b], 1, true, true, true⟩),
  (0x15, ⟨.add, 2, [.a, .b], 1, true, true, true⟩),
  (0x16, ⟨.add, 2, [.a, .imm], 1, true, true, true⟩),
  (0x17, ⟨.add, 2, [.a], 1, true, false, true⟩),
  (0x18, ⟨.add, 2, [.a], 1, true, false, true⟩),
  (0x19, ⟨.add, 2, [.a, .b], 1, true, true, true⟩),
  (0x1A, ⟨.add, 2, [.a, .b], 1, true, false, true⟩),
  (0x1B, ⟨.add, 2, [.a, .b], 1, true, false, false⟩),
  (0x1C, ⟨.add, 2, [.a, .b], 1, true, false, false⟩),
  (0x1D, ⟨.add, 2, [.a, .b, .c], 1, true, false, false⟩),
  (0x1E, ⟨.add, 2, [.a, .c, .c'], 1, true, false, false⟩),
  (0x1F, ⟨.add, 2, [.a, .b, .c], 1, false, false, false⟩),
  (0x20, ⟨.add, 2, [.a, .b], 1, true, false, false⟩),
  (0x21, ⟨.add, 2, [.a, .b], 1, true, false, false⟩),
  (0x22, ⟨.add, 2, [.a, .b], 1, true, false, false⟩),
  (0x23, ⟨.add, 2, [.a, .b], 1, true, false, false⟩),
  (0x24, ⟨.add, 2, [.a, .c, .c', .d], 1, true, false, false⟩),
  (0x25, ⟨.add, 2, [.a, .c, .c'], 1, true, false, false⟩),
  (0x26, ⟨.add, 2, [.a], 1, true, false, false⟩),
  (0x27, ⟨.add, 2, [.a, .b], 1, true, true, false⟩),
  (0x28, ⟨.add, 2, [.a, .b], 1, true, true, true⟩),
  (0x29, ⟨.add, 2, [.a, .b, .d], 1, true, true, true⟩),
  (0x2A, ⟨.add, 2, [.a, .b], 1, true, true, false⟩),
  (0x2B, ⟨.add, 2, [.a, .b], 1, true, true, false⟩),
  (0x2C, ⟨.add, 2, [.a], 1, true, true, false⟩),
  (0x2D, ⟨.add, 2, [.a, .imm], 1, true, true, true⟩),
  (0x2E, ⟨.add, 2, [.a], 1, true, true, true⟩),
  (0x2F, ⟨.add, 2, [.a], 1, true, true, false⟩),
  (0x30, ⟨.add, 2, [.a, .imm], 1, true, true, true⟩),
  (0x31, ⟨.add, 2, [.a, .imm], 1, true, true, true⟩),
  (0x32, ⟨.add, 2, [.a, .imm], 1, true, true, true⟩),
  (0x33, ⟨.add, 2, [.a, .imm], 1, true, true, true⟩),
  (0x34, ⟨.add, 2, [.a, .imm], 1, true, true, true⟩),
  (0x35, ⟨.add, 2, [.a, .b, .c, .c'], 1, true, true, false⟩),
  (0x36, ⟨.add, 2, [.a, .b, .c, .c', .d, .d'], 2, true, false, false⟩),
  (0x37, ⟨.add, 2, [.a, .b, .c, .c', .d, .d'], 2, true, false, false⟩)]

/-- Rows 0x40 to 0x7D of R161. -/
def opTableHigh : List (Nat × OpInfo) := [
  (0x40, ⟨.add, 2, [.a, .b], 1, false, false, true⟩),
  (0x41, ⟨.add, 2, [.a, .b], 1, false, false, true⟩),
  (0x42, ⟨.add, 2, [.a, .imm], 1, false, false, true⟩),
  (0x43, ⟨.add, 2, [.a], 1, false, false, true⟩),
  (0x44, ⟨.add, 2, [.a, .b], 1, false, false, false⟩),
  (0x45, ⟨.add, 2, [.a, .b], 1, false, false, false⟩),
  (0x46, ⟨.add, 2, [.a, .b], 1, false, false, false⟩),
  (0x47, ⟨.add, 2, [.a, .b], 1, false, false, false⟩),
  (0x48, ⟨.add, 2, [.a, .b], 1, false, false, false⟩),
  (0x49, ⟨.add, 2, [.a, .b], 1, false, false, false⟩),
  (0x4A, ⟨.add, 2, [.a, .imm], 1, false, false, false⟩),
  (0x4B, ⟨.add, 2, [.a, .imm], 1, false, false, false⟩),
  (0x4C, ⟨.add, 2, [.a, .imm], 1, false, false, false⟩),
  (0x4D, ⟨.add, 2, [.a, .imm], 1, false, false, false⟩),
  (0x4E, ⟨.add, 2, [.a, .imm], 1, false, false, false⟩),
  (0x4F, ⟨.add, 2, [.a, .d, .imm], 1, false, false, false⟩),
  (0x50, ⟨.add, 2, [.a, .b], 1, false, false, false⟩),
  (0x51, ⟨.add, 2, [.a, .b], 1, false, false, false⟩),
  (0x52, ⟨.add, 2, [.a, .b], 1, false, false, false⟩),
  (0x53, ⟨.add, 2, [.a], 1, false, false, false⟩),
  (0x54, ⟨.add, 2, [.a], 1, false, false, false⟩),
  (0x58, ⟨.mac, 4, [.a, .b], 1, true, true, true⟩),
  (0x59, ⟨.mac, 4, [.a, .b, .c], 1, true, true, true⟩),
  (0x5A, ⟨.mac, 4, [.a, .b, .c], 1, true, true, true⟩),
  (0x5B, ⟨.mac, 4, [.a, .b, .c], 1, true, true, true⟩),
  (0x5C, ⟨.mac, 4, [.a, .imm], 1, true, true, true⟩),
  (0x5D, ⟨.mac, 4, [.a], 1, true, true, true⟩),
  (0x5E, ⟨.mac, 4, [.a, .b, .d], 1, true, true, true⟩),
  (0x5F, ⟨.mac, 4, [.a, .b, .c, .c', .d], 1, true, true, false⟩),
  (0x60, ⟨.mac, 4, [.a, .b], 1, false, false, true⟩),
  (0x61, ⟨.mac, 4, [.a, .b], 1, false, false, false⟩),
  (0x62, ⟨.mac, 4, [.a, .b, .c], 1, false, false, true⟩),
  (0x68, ⟨.cordic, 10, [.a], 2, true, true, false⟩),
  (0x69, ⟨.cordic, 10, [.a], 1, true, true, false⟩),
  (0x6A, ⟨.cordic, 10, [.a], 1, true, true, false⟩),
  (0x6B, ⟨.cordic, 10, [.a, .b, .c], 2, true, true, true⟩),
  (0x6C, ⟨.cordic, 10, [.a, .b], 1, true, true, false⟩),
  (0x6D, ⟨.cordic, 10, [.a, .b], 1, true, true, true⟩),
  (0x6E, ⟨.cordic, 10, [.a, .b], 2, true, true, true⟩),
  (0x6F, ⟨.cordic, 10, [.a], 1, true, true, true⟩),
  (0x70, ⟨.cordic, 10, [.a], 1, true, true, true⟩),
  (0x78, ⟨.divide, 12, [.a, .b], 1, true, true, true⟩),
  (0x79, ⟨.divide, 12, [.a], 1, true, true, true⟩),
  (0x7A, ⟨.divide, 12, [.a], 1, true, true, false⟩),
  (0x7B, ⟨.divide, 12, [.a], 1, true, true, true⟩),
  (0x7C, ⟨.divide, 12, [.a, .b], 1, false, false, true⟩),
  (0x7D, ⟨.divide, 12, [.a, .b], 1, false, false, false⟩)]

/-- The row of an operation code, if it is one of the 96 codes. -/
def opInfo (opc : Nat) : Option OpInfo := ((opTableLow ++ opTableHigh).find? (·.1 = opc)).map (·.2)

namespace OpWord

def format (w : OpWord) : Fmt :=
  match w.fmt with
  | 1 => .q31
  | 2 => .q16
  | _ => .fp32

def round (w : OpWord) : Rnd :=
  match w.rnd with
  | 0 => .even
  | 1 => .zero
  | 2 => .floor
  | _ => .ceil

/-- How a result outside the format is handled, by SAT, for an operation that lists S (R152). -/
def ovf (w : OpWord) : Ovf := if w.sat then .sat else .wrap

/-- Slot of SRCC_IMM. -/
def srcc (w : OpWord) : Nat := w.imm % 1024

/-- The immediate sign-extended to 32 bits. -/
def immS (w : OpWord) : Int := signed 16 w.imm

/-- k: SRCC_IMM[5:0] as a signed number. -/
def k (w : OpWord) : Int := signed 6 w.imm

def pos (w : OpWord) : Nat := bits w.imm 0 5
def len (w : OpWord) : Nat := bits w.imm 5 5 + 1

/-- The slot that an operand form names; the immediate names none. -/
def slotOf (w : OpWord) : Src → Option Nat
  | .a => some w.srca
  | .b => some w.srcb
  | .b' => some (w.srcb + 1)
  | .c => some w.srcc
  | .c' => some (w.srcc + 1)
  | .d => some w.dst
  | .d' => some (w.dst + 1)
  | .imm => none

/-- Predicate slot P0 to P3 (R159). -/
def predSlot (w : OpWord) : Nat := 1020 + w.psel

/-- Slots that the operation reads, the predicate slot among them (R131, R159, R162). -/
def reads (w : OpWord) (i : OpInfo) : List Nat :=
  i.srcs.filterMap w.slotOf ++ (if w.pen then [w.predSlot] else [])

/-- Slots that the operation writes (R162). -/
def writes (w : OpWord) (i : OpInfo) : List Nat :=
  match i.dsts with
  | 0 => []
  | 1 => [w.dst]
  | _ => [w.dst, w.dst + 1]

/-- The loader's checks of one operation word (R148). -/
def ok (w : OpWord) : Bool :=
  match opInfo w.opc with
  | none => false
  | some i =>
    let uses := fun s => i.srcs.contains s
    (if i.typed then w.fmt ≤ 2 else w.fmt == 0)
    && (i.rnd || w.rnd == 0) && (i.sat || !w.sat)
    && (i.dsts != 0 || w.opc == 0x02 || w.dst == 0)
    && (uses .a || w.srca == 0) && (uses .b || w.srcb == 0)
    && (uses .imm || (if uses .c then w.imm < 1024 else w.imm == 0))
    && (w.opc != 0x02 || w.dst ≤ 7) && (w.opc != 0x01 || w.imm ≤ 7)
    && (i.dsts != 2 || w.dst ≤ 1022) && (!uses .c' || w.srcc ≤ 1022) && (!uses .b' || w.srcb ≤ 1022)
    && (w.pen || (!w.pinv && w.psel == 0))
    && (w.opc != 0x30 || w.imm ≤ 2)
    && ((w.opc != 0x4E && w.opc != 0x4F) || w.pos + w.len ≤ 32)

end OpWord

/-- The operand words of one operation, as its issue reads them, with the trigger time and the period of its run. -/
structure OpIn where
  a : Word := 0
  b : Word := 0
  b' : Word := 0
  c : Word := 0
  c' : Word := 0
  d : Word := 0
  d' : Word := 0
  trig : Word := 0
  period : Nat := 0
deriving DecidableEq, Repr

/-- What an operation computes: the word for DST, the word for DST + 1 where it writes one, its flags, and whether a
saturation timer crossed its expiry (R166). -/
structure OpOut where
  v : Word := 0
  v' : Word := 0
  flags : Flags := {}
  expire : Bool := false
deriving DecidableEq, Repr

end Sys2Proof.Machine
end

