-- ==== Sys2Proof/Machine/State.lean ====
section
/-! DEFINITION. The state of the device, as plain data. Registers are held in one sparse register file keyed by their
absolute address (fields and reset words in RegMap.lean); what the spec gives the machine beside its registers stands in
the structures below, one group per chapter of spec/. Repeated units (legs, sources, slots, ...) are sparse tables. -/

namespace Sys2Proof.Machine

/-! ### The register map's types (R4 to R8, R90) -/

/-- Access codes of R6. -/
inductive Acc where
  | rw | ro | wo | w1c | rc
deriving DecidableEq, Repr

/-- Commit classes (R8, R90). -/
inductive Cls where
  | live | static | staged
deriving DecidableEq, Repr

/-- One field of a register: place, width, access, class, and the codes that are not reserved (empty: all). -/
structure FieldSpec where
  lo : Nat
  w : Nat
  acc : Acc
  cls : Cls
  ok : List (Nat × Nat)
deriving DecidableEq, Repr

/-- One register of the map, with its repetitions (count, stride) and its reset word. -/
structure RegSpec where
  base : Nat
  dims : List (Nat × Nat)
  rst : Nat
  fields : List FieldSpec
deriving DecidableEq, Repr

/-- The name of a field: address, lowest bit, width. -/
structure Fld where
  addr : Nat
  lo : Nat
  w : Nat
deriving DecidableEq, Repr

/-! ### Hoop channels (R13 to R18) -/

/-- A word that a lane sends on a route of KIND 0x10, 0x11 or 0x12 (R121, R324): the Loop Set, the run's number and
its trigger stamp, the target, the field code, the occurrence of that target and field in the run, END and the value. -/
structure CommitWord where
  lane : Nat
  ls : Nat
  run : Nat
  kind : Nat
  unit : Nat
  field : Nat
  occ : Nat
  fin : Bool
  value : Word
deriving DecidableEq, Repr

/-- A fault report (R346): source, context, lane code, and the time of its stamp on the unwrapped short count. -/
structure Report where
  src : Nat
  ctx : Word
  lane : Nat
  time : Nat
  forced : Bool
deriving DecidableEq, Repr

/-- What a control-path channel carries (R16). `sample` and `event` name their source as route KIND (1 converter input,
2 sigma-delta channel) and TRIG_KIND (R74) do; `wcState` is a window comparator's new state; `arch` is a capture word
(channel class and unit as CH_CFG selects them); `safe` is a SAFE decision with its time (R380). -/
inductive HWord where
  | sample (kind unit item : Nat) (value : Word) (time : Nat)
  | event (kind unit : Nat) (time : Nat)
  | commit (c : CommitWord)
  | colophon (delta : BitVec 64)
  | mode (value : Word)
  | wcState (conv wc : Nat) (out : Bool)
  | arch (kind conv sel : Nat) (value : Word) (time : Nat)
  | report (r : Report)
  | flag (n : Nat)
  | safe (time : Nat)
deriving DecidableEq, Repr

/-- One word held on a control-path channel for one receiving island (R13, R16). `stalled`: HOOP_STALL has been raised
for this handshake; `acked`: the receiver has acknowledged it. -/
structure HEntry where
  ch : Nat
  recv : Nat
  w : HWord
  stalled : Bool
  acked : Bool
deriving DecidableEq, Repr

/-! ### Modes, reset and start-up (chapter 02) -/

/-- Which reset holds the device. -/
inductive ResetKind where
  | none | powerOn | warm
deriving DecidableEq, Repr

/-- What drives the pads: the logic; the pad ring's hold state without logic; nothing, with VDDIO_A gone (R532, R533). -/
inductive PadRing where
  | logic | hold | gone
deriving DecidableEq, Repr

structure Sys where
  /-- A reset is asserted and not yet released (R50, R52). -/
  held : ResetKind := .powerOn
  /-- The request slot that the mode Strand reads: the target of the forwarded request (R37). -/
  slot : Option Nat := none
  /-- The mode before M9 (R38). -/
  before9 : Nat := 0
  /-- The stay in M7 began with the change from M8 (R47). -/
  from8 : Bool := false
  /-- The device drives SAFE_N low (R65). -/
  safeDriven : Bool := false
  /-- SAFE_N is held low from outside (R65). -/
  safeExt : Bool := false
  /-- Since when the SAFE_N pin has read high, on the unwrapped short count (R66). -/
  safeHigh : Option Nat := some 0
  /-- When M10 was entered (R65). -/
  safeAt : Nat := 0
  /-- M3 has been entered since reset (R52, R356). -/
  seen3 : Bool := false
  /-- TESTMODE was high at the release of the power-on reset (R58). -/
  testStuck : Bool := false
  /-- The cores are held by BOOT[2:0] debug hold (R57). -/
  debugHold : Bool := false
  /-- The watchdog's count starts here, on the unwrapped short count (R55). -/
  wdogAt : Nat := 0
  /-- WDOG_EXPIRE was raised and its warm reset is to follow (R55). -/
  wdogFired : Bool := false
  /-- The latched seal straps, kept by a warm reset (R51). -/
  straps : BitVec 8 := 0
  /-- BIST has run and passed in this M2, and M2 follows M1, so that the converters calibrate (R62, R66). -/
  bistDone : Bool := false
  startup : Bool := false
  /-- The full calibrations of start-up step 10 are complete: by converter (R62). -/
  calDone : List Nat := []
  /-- Mode requests forwarded so far, and the lanes whose profile window has yet to take the present request and mode
  (R284). -/
  reqSeq : Nat := 0
  profWait : List Nat := []
  /-- Entry address of the verified firmware (R59, R62). -/
  entry : Word := 0
  /-- A service run of BIST, with its COMMIT bit (R516). -/
  repairRun : Option Bool := none
  /-- What drives the pads (R532, R533). -/
  ring : PadRing := .logic
  /-- VDDIO_B stands at 3.3 V, as sensed at the release of PORST_N; otherwise at 1.8 V (R531). -/
  vddioB : Bool := false
  /-- Step 12 of R62 has released cores 1 to 3 (R417). -/
  coresOut : Bool := false
deriving DecidableEq, Repr

/-! ### Pattern and commits (chapter 03) -/

/-- A capture of the coefficient port waiting for the lanes (R96). -/
structure CoefSet where
  off : Nat
  words : List Word
  ls : Nat
  waitA : Bool
  waitB : Bool
deriving DecidableEq, Repr

structure Cfg where
  /-- Acting values of Staged registers, where they differ from the reset word (R90). -/
  act : List (Nat × Word) := []
  /-- Captured values waiting for their boundary, by register address (R90). -/
  pend : List (Nat × Word) := []
  /-- Fields (address, lowest bit) of paired groups written since their group was last applied (R93). -/
  fresh : List (Nat × Nat) := []
  /-- Fields of the paired groups that stand in pending sets (R93). -/
  taken : List (Nat × Nat) := []
  coef : Option CoefSet := none
  /-- Coefficient words as the load and the port left them, by lane-memory offset (R98). -/
  coefAct : List (Nat × Word) := []
  /-- Latched HI words of the Colophon pairs (R104). -/
  hiLatch : List (Nat × Word) := []
deriving DecidableEq, Repr

/-- A Loop Set of the Pattern (R74). -/
structure LoopSet where
  idx : Nat
  kind : Nat
  unit : Nat
  prio : Nat
  run : Bool
  period : Nat
  first : Nat
  count : Nat
deriving DecidableEq, Repr

/-- A Strand of the Pattern (R72). -/
structure Strand where
  idx : Nat
  stake : Nat
  ops : List (BitVec 64)
deriving DecidableEq, Repr

/-- A route record (R71). -/
structure Route where
  kind : Nat
  srcUnit : Nat
  srcItem : Nat
  dstStake : Nat
  dstPort : Nat
  dstUnit : Nat
deriving DecidableEq, Repr

/-- A mirror-list record (R79). -/
structure MirrorRange where
  off : Nat
  len : Nat
  ls : Nat
deriving DecidableEq, Repr

/-- Pad multiplexing (R77): pad, function, electrical code. -/
structure PadMux where
  pad : Nat
  fn : Nat
  elec : Nat
deriving DecidableEq, Repr

/-- A channel record of an ADC_MAP (R75). -/
structure AdcChan where
  ain : Nat
  cls : Nat
  window : Nat
deriving DecidableEq, Repr

/-- One converter's ADC_MAP (R75). -/
structure AdcMap where
  seq : List Nat := []
  trigKind : Nat := 0
  trigUnit : Nat := 0
  chans : List AdcChan := []
deriving DecidableEq, Repr

/-- What the loaded Pattern gives the structure of the device and no register holds (R68 to R81). -/
structure Pattern where
  routes : List Route := []
  strands : List Strand := []
  loopsets : List LoopSet := []
  mirror : List MirrorRange := []
  /-- Coefficient regions: offset and word count of SLOT_INIT blocks with COEF = 1 (R73). -/
  coefs : List (Nat × Nat) := []
  /-- Ranges of lane memory that the load initialises: offset and word count (R62, R73). -/
  inits : List (Nat × Nat) := []
  profOff : Nat := 0x20000
  adc : List (Nat × AdcMap) := []
  pads : List PadMux := []
deriving DecidableEq, Repr

/-! ### The Weave (chapters 04 and 05) -/

/-- What an operation in flight waits for: nothing, a bank of lane memory, a channel FIFO, or a commit channel. -/
inductive OpAct where
  | none
  | load (off n : Nat)
  | store (off : Nat) (ws : List Word)
  | chan (stake port : Nat) (value : Word)
  | commit (c : CommitWord)
deriving DecidableEq, Repr

/-- An operation that holds a tag (R136): its place in the stream of its Loop Set on its Stake, the slots it writes with
their words, its flags, and whether it still waits (R122, R134). `writes` are its destination slots, also where its
predicate disables it (R160). -/
structure InFlight where
  tag : Nat
  ls : Nat
  stake : Nat
  idx : Nat
  unit : OpUnit
  /-- Its result may be chained: a port read, or an operation of the add or MAC unit (R135). -/
  chains : Bool
  writes : List Nat
  outs : List (Nat × Word)
  flags : Flags
  act : OpAct
  waiting : Bool
  /-- The lane cycle of its issue (R135). -/
  cycle : Nat
deriving DecidableEq, Repr

/-- A run of a Loop Set in one lane (R124 to R127). -/
structure Run where
  ls : Nat
  /-- The run's number: the unwrapped stamp of its trigger (log entry 41). -/
  no : Nat
  /-- The snapshot: stake * 8 + port, word (R118). -/
  snap : List (Nat × Word)
  /-- Operations not yet issued, per logical Stake, in program order, each with its place in the stream (R116). -/
  streams : List (Nat × List (Nat × BitVec 64))
  /-- Keys (kind, unit, field) of the commit words sent, for the occurrence count of R324. -/
  sent : List (Nat × Nat × Nat)
  /-- Lane cycles in a row with a refused operation, the last of them, the last cycle with a tag granted, and whether
  WINDOW_FULL has been raised for this row (R138). -/
  refused : Nat := 0
  refusedAt : Option Nat := none
  grantedAt : Option Nat := none
  full : Bool := false
deriving DecidableEq, Repr

/-- The last issue on a Stake: its cycle and operation, whether that was a port read, and the cycle from which the
CORDIC unit takes the next operation (R108, R133, R135). -/
structure LastIssue where
  cycle : Nat
  ls : Nat
  idx : Nat
  port : Bool
  cordic : Nat
deriving DecidableEq, Repr

/-- A pending trigger with its snapshot (R127). -/
structure PendRun where
  ls : Nat
  no : Nat
  snap : List (Nat × Word)
deriving DecidableEq, Repr

structure Lane where
  runs : List Run := []
  pend : List PendRun := []
  /-- Newest word of every sample port: stake * 8 + port (R118). -/
  ports : List (Nat × Word) := []
  /-- Channel-port FIFOs: stake * 8 + port (R117). -/
  fifos : List (Nat × List Word) := []
  flight : List InFlight := []
  /-- Operations in the issue queues, counted from the front of what has not issued: stake * 16 + Loop Set (R129). -/
  fetched : List (Nat × Nat) := []
  /-- The last issue of each Stake, the latest lane cycle seen, and the last cycle that STALL has counted (R137, R143). -/
  issued : List (Nat × Option LastIssue) := []
  cycle : Nat := 0
  stalled : Option Nat := none
  /-- Flag words: stake * 16 + Loop Set (R158). -/
  flags : List (Nat × Flags) := []
  /-- Fork buffers by source channel, oldest first (R18). -/
  forks : List (Nat × List HWord) := []
  /-- Loop Sets whose mirror write is running in this lane (R336). -/
  mirroring : List Nat := []
  /-- Agreeing runs in a row of each Loop Set while SYNCING (R337). -/
  conv : List (Nat × Nat) := []
  /-- The last complete run of each Loop Set (R336). -/
  done : List (Nat × Option Nat) := []
  /-- Short-count times of lane faults against this lane (R330). -/
  faults : List Nat := []
deriving DecidableEq, Repr

/-! ### LANE (chapter 10) -/

/-- A hold sequence in progress (R328). -/
structure Hold where
  reference : Nat
  swap : Bool
  /-- The lane that was active at the reference, and whether the other lane was SYNCED. -/
  active : Nat
  synced : Bool
  /-- The standby's state code at the reference. -/
  other : Nat
  /-- Steps passed: drained, and blame decided. -/
  drained : Bool
  decided : Bool
deriving DecidableEq, Repr

/-- A mirror buffer (R336): Loop Set, run, captured words, and whether its write is running. -/
structure MirrorBuf where
  ls : Nat
  no : Nat
  ready : Bool
  words : List (Nat × Word)
  writing : Bool
  standbyDone : Bool
deriving DecidableEq, Repr

/-- A restart in progress (R337): the lane and the steps passed. -/
structure Restart where
  lane : Nat
  test : Bool
  checked : Bool
  started : Bool
deriving DecidableEq, Repr

structure LaneCmp where
  /-- Commit words waiting for their partners, oldest first (R324, R326). -/
  table : List CommitWord := []
  /-- Those of them that have been passed on already, because a lane was SYNCING (R327). -/
  sent : List CommitWord := []
  hold : Option Hold := none
  bufs : List MirrorBuf := []
  restart : Option Restart := none
  /-- The memory copy of a restart is running (R96, R337). -/
  copying : Bool := false
  /-- Lane faults signalled and not yet acted on: lane (R109). -/
  signals : List Nat := []
  /-- Times of benign outcomes (R332). -/
  benign : List Nat := []
  /-- Runs with a disagreeing or missing word: Loop Set, run number (R337). -/
  missed : List (Nat × Nat) := []
  /-- Runs complete in one lane (Loop Set, number, lane), and in both while a lane is SYNCING (R337). -/
  half : List (Nat × Nat × Nat) := []
  both : List (Nat × Nat) := []
  /-- Agreed relay words on their way to ISO: chain and value (R327). -/
  relays : List (Nat × Word) := []
deriving DecidableEq, Repr

/-! ### PWM legs and gate supervision (chapter 08) -/

/-- A captured set of a leg: fields not written carry (R94, R254); EVT is a group of its own. -/
structure LegSet where
  period : Option Nat
  cmpa : Option Nat
  cmpb : Option Nat
  dt : Option Nat
  evt : Word
deriving DecidableEq, Repr

/-- What a leg carries over a period boundary, in ticks from the boundary of the present period (R250, R256): the outputs
as presented to the pads, when each last turned off, the level of A just before the boundary and when it last changed.
-4096 stands for longer ago than any dead time or floor. -/
structure Lock where
  h : Bool := false
  l : Bool := false
  hOff : Int := -4096
  lOff : Int := -4096
  a : Bool := false
  aEdge : Int := -4096
deriving DecidableEq, Repr

structure Leg where
  pend : Option LegSet := none
  frozen : Option LegSet := none
  /-- Set-group fields written since the previous capture, by field code of R251. -/
  fresh : List Nat := []
  /-- The stored compare words behind the live compares (R249, R254). -/
  wordA : Nat := 0
  wordB : Nat := 0
  /-- The dead time as committed, behind the live one of a leg that runs coarse (R514). -/
  wordDt : Nat := 0
  /-- The guard window is open (R253). -/
  window : Bool := false
  /-- Position of the leg counter in ticks at the last boundary, enable or RESYNC, and the short time of that (R244,
  R246). -/
  start : Nat := 0
  at' : Nat := 0
  lock : Lock := {}
  /-- Consecutive short PWMnL periods, and whether this period is a refresh period (R259). -/
  short : Nat := 0
  refresh : Bool := false
  /-- An accepted enable waits for the period boundary (R261). -/
  enabling : Bool := false
  /-- Code of HIZ_CAUSE of a trip of the leg (R262, R267, R268, R270). -/
  trip : Option Nat := none
  /-- Input and cause of the running soft-off delay; its outputs are frozen (R267). -/
  softoff : Option (Nat × Nat) := none
  /-- A confirmation with GRP = 1 takes the group when the delay ends (R268). -/
  groupWait : Bool := false
  /-- Failed taps that wait for their boundary, and whether the leg runs coarse (R514, R515). -/
  badTap : List Nat := []
  coarse : Bool := false
deriving DecidableEq, Repr

/-- Binary search of an on-state voltage sweep (R272). -/
structure Sweep where
  lo : Nat
  hi : Nat
  pulses : Nat
  /-- Periods of the leg since the last measuring pulse, whether this period has one, and whether it has been read. -/
  periods : Nat := 0
  pulse : Bool := false
  read : Bool := false
deriving DecidableEq, Repr

structure Gsup where
  /-- Driven SOFTOFF lines (R267, R282). -/
  softoff : List Nat := []
  sweeps : List (Nat × Option Sweep) := []
  /-- The first confirmation of a concurrent group: its time and its source (R269). -/
  first : Option (Nat × Nat) := none
  /-- Window comparators as last reported: PWM island (0, 1) * 32 + converter * 8 + comparator (R199). -/
  wc : List (Nat × Bool) := []
deriving DecidableEq, Repr

/-! ### Fault collection (chapter 11) -/

/-- An open promotion window (R352): the opening stamp on the unwrapped short count, and the count. -/
structure Win where
  opened : Nat
  count : Nat
deriving DecidableEq, Repr

/-- An escalation timer (R355, R357): running or expired, its GRACE time, and what the report that started it held. -/
structure Timer where
  running : Bool
  grace : Nat
  ctx : Word
  lane : Nat
  promoted : Bool
deriving DecidableEq, Repr

/-- An entry of the Accession Log, staged or written (R365). -/
structure LogEntry where
  src : Nat
  cls : Nat
  react : Nat
  lane : Nat
  promoted : Bool
  forced : Bool
  rep : Nat
  stamp : Word
  ctx : Word
  esc : Bool
  standby : Bool
  mode : Nat
  lastDt : Nat
  seq : Nat
  closed : Bool
deriving DecidableEq, Repr

structure AccS where
  wins : List (Nat × Option Win) := []
  timers : List (Nat × Option Timer) := []
  /-- Staging slots in writing order (R366). -/
  staged : List LogEntry := []
  /-- The FIFO, oldest first (R365). -/
  fifo : List LogEntry := []
  /-- An OVERFLOW entry to be written next: the stamp of its first lost report and the count (R368). -/
  ovfNext : Option (Word × Nat) := none
  /-- The latched head entry (R369). -/
  latch : Option LogEntry := none
  seq : Nat := 0
  /-- The source of a SAFE decided in M1 or M2 (R359). -/
  heldSafe : Option Nat := none
  /-- Sources whose reaction was SAFE and that are not yet acknowledged (R362). -/
  safeSrcs : List Nat := []
deriving DecidableEq, Repr

/-! ### Converters (chapter 06) -/

/-- A conversion granted and not at its sample end: the converter it serves, its input, its tags, whether it is the last
of a sequence, its sequence count, and the short time of its hold instant (R174, R197). `extra`: the partner's shared
entry, no entry of this sequence (R185). -/
structure Conv where
  owner : Nat
  ain : Nat
  inj : Bool
  carried : Bool
  shared : Bool
  extra : Bool
  last : Bool
  seq : Nat
  time : Nat
  /-- The physical slice that converts (R175, R180). -/
  slice : Nat := 0
deriving DecidableEq, Repr

/-- The accumulation of a Tally channel (R200, R202). -/
structure Tally where
  sum : Int := 0
  sq : Nat := 0
  min : Int := 32767
  max : Int := -32768
  n : Nat := 0
  /-- Consecutive exceedances, and whether this run has been raised. -/
  run : Nat := 0
  raised : Bool := false
  /-- When the first conversion of the open window was held, on the unwrapped short count (R397). -/
  first : Nat := 0
deriving DecidableEq, Repr

structure AdcU where
  /-- Entries of the regular sequence remain to be granted, from position `pos` (R181). -/
  running : Bool := false
  pos : Nat := 0
  /-- A pending trigger (R182). -/
  pend : Bool := false
  seqNo : Nat := 0
  /-- An accepted injected request without its slot: k and input (R186). -/
  inj : Option (Nat × Nat) := none
  /-- Conversions in this converter's slices, oldest first. -/
  flights : List Conv := []
  /-- Result queue: tag word and stamp, oldest first (R197). -/
  queue : List (Word × Word) := []
  /-- A result has been lost since the queue last had space (R198). -/
  lost : Bool := false
  /-- Sequence triggers and injected triggers that have reached the converter and are not yet taken. -/
  trigIn : List Nat := []
  injIn : List Nat := []
  tally : List (Nat × Tally) := []
  /-- The carried sequence has its turn, and it took the previous slot (R192). -/
  turn : Bool := false
  lastCarried : Bool := false
  /-- The logical slice that the next conversion takes (R175). -/
  rot : Nat := 0
  /-- An accepted calibration that has not begun (R191). -/
  calWait : Bool := false
  /-- The present trim block: conversions, and the sum of their squared codes (R178). -/
  block : Nat := 0
  blockSq : Nat := 0
deriving DecidableEq, Repr

/-! ### Sigma-delta channels (chapter 07) -/

/-- A running resampler (R226 to R230): claimed by LANE or enabled by firmware, its start offset in 1/64 of T_in, its
ratio where LANE gives one; from the first preset instant after the start on, the SDM cycle of that instant with T_in in
SDM cycles, and the preset words that have followed; the next output instant in T_in with 24 fraction bits counted from
that first instant. -/
structure Rs where
  claimed : Bool
  phase : Nat
  ratio : Option Nat
  start : Option (Nat × Nat)
  inputs : Nat
  next : Nat
deriving DecidableEq, Repr

/-- How a SETTLE1 window began (R218, R233): before SETTLE1 was chosen, so that it gives no word; with the channel, so
that it gives one only if it fills; at a period event or behind a full window. -/
inductive S1Win where
  | none | start | whole
deriving DecidableEq, Repr

structure SdCh where
  /-- Sampled bits, newest first, at most the longest filter's length (R216). -/
  hist : List Bool := []
  /-- The SETTLE1 window: bits, ones, how it began, and whether its closing event has come (R218). -/
  wbits : Nat := 0
  wones : Nat := 0
  win : S1Win := .start
  wdue : Bool := false
  /-- The DC estimate with 47 fraction bits (R219). -/
  e : Int := 0
  /-- Length of the present run of equal bits, and whether it has raised SD_STUCK (R236). -/
  run : Nat := 0
  stuck : Bool := false
  /-- Words of the preset stream, newest first (R227). -/
  past : List Word := []
  rs : Option Rs := none
  /-- SDM cycle of the last resampled word, and the cycle up to which the hand-back keeps preset words (R229, R231). -/
  tlast : Option Nat := none
  hand : Option Nat := none
  /-- Stamp of the last delivered word. -/
  stamp : Word := 0
deriving DecidableEq, Repr

/-! ### TIME (chapter 15) -/

/-- A waiting step (R444): signed seconds and nanoseconds. -/
structure TimeStep where
  sec : Int
  ns : Int
deriving DecidableEq, Repr

/-- A comparator as loaded (R446): mode, target and period. -/
structure Cmp where
  armed : Bool := false
  mode : Bool := false
  at' : Nat := 0
  sec : Nat := 0
  period : Nat := 0
deriving DecidableEq, Repr

structure TimeS where
  sec : Nat := 0
  ns : Nat := 0
  frac : Nat := 0
  /-- The short count without its wrap at 2^32: the short time is its low 32 bits (R438). -/
  short : Nat := 0
  /-- Ticks left of a running adjustment (R443). -/
  adj : Nat := 0
  step : Option TimeStep := none
  /-- Shelf ticks that are due: multiples that NS has reached and that the Shelf has not yet taken (R427). -/
  shelf : Nat := 0
  /-- PPS_OUT drives high (R448). -/
  ppsOut : Bool := false
  /-- A PPS_IN edge has been seen (R447). -/
  ppsSeen : Bool := false
deriving DecidableEq, Repr

/-! ### Relays, test pulses, seal (chapter 13) -/

/-- A running weld test (R396, R397): its step, and from when a Tally window counts for it. -/
structure Weld where
  step : Nat
  ready : Option Nat
deriving DecidableEq, Repr

structure IsoS where
  /-- Chains that stand commanded closed (R392, R396). -/
  want : List Nat := []
  /-- Chains whose SETTLE has not elapsed since their last relay action (R394). -/
  settling : List Nat := []
  /-- Levels of RBA0, RBA1, RBB0, RBB1. -/
  pins : BitVec 4 := 0
  weld : Option Weld := none
  /-- When the weld test last passed, on the unwrapped short count (R401). -/
  passed : Option Nat := none
  /-- Supplies in their low pulse (R402). -/
  pulses : List Nat := []
  /-- The pre samples, and the counts of cross evidence of the inputs (R403). -/
  pre : BitVec 8 := 0
  cross : List (Nat × Nat) := []
  /-- Seal samples in a row that differ from the latched straps (R406). -/
  sealRun : Nat := 0
deriving DecidableEq, Repr

/-! ### OTP and the Ledger (chapters 03 and 17) -/

/-- A key slot of the OTP (R82): SHA-256 of the public key, and whether the slot is revoked. -/
structure KeySlot where
  hash : List Nat
  revoked : Bool
deriving DecidableEq, Repr

/-- What the OTP of SEC holds for the rules of this model: key slots, the repair map's regions (R513), and MARGIN_F
(R509). Blank at reset (log entry 15). -/
structure Otp where
  keys : List (Nat × Option KeySlot) := []
  factory : List Word := []
  field : List Word := []
  marginF : Nat := 0
deriving DecidableEq, Repr

/-- A point of the Ledger's ring (R510): HOURS, and x of each indicator that has one. -/
structure LedPoint where
  hours : Nat := 0
  x : List (Nat × Option Nat) := []
deriving DecidableEq, Repr

/-- A DC-link measurement in progress (R506): the requests made so far. -/
structure LedMeas where
  requests : Nat
deriving DecidableEq, Repr

structure Led where
  /-- The short-count time from which the next 1/256 h counts (R504). -/
  hourAt : Nat := 0
  /-- Fraction of LEDGER.AGE_EQ, in 2^-64 of its unit (R504). -/
  ageFrac : Nat := 0
  ring : List (Nat × LedPoint) := []
  next : Nat := 0
  meas : Option LedMeas := none
  /-- Inputs whose BASE, and whose LAST, holds a code (R508). -/
  osvBase : List Nat := []
  osvLast : List Nat := []
deriving DecidableEq, Repr

/-! ### The Archive (chapter 12) -/

/-- A block being filled (R376): the stamps of its first and its last entry, the Δ sum so far in 10 ns, the throttle level, and its
entries (Δ and source word), oldest first. -/
structure ArchBlk where
  first : Nat
  last : Nat
  cum : Nat
  t : Nat
  ents : List (Nat × Word)
deriving DecidableEq, Repr

/-- A capture channel (R375, R376, R379). -/
structure ArchCh where
  /-- Source words since the Archive was enabled. -/
  words : Nat := 0
  /-- Stamp of the previous taken word. -/
  last : Option Nat := none
  /-- Samples taken in ARMED since the arm (R383). -/
  taken : Nat := 0
  blk : Option ArchBlk := none
  /-- Blocks written since the arm. -/
  count : Nat := 0
  /-- Last stamp in each block that the ring holds, oldest first. -/
  stamps : List Nat := []
  /-- Last stamp in the newest block that the ring has overwritten. -/
  lost : Option Nat := none
  trunc : Bool := false
  ended : Bool := false
  noEnd : Bool := false
deriving DecidableEq, Repr

/-- A trigger unit since the arm (R380): whether its arming condition was met, and its last values, newest first. -/
structure ArchTu where
  seen : Bool := false
  hist : List Int := []
deriving DecidableEq, Repr

/-- The trigger that started the record: stamp, cause, trigger unit, and TIME at the stamp. -/
structure ArchTrig where
  t : Nat
  cause : Nat
  unit : Nat
  sec : Nat
  ns : Nat
deriving DecidableEq, Repr

structure ArchS where
  chans : List (Nat × ArchCh) := []
  tus : List (Nat × ArchTu) := []
  /-- Samples of the mask channel since its alignment event (R382). -/
  maskIdx : Option Nat := none
  maskFail : Bool := false
  armAt : Nat := 0
  id : Nat := 0
  trig : Option ArchTrig := none
  /-- Completion stamp of a record whose header is not yet written (R378). -/
  complete : Option Nat := none
  throttled : Bool := false
  /-- ARCH_RATE has been raised in this record. -/
  rate : Bool := false
  /-- Stamp of the last trigger that started a record, until the next arm (R385). -/
  dead : Option Nat := none
  /-- A pending arm request, with the ID of a DPL arm (R384). -/
  pend : Option (Option Nat) := none
  /-- DPL arms that wait for their time: ID, seconds, nanoseconds, earliest first. -/
  due : List (Nat × Nat × Nat) := []
  /-- TRIGIO and ARMIO are driven low by this unit. -/
  trigio : Bool := false
  armio : Bool := false
deriving DecidableEq, Repr

/-! ### The Circulation Desk (chapter 14) -/

/-- What a WAITING slot waits for (R421). -/
structure FlagWait where
  group : Nat
  mask : Nat
  all : Bool
deriving DecidableEq, Repr

structure CircSlot where
  /-- Wake reason given at the next TAKE (R433). -/
  wake : Nat := 0
  /-- The slot last left a core through preemption. -/
  preempted : Bool := false
  wait : Option FlagWait := none
  /-- Its Shelf entry: the tick, on the unwrapped count, at which it expires (R429). -/
  expiry : Option Nat := none
  /-- When it left its core (R422). -/
  left : Option Nat := none
  /-- CIRC_STARVE has been raised in this stay, CIRC_RUN_LONG in this turn (R430). -/
  starved : Bool := false
  runLong : Bool := false
deriving DecidableEq, Repr

structure CircCore where
  /-- The RUNNING slot. -/
  cur : Option Nat := none
  /-- The core is blocked in TAKE. -/
  waiting : Bool := false
  /-- The READY slot that requests preemption of the core (R423). -/
  req : Option Nat := none
deriving DecidableEq, Repr

structure CircS where
  slots : List (Nat × CircSlot) := []
  cores : List (Nat × CircCore) := []
  /-- READY slots; the queue of a priority is its slots in this order (R418). -/
  ready : List Nat := []
  /-- Shelf ticks, unwrapped. -/
  ticks : Nat := 0
deriving DecidableEq, Repr

/-! ### Ethernet (chapter 15) -/

/-- The head descriptor of a transmit ring as the MAC found it (R456): it may start, or its launch time is awaited; its
launch time had passed. -/
structure EthHead where
  ready : Bool
  late : Bool
deriving DecidableEq, Repr

structure EthQ where
  /-- The ring is not examined until KICK: a descriptor not owned, or one that the MAC cannot use, was found. -/
  stopped : Bool := false
  head : Option EthHead := none
deriving DecidableEq, Repr

/-- A frame on the wire: its queue, its bytes without the FCS, and its corrected egress stamp (R453). -/
structure EthTx where
  q : Nat
  frame : List Nat
  short : Nat
  sec : Nat
  ns : Nat
  late : Bool
deriving DecidableEq, Repr

structure EthMac where
  qs : List (Nat × EthQ) := []
  tx : Option EthTx := none
  /-- The receive ring's processing has ended (R451). -/
  rxStopped : Bool := false
  /-- Link state of the RGMII in-band status. -/
  inband : Bool := false
  /-- Operation and PHY address of the MDIO transaction that runs (R450). -/
  mdio : Nat × Nat := (0, 0)
deriving DecidableEq, Repr

/-! ### CAN FD and the peer link (chapter 16) -/

/-- The transmission attempt of a controller: its slot (32: the heartbeat), an abort that waits for its end, the short
time of its SOF, and the frame. -/
structure CanTx where
  slot : Nat
  abort : Bool
  sof : Word
  frame : CanFrame
deriving DecidableEq, Repr

structure CanC where
  tx : Option CanTx := none
  /-- Off the bus since a loss of PLL_SYS, until it rejoins (R463). -/
  off : Bool := false
  /-- A recovery from bus-off runs (R473). -/
  recovering : Bool := false
  /-- Inboxes whose present run of losses has raised CAN_RX_LOST (R468). -/
  lost : List Nat := []
  /-- Outbox slots whose DPL element the assist has prepared (R481). -/
  prepared : List Nat := []
deriving DecidableEq, Repr

/-- A peer entry beside its registers (R479, R485): the last freshness, the tokens of its bucket, DPL_RATE raised since a
frame was last accepted, and the PERIOD of its last heartbeat. -/
structure DplPeer where
  fresh : Option Nat := none
  tokens : Nat := 0
  rated : Bool := false
  period : Nat := 0
deriving DecidableEq, Repr

structure DplS where
  peers : List (Nat × DplPeer) := []
  /-- Words of the keys that have been written: 4 * key + word. -/
  keys : List Nat := []
  /-- A heartbeat is pending; its bytes once it has entered arbitration (R483). -/
  hb : Option (Option CanFrame) := none
  /-- A further one has fallen due while the pending one was on the wire. -/
  hbNext : Bool := false
deriving DecidableEq, Repr

/-! ### Clocks and power (chapter 17) -/

structure ClkS where
  /-- PLLs with a lock attempt running: 0 SYS, 1 WEAVE, 2 PWM (R494, R497). -/
  trying : List Nat := []
  /-- PLLs that have lost their lock and have not returned (R497). -/
  lost : List Nat := []
  /-- Sources 81 to 84 whose condition holds (R497). -/
  conds : List Nat := []
deriving DecidableEq, Repr

/-- Consecutive epochs: below BUDGET - HYST; above BUDGET at stage 7; at or below BUDGET (R501, R502). -/
structure PwrS where
  low : Nat := 0
  above : Nat := 0
  under : Nat := 0
deriving DecidableEq, Repr

/-! ### Cores on the bus (chapter 14) -/

/-- A valid line of a cache: its way, its address, and its eight words (R412). -/
structure CacheLine where
  way : Nat
  base : Nat
  words : List Word
deriving DecidableEq, Repr

/-! Fields of the device: valid lines by core * 2 + (0 data, 1 instruction cache); the reserved 32-byte granule of each
core (R414); corrected errors of scrubbing by macro * 128 + row (R505). -/

/-! ### The whole state -/

/-- What the last bus access of an agent answered (R17, R20, R415). -/
inductive Resp where
  | none
  | data (w : Word)
  | busError
  | accessFault
deriving DecidableEq, Repr

/-- Everything the device holds but memory. -/
structure Dev where
  /-- The register file, by absolute address; for a Staged field, its shadow (R90). -/
  regs : List (Nat × Word) := []
  hoop : List HEntry := []
  sys : Sys := {}
  cfg : Cfg := {}
  pat : Pattern := {}
  lanes : List (Nat × Lane) := []
  lc : LaneCmp := {}
  legs : List (Nat × Leg) := []
  gsup : Gsup := {}
  /-- Bindings of the repair map in force: entry words of R513, and whether each is volatile (R514). -/
  repair : List (Word × Bool) := []
  /-- Units that BIST has found failing, and rows that scrubbing has marked weak (R505, R514). -/
  dead : List BadUnit := []
  weak : List BadUnit := []
  /-- Withdrawn rows: the address of their 512 bytes (R514). -/
  withdrawn : List Nat := []
  acc : AccS := {}
  time : TimeS := {}
  /-- Answers of the last accesses: cores 0 to 3, debug port 4. -/
  resp : List (Nat × Resp) := []
  /-- Registers latched for debug-port reads: address and word (R7). -/
  dbg : List (Nat × Word) := []
  cmps : List (Nat × Cmp) := []
  /-- Slot reads of the Archive that wait for a memory cycle: channel, Loop Set, stamp (R374, R375). -/
  slotDue : List (Nat × Nat × Nat) := []
  /-- The model's own counter of free values used (log entry 10). -/
  free : Nat := 0
  adcs : List (Nat × AdcU) := []
  sds : List (Nat × SdCh) := []
  /-- SDM cycles since SDF.CTRL.EN went to 1: the dividers and the decimation phase counters (R212, R215). -/
  sdmCycle : Nat := 0
  iso : IsoS := {}
  otp : Otp := {}
  led : Led := {}
  arch : ArchS := {}
  circ : CircS := {}
  eths : List (Nat × EthMac) := []
  cans : List (Nat × CanC) := []
  dpl : DplS := {}
  clk : ClkS := {}
  pwr : PwrS := {}
  caches : List (Nat × List CacheLine) := []
  resv : List (Nat × Nat) := []
  rowHits : List (Nat × Nat) := []
deriving DecidableEq, Repr

/-- The machine: the device, its memory (address, byte) in canonical form, and the commands waiting, first in, first
out. -/
structure State where
  d : Dev := {}
  mem : List Host.Cell := []
  pending : List Instr := []
deriving DecidableEq, Repr

/-- Why a step stops with a fault. No command of the table ends so: every access the spec forbids is answered with a
bus error, which is state (R20). The one constructor is raised by nothing (safe). -/
inductive Fault where
  | noCommand
deriving DecidableEq, Repr

/-- Why a step is refused. `notModelled`: a command that has no meaning yet (safe). `noLayout`: an access to the
registers of a block whose base the spec gives and whose registers it does not describe: SEC, GPIO, UART, SPI, I2C and
OSPI (safe). -/
inductive Refusal where
  | notModelled (mnemonic : String)
  | noLayout (addr : Nat)
deriving DecidableEq, Repr

/-- The machine right after a power-on reset is asserted: mode M0, every register at its reset word, no word on any
channel, nothing waiting (R50, R52, R53). -/
def State.reset : State := {}

end Sys2Proof.Machine
end

