-- ==== Sys2Proof/Machine/RegMap.lean ====
section
/-! DEFINITION. The register map of the spec: for every register its address, its repetition (count, stride), its reset
word and its fields (place, width, access code of R6, commit class of R90, the field codes that are not reserved), and
the name of every field. Each list and each name follows the field table of the rule named in its comment. A reset
entry of "Pattern", "Pins", "Repair map" or "Stepping" stands as 0 here (log entry 12). -/

namespace Sys2Proof.Machine

/-- Registers of block SYSCTL (rules R2, R22, R42, R43, R44, R53, R54, R55, R56). -/
def regMapSYSCTL : List RegSpec := [
  ⟨0x40000000, [], 0xD5964000, [⟨24, 8, .ro, .live, []⟩, ⟨8, 16, .ro, .live, []⟩, ⟨0, 8, .ro, .live, []⟩]⟩,
  ⟨0x40000040, [], 0x0, [⟨0, 16, .rc, .live, []⟩, ⟨16, 7, .ro, .live, []⟩]⟩,
  ⟨0x40000010, [], 0x0, [⟨0, 4, .ro, .live, []⟩, ⟨4, 4, .ro, .live, []⟩, ⟨8, 8, .ro, .live, []⟩, ⟨16, 1, .ro, .live, []⟩, ⟨17, 1, .ro, .live, []⟩]⟩,
  ⟨0x40000014, [], 0x0, [⟨0, 4, .wo, .live, []⟩, ⟨16, 16, .wo, .live, []⟩]⟩,
  ⟨0x40000018, [], 0x0, [⟨0, 1, .ro, .live, []⟩, ⟨1, 1, .w1c, .live, []⟩, ⟨4, 4, .ro, .live, []⟩]⟩,
  ⟨0x40000020, [], 0x1, [⟨0, 1, .w1c, .live, []⟩, ⟨1, 1, .w1c, .live, []⟩, ⟨2, 1, .w1c, .live, []⟩, ⟨3, 1, .w1c, .live, []⟩, ⟨4, 1, .w1c, .live, []⟩, ⟨5, 1, .w1c, .live, []⟩, ⟨6, 1, .w1c, .live, []⟩]⟩,
  ⟨0x40000024, [], 0x0, [⟨0, 1, .wo, .live, []⟩, ⟨16, 16, .wo, .live, []⟩]⟩,
  ⟨0x40000030, [], 0xFFFF, [⟨0, 16, .rw, .live, []⟩, ⟨16, 1, .rw, .live, []⟩]⟩,
  ⟨0x40000028, [], 0x0, [⟨0, 3, .ro, .live, []⟩, ⟨3, 1, .ro, .live, []⟩, ⟨8, 8, .ro, .live, []⟩]⟩,
  ⟨0x40000034, [], 0x0, [⟨0, 32, .wo, .live, []⟩]⟩]

/-- Registers of block CFG (rules R103, R104, R105, R106). -/
def regMapCFG : List RegSpec := [
  ⟨0x40004000, [], 0x0, [⟨0, 1, .ro, .live, []⟩, ⟨1, 1, .ro, .live, []⟩, ⟨2, 2, .ro, .live, []⟩, ⟨8, 8, .ro, .live, []⟩, ⟨16, 10, .ro, .live, []⟩, ⟨26, 1, .ro, .live, []⟩, ⟨27, 1, .ro, .live, []⟩]⟩,
  ⟨0x40004010, [], 0x0, [⟨0, 32, .ro, .live, []⟩]⟩,
  ⟨0x40004014, [], 0x0, [⟨0, 32, .ro, .live, []⟩]⟩,
  ⟨0x40004018, [], 0x0, [⟨0, 32, .ro, .live, []⟩]⟩,
  ⟨0x4000401C, [], 0x0, [⟨0, 32, .ro, .live, []⟩]⟩,
  ⟨0x40004020, [], 0x0, [⟨0, 32, .ro, .live, []⟩]⟩,
  ⟨0x40004024, [], 0x0, [⟨0, 32, .ro, .live, []⟩]⟩,
  ⟨0x40004034, [], 0x0, [⟨0, 4, .ro, .live, []⟩, ⟨8, 8, .ro, .live, []⟩, ⟨16, 8, .rc, .live, []⟩, ⟨24, 8, .rc, .live, []⟩]⟩,
  ⟨0x40004044, [], 0x0, [⟨0, 7, .rw, .live, []⟩, ⟨8, 4, .rw, .live, []⟩, ⟨16, 1, .wo, .live, []⟩, ⟨17, 1, .ro, .live, []⟩]⟩,
  ⟨0x40004030, [], 0x0, [⟨0, 32, .ro, .live, []⟩]⟩,
  ⟨0x40004040, [], 0x0, [⟨0, 32, .rw, .live, []⟩]⟩,
  ⟨0x40004100, [(64, 0x4)], 0x0, [⟨0, 32, .rw, .live, []⟩]⟩]

/-- Registers of block WV (rules R141, R142, R143, R144, R145, R146). -/
def regMapWV : List RegSpec := [
  ⟨0x40008000, [(2, 0x1000)], 0x10000, [⟨0, 1, .ro, .live, []⟩, ⟨1, 1, .ro, .live, []⟩, ⟨2, 2, .ro, .live, []⟩, ⟨8, 9, .ro, .live, []⟩]⟩,
  ⟨0x40008004, [(2, 0x1000)], 0x0, [⟨0, 16, .ro, .live, []⟩, ⟨16, 16, .ro, .live, []⟩]⟩,
  ⟨0x40008008, [(2, 0x1000)], 0x100, [⟨0, 9, .ro, .live, []⟩, ⟨12, 4, .ro, .live, []⟩, ⟨16, 8, .rc, .live, []⟩]⟩,
  ⟨0x4000800C, [(2, 0x1000)], 0x0, [⟨0, 32, .rc, .live, []⟩]⟩,
  ⟨0x40008010, [(2, 0x1000)], 0x0, [⟨0, 16, .rc, .live, []⟩, ⟨16, 16, .rc, .live, []⟩]⟩,
  ⟨0x40008014, [(2, 0x1000)], 0x0, [⟨0, 32, .rc, .live, []⟩]⟩,
  ⟨0x40008018, [(2, 0x1000)], 0x0, [⟨0, 32, .w1c, .live, []⟩]⟩,
  ⟨0x40008040, [(2, 0x1000), (16, 0x4)], 0x0, [⟨0, 16, .ro, .live, []⟩, ⟨16, 16, .rc, .live, []⟩]⟩,
  ⟨0x40008080, [(2, 0x1000), (16, 0x4)], 0x0, [⟨0, 16, .ro, .live, []⟩, ⟨16, 8, .rc, .live, []⟩, ⟨24, 8, .rc, .live, []⟩]⟩,
  ⟨0x400080C0, [(2, 0x1000), (16, 0x4)], 0x0, [⟨0, 2, .ro, .live, []⟩, ⟨8, 6, .ro, .live, []⟩, ⟨16, 4, .ro, .live, []⟩, ⟨20, 1, .ro, .live, []⟩, ⟨21, 1, .ro, .live, []⟩]⟩,
  ⟨0x40008100, [(2, 0x1000), (16, 0x4)], 0x0, [⟨0, 32, .ro, .live, []⟩]⟩,
  ⟨0x40008180, [(2, 0x1000), (32, 0x4)], 0x0, [⟨0, 6, .ro, .live, []⟩, ⟨8, 1, .ro, .live, []⟩]⟩]

/-- Registers of block ADC (rules R205, R206, R207, R208, R209, R210, R211). -/
def regMapADC : List RegSpec := [
  ⟨0x40010000, [(4, 0x1000)], 0x0, [⟨0, 1, .rw, .live, []⟩]⟩,
  ⟨0x40010004, [(4, 0x1000)], 0x0, [⟨0, 1, .ro, .live, []⟩, ⟨1, 1, .ro, .live, []⟩, ⟨2, 1, .ro, .live, []⟩, ⟨3, 1, .ro, .live, []⟩, ⟨4, 1, .ro, .live, []⟩, ⟨5, 1, .ro, .live, []⟩, ⟨6, 1, .w1c, .live, []⟩, ⟨7, 1, .w1c, .live, []⟩]⟩,
  ⟨0x40010008, [(4, 0x1000)], 0x0, [⟨0, 1, .wo, .live, []⟩]⟩,
  ⟨0x4001000C, [(4, 0x1000)], 0x0, [⟨0, 1, .wo, .live, []⟩, ⟨1, 1, .rw, .live, []⟩, ⟨2, 1, .w1c, .live, []⟩, ⟨3, 1, .w1c, .live, []⟩, ⟨4, 4, .ro, .live, []⟩]⟩,
  ⟨0x40010010, [(4, 0x1000)], 0x0, [⟨0, 16, .rc, .live, []⟩, ⟨16, 8, .rc, .live, []⟩, ⟨24, 8, .rc, .live, []⟩]⟩,
  ⟨0x40010014, [(4, 0x1000)], 0x0, [⟨0, 16, .rw, .staged, []⟩, ⟨16, 16, .rw, .staged, []⟩]⟩,
  ⟨0x40010018, [(4, 0x1000)], 0x0, [⟨0, 16, .rc, .live, []⟩, ⟨16, 16, .rc, .live, []⟩]⟩,
  ⟨0x4001001C, [(4, 0x1000)], 0x0, [⟨0, 4, .wo, .live, []⟩]⟩,
  ⟨0x40010020, [(4, 0x1000), (4, 0x4)], 0x0, [⟨0, 6, .rw, .staged, []⟩, ⟨8, 2, .rw, .staged, [(0, 2)]⟩, ⟨10, 6, .rw, .staged, [(0, 47)]⟩, ⟨16, 1, .rw, .staged, []⟩]⟩,
  ⟨0x40010030, [(4, 0x1000)], 0x0, [⟨0, 11, .ro, .live, []⟩, ⟨16, 16, .rc, .live, []⟩]⟩,
  ⟨0x40010034, [(4, 0x1000)], 0x0, [⟨0, 16, .ro, .live, []⟩, ⟨16, 6, .ro, .live, []⟩, ⟨22, 1, .ro, .live, []⟩, ⟨23, 1, .ro, .live, []⟩, ⟨24, 1, .ro, .live, []⟩, ⟨25, 1, .ro, .live, []⟩, ⟨26, 6, .ro, .live, []⟩]⟩,
  ⟨0x40010038, [(4, 0x1000)], 0x0, [⟨0, 32, .rc, .live, []⟩]⟩,
  ⟨0x40010040, [(4, 0x1000), (8, 0x8)], 0x0, [⟨0, 6, .rw, .staged, []⟩, ⟨6, 1, .rw, .staged, []⟩]⟩,
  ⟨0x40010044, [(4, 0x1000), (8, 0x8)], 0x7FFF8000, [⟨0, 16, .rw, .staged, []⟩, ⟨16, 16, .rw, .staged, []⟩]⟩,
  ⟨0x40010080, [(4, 0x1000)], 0x0, [⟨0, 8, .w1c, .live, []⟩, ⟨8, 8, .ro, .live, []⟩]⟩,
  ⟨0x400100A0, [(4, 0x1000), (9, 0x4)], 0x0, [⟨0, 12, .ro, .live, []⟩, ⟨12, 12, .ro, .live, []⟩, ⟨24, 8, .ro, .live, []⟩]⟩,
  ⟨0x400100C4, [(4, 0x1000)], 0x0, [⟨0, 9, .ro, .live, []⟩, ⟨9, 3, .ro, .live, []⟩, ⟨12, 1, .ro, .live, []⟩, ⟨13, 1, .ro, .live, []⟩]⟩,
  ⟨0x40010100, [(4, 0x1000), (4, 0x40)], 0x7FFF8000, [⟨0, 16, .rw, .staged, []⟩, ⟨16, 16, .rw, .staged, []⟩]⟩,
  ⟨0x40010104, [(4, 0x1000), (4, 0x40)], 0x400, [⟨0, 24, .rw, .staged, [(1, 16777215)]⟩, ⟨24, 8, .rw, .staged, []⟩]⟩,
  ⟨0x40010108, [(4, 0x1000), (4, 0x40)], 0x0, [⟨0, 32, .ro, .live, []⟩]⟩,
  ⟨0x4001010C, [(4, 0x1000), (4, 0x40)], 0x0, [⟨0, 32, .ro, .live, []⟩]⟩,
  ⟨0x40010110, [(4, 0x1000), (4, 0x40)], 0x0, [⟨0, 32, .ro, .live, []⟩]⟩,
  ⟨0x40010114, [(4, 0x1000), (4, 0x40)], 0x0, [⟨0, 24, .ro, .live, []⟩]⟩,
  ⟨0x40010118, [(4, 0x1000), (4, 0x40)], 0x0, [⟨0, 16, .ro, .live, []⟩, ⟨16, 16, .ro, .live, []⟩]⟩,
  ⟨0x4001011C, [(4, 0x1000), (4, 0x40)], 0x0, [⟨0, 24, .ro, .live, []⟩, ⟨24, 8, .ro, .live, []⟩]⟩]

/-- Registers of block SDF (rules R240, R241, R242). -/
def regMapSDF : List RegSpec := [
  ⟨0x40014000, [], 0x0, [⟨0, 1, .rw, .live, []⟩]⟩,
  ⟨0x40014004, [], 0x0, [⟨0, 1, .w1c, .live, []⟩, ⟨1, 1, .w1c, .live, []⟩, ⟨2, 1, .ro, .live, []⟩]⟩,
  ⟨0x40014008, [], 0x0, [⟨0, 1, .wo, .live, []⟩]⟩,
  ⟨0x40014010, [(6, 0x4)], 0x0, [⟨0, 8, .rw, .static, [(0, 0), (50, 50), (100, 100), (125, 125), (200, 200), (250, 250)]⟩]⟩,
  ⟨0x40014100, [(24, 0x40)], 0x40000, [⟨0, 1, .rw, .live, []⟩, ⟨1, 1, .rw, .static, []⟩, ⟨2, 3, .rw, .static, [(0, 5)]⟩, ⟨5, 4, .rw, .static, []⟩, ⟨16, 4, .rw, .static, []⟩]⟩,
  ⟨0x40014104, [(24, 0x40)], 0x0, [⟨0, 2, .rw, .staged, []⟩, ⟨2, 1, .rw, .staged, []⟩, ⟨4, 7, .rw, .staged, [(0, 64)]⟩, ⟨16, 6, .rw, .staged, [(0, 47)]⟩]⟩,
  ⟨0x40014108, [(24, 0x40)], 0x0, [⟨0, 1, .rw, .live, []⟩]⟩,
  ⟨0x4001410C, [(24, 0x40)], 0x0, [⟨0, 32, .rw, .live, []⟩]⟩,
  ⟨0x40014110, [(24, 0x40)], 0x7FFF8000, [⟨0, 16, .rw, .staged, []⟩, ⟨16, 16, .rw, .staged, []⟩]⟩,
  ⟨0x40014114, [(24, 0x40)], 0x0, [⟨0, 1, .rw, .live, []⟩, ⟨1, 1, .ro, .live, []⟩, ⟨2, 1, .w1c, .live, []⟩, ⟨8, 6, .rw, .live, []⟩]⟩,
  ⟨0x40014118, [(24, 0x40)], 0x1000000, [⟨0, 32, .rw, .live, [(1048576, 67108864)]⟩]⟩,
  ⟨0x4001411C, [(24, 0x40)], 0x0, [⟨0, 32, .ro, .live, []⟩]⟩,
  ⟨0x40014120, [(24, 0x40)], 0x0, [⟨0, 32, .ro, .live, []⟩]⟩,
  ⟨0x40014124, [(24, 0x40)], 0x0, [⟨0, 1, .w1c, .live, []⟩, ⟨1, 1, .w1c, .live, []⟩, ⟨2, 1, .ro, .live, []⟩, ⟨3, 1, .w1c, .live, []⟩, ⟨4, 1, .w1c, .live, []⟩]⟩,
  ⟨0x40014128, [(24, 0x40)], 0x0, [⟨0, 16, .ro, .live, []⟩, ⟨16, 16, .rc, .live, []⟩]⟩]

/-- Registers of block PWM (rules R274, R275, R276, R277, R278). -/
def regMapPWM : List RegSpec := [
  ⟨0x40020000, [(48, 0x100)], 0x0, [⟨0, 1, .rw, .static, []⟩, ⟨1, 1, .rw, .static, []⟩]⟩,
  ⟨0x40020004, [(48, 0x100)], 0x0, [⟨0, 1, .rw, .live, []⟩, ⟨1, 1, .wo, .live, []⟩]⟩,
  ⟨0x4002001C, [(48, 0x100)], 0x0, [⟨0, 1, .wo, .live, []⟩]⟩,
  ⟨0x40020008, [(48, 0x100)], 0x1F400, [⟨0, 24, .rw, .staged, []⟩]⟩,
  ⟨0x4002000C, [(48, 0x100)], 0x0, [⟨0, 24, .rw, .staged, []⟩]⟩,
  ⟨0x40020010, [(48, 0x100)], 0x0, [⟨0, 24, .rw, .staged, []⟩]⟩,
  ⟨0x40020014, [(48, 0x100)], 0x0, [⟨0, 12, .rw, .staged, []⟩]⟩,
  ⟨0x40020018, [(48, 0x100)], 0xFFFFE0, [⟨0, 24, .rw, .staged, []⟩]⟩,
  ⟨0x40020020, [(48, 0x100)], 0x0, [⟨0, 24, .rw, .static, []⟩]⟩,
  ⟨0x40020024, [(48, 0x100)], 0x19010, [⟨0, 8, .rw, .static, [(1, 255)]⟩, ⟨8, 12, .rw, .static, [(1, 4095)]⟩]⟩,
  ⟨0x40020028, [(48, 0x100)], 0x6, [⟨0, 2, .ro, .live, []⟩, ⟨2, 3, .ro, .live, []⟩, ⟨5, 1, .w1c, .live, []⟩, ⟨6, 1, .w1c, .live, []⟩, ⟨7, 1, .w1c, .live, []⟩, ⟨8, 1, .ro, .live, []⟩, ⟨9, 1, .ro, .live, []⟩, ⟨10, 1, .ro, .live, []⟩, ⟨11, 1, .w1c, .live, []⟩, ⟨12, 1, .w1c, .live, []⟩, ⟨13, 1, .w1c, .live, []⟩, ⟨14, 1, .w1c, .live, []⟩]⟩,
  ⟨0x4002002C, [(48, 0x100)], 0x0, [⟨0, 8, .rc, .live, []⟩, ⟨8, 8, .rc, .live, []⟩, ⟨16, 8, .rc, .live, []⟩, ⟨24, 8, .rc, .live, []⟩]⟩,
  ⟨0x40020030, [(48, 0x100)], 0x1F400, [⟨0, 24, .ro, .live, []⟩]⟩,
  ⟨0x40020034, [(48, 0x100)], 0x0, [⟨0, 24, .ro, .live, []⟩]⟩,
  ⟨0x40020038, [(48, 0x100)], 0x0, [⟨0, 24, .ro, .live, []⟩]⟩,
  ⟨0x4002003C, [(48, 0x100)], 0x0, [⟨0, 12, .ro, .live, []⟩]⟩,
  ⟨0x40020040, [(48, 0x100)], 0x0, [⟨0, 2, .ro, .live, []⟩, ⟨2, 4, .ro, .live, []⟩, ⟨6, 2, .ro, .live, []⟩, ⟨8, 1, .ro, .live, []⟩, ⟨9, 1, .ro, .live, []⟩, ⟨10, 1, .ro, .live, []⟩, ⟨11, 7, .ro, .live, []⟩, ⟨18, 12, .ro, .live, []⟩]⟩,
  ⟨0x40023000, [], 0x0, [⟨0, 1, .rw, .live, []⟩]⟩,
  ⟨0x40023004, [], 0x0, [⟨0, 1, .w1c, .live, []⟩]⟩,
  ⟨0x40023008, [], 0x0, [⟨0, 6, .ro, .live, []⟩, ⟨6, 2, .ro, .live, []⟩, ⟨8, 8, .rc, .live, []⟩]⟩,
  ⟨0x4002300C, [], 0x0, [⟨0, 16, .wo, .live, []⟩]⟩,
  ⟨0x40023010, [], 0xFFFFFFFF, [⟨0, 32, .ro, .live, []⟩]⟩,
  ⟨0x40023014, [], 0xFFFF, [⟨0, 16, .ro, .live, []⟩]⟩,
  ⟨0x40023018, [], 0x0, [⟨0, 32, .w1c, .live, []⟩]⟩,
  ⟨0x4002301C, [], 0x0, [⟨0, 16, .w1c, .live, []⟩]⟩]

/-- Registers of block GSUP (rules R279, R280, R281). -/
def regMapGSUP : List RegSpec := [
  ⟨0x40024000, [], 0x0, [⟨0, 1, .rw, .live, []⟩, ⟨1, 1, .ro, .live, []⟩]⟩,
  ⟨0x40024004, [], 0x0, [⟨0, 1, .w1c, .live, []⟩, ⟨1, 1, .w1c, .live, []⟩]⟩,
  ⟨0x40024008, [], 0x0, [⟨0, 1, .wo, .live, []⟩]⟩,
  ⟨0x40024010, [], 0x0, [⟨0, 24, .w1c, .live, []⟩]⟩,
  ⟨0x40024014, [], 0x0, [⟨0, 24, .w1c, .live, []⟩]⟩,
  ⟨0x40024100, [(24, 0x20)], 0x0, [⟨0, 1, .rw, .live, []⟩, ⟨1, 6, .rw, .static, []⟩, ⟨7, 1, .rw, .static, []⟩, ⟨8, 1, .rw, .static, []⟩, ⟨9, 1, .rw, .static, []⟩]⟩,
  ⟨0x40024104, [(24, 0x20)], 0x332FF, [⟨0, 8, .rw, .staged, []⟩, ⟨8, 8, .rw, .staged, [(5, 200)]⟩, ⟨16, 4, .rw, .staged, []⟩]⟩,
  ⟨0x40024108, [(24, 0x20)], 0x0, [⟨0, 1, .rw, .staged, []⟩, ⟨1, 2, .rw, .staged, []⟩, ⟨3, 3, .rw, .staged, []⟩]⟩,
  ⟨0x4002410C, [(24, 0x20)], 0x0, [⟨0, 8, .rw, .staged, [(0, 200)]⟩]⟩,
  ⟨0x40024110, [(24, 0x20)], 0x56400, [⟨0, 1, .rw, .live, []⟩, ⟨1, 1, .w1c, .live, []⟩, ⟨8, 8, .rw, .live, [(1, 255)]⟩, ⟨16, 8, .rw, .live, []⟩]⟩,
  ⟨0x40024114, [(24, 0x20)], 0x0, [⟨0, 8, .ro, .live, []⟩, ⟨8, 1, .ro, .live, []⟩, ⟨24, 8, .ro, .live, []⟩]⟩,
  ⟨0x40024118, [(24, 0x20)], 0x0, [⟨0, 32, .ro, .live, []⟩]⟩,
  ⟨0x40024400, [(24, 0x4)], 0x600, [⟨0, 1, .rw, .live, []⟩, ⟨1, 6, .rw, .static, []⟩, ⟨7, 1, .rw, .static, []⟩, ⟨8, 1, .rw, .static, []⟩, ⟨9, 6, .rw, .static, []⟩]⟩]

/-- Registers of block LANE (rules R340, R341, R342, R343). -/
def regMapLANE : List RegSpec := [
  ⟨0x4000A000, [], 0x0, [⟨0, 1, .rw, .live, []⟩, ⟨1, 1, .wo, .live, []⟩, ⟨2, 1, .wo, .live, []⟩, ⟨3, 1, .wo, .live, []⟩, ⟨16, 16, .wo, .live, []⟩]⟩,
  ⟨0x4000A004, [], 0x22, [⟨0, 1, .ro, .live, []⟩, ⟨1, 3, .ro, .live, []⟩, ⟨4, 3, .ro, .live, []⟩, ⟨7, 1, .ro, .live, []⟩, ⟨8, 1, .ro, .live, []⟩, ⟨9, 1, .ro, .live, []⟩, ⟨10, 1, .w1c, .live, []⟩]⟩,
  ⟨0x4000A008, [], 0x28400428, [⟨0, 8, .rw, .static, [(4, 160)]⟩, ⟨8, 8, .rw, .static, []⟩, ⟨16, 8, .rw, .static, [(1, 255)]⟩, ⟨24, 8, .rw, .static, []⟩]⟩,
  ⟨0x4000A010, [(12, 0x4)], 0x0, [⟨0, 8, .rw, .static, []⟩, ⟨8, 8, .rw, .static, []⟩, ⟨16, 8, .rw, .static, []⟩, ⟨24, 8, .rw, .static, []⟩]⟩,
  ⟨0x4000A040, [], 0x0, [⟨0, 8, .rc, .live, []⟩, ⟨8, 8, .rc, .live, []⟩, ⟨16, 8, .rc, .live, []⟩, ⟨24, 8, .rc, .live, []⟩]⟩,
  ⟨0x4000A044, [], 0x0, [⟨0, 16, .rc, .live, []⟩, ⟨16, 16, .rc, .live, []⟩]⟩,
  ⟨0x4000A048, [], 0x0, [⟨0, 2, .ro, .live, []⟩, ⟨2, 2, .ro, .live, []⟩, ⟨4, 6, .ro, .live, []⟩, ⟨10, 4, .ro, .live, []⟩, ⟨14, 4, .ro, .live, []⟩]⟩,
  ⟨0x4000A04C, [], 0x0, [⟨0, 32, .ro, .live, []⟩]⟩,
  ⟨0x4000A050, [], 0x0, [⟨0, 32, .ro, .live, []⟩]⟩,
  ⟨0x4000A054, [], 0x0, [⟨0, 32, .ro, .live, []⟩]⟩,
  ⟨0x4000A058, [], 0x0, [⟨0, 32, .ro, .live, []⟩]⟩,
  ⟨0x4000A05C, [], 0x0, [⟨0, 32, .ro, .live, []⟩]⟩,
  ⟨0x4000A060, [], 0x0, [⟨0, 2, .ro, .live, []⟩, ⟨2, 2, .ro, .live, []⟩]⟩,
  ⟨0x4000A064, [], 0x0, [⟨0, 16, .ro, .live, []⟩, ⟨16, 16, .rc, .live, []⟩]⟩]

/-- Registers of block ACC (rules R370, R371). -/
def regMapACC : List RegSpec := [
  ⟨0x40030000, [], 0x0, [⟨0, 1, .w1c, .live, []⟩, ⟨1, 1, .w1c, .live, []⟩, ⟨2, 1, .w1c, .live, []⟩, ⟨3, 1, .w1c, .live, []⟩, ⟨4, 1, .w1c, .live, []⟩, ⟨8, 8, .ro, .live, []⟩, ⟨16, 1, .ro, .live, []⟩]⟩,
  ⟨0x40030004, [], 0x0, [⟨0, 1, .wo, .live, []⟩]⟩,
  ⟨0x40030008, [], 0x2, [⟨0, 2, .rw, .staged, []⟩]⟩,
  ⟨0x4003000C, [], 0x0, [⟨0, 8, .wo, .live, []⟩, ⟨16, 16, .wo, .live, []⟩]⟩,
  ⟨0x40030010, [], 0x0, [⟨0, 32, .rw, .live, []⟩]⟩,
  ⟨0x40030014, [], 0x0, [⟨0, 8, .wo, .live, []⟩, ⟨8, 1, .wo, .live, []⟩, ⟨16, 16, .wo, .live, []⟩]⟩,
  ⟨0x40030020, [(6, 0x4)], 0x0, [⟨0, 32, .ro, .live, []⟩]⟩,
  ⟨0x40030040, [(6, 0x4)], 0x0, [⟨0, 32, .ro, .live, []⟩]⟩,
  ⟨0x40030060, [(6, 0x4)], 0x0, [⟨0, 32, .ro, .live, []⟩]⟩,
  ⟨0x40030080, [(6, 0x4)], 0x0, [⟨0, 32, .ro, .live, []⟩]⟩,
  ⟨0x400300A0, [(6, 0x4)], 0x0, [⟨0, 32, .ro, .live, []⟩]⟩,
  ⟨0x400300C0, [], 0x0, [⟨0, 9, .ro, .live, []⟩, ⟨16, 16, .rc, .live, []⟩]⟩,
  ⟨0x400300C4, [], 0x0, [⟨0, 32, .ro, .live, []⟩]⟩,
  ⟨0x400300C8, [], 0x0, [⟨0, 32, .ro, .live, []⟩]⟩,
  ⟨0x400300CC, [], 0x0, [⟨0, 32, .ro, .live, []⟩]⟩,
  ⟨0x400300D0, [], 0x0, [⟨0, 32, .rc, .live, []⟩]⟩,
  ⟨0x40030400, [(192, 0x4)], 0x0, [⟨0, 1, .rw, .staged, []⟩, ⟨1, 2, .rw, .staged, []⟩, ⟨3, 2, .rw, .staged, []⟩, ⟨8, 8, .rw, .staged, [(1, 255)]⟩, ⟨16, 10, .rw, .staged, [(1, 1000)]⟩, ⟨31, 1, .ro, .live, []⟩]⟩,
  ⟨0x40030700, [(192, 0x4)], 0x0, [⟨0, 8, .rw, .staged, [(0, 240)]⟩]⟩,
  ⟨0x40030A00, [(192, 0x4)], 0x0, [⟨0, 16, .rc, .live, []⟩, ⟨16, 8, .rc, .live, []⟩, ⟨24, 8, .rc, .live, []⟩]⟩]

/-- Registers of block ARCH (rules R388, R389). -/
def regMapARCH : List RegSpec := [
  ⟨0x40032000, [], 0x0, [⟨0, 1, .rw, .live, []⟩, ⟨1, 2, .rw, .static, [(0, 2)]⟩, ⟨3, 1, .rw, .static, []⟩, ⟨4, 1, .rw, .static, []⟩, ⟨5, 1, .rw, .static, []⟩, ⟨6, 1, .rw, .static, []⟩, ⟨7, 1, .rw, .static, []⟩]⟩,
  ⟨0x40032004, [], 0x0, [⟨0, 2, .ro, .live, []⟩, ⟨2, 2, .ro, .live, []⟩, ⟨4, 4, .ro, .live, []⟩, ⟨8, 2, .ro, .live, []⟩, ⟨10, 1, .ro, .live, []⟩, ⟨11, 1, .w1c, .live, []⟩, ⟨12, 1, .w1c, .live, []⟩, ⟨16, 8, .ro, .live, []⟩, ⟨24, 6, .ro, .live, []⟩]⟩,
  ⟨0x40032008, [], 0x0, [⟨0, 1, .wo, .live, []⟩]⟩,
  ⟨0x4003200C, [], 0x0, [⟨0, 1, .wo, .live, []⟩, ⟨1, 1, .wo, .live, []⟩, ⟨2, 1, .wo, .live, []⟩]⟩,
  ⟨0x40032010, [], 0x0, [⟨0, 16, .rw, .live, []⟩]⟩,
  ⟨0x40032014, [], 0x0, [⟨0, 4, .wo, .live, []⟩]⟩,
  ⟨0x40032018, [], 0x0, [⟨0, 16, .rw, .staged, []⟩, ⟨16, 16, .rw, .staged, []⟩]⟩,
  ⟨0x4003201C, [], 0x0, [⟨0, 8, .rw, .staged, []⟩, ⟨8, 1, .rw, .staged, []⟩, ⟨9, 1, .rw, .staged, []⟩, ⟨10, 1, .rw, .staged, []⟩, ⟨11, 1, .rw, .staged, []⟩]⟩,
  ⟨0x40032020, [], 0x0, [⟨0, 14, .rw, .static, [(0, 8192)]⟩]⟩,
  ⟨0x40032024, [], 0x0, [⟨0, 6, .rw, .staged, []⟩, ⟨6, 2, .rw, .staged, []⟩, ⟨8, 6, .rw, .staged, [(0, 47)]⟩]⟩,
  ⟨0x40032028, [], 0x0, [⟨0, 32, .ro, .live, []⟩]⟩,
  ⟨0x4003202C, [], 0x0, [⟨0, 32, .rc, .live, []⟩]⟩,
  ⟨0x40032030, [], 0x0, [⟨0, 12, .rc, .live, []⟩, ⟨12, 12, .rc, .live, []⟩, ⟨24, 8, .ro, .live, []⟩]⟩,
  ⟨0x40032034, [], 0x0, [⟨0, 16, .rc, .live, []⟩, ⟨16, 16, .rc, .live, []⟩]⟩,
  ⟨0x40032080, [(8, 0x10)], 0x0, [⟨0, 6, .rw, .staged, []⟩, ⟨6, 3, .rw, .staged, [(0, 4)]⟩]⟩,
  ⟨0x40032084, [(8, 0x10)], 0x7FFF8000, [⟨0, 16, .rw, .staged, []⟩, ⟨16, 16, .rw, .staged, []⟩]⟩,
  ⟨0x40032088, [(8, 0x10)], 0x1FFFF, [⟨0, 16, .rw, .staged, []⟩, ⟨16, 8, .rw, .staged, [(1, 255)]⟩]⟩,
  ⟨0x40032100, [(64, 0x10)], 0x10000, [⟨0, 1, .rw, .static, []⟩, ⟨1, 2, .rw, .static, [(0, 2)]⟩, ⟨3, 1, .rw, .static, []⟩, ⟨4, 2, .rw, .static, []⟩, ⟨6, 6, .rw, .static, []⟩, ⟨16, 16, .rw, .static, []⟩]⟩,
  ⟨0x40032104, [(64, 0x10)], 0x0, [⟨0, 20, .rw, .static, []⟩]⟩,
  ⟨0x40032108, [(64, 0x10)], 0x0, [⟨0, 15, .rw, .static, []⟩, ⟨16, 15, .rw, .static, []⟩]⟩]

/-- Registers of block ISO (rules R408, R409, R410). -/
def regMapISO : List RegSpec := [
  ⟨0x40031000, [], 0x0, [⟨0, 1, .rw, .live, []⟩, ⟨1, 1, .wo, .live, []⟩, ⟨2, 1, .wo, .live, []⟩, ⟨16, 16, .wo, .live, []⟩]⟩,
  ⟨0x40031004, [], 0x400, [⟨0, 1, .ro, .live, []⟩, ⟨1, 1, .ro, .live, []⟩, ⟨2, 2, .ro, .live, []⟩, ⟨4, 2, .ro, .live, []⟩, ⟨6, 3, .ro, .live, []⟩, ⟨9, 1, .ro, .live, []⟩, ⟨10, 1, .ro, .live, []⟩, ⟨11, 1, .w1c, .live, []⟩, ⟨12, 1, .w1c, .live, []⟩]⟩,
  ⟨0x40031008, [], 0x0, [⟨0, 1, .wo, .live, []⟩]⟩,
  ⟨0x4003100C, [], 0x181E00, [⟨0, 2, .rw, .static, []⟩, ⟨2, 2, .rw, .static, []⟩, ⟨4, 4, .rw, .static, []⟩, ⟨8, 8, .rw, .static, [(5, 255)]⟩, ⟨16, 8, .rw, .static, [(1, 255)]⟩]⟩,
  ⟨0x40031010, [], 0xFFFF0000, [⟨0, 16, .rw, .staged, []⟩, ⟨16, 16, .rw, .staged, []⟩]⟩,
  ⟨0x40031014, [], 0xFFFF0000, [⟨0, 3, .ro, .live, []⟩, ⟨3, 3, .ro, .live, []⟩, ⟨16, 16, .ro, .live, []⟩]⟩,
  ⟨0x40031018, [], 0xF, [⟨0, 5, .rw, .staged, [(2, 19)]⟩]⟩,
  ⟨0x40031040, [(8, 0x4)], 0x0, [⟨0, 1, .rw, .static, []⟩, ⟨1, 1, .rw, .static, []⟩, ⟨2, 1, .rw, .static, []⟩]⟩,
  ⟨0x40031060, [], 0x0, [⟨0, 8, .ro, .live, []⟩, ⟨8, 8, .ro, .live, []⟩, ⟨16, 8, .w1c, .live, []⟩]⟩,
  ⟨0x40031064, [], 0x0, [⟨0, 8, .ro, .live, []⟩, ⟨8, 8, .ro, .live, []⟩, ⟨16, 1, .w1c, .live, []⟩]⟩]

/-- Registers of block CIRC (rules R432, R433, R434, R435). -/
def regMapCIRC : List RegSpec := [
  ⟨0x40040000, [], 0x640, [⟨0, 1, .rw, .live, []⟩, ⟨4, 10, .rw, .live, [(1, 1), (2, 2), (4, 4), (5, 5), (8, 8), (10, 10), (16, 16), (20, 20), (25, 25), (32, 32), (40, 40), (50, 50), (64, 64), (80, 80), (100, 100), (125, 125), (160, 160), (200, 200), (250, 250), (320, 320), (400, 400), (500, 500), (625, 625), (800, 800), (1000, 1000)]⟩, ⟨16, 8, .rw, .live, []⟩]⟩,
  ⟨0x40040004, [], 0x0, [⟨0, 1, .w1c, .live, []⟩, ⟨8, 4, .ro, .live, []⟩, ⟨16, 4, .ro, .live, []⟩]⟩,
  ⟨0x40040008, [], 0x0, [⟨0, 32, .ro, .live, []⟩]⟩,
  ⟨0x4004000C, [], 0x0, [⟨0, 8, .wo, .live, []⟩, ⟨8, 3, .wo, .live, []⟩]⟩,
  ⟨0x40040010, [], 0x0, [⟨0, 4, .ro, .live, []⟩]⟩,
  ⟨0x40040014, [], 0x0, [⟨0, 4, .rw, .live, []⟩]⟩,
  ⟨0x40040020, [(4, 0x10)], 0x0, [⟨0, 8, .ro, .live, []⟩, ⟨8, 3, .ro, .live, []⟩, ⟨11, 1, .ro, .live, []⟩, ⟨31, 1, .ro, .live, []⟩]⟩,
  ⟨0x40040024, [(4, 0x10)], 0x0, [⟨0, 32, .ro, .live, []⟩]⟩,
  ⟨0x40040028, [(4, 0x10)], 0x0, [⟨0, 3, .wo, .live, []⟩, ⟨3, 1, .wo, .live, []⟩, ⟨4, 2, .wo, .live, []⟩, ⟨8, 24, .wo, .live, []⟩]⟩,
  ⟨0x4004002C, [(4, 0x10)], 0x0, [⟨0, 32, .rw, .live, []⟩]⟩,
  ⟨0x40040080, [(4, 0x4)], 0x0, [⟨0, 32, .ro, .live, []⟩]⟩,
  ⟨0x40040090, [(4, 0x4)], 0x0, [⟨0, 32, .wo, .live, []⟩]⟩,
  ⟨0x400400A0, [(4, 0x4)], 0x0, [⟨0, 32, .wo, .live, []⟩]⟩,
  ⟨0x400400B0, [(4, 0x4)], 0x0, [⟨0, 32, .rw, .live, []⟩]⟩,
  ⟨0x400400C0, [(4, 0x4)], 0x0, [⟨0, 32, .rw, .live, []⟩]⟩,
  ⟨0x400400D0, [], 0x0, [⟨0, 16, .rc, .live, []⟩]⟩,
  ⟨0x40040100, [(256, 0x4)], 0xF00, [⟨0, 5, .rw, .live, []⟩, ⟨8, 4, .rw, .live, []⟩, ⟨12, 10, .rw, .live, []⟩, ⟨22, 10, .rw, .live, []⟩]⟩,
  ⟨0x40040500, [(256, 0x4)], 0x0, [⟨0, 32, .rw, .live, []⟩]⟩,
  ⟨0x40040900, [(256, 0x4)], 0x0, [⟨0, 3, .ro, .live, []⟩, ⟨3, 2, .ro, .live, []⟩, ⟨5, 1, .ro, .live, []⟩, ⟨6, 1, .ro, .live, []⟩, ⟨7, 1, .w1c, .live, []⟩, ⟨16, 16, .ro, .live, []⟩]⟩]

/-- Registers of block TIME (rules R459). -/
def regMapTIME : List RegSpec := [
  ⟨0x40050000, [], 0x0, [⟨0, 30, .ro, .live, []⟩]⟩,
  ⟨0x40050004, [], 0x0, [⟨0, 32, .ro, .live, []⟩]⟩,
  ⟨0x40050008, [], 0x0, [⟨0, 16, .ro, .live, []⟩]⟩,
  ⟨0x4005000C, [], 0x0, [⟨0, 32, .ro, .live, []⟩]⟩,
  ⟨0x40050010, [], 0x4000000, [⟨0, 32, .rw, .live, [(67075310, 67142418)]⟩]⟩,
  ⟨0x40050014, [], 0x4000000, [⟨0, 32, .rw, .live, [(67075310, 67142418)]⟩]⟩,
  ⟨0x40050018, [], 0x0, [⟨0, 24, .rw, .live, []⟩]⟩,
  ⟨0x4005001C, [], 0x0, [⟨0, 32, .rw, .live, [(0, 999999999), (3294967297, 4294967295)]⟩]⟩,
  ⟨0x40050020, [], 0x0, [⟨0, 16, .rw, .live, []⟩]⟩,
  ⟨0x40050024, [], 0x0, [⟨0, 1, .wo, .live, []⟩, ⟨1, 1, .ro, .live, []⟩, ⟨16, 16, .ro, .live, []⟩]⟩,
  ⟨0x40050028, [], 0x0, [⟨0, 32, .ro, .live, []⟩]⟩,
  ⟨0x4005002C, [], 0x0, [⟨0, 1, .ro, .live, []⟩, ⟨1, 1, .w1c, .live, []⟩]⟩,
  ⟨0x40050030, [], 0x0, [⟨0, 30, .ro, .live, []⟩]⟩,
  ⟨0x40050034, [], 0x0, [⟨0, 32, .ro, .live, []⟩]⟩,
  ⟨0x40050038, [], 0x0, [⟨0, 32, .ro, .live, []⟩]⟩,
  ⟨0x4005003C, [], 0xC8, [⟨0, 1, .rw, .live, []⟩, ⟨1, 10, .rw, .live, [(1, 999)]⟩]⟩,
  ⟨0x40050040, [], 0x0, [⟨0, 8, .w1c, .live, []⟩, ⟨16, 16, .rc, .live, []⟩]⟩,
  ⟨0x40050080, [(8, 0x10)], 0x0, [⟨0, 1, .rw, .live, []⟩, ⟨1, 1, .rw, .live, []⟩]⟩,
  ⟨0x40050084, [(8, 0x10)], 0x0, [⟨0, 32, .rw, .live, []⟩]⟩,
  ⟨0x40050088, [(8, 0x10)], 0x0, [⟨0, 32, .rw, .live, []⟩]⟩,
  ⟨0x4005008C, [(8, 0x10)], 0x0, [⟨0, 32, .rw, .live, [(0, 0), (1000, 2147483647)]⟩]⟩]

/-- Registers of block ETH (rules R460). -/
def regMapETH : List RegSpec := [
  ⟨0x40051000, [(2, 0x1000)], 0x24, [⟨0, 1, .rw, .live, []⟩, ⟨1, 2, .rw, .static, [(0, 2)]⟩, ⟨3, 1, .rw, .static, []⟩, ⟨4, 1, .rw, .static, []⟩, ⟨5, 1, .rw, .static, []⟩, ⟨6, 1, .rw, .live, []⟩]⟩,
  ⟨0x40051004, [(2, 0x1000)], 0x0, [⟨0, 1, .ro, .live, []⟩, ⟨1, 1, .w1c, .live, []⟩, ⟨2, 1, .w1c, .live, []⟩, ⟨3, 1, .w1c, .live, []⟩, ⟨4, 1, .w1c, .live, []⟩]⟩,
  ⟨0x40051008, [(2, 0x1000)], 0x0, [⟨0, 32, .rw, .static, []⟩]⟩,
  ⟨0x4005100C, [(2, 0x1000)], 0x0, [⟨0, 16, .rw, .static, []⟩]⟩,
  ⟨0x40051010, [(2, 0x1000)], 0x0, [⟨0, 16, .rw, .live, []⟩, ⟨16, 16, .rw, .live, []⟩]⟩,
  ⟨0x40051014, [(2, 0x1000)], 0x0, [⟨0, 16, .rc, .live, []⟩]⟩,
  ⟨0x40051020, [(2, 0x1000)], 0x0, [⟨0, 16, .rw, .live, []⟩, ⟨16, 5, .rw, .live, []⟩, ⟨21, 5, .rw, .live, []⟩, ⟨26, 2, .rw, .live, []⟩, ⟨28, 1, .wo, .live, []⟩, ⟨29, 1, .ro, .live, []⟩, ⟨30, 1, .w1c, .live, []⟩]⟩,
  ⟨0x40051024, [(2, 0x1000)], 0x18000000, [⟨24, 8, .rw, .live, [(24, 255)]⟩]⟩,
  ⟨0x40051040, [(2, 0x1000)], 0x0, [⟨0, 18, .rw, .static, []⟩]⟩,
  ⟨0x40051044, [(2, 0x1000)], 0x0, [⟨0, 12, .rw, .static, [(2, 4095)]⟩]⟩,
  ⟨0x40051048, [(2, 0x1000)], 0x0, [⟨0, 12, .ro, .live, []⟩]⟩,
  ⟨0x40051100, [(2, 0x1000), (8, 0x10)], 0x0, [⟨0, 18, .rw, .static, []⟩]⟩,
  ⟨0x40051104, [(2, 0x1000), (8, 0x10)], 0x0, [⟨0, 12, .rw, .static, [(0, 0), (2, 4095)]⟩]⟩,
  ⟨0x40051108, [(2, 0x1000), (8, 0x10)], 0x0, [⟨0, 12, .ro, .live, []⟩]⟩,
  ⟨0x4005110C, [(2, 0x1000), (8, 0x10)], 0x0, [⟨0, 1, .rw, .live, []⟩, ⟨1, 1, .wo, .live, []⟩]⟩]

/-- Registers of block CAN (rules R488, R489). -/
def regMapCAN : List RegSpec := [
  ⟨0x40060000, [(4, 0x1000)], 0x0, [⟨0, 1, .rw, .live, []⟩, ⟨1, 2, .rw, .static, [(0, 2)]⟩, ⟨3, 1, .rw, .static, []⟩, ⟨4, 1, .rw, .static, []⟩, ⟨5, 1, .wo, .live, []⟩, ⟨16, 16, .wo, .live, []⟩]⟩,
  ⟨0x40060004, [(4, 0x1000)], 0x0, [⟨0, 1, .ro, .live, []⟩, ⟨1, 1, .ro, .live, []⟩, ⟨2, 1, .ro, .live, []⟩, ⟨3, 1, .ro, .live, []⟩, ⟨4, 3, .ro, .live, []⟩, ⟨7, 1, .w1c, .live, []⟩, ⟨8, 1, .w1c, .live, []⟩, ⟨9, 1, .w1c, .live, []⟩, ⟨10, 1, .w1c, .live, []⟩, ⟨11, 1, .w1c, .live, []⟩]⟩,
  ⟨0x40060008, [(4, 0x1000)], 0x0, [⟨0, 9, .ro, .live, []⟩, ⟨16, 8, .ro, .live, []⟩, ⟨24, 1, .ro, .live, []⟩]⟩,
  ⟨0x4006000C, [(4, 0x1000)], 0x0, [⟨0, 8, .ro, .live, []⟩]⟩,
  ⟨0x40060010, [(4, 0x1000)], 0x0, [⟨0, 8, .rw, .static, []⟩, ⟨8, 7, .rw, .static, []⟩, ⟨16, 7, .rw, .static, []⟩, ⟨24, 8, .rw, .static, []⟩]⟩,
  ⟨0x40060014, [(4, 0x1000)], 0x0, [⟨0, 5, .rw, .static, []⟩, ⟨8, 4, .rw, .static, []⟩, ⟨12, 4, .rw, .static, []⟩, ⟨16, 5, .rw, .static, []⟩, ⟨23, 1, .rw, .static, []⟩, ⟨24, 7, .rw, .static, []⟩]⟩,
  ⟨0x40060018, [(4, 0x1000)], 0x0, [⟨0, 2, .rw, .static, [(0, 2)]⟩, ⟨2, 2, .rw, .static, [(0, 2)]⟩, ⟨4, 1, .rw, .static, []⟩, ⟨5, 1, .rw, .static, []⟩]⟩,
  ⟨0x40060020, [(4, 0x1000)], 0x0, [⟨0, 16, .rw, .static, []⟩, ⟨16, 8, .rw, .static, [(0, 128)]⟩]⟩,
  ⟨0x40060024, [(4, 0x1000)], 0x0, [⟨0, 16, .rw, .static, []⟩, ⟨16, 7, .rw, .static, [(0, 64)]⟩]⟩,
  ⟨0x40060028, [(4, 0x1000), (2, 0x4)], 0x0, [⟨0, 16, .rw, .static, []⟩, ⟨16, 7, .rw, .static, [(0, 64)]⟩, ⟨24, 3, .rw, .static, []⟩]⟩,
  ⟨0x40060030, [(4, 0x1000)], 0x0, [⟨0, 16, .rw, .static, []⟩, ⟨16, 6, .rw, .static, [(0, 32)]⟩, ⟨24, 3, .rw, .static, []⟩]⟩,
  ⟨0x40060034, [(4, 0x1000)], 0x0, [⟨0, 16, .rw, .static, []⟩, ⟨16, 6, .rw, .static, [(0, 32)]⟩]⟩,
  ⟨0x40060040, [(4, 0x1000), (2, 0x4)], 0x0, [⟨0, 7, .ro, .live, []⟩, ⟨8, 6, .ro, .live, []⟩, ⟨16, 1, .ro, .live, []⟩, ⟨24, 8, .rc, .live, []⟩]⟩,
  ⟨0x40060048, [(4, 0x1000), (2, 0x4)], 0x0, [⟨0, 6, .wo, .live, []⟩]⟩,
  ⟨0x40060050, [(4, 0x1000)], 0x0, [⟨0, 6, .ro, .live, []⟩, ⟨8, 5, .ro, .live, []⟩, ⟨24, 8, .rc, .live, []⟩]⟩,
  ⟨0x40060054, [(4, 0x1000)], 0x0, [⟨0, 5, .wo, .live, []⟩]⟩,
  ⟨0x40060060, [(4, 0x1000)], 0x0, [⟨0, 32, .wo, .live, []⟩]⟩,
  ⟨0x40060064, [(4, 0x1000)], 0x0, [⟨0, 32, .ro, .live, []⟩]⟩,
  ⟨0x40060068, [(4, 0x1000)], 0x0, [⟨0, 32, .wo, .live, []⟩]⟩,
  ⟨0x4006006C, [(4, 0x1000)], 0x0, [⟨0, 32, .w1c, .live, []⟩]⟩,
  ⟨0x40060070, [(4, 0x1000)], 0x0, [⟨0, 32, .w1c, .live, []⟩]⟩]

/-- Registers of block DPL (rules R490, R491). -/
def regMapDPL : List RegSpec := [
  ⟨0x40060800, [], 0x3000, [⟨0, 1, .rw, .live, []⟩, ⟨1, 2, .rw, .static, []⟩, ⟨3, 1, .rw, .static, []⟩, ⟨4, 1, .rw, .static, []⟩, ⟨5, 1, .rw, .static, []⟩, ⟨6, 1, .rw, .static, []⟩, ⟨7, 1, .rw, .static, []⟩, ⟨8, 1, .rw, .static, []⟩, ⟨9, 1, .rw, .static, []⟩, ⟨10, 1, .rw, .live, []⟩, ⟨12, 4, .rw, .static, [(2, 15)]⟩]⟩,
  ⟨0x40060804, [], 0x0, [⟨0, 1, .w1c, .live, []⟩, ⟨2, 2, .ro, .live, []⟩, ⟨8, 6, .ro, .live, []⟩]⟩,
  ⟨0x40060808, [], 0x0, [⟨0, 8, .rw, .static, [(1, 254)]⟩]⟩,
  ⟨0x4006080C, [], 0xD, [⟨0, 2, .rw, .static, [(1, 3)]⟩, ⟨2, 2, .rw, .static, [(1, 3)]⟩]⟩,
  ⟨0x40060810, [], 0x64, [⟨0, 10, .rw, .static, [(10, 1000)]⟩, ⟨16, 16, .rc, .live, []⟩]⟩,
  ⟨0x40060814, [], 0x0, [⟨0, 32, .rw, .static, []⟩]⟩,
  ⟨0x40060818, [], 0x0, [⟨0, 8, .rc, .live, []⟩, ⟨8, 8, .rc, .live, []⟩, ⟨16, 8, .rc, .live, []⟩, ⟨24, 8, .rc, .live, []⟩]⟩,
  ⟨0x4006081C, [], 0x0, [⟨0, 8, .rc, .live, []⟩, ⟨8, 8, .rc, .live, []⟩, ⟨16, 8, .rc, .live, []⟩]⟩,
  ⟨0x40060820, [(2, 0x10), (4, 0x4)], 0x0, [⟨0, 32, .wo, .live, []⟩]⟩,
  ⟨0x40060840, [], 0x0, [⟨0, 2, .ro, .live, []⟩]⟩,
  ⟨0x40060844, [], 0x40A, [⟨0, 8, .rw, .static, []⟩, ⟨8, 8, .rw, .static, []⟩]⟩,
  ⟨0x40060900, [(32, 0x10)], 0x0, [⟨0, 8, .rw, .live, []⟩, ⟨8, 8, .rw, .live, []⟩, ⟨16, 8, .rw, .live, []⟩, ⟨24, 1, .rw, .live, []⟩, ⟨25, 1, .wo, .live, []⟩]⟩,
  ⟨0x40060904, [(32, 0x10)], 0x0, [⟨0, 2, .ro, .live, []⟩, ⟨2, 2, .ro, .live, []⟩, ⟨4, 4, .ro, .live, []⟩, ⟨8, 8, .ro, .live, []⟩, ⟨16, 1, .ro, .live, []⟩]⟩,
  ⟨0x40060908, [(32, 0x10)], 0x0, [⟨0, 32, .ro, .live, []⟩]⟩,
  ⟨0x4006090C, [(32, 0x10)], 0x0, [⟨0, 32, .ro, .live, []⟩]⟩]

/-- Registers of block PWRB (rules R503). -/
def regMapPWRB : List RegSpec := [
  ⟨0x40002000, [], 0x7D0346, [⟨0, 8, .rw, .live, [(30, 80)]⟩, ⟨8, 8, .rw, .live, [(1, 10)]⟩, ⟨16, 8, .rw, .live, [(85, 135)]⟩]⟩,
  ⟨0x40002004, [], 0x0, [⟨0, 3, .ro, .live, []⟩, ⟨3, 1, .ro, .live, []⟩, ⟨4, 1, .w1c, .live, []⟩, ⟨5, 1, .w1c, .live, []⟩]⟩,
  ⟨0x40002008, [], 0x0, [⟨0, 16, .ro, .live, []⟩, ⟨16, 16, .rc, .live, []⟩]⟩,
  ⟨0x4000200C, [], 0x80000000, [⟨0, 16, .ro, .live, []⟩, ⟨16, 16, .rc, .live, []⟩]⟩,
  ⟨0x40002010, [], 0x0, [⟨0, 32, .rc, .live, []⟩]⟩]

/-- Registers of block CLK (rules R518). -/
def regMapCLK : List RegSpec := [
  ⟨0x40001000, [], 0x0, [⟨0, 1, .ro, .live, []⟩, ⟨1, 3, .ro, .live, []⟩, ⟨4, 3, .ro, .live, []⟩, ⟨7, 3, .w1c, .live, []⟩, ⟨10, 1, .w1c, .live, []⟩]⟩,
  ⟨0x40001010, [(3, 0x4)], 0x0, [⟨0, 4, .ro, .live, []⟩, ⟨8, 8, .ro, .live, []⟩, ⟨16, 16, .rc, .live, []⟩]⟩,
  ⟨0x40001020, [], 0x7A0, [⟨0, 1, .rw, .live, []⟩, ⟨1, 1, .rw, .static, []⟩, ⟨2, 4, .rw, .static, []⟩, ⟨6, 6, .rw, .static, [(30, 60)]⟩]⟩,
  ⟨0x40001024, [], 0x0, [⟨0, 10, .rw, .live, []⟩]⟩]

/-- Registers of block LEDGER (rules R519). -/
def regMapLEDGER : List RegSpec := [
  ⟨0x40003000, [], 0x18201800, [⟨0, 1, .rw, .live, []⟩, ⟨1, 1, .wo, .live, []⟩, ⟨8, 8, .rw, .static, [(1, 168)]⟩, ⟨16, 6, .rw, .static, [(4, 63)]⟩, ⟨24, 8, .rw, .static, []⟩]⟩,
  ⟨0x40003004, [], 0x0, [⟨0, 1, .w1c, .live, []⟩, ⟨1, 1, .w1c, .live, []⟩, ⟨2, 1, .w1c, .live, []⟩, ⟨3, 1, .w1c, .live, []⟩]⟩,
  ⟨0x40003008, [], 0xFFFF, [⟨0, 16, .ro, .live, []⟩, ⟨16, 4, .ro, .live, []⟩]⟩,
  ⟨0x4000300C, [], 0xFFFFFFFF, [⟨0, 16, .ro, .live, []⟩, ⟨16, 16, .ro, .live, []⟩]⟩,
  ⟨0x40003010, [], 0x0, [⟨0, 32, .rw, .live, []⟩]⟩,
  ⟨0x40003014, [], 0x0, [⟨0, 32, .rw, .live, []⟩]⟩,
  ⟨0x40003040, [(6, 0x4)], 0xFFFF0000, [⟨0, 16, .ro, .live, []⟩, ⟨16, 16, .ro, .live, []⟩]⟩,
  ⟨0x40003080, [(14, 0x4)], 0x0, [⟨0, 16, .ro, .live, []⟩]⟩,
  ⟨0x400030BC, [], 0x8, [⟨0, 4, .ro, .live, []⟩]⟩,
  ⟨0x400030C0, [], 0x0, [⟨0, 32, .ro, .live, []⟩]⟩,
  ⟨0x400030C4, [], 0x0, [⟨0, 32, .ro, .live, []⟩]⟩,
  ⟨0x400030C8, [], 0x0, [⟨0, 32, .rw, .live, []⟩]⟩,
  ⟨0x400030CC, [], 0x0, [⟨0, 32, .rw, .live, []⟩]⟩,
  ⟨0x400030D0, [], 0x4000000, [⟨0, 2, .rw, .live, []⟩, ⟨2, 6, .rw, .live, []⟩, ⟨8, 6, .rw, .live, []⟩, ⟨14, 6, .rw, .live, [(0, 47)]⟩, ⟨20, 8, .rw, .live, [(1, 255)]⟩]⟩,
  ⟨0x400030D4, [], 0x0, [⟨0, 32, .rw, .live, []⟩]⟩,
  ⟨0x400030D8, [], 0x0, [⟨0, 32, .rw, .live, []⟩]⟩,
  ⟨0x400030DC, [], 0x0, [⟨0, 1, .wo, .live, []⟩]⟩,
  ⟨0x400030E0, [], 0x0, [⟨0, 24, .rw, .live, []⟩]⟩,
  ⟨0x400030F0, [], 0x0, [⟨0, 6, .rw, .live, []⟩, ⟨8, 3, .rw, .live, [(0, 5)]⟩]⟩,
  ⟨0x400030F4, [], 0x0, [⟨0, 32, .rw, .live, []⟩]⟩,
  ⟨0x400030F8, [], 0x0, [⟨0, 16, .rw, .live, []⟩, ⟨16, 1, .rw, .live, []⟩]⟩,
  ⟨0x40003100, [(24, 0x4)], 0x0, [⟨0, 8, .rw, .live, []⟩, ⟨8, 8, .ro, .live, []⟩]⟩,
  ⟨0x40003200, [], 0x0, [⟨0, 1, .wo, .live, []⟩, ⟨1, 1, .wo, .live, []⟩, ⟨16, 16, .wo, .live, []⟩]⟩,
  ⟨0x40003204, [], 0x0, [⟨0, 2, .ro, .live, []⟩, ⟨2, 2, .ro, .live, []⟩, ⟨4, 4, .ro, .live, []⟩, ⟨8, 3, .ro, .live, []⟩, ⟨11, 6, .ro, .live, []⟩, ⟨17, 6, .ro, .live, []⟩, ⟨23, 8, .ro, .live, []⟩]⟩]

/-! Names of the fields. -/
namespace R

def SYSCTL_DEVID_FAMILY : Fld := ⟨0x40000000, 24, 8⟩
def SYSCTL_DEVID_PART : Fld := ⟨0x40000000, 8, 16⟩
def SYSCTL_DEVID_STEPPING : Fld := ⟨0x40000000, 0, 8⟩
def SYSCTL_ECC_CORR_COUNT : Fld := ⟨0x40000040, 0, 16⟩
def SYSCTL_ECC_CORR_MACRO : Fld := ⟨0x40000040, 16, 7⟩
def SYSCTL_MODE_CUR : Fld := ⟨0x40000010, 0, 4⟩
def SYSCTL_MODE_PREV : Fld := ⟨0x40000010, 4, 4⟩
def SYSCTL_MODE_CAUSE : Fld := ⟨0x40000010, 8, 8⟩
def SYSCTL_MODE_TRANSIT : Fld := ⟨0x40000010, 16, 1⟩
def SYSCTL_MODE_DEGRADED : Fld := ⟨0x40000010, 17, 1⟩
def SYSCTL_MODE_REQ_TARGET : Fld := ⟨0x40000014, 0, 4⟩
def SYSCTL_MODE_REQ_KEY : Fld := ⟨0x40000014, 16, 16⟩
def SYSCTL_MODE_STAT_BUSY : Fld := ⟨0x40000018, 0, 1⟩
def SYSCTL_MODE_STAT_REFUSED : Fld := ⟨0x40000018, 1, 1⟩
def SYSCTL_MODE_STAT_REASON : Fld := ⟨0x40000018, 4, 4⟩
def SYSCTL_RST_CAUSE_POR : Fld := ⟨0x40000020, 0, 1⟩
def SYSCTL_RST_CAUSE_BROWNOUT : Fld := ⟨0x40000020, 1, 1⟩
def SYSCTL_RST_CAUSE_WARM_PIN : Fld := ⟨0x40000020, 2, 1⟩
def SYSCTL_RST_CAUSE_SW : Fld := ⟨0x40000020, 3, 1⟩
def SYSCTL_RST_CAUSE_WDOG : Fld := ⟨0x40000020, 4, 1⟩
def SYSCTL_RST_CAUSE_DEBUG : Fld := ⟨0x40000020, 5, 1⟩
def SYSCTL_RST_CAUSE_BOOT_RSV : Fld := ⟨0x40000020, 6, 1⟩
def SYSCTL_RST_REQ_WARM : Fld := ⟨0x40000024, 0, 1⟩
def SYSCTL_RST_REQ_KEY : Fld := ⟨0x40000024, 16, 16⟩
def SYSCTL_WDOG_TIMEOUT : Fld := ⟨0x40000030, 0, 16⟩
def SYSCTL_WDOG_EN : Fld := ⟨0x40000030, 16, 1⟩
def SYSCTL_BOOT_PINS : Fld := ⟨0x40000028, 0, 3⟩
def SYSCTL_BOOT_SLOT : Fld := ⟨0x40000028, 3, 1⟩
def SYSCTL_BOOT_FAIL : Fld := ⟨0x40000028, 8, 8⟩
def CFG_STATUS_LOADED : Fld := ⟨0x40004000, 0, 1⟩
def CFG_STATUS_FIXED_OVR : Fld := ⟨0x40004000, 1, 1⟩
def CFG_STATUS_KEY_SLOT : Fld := ⟨0x40004000, 2, 2⟩
def CFG_STATUS_ERR : Fld := ⟨0x40004000, 8, 8⟩
def CFG_STATUS_SECTION : Fld := ⟨0x40004000, 16, 10⟩
def CFG_STATUS_SPLIT : Fld := ⟨0x40004000, 26, 1⟩
def CFG_STATUS_NOSECT : Fld := ⟨0x40004000, 27, 1⟩
def CFG_COLO0_LO : Fld := ⟨0x40004010, 0, 32⟩
def CFG_COLO0_HI : Fld := ⟨0x40004014, 0, 32⟩
def CFG_COLO_A_LO : Fld := ⟨0x40004018, 0, 32⟩
def CFG_COLO_A_HI : Fld := ⟨0x4000401C, 0, 32⟩
def CFG_COLO_B_LO : Fld := ⟨0x40004020, 0, 32⟩
def CFG_COLO_B_HI : Fld := ⟨0x40004024, 0, 32⟩
def CFG_WERR_INFO_REASON : Fld := ⟨0x40004034, 0, 4⟩
def CFG_WERR_INFO_BLOCK : Fld := ⟨0x40004034, 8, 8⟩
def CFG_WERR_INFO_COUNT : Fld := ⟨0x40004034, 16, 8⟩
def CFG_WERR_INFO_REPLACED : Fld := ⟨0x40004034, 24, 8⟩
def CFG_COEF_CTRL_COUNT : Fld := ⟨0x40004044, 0, 7⟩
def CFG_COEF_CTRL_LOOPSET : Fld := ⟨0x40004044, 8, 4⟩
def CFG_COEF_CTRL_COMMIT : Fld := ⟨0x40004044, 16, 1⟩
def CFG_COEF_CTRL_PENDING : Fld := ⟨0x40004044, 17, 1⟩
def WV_STATUS_RUN (i : Nat) : Fld := ⟨0x40008000 + 0x1000 * i, 0, 1⟩
def WV_STATUS_FORMED (i : Nat) : Fld := ⟨0x40008000 + 0x1000 * i, 1, 1⟩
def WV_STATUS_SPARES_USED (i : Nat) : Fld := ⟨0x40008000 + 0x1000 * i, 2, 2⟩
def WV_STATUS_TAGS_FREE (i : Nat) : Fld := ⟨0x40008000 + 0x1000 * i, 8, 9⟩
def WV_LS_RUN_RUNNING (i : Nat) : Fld := ⟨0x40008004 + 0x1000 * i, 0, 16⟩
def WV_LS_RUN_PENDING (i : Nat) : Fld := ⟨0x40008004 + 0x1000 * i, 16, 16⟩
def WV_WINDOW_MIN_FREE (i : Nat) : Fld := ⟨0x40008008 + 0x1000 * i, 0, 9⟩
def WV_WINDOW_LAST_LS (i : Nat) : Fld := ⟨0x40008008 + 0x1000 * i, 12, 4⟩
def WV_WINDOW_FULL_COUNT (i : Nat) : Fld := ⟨0x40008008 + 0x1000 * i, 16, 8⟩
def WV_STALL_CYCLES (i : Nat) : Fld := ⟨0x4000800C + 0x1000 * i, 0, 32⟩
def WV_ECC_CORR (i : Nat) : Fld := ⟨0x40008010 + 0x1000 * i, 0, 16⟩
def WV_ECC_DED (i : Nat) : Fld := ⟨0x40008010 + 0x1000 * i, 16, 16⟩
def WV_CHAIN_MISS (i : Nat) : Fld := ⟨0x40008014 + 0x1000 * i, 0, 32⟩
def WV_STKCHK_STAKE (i : Nat) : Fld := ⟨0x40008018 + 0x1000 * i, 0, 32⟩
def WV_LS_TIME_LAST (i j : Nat) : Fld := ⟨0x40008040 + 0x1000 * i + 0x4 * j, 0, 16⟩
def WV_LS_TIME_MAX (i j : Nat) : Fld := ⟨0x40008040 + 0x1000 * i + 0x4 * j, 16, 16⟩
def WV_LS_CNT_RUNS (i j : Nat) : Fld := ⟨0x40008080 + 0x1000 * i + 0x4 * j, 0, 16⟩
def WV_LS_CNT_OVERRUN (i j : Nat) : Fld := ⟨0x40008080 + 0x1000 * i + 0x4 * j, 16, 8⟩
def WV_LS_CNT_LOST (i j : Nat) : Fld := ⟨0x40008080 + 0x1000 * i + 0x4 * j, 24, 8⟩
def WV_LS_CFG_KIND (i j : Nat) : Fld := ⟨0x400080C0 + 0x1000 * i + 0x4 * j, 0, 2⟩
def WV_LS_CFG_UNIT (i j : Nat) : Fld := ⟨0x400080C0 + 0x1000 * i + 0x4 * j, 8, 6⟩
def WV_LS_CFG_PRIORITY (i j : Nat) : Fld := ⟨0x400080C0 + 0x1000 * i + 0x4 * j, 16, 4⟩
def WV_LS_CFG_RUN (i j : Nat) : Fld := ⟨0x400080C0 + 0x1000 * i + 0x4 * j, 20, 1⟩
def WV_LS_CFG_DEFINED (i j : Nat) : Fld := ⟨0x400080C0 + 0x1000 * i + 0x4 * j, 21, 1⟩
def WV_LS_PERIOD_NS (i j : Nat) : Fld := ⟨0x40008100 + 0x1000 * i + 0x4 * j, 0, 32⟩
def WV_MAP_PHYS (i j : Nat) : Fld := ⟨0x40008180 + 0x1000 * i + 0x4 * j, 0, 6⟩
def WV_MAP_SPARE (i j : Nat) : Fld := ⟨0x40008180 + 0x1000 * i + 0x4 * j, 8, 1⟩
def ADC_CTRL_EN (i : Nat) : Fld := ⟨0x40010000 + 0x1000 * i, 0, 1⟩
def ADC_STATUS_SEQ_ACTIVE (i : Nat) : Fld := ⟨0x40010004 + 0x1000 * i, 0, 1⟩
def ADC_STATUS_INJ_BUSY (i : Nat) : Fld := ⟨0x40010004 + 0x1000 * i, 1, 1⟩
def ADC_STATUS_CAL_BUSY (i : Nat) : Fld := ⟨0x40010004 + 0x1000 * i, 2, 1⟩
def ADC_STATUS_HANDED (i : Nat) : Fld := ⟨0x40010004 + 0x1000 * i, 3, 1⟩
def ADC_STATUS_CARRYING (i : Nat) : Fld := ⟨0x40010004 + 0x1000 * i, 4, 1⟩
def ADC_STATUS_OUT (i : Nat) : Fld := ⟨0x40010004 + 0x1000 * i, 5, 1⟩
def ADC_STATUS_INCOMPLETE (i : Nat) : Fld := ⟨0x40010004 + 0x1000 * i, 6, 1⟩
def ADC_STATUS_WERR (i : Nat) : Fld := ⟨0x40010004 + 0x1000 * i, 7, 1⟩
def ADC_COMMIT_COMMIT (i : Nat) : Fld := ⟨0x40010008 + 0x1000 * i, 0, 1⟩
def ADC_CAL_START (i : Nat) : Fld := ⟨0x4001000C + 0x1000 * i, 0, 1⟩
def ADC_CAL_FREEZE (i : Nat) : Fld := ⟨0x4001000C + 0x1000 * i, 1, 1⟩
def ADC_CAL_REFUSED (i : Nat) : Fld := ⟨0x4001000C + 0x1000 * i, 2, 1⟩
def ADC_CAL_FAILED (i : Nat) : Fld := ⟨0x4001000C + 0x1000 * i, 3, 1⟩
def ADC_CAL_REASON (i : Nat) : Fld := ⟨0x4001000C + 0x1000 * i, 4, 4⟩
def ADC_CNT_INJ_DROP (i : Nat) : Fld := ⟨0x40010010 + 0x1000 * i, 0, 16⟩
def ADC_CNT_SEQ_OVR (i : Nat) : Fld := ⟨0x40010010 + 0x1000 * i, 16, 8⟩
def ADC_CNT_SEQ_LOST (i : Nat) : Fld := ⟨0x40010010 + 0x1000 * i, 24, 8⟩
def ADC_PAIRCFG_REF_EXPECT (i : Nat) : Fld := ⟨0x40010014 + 0x1000 * i, 0, 16⟩
def ADC_PAIRCFG_REF_WIN (i : Nat) : Fld := ⟨0x40010014 + 0x1000 * i, 16, 16⟩
def ADC_PAIRCNT_MISMATCH (i : Nat) : Fld := ⟨0x40010018 + 0x1000 * i, 0, 16⟩
def ADC_PAIRCNT_SKIPPED (i : Nat) : Fld := ⟨0x40010018 + 0x1000 * i, 16, 16⟩
def ADC_INJ_SW_REQ (i : Nat) : Fld := ⟨0x4001001C + 0x1000 * i, 0, 4⟩
def ADC_INJ_CFG_AIN (i j : Nat) : Fld := ⟨0x40010020 + 0x1000 * i + 0x4 * j, 0, 6⟩
def ADC_INJ_CFG_TRIG (i j : Nat) : Fld := ⟨0x40010020 + 0x1000 * i + 0x4 * j, 8, 2⟩
def ADC_INJ_CFG_UNIT (i j : Nat) : Fld := ⟨0x40010020 + 0x1000 * i + 0x4 * j, 10, 6⟩
def ADC_INJ_CFG_EN (i j : Nat) : Fld := ⟨0x40010020 + 0x1000 * i + 0x4 * j, 16, 1⟩
def ADC_QSTAT_LEVEL (i : Nat) : Fld := ⟨0x40010030 + 0x1000 * i, 0, 11⟩
def ADC_QSTAT_QLOSS (i : Nat) : Fld := ⟨0x40010030 + 0x1000 * i, 16, 16⟩
def ADC_QTAG_CODE (i : Nat) : Fld := ⟨0x40010034 + 0x1000 * i, 0, 16⟩
def ADC_QTAG_AIN (i : Nat) : Fld := ⟨0x40010034 + 0x1000 * i, 16, 6⟩
def ADC_QTAG_INJ (i : Nat) : Fld := ⟨0x40010034 + 0x1000 * i, 22, 1⟩
def ADC_QTAG_CARRIED (i : Nat) : Fld := ⟨0x40010034 + 0x1000 * i, 23, 1⟩
def ADC_QTAG_OVR (i : Nat) : Fld := ⟨0x40010034 + 0x1000 * i, 24, 1⟩
def ADC_QTAG_SHARED (i : Nat) : Fld := ⟨0x40010034 + 0x1000 * i, 25, 1⟩
def ADC_QTAG_SEQ (i : Nat) : Fld := ⟨0x40010034 + 0x1000 * i, 26, 6⟩
def ADC_QTIME_STAMP (i : Nat) : Fld := ⟨0x40010038 + 0x1000 * i, 0, 32⟩
def ADC_WC_CFG_AIN (i j : Nat) : Fld := ⟨0x40010040 + 0x1000 * i + 0x8 * j, 0, 6⟩
def ADC_WC_CFG_EN (i j : Nat) : Fld := ⟨0x40010040 + 0x1000 * i + 0x8 * j, 6, 1⟩
def ADC_WC_LIM_LO (i j : Nat) : Fld := ⟨0x40010044 + 0x1000 * i + 0x8 * j, 0, 16⟩
def ADC_WC_LIM_HI (i j : Nat) : Fld := ⟨0x40010044 + 0x1000 * i + 0x8 * j, 16, 16⟩
def ADC_WCSTAT_OUT (i : Nat) : Fld := ⟨0x40010080 + 0x1000 * i, 0, 8⟩
def ADC_WCSTAT_NOW (i : Nat) : Fld := ⟨0x40010080 + 0x1000 * i, 8, 8⟩
def ADC_SLICE_TRIM_SKEW (i j : Nat) : Fld := ⟨0x400100A0 + 0x1000 * i + 0x4 * j, 0, 12⟩
def ADC_SLICE_TRIM_GAIN (i j : Nat) : Fld := ⟨0x400100A0 + 0x1000 * i + 0x4 * j, 12, 12⟩
def ADC_SLICE_TRIM_OFFSET (i j : Nat) : Fld := ⟨0x400100A0 + 0x1000 * i + 0x4 * j, 24, 8⟩
def ADC_SLICEMAP_FAILED (i : Nat) : Fld := ⟨0x400100C4 + 0x1000 * i, 0, 9⟩
def ADC_SLICEMAP_REPL (i : Nat) : Fld := ⟨0x400100C4 + 0x1000 * i, 9, 3⟩
def ADC_SLICEMAP_SPARE_USED (i : Nat) : Fld := ⟨0x400100C4 + 0x1000 * i, 12, 1⟩
def ADC_SLICEMAP_OUT (i : Nat) : Fld := ⟨0x400100C4 + 0x1000 * i, 13, 1⟩
def ADC_T_LIM_LO (i j : Nat) : Fld := ⟨0x40010100 + 0x1000 * i + 0x40 * j, 0, 16⟩
def ADC_T_LIM_HI (i j : Nat) : Fld := ⟨0x40010100 + 0x1000 * i + 0x40 * j, 16, 16⟩
def ADC_T_WIN_WIN_N (i j : Nat) : Fld := ⟨0x40010104 + 0x1000 * i + 0x40 * j, 0, 24⟩
def ADC_T_WIN_EXCEED_N (i j : Nat) : Fld := ⟨0x40010104 + 0x1000 * i + 0x40 * j, 24, 8⟩
def ADC_T_SUM_LO_SUM (i j : Nat) : Fld := ⟨0x40010108 + 0x1000 * i + 0x40 * j, 0, 32⟩
def ADC_T_SUM_HI_SUM (i j : Nat) : Fld := ⟨0x4001010C + 0x1000 * i + 0x40 * j, 0, 32⟩
def ADC_T_SQ_LO_SQ (i j : Nat) : Fld := ⟨0x40010110 + 0x1000 * i + 0x40 * j, 0, 32⟩
def ADC_T_SQ_HI_SQ (i j : Nat) : Fld := ⟨0x40010114 + 0x1000 * i + 0x40 * j, 0, 24⟩
def ADC_T_MINMAX_MIN (i j : Nat) : Fld := ⟨0x40010118 + 0x1000 * i + 0x40 * j, 0, 16⟩
def ADC_T_MINMAX_MAX (i j : Nat) : Fld := ⟨0x40010118 + 0x1000 * i + 0x40 * j, 16, 16⟩
def ADC_T_COUNT_N (i j : Nat) : Fld := ⟨0x4001011C + 0x1000 * i + 0x40 * j, 0, 24⟩
def ADC_T_COUNT_WSEQ (i j : Nat) : Fld := ⟨0x4001011C + 0x1000 * i + 0x40 * j, 24, 8⟩
def SDF_CTRL_EN : Fld := ⟨0x40014000, 0, 1⟩
def SDF_STATUS_INCOMPLETE : Fld := ⟨0x40014004, 0, 1⟩
def SDF_STATUS_WERR : Fld := ⟨0x40014004, 1, 1⟩
def SDF_STATUS_RECOVERING : Fld := ⟨0x40014004, 2, 1⟩
def SDF_COMMIT_COMMIT : Fld := ⟨0x40014008, 0, 1⟩
def SDF_CLK_FREQ (i : Nat) : Fld := ⟨0x40014010 + 0x4 * i, 0, 8⟩
def SDF_CH_CFG_EN (i : Nat) : Fld := ⟨0x40014100 + 0x40 * i, 0, 1⟩
def SDF_CH_CFG_EDGE (i : Nat) : Fld := ⟨0x40014100 + 0x40 * i, 1, 1⟩
def SDF_CH_CFG_SDC (i : Nat) : Fld := ⟨0x40014100 + 0x40 * i, 2, 3⟩
def SDF_CH_CFG_SAMPLE_DLY (i : Nat) : Fld := ⟨0x40014100 + 0x40 * i, 5, 4⟩
def SDF_CH_CFG_STUCK_N (i : Nat) : Fld := ⟨0x40014100 + 0x40 * i, 16, 4⟩
def SDF_CH_FILT_PRESET (i : Nat) : Fld := ⟨0x40014104 + 0x40 * i, 0, 2⟩
def SDF_CH_FILT_DCB_EN (i : Nat) : Fld := ⟨0x40014104 + 0x40 * i, 2, 1⟩
def SDF_CH_FILT_CORNER (i : Nat) : Fld := ⟨0x40014104 + 0x40 * i, 4, 7⟩
def SDF_CH_FILT_S1_LEG (i : Nat) : Fld := ⟨0x40014104 + 0x40 * i, 16, 6⟩
def SDF_CH_DCB_FREEZE (i : Nat) : Fld := ⟨0x40014108 + 0x40 * i, 0, 1⟩
def SDF_CH_DCB_EST_EST (i : Nat) : Fld := ⟨0x4001410C + 0x40 * i, 0, 32⟩
def SDF_CH_LIM_LO (i : Nat) : Fld := ⟨0x40014110 + 0x40 * i, 0, 16⟩
def SDF_CH_LIM_HI (i : Nat) : Fld := ⟨0x40014110 + 0x40 * i, 16, 16⟩
def SDF_CH_RS_CTRL_EN (i : Nat) : Fld := ⟨0x40014114 + 0x40 * i, 0, 1⟩
def SDF_CH_RS_CTRL_ACTIVE (i : Nat) : Fld := ⟨0x40014114 + 0x40 * i, 1, 1⟩
def SDF_CH_RS_CTRL_PREEMPT (i : Nat) : Fld := ⟨0x40014114 + 0x40 * i, 2, 1⟩
def SDF_CH_RS_CTRL_PHASE (i : Nat) : Fld := ⟨0x40014114 + 0x40 * i, 8, 6⟩
def SDF_CH_RS_RATIO_RATIO (i : Nat) : Fld := ⟨0x40014118 + 0x40 * i, 0, 32⟩
def SDF_CH_DATA_WORD (i : Nat) : Fld := ⟨0x4001411C + 0x40 * i, 0, 32⟩
def SDF_CH_STAMP_TIME (i : Nat) : Fld := ⟨0x40014120 + 0x40 * i, 0, 32⟩
def SDF_CH_STAT_STUCK (i : Nat) : Fld := ⟨0x40014124 + 0x40 * i, 0, 1⟩
def SDF_CH_STAT_LIM_OUT (i : Nat) : Fld := ⟨0x40014124 + 0x40 * i, 1, 1⟩
def SDF_CH_STAT_LIM_NOW (i : Nat) : Fld := ⟨0x40014124 + 0x40 * i, 2, 1⟩
def SDF_CH_STAT_S1_TRUNC (i : Nat) : Fld := ⟨0x40014124 + 0x40 * i, 3, 1⟩
def SDF_CH_STAT_SAT (i : Nat) : Fld := ⟨0x40014124 + 0x40 * i, 4, 1⟩
def SDF_CH_CNT_WORDS (i : Nat) : Fld := ⟨0x40014128 + 0x40 * i, 0, 16⟩
def SDF_CH_CNT_RS_SKIP (i : Nat) : Fld := ⟨0x40014128 + 0x40 * i, 16, 16⟩
def PWM_LEG_CFG_FMT (i : Nat) : Fld := ⟨0x40020000 + 0x100 * i, 0, 1⟩
def PWM_LEG_CFG_OUTMODE (i : Nat) : Fld := ⟨0x40020000 + 0x100 * i, 1, 1⟩
def PWM_LEG_CTRL_EN (i : Nat) : Fld := ⟨0x40020004 + 0x100 * i, 0, 1⟩
def PWM_LEG_CTRL_CLR_FAULT (i : Nat) : Fld := ⟨0x40020004 + 0x100 * i, 1, 1⟩
def PWM_LEG_COMMIT_COMMIT (i : Nat) : Fld := ⟨0x4002001C + 0x100 * i, 0, 1⟩
def PWM_LEG_PERIOD_P (i : Nat) : Fld := ⟨0x40020008 + 0x100 * i, 0, 24⟩
def PWM_LEG_CMPA_C (i : Nat) : Fld := ⟨0x4002000C + 0x100 * i, 0, 24⟩
def PWM_LEG_CMPB_C (i : Nat) : Fld := ⟨0x40020010 + 0x100 * i, 0, 24⟩
def PWM_LEG_DT_DT (i : Nat) : Fld := ⟨0x40020014 + 0x100 * i, 0, 12⟩
def PWM_LEG_EVT_POS (i : Nat) : Fld := ⟨0x40020018 + 0x100 * i, 0, 24⟩
def PWM_LEG_PHASE_PHASE (i : Nat) : Fld := ⟨0x40020020 + 0x100 * i, 0, 24⟩
def PWM_LEG_BOOT_K (i : Nat) : Fld := ⟨0x40020024 + 0x100 * i, 0, 8⟩
def PWM_LEG_BOOT_WIDTH (i : Nat) : Fld := ⟨0x40020024 + 0x100 * i, 8, 12⟩
def PWM_LEG_STAT_STATE (i : Nat) : Fld := ⟨0x40020028 + 0x100 * i, 0, 2⟩
def PWM_LEG_STAT_HIZ_CAUSE (i : Nat) : Fld := ⟨0x40020028 + 0x100 * i, 2, 3⟩
def PWM_LEG_STAT_STALE_DUTY (i : Nat) : Fld := ⟨0x40020028 + 0x100 * i, 5, 1⟩
def PWM_LEG_STAT_SET_REJ (i : Nat) : Fld := ⟨0x40020028 + 0x100 * i, 6, 1⟩
def PWM_LEG_STAT_SHOOT (i : Nat) : Fld := ⟨0x40020028 + 0x100 * i, 7, 1⟩
def PWM_LEG_STAT_SOFTOFF_ACT (i : Nat) : Fld := ⟨0x40020028 + 0x100 * i, 8, 1⟩
def PWM_LEG_STAT_PENDING (i : Nat) : Fld := ⟨0x40020028 + 0x100 * i, 9, 1⟩
def PWM_LEG_STAT_FROZEN (i : Nat) : Fld := ⟨0x40020028 + 0x100 * i, 10, 1⟩
def PWM_LEG_STAT_NEG_DUTY (i : Nat) : Fld := ⟨0x40020028 + 0x100 * i, 11, 1⟩
def PWM_LEG_STAT_REFRESH_CLIP (i : Nat) : Fld := ⟨0x40020028 + 0x100 * i, 12, 1⟩
def PWM_LEG_STAT_TAP (i : Nat) : Fld := ⟨0x40020028 + 0x100 * i, 13, 1⟩
def PWM_LEG_STAT_WERR (i : Nat) : Fld := ⟨0x40020028 + 0x100 * i, 14, 1⟩
def PWM_LEG_CNT_COMMIT_LATE (i : Nat) : Fld := ⟨0x4002002C + 0x100 * i, 0, 8⟩
def PWM_LEG_CNT_SHOOT (i : Nat) : Fld := ⟨0x4002002C + 0x100 * i, 8, 8⟩
def PWM_LEG_CNT_STALE (i : Nat) : Fld := ⟨0x4002002C + 0x100 * i, 16, 8⟩
def PWM_LEG_CNT_REFRESH (i : Nat) : Fld := ⟨0x4002002C + 0x100 * i, 24, 8⟩
def PWM_LEG_LIVE_PERIOD_P (i : Nat) : Fld := ⟨0x40020030 + 0x100 * i, 0, 24⟩
def PWM_LEG_LIVE_CMPA_C (i : Nat) : Fld := ⟨0x40020034 + 0x100 * i, 0, 24⟩
def PWM_LEG_LIVE_CMPB_C (i : Nat) : Fld := ⟨0x40020038 + 0x100 * i, 0, 24⟩
def PWM_LEG_LIVE_DT_DT (i : Nat) : Fld := ⟨0x4002003C + 0x100 * i, 0, 12⟩
def PWM_LEG_MAP_OWNER (i : Nat) : Fld := ⟨0x40020040 + 0x100 * i, 0, 2⟩
def PWM_LEG_MAP_GROUP (i : Nat) : Fld := ⟨0x40020040 + 0x100 * i, 2, 4⟩
def PWM_LEG_MAP_INACTIVE (i : Nat) : Fld := ⟨0x40020040 + 0x100 * i, 6, 2⟩
def PWM_LEG_MAP_MODE (i : Nat) : Fld := ⟨0x40020040 + 0x100 * i, 8, 1⟩
def PWM_LEG_MAP_BOOT (i : Nat) : Fld := ⟨0x40020040 + 0x100 * i, 9, 1⟩
def PWM_LEG_MAP_SOFTOFF (i : Nat) : Fld := ⟨0x40020040 + 0x100 * i, 10, 1⟩
def PWM_LEG_MAP_GUARD (i : Nat) : Fld := ⟨0x40020040 + 0x100 * i, 11, 7⟩
def PWM_LEG_MAP_DT_FLOOR (i : Nat) : Fld := ⟨0x40020040 + 0x100 * i, 18, 12⟩
def PWM_CTRL_EN : Fld := ⟨0x40023000, 0, 1⟩
def PWM_STATUS_WERR : Fld := ⟨0x40023004, 0, 1⟩
def PWM_WRITE_ERR_LEG : Fld := ⟨0x40023008, 0, 6⟩
def PWM_WRITE_ERR_SRC : Fld := ⟨0x40023008, 6, 2⟩
def PWM_WRITE_ERR_COUNT : Fld := ⟨0x40023008, 8, 8⟩
def PWM_RESYNC_GROUPS : Fld := ⟨0x4002300C, 0, 16⟩
def PWM_HIZ0_LEGS : Fld := ⟨0x40023010, 0, 32⟩
def PWM_HIZ1_LEGS : Fld := ⟨0x40023014, 0, 16⟩
def PWM_SHOOT0_LEGS : Fld := ⟨0x40023018, 0, 32⟩
def PWM_SHOOT1_LEGS : Fld := ⟨0x4002301C, 0, 16⟩
def GSUP_CTRL_EN : Fld := ⟨0x40024000, 0, 1⟩
def GSUP_CTRL_SOFTOFF_EN : Fld := ⟨0x40024000, 1, 1⟩
def GSUP_STATUS_INCOMPLETE : Fld := ⟨0x40024004, 0, 1⟩
def GSUP_STATUS_WERR : Fld := ⟨0x40024004, 1, 1⟩
def GSUP_COMMIT_COMMIT : Fld := ⟨0x40024008, 0, 1⟩
def GSUP_TRIPPED_OSV : Fld := ⟨0x40024010, 0, 24⟩
def GSUP_DRVTRIP_DRV : Fld := ⟨0x40024014, 0, 24⟩
def GSUP_OSV_CFG_EN (i : Nat) : Fld := ⟨0x40024100 + 0x20 * i, 0, 1⟩
def GSUP_OSV_CFG_LEG (i : Nat) : Fld := ⟨0x40024100 + 0x20 * i, 1, 6⟩
def GSUP_OSV_CFG_SIDE (i : Nat) : Fld := ⟨0x40024100 + 0x20 * i, 7, 1⟩
def GSUP_OSV_CFG_GRP (i : Nat) : Fld := ⟨0x40024100 + 0x20 * i, 8, 1⟩
def GSUP_OSV_CFG_SOFTOFF (i : Nat) : Fld := ⟨0x40024100 + 0x20 * i, 9, 1⟩
def GSUP_OSV_TH_THRESH (i : Nat) : Fld := ⟨0x40024104 + 0x20 * i, 0, 8⟩
def GSUP_OSV_TH_BLANK (i : Nat) : Fld := ⟨0x40024104 + 0x20 * i, 8, 8⟩
def GSUP_OSV_TH_CONF (i : Nat) : Fld := ⟨0x40024104 + 0x20 * i, 16, 4⟩
def GSUP_OSV_GUARD_EN (i : Nat) : Fld := ⟨0x40024108 + 0x20 * i, 0, 1⟩
def GSUP_OSV_GUARD_ADC (i : Nat) : Fld := ⟨0x40024108 + 0x20 * i, 1, 2⟩
def GSUP_OSV_GUARD_WC (i : Nat) : Fld := ⟨0x40024108 + 0x20 * i, 3, 3⟩
def GSUP_OSV_SOFT_DELAY (i : Nat) : Fld := ⟨0x4002410C + 0x20 * i, 0, 8⟩
def GSUP_OSV_SWEEP_EN (i : Nat) : Fld := ⟨0x40024110 + 0x20 * i, 0, 1⟩
def GSUP_OSV_SWEEP_REFUSED (i : Nat) : Fld := ⟨0x40024110 + 0x20 * i, 1, 1⟩
def GSUP_OSV_SWEEP_EVERY (i : Nat) : Fld := ⟨0x40024110 + 0x20 * i, 8, 8⟩
def GSUP_OSV_SWEEP_SAMPLE (i : Nat) : Fld := ⟨0x40024110 + 0x20 * i, 16, 8⟩
def GSUP_OSV_SWRES_CODE (i : Nat) : Fld := ⟨0x40024114 + 0x20 * i, 0, 8⟩
def GSUP_OSV_SWRES_VALID (i : Nat) : Fld := ⟨0x40024114 + 0x20 * i, 8, 1⟩
def GSUP_OSV_SWRES_SEQ (i : Nat) : Fld := ⟨0x40024114 + 0x20 * i, 24, 8⟩
def GSUP_OSV_SWSTAMP_TIME (i : Nat) : Fld := ⟨0x40024118 + 0x20 * i, 0, 32⟩
def GSUP_DRV_CFG_EN (i : Nat) : Fld := ⟨0x40024400 + 0x4 * i, 0, 1⟩
def GSUP_DRV_CFG_LEG (i : Nat) : Fld := ⟨0x40024400 + 0x4 * i, 1, 6⟩
def GSUP_DRV_CFG_POL (i : Nat) : Fld := ⟨0x40024400 + 0x4 * i, 7, 1⟩
def GSUP_DRV_CFG_GRP (i : Nat) : Fld := ⟨0x40024400 + 0x4 * i, 8, 1⟩
def GSUP_DRV_CFG_FILT (i : Nat) : Fld := ⟨0x40024400 + 0x4 * i, 9, 6⟩
def LANE_CTRL_CMP_EN : Fld := ⟨0x4000A000, 0, 1⟩
def LANE_CTRL_SWAP : Fld := ⟨0x4000A000, 1, 1⟩
def LANE_CTRL_RESTART : Fld := ⟨0x4000A000, 2, 1⟩
def LANE_CTRL_TEST : Fld := ⟨0x4000A000, 3, 1⟩
def LANE_CTRL_KEY : Fld := ⟨0x4000A000, 16, 16⟩
def LANE_STATUS_ACTIVE : Fld := ⟨0x4000A004, 0, 1⟩
def LANE_STATUS_STATE_A : Fld := ⟨0x4000A004, 1, 3⟩
def LANE_STATUS_STATE_B : Fld := ⟨0x4000A004, 4, 3⟩
def LANE_STATUS_HOLD : Fld := ⟨0x4000A004, 7, 1⟩
def LANE_STATUS_SIMPLEX : Fld := ⟨0x4000A004, 8, 1⟩
def LANE_STATUS_NOSWITCH : Fld := ⟨0x4000A004, 9, 1⟩
def LANE_STATUS_WERR : Fld := ⟨0x4000A004, 10, 1⟩
def LANE_CFG_PARTNER_T : Fld := ⟨0x4000A008, 0, 8⟩
def LANE_CFG_BENIGN_LIM : Fld := ⟨0x4000A008, 8, 8⟩
def LANE_CFG_CONV_N : Fld := ⟨0x4000A008, 16, 8⟩
def LANE_CFG_RS_TMAX : Fld := ⟨0x4000A008, 24, 8⟩
def LANE_TOL_TOL0 (i : Nat) : Fld := ⟨0x4000A010 + 0x4 * i, 0, 8⟩
def LANE_TOL_TOL1 (i : Nat) : Fld := ⟨0x4000A010 + 0x4 * i, 8, 8⟩
def LANE_TOL_TOL2 (i : Nat) : Fld := ⟨0x4000A010 + 0x4 * i, 16, 8⟩
def LANE_TOL_TOL3 (i : Nat) : Fld := ⟨0x4000A010 + 0x4 * i, 24, 8⟩
def LANE_CNT_MISMATCH : Fld := ⟨0x4000A040, 0, 8⟩
def LANE_CNT_BENIGN : Fld := ⟨0x4000A040, 8, 8⟩
def LANE_CNT_SWITCH : Fld := ⟨0x4000A040, 16, 8⟩
def LANE_CNT_HOLD_TRIG : Fld := ⟨0x4000A040, 24, 8⟩
def LANE_CNT2_MIRROR_SKIP : Fld := ⟨0x4000A044, 0, 16⟩
def LANE_CNT2_CONV_MISS : Fld := ⟨0x4000A044, 16, 16⟩
def LANE_LAST_KIND : Fld := ⟨0x4000A048, 0, 2⟩
def LANE_LAST_TARGET : Fld := ⟨0x4000A048, 2, 2⟩
def LANE_LAST_UNIT : Fld := ⟨0x4000A048, 4, 6⟩
def LANE_LAST_FIELD : Fld := ⟨0x4000A048, 10, 4⟩
def LANE_LAST_LOOPSET : Fld := ⟨0x4000A048, 14, 4⟩
def LANE_LAST_VAL_A_VAL : Fld := ⟨0x4000A04C, 0, 32⟩
def LANE_LAST_VAL_B_VAL : Fld := ⟨0x4000A050, 0, 32⟩
def LANE_LAST_TIME_STAMP : Fld := ⟨0x4000A054, 0, 32⟩
def LANE_CHK_A_STAKES : Fld := ⟨0x4000A058, 0, 32⟩
def LANE_CHK_B_STAKES : Fld := ⟨0x4000A05C, 0, 32⟩
def LANE_BLAME_LOSER : Fld := ⟨0x4000A060, 0, 2⟩
def LANE_BLAME_RULE : Fld := ⟨0x4000A060, 2, 2⟩
def LANE_GAP_LAST : Fld := ⟨0x4000A064, 0, 16⟩
def LANE_GAP_MAX : Fld := ⟨0x4000A064, 16, 16⟩
def ACC_STATUS_NOTIFY : Fld := ⟨0x40030000, 0, 1⟩
def ACC_STATUS_INCOMPLETE : Fld := ⟨0x40030000, 1, 1⟩
def ACC_STATUS_WERR : Fld := ⟨0x40030000, 2, 1⟩
def ACC_STATUS_SAFE_HELD : Fld := ⟨0x40030000, 3, 1⟩
def ACC_STATUS_OVF : Fld := ⟨0x40030000, 4, 1⟩
def ACC_STATUS_FIRST_SAFE : Fld := ⟨0x40030000, 8, 8⟩
def ACC_STATUS_FIRST_VALID : Fld := ⟨0x40030000, 16, 1⟩
def ACC_COMMIT_COMMIT : Fld := ⟨0x40030004, 0, 1⟩
def ACC_CTRL_PROMO_REACT : Fld := ⟨0x40030008, 0, 2⟩
def ACC_FORCE_SRC : Fld := ⟨0x4003000C, 0, 8⟩
def ACC_FORCE_KEY : Fld := ⟨0x4003000C, 16, 16⟩
def ACC_FORCE_CTX_CTX : Fld := ⟨0x40030010, 0, 32⟩
def ACC_ACK_SRC : Fld := ⟨0x40030014, 0, 8⟩
def ACC_ACK_ALL : Fld := ⟨0x40030014, 8, 1⟩
def ACC_ACK_KEY : Fld := ⟨0x40030014, 16, 16⟩
def ACC_ACTIVE_SRC (i : Nat) : Fld := ⟨0x40030020 + 0x4 * i, 0, 32⟩
def ACC_SEV_SRC (i : Nat) : Fld := ⟨0x40030040 + 0x4 * i, 0, 32⟩
def ACC_COND_SRC (i : Nat) : Fld := ⟨0x40030060 + 0x4 * i, 0, 32⟩
def ACC_PROMO_SRC (i : Nat) : Fld := ⟨0x40030080 + 0x4 * i, 0, 32⟩
def ACC_GRACE_SRC (i : Nat) : Fld := ⟨0x400300A0 + 0x4 * i, 0, 32⟩
def ACC_LOGSTAT_LEVEL : Fld := ⟨0x400300C0, 0, 9⟩
def ACC_LOGSTAT_LOST : Fld := ⟨0x400300C0, 16, 16⟩
def ACC_LOG_W0_WORD : Fld := ⟨0x400300C4, 0, 32⟩
def ACC_LOG_W1_WORD : Fld := ⟨0x400300C8, 0, 32⟩
def ACC_LOG_W2_WORD : Fld := ⟨0x400300CC, 0, 32⟩
def ACC_LOG_W3_WORD : Fld := ⟨0x400300D0, 0, 32⟩
def ACC_SRC_CFG_EN (i : Nat) : Fld := ⟨0x40030400 + 0x4 * i, 0, 1⟩
def ACC_SRC_CFG_CLASS (i : Nat) : Fld := ⟨0x40030400 + 0x4 * i, 1, 2⟩
def ACC_SRC_CFG_REACTION (i : Nat) : Fld := ⟨0x40030400 + 0x4 * i, 3, 2⟩
def ACC_SRC_CFG_N (i : Nat) : Fld := ⟨0x40030400 + 0x4 * i, 8, 8⟩
def ACC_SRC_CFG_GRACE (i : Nat) : Fld := ⟨0x40030400 + 0x4 * i, 16, 10⟩
def ACC_SRC_CFG_FIXED (i : Nat) : Fld := ⟨0x40030400 + 0x4 * i, 31, 1⟩
def ACC_SRC_WIN_W (i : Nat) : Fld := ⟨0x40030700 + 0x4 * i, 0, 8⟩
def ACC_SRC_CNT_EVENTS (i : Nat) : Fld := ⟨0x40030A00 + 0x4 * i, 0, 16⟩
def ACC_SRC_CNT_STANDBY (i : Nat) : Fld := ⟨0x40030A00 + 0x4 * i, 16, 8⟩
def ACC_SRC_CNT_PROMOTED (i : Nat) : Fld := ⟨0x40030A00 + 0x4 * i, 24, 8⟩
def ARCH_CTRL_EN : Fld := ⟨0x40032000, 0, 1⟩
def ARCH_CTRL_NBANK : Fld := ⟨0x40032000, 1, 2⟩
def ARCH_CTRL_AUTO : Fld := ⟨0x40032000, 3, 1⟩
def ARCH_CTRL_ARMIO_IN : Fld := ⟨0x40032000, 4, 1⟩
def ARCH_CTRL_ARMIO_OUT : Fld := ⟨0x40032000, 5, 1⟩
def ARCH_CTRL_TRIGIO_IN : Fld := ⟨0x40032000, 6, 1⟩
def ARCH_CTRL_TRIGIO_OUT : Fld := ⟨0x40032000, 7, 1⟩
def ARCH_STATUS_STATE : Fld := ⟨0x40032004, 0, 2⟩
def ARCH_STATUS_BANK : Fld := ⟨0x40032004, 2, 2⟩
def ARCH_STATUS_DONE : Fld := ⟨0x40032004, 4, 4⟩
def ARCH_STATUS_THROTTLE : Fld := ⟨0x40032004, 8, 2⟩
def ARCH_STATUS_ARM_PEND : Fld := ⟨0x40032004, 10, 1⟩
def ARCH_STATUS_WERR : Fld := ⟨0x40032004, 11, 1⟩
def ARCH_STATUS_INCOMPLETE : Fld := ⟨0x40032004, 12, 1⟩
def ARCH_STATUS_CFGERR : Fld := ⟨0x40032004, 16, 8⟩
def ARCH_STATUS_CFGCH : Fld := ⟨0x40032004, 24, 6⟩
def ARCH_COMMIT_COMMIT : Fld := ⟨0x40032008, 0, 1⟩
def ARCH_ARM_ARM : Fld := ⟨0x4003200C, 0, 1⟩
def ARCH_ARM_DISARM : Fld := ⟨0x4003200C, 1, 1⟩
def ARCH_ARM_SWTRIG : Fld := ⟨0x4003200C, 2, 1⟩
def ARCH_ID_NEXT : Fld := ⟨0x40032010, 0, 16⟩
def ARCH_RELEASE_BANKS : Fld := ⟨0x40032014, 0, 4⟩
def ARCH_TRIG_PRE : Fld := ⟨0x40032018, 0, 16⟩
def ARCH_TRIG_POST : Fld := ⟨0x40032018, 16, 16⟩
def ARCH_TRIGSRC_UNITS : Fld := ⟨0x4003201C, 0, 8⟩
def ARCH_TRIGSRC_MASK : Fld := ⟨0x4003201C, 8, 1⟩
def ARCH_TRIGSRC_SW : Fld := ⟨0x4003201C, 9, 1⟩
def ARCH_TRIGSRC_TRIGIO : Fld := ⟨0x4003201C, 10, 1⟩
def ARCH_TRIGSRC_SAFE : Fld := ⟨0x4003201C, 11, 1⟩
def ARCH_MASK_LEN : Fld := ⟨0x40032020, 0, 14⟩
def ARCH_MASKCFG_CH : Fld := ⟨0x40032024, 0, 6⟩
def ARCH_MASKCFG_ALIGN : Fld := ⟨0x40032024, 6, 2⟩
def ARCH_MASKCFG_UNIT : Fld := ⟨0x40032024, 8, 6⟩
def ARCH_DEAD_LAST_T : Fld := ⟨0x40032028, 0, 32⟩
def ARCH_DEAD_MAX_T : Fld := ⟨0x4003202C, 0, 32⟩
def ARCH_CNT_MISSED : Fld := ⟨0x40032030, 0, 12⟩
def ARCH_CNT_INPOST : Fld := ⟨0x40032030, 12, 12⟩
def ARCH_CNT_FIRED : Fld := ⟨0x40032030, 24, 8⟩
def ARCH_CNT2_RATE_SKIP : Fld := ⟨0x40032034, 0, 16⟩
def ARCH_CNT2_TRUNC : Fld := ⟨0x40032034, 16, 16⟩
def ARCH_TU_CFG_CH (i : Nat) : Fld := ⟨0x40032080 + 0x10 * i, 0, 6⟩
def ARCH_TU_CFG_KIND (i : Nat) : Fld := ⟨0x40032080 + 0x10 * i, 6, 3⟩
def ARCH_TU_LIM_LO (i : Nat) : Fld := ⟨0x40032084 + 0x10 * i, 0, 16⟩
def ARCH_TU_LIM_HI (i : Nat) : Fld := ⟨0x40032084 + 0x10 * i, 16, 16⟩
def ARCH_TU_RATE_DELTA (i : Nat) : Fld := ⟨0x40032088 + 0x10 * i, 0, 16⟩
def ARCH_TU_RATE_N (i : Nat) : Fld := ⟨0x40032088 + 0x10 * i, 16, 8⟩
def ARCH_CH_CFG_EN (i : Nat) : Fld := ⟨0x40032100 + 0x10 * i, 0, 1⟩
def ARCH_CH_CFG_KIND (i : Nat) : Fld := ⟨0x40032100 + 0x10 * i, 1, 2⟩
def ARCH_CH_CFG_WIDE (i : Nat) : Fld := ⟨0x40032100 + 0x10 * i, 3, 1⟩
def ARCH_CH_CFG_CONV (i : Nat) : Fld := ⟨0x40032100 + 0x10 * i, 4, 2⟩
def ARCH_CH_CFG_SEL (i : Nat) : Fld := ⟨0x40032100 + 0x10 * i, 6, 6⟩
def ARCH_CH_CFG_DECIM (i : Nat) : Fld := ⟨0x40032100 + 0x10 * i, 16, 16⟩
def ARCH_CH_SRC_OFFSET (i : Nat) : Fld := ⟨0x40032104 + 0x10 * i, 0, 20⟩
def ARCH_CH_RING_BASE (i : Nat) : Fld := ⟨0x40032108 + 0x10 * i, 0, 15⟩
def ARCH_CH_RING_LEN (i : Nat) : Fld := ⟨0x40032108 + 0x10 * i, 16, 15⟩
def ISO_CTRL_EN : Fld := ⟨0x40031000, 0, 1⟩
def ISO_CTRL_CLR_WELD : Fld := ⟨0x40031000, 1, 1⟩
def ISO_CTRL_SET_WELD : Fld := ⟨0x40031000, 2, 1⟩
def ISO_CTRL_KEY : Fld := ⟨0x40031000, 16, 16⟩
def ISO_STATUS_CMD_A : Fld := ⟨0x40031004, 0, 1⟩
def ISO_STATUS_CMD_B : Fld := ⟨0x40031004, 1, 1⟩
def ISO_STATUS_RB_A : Fld := ⟨0x40031004, 2, 2⟩
def ISO_STATUS_RB_B : Fld := ⟨0x40031004, 4, 2⟩
def ISO_STATUS_STEP : Fld := ⟨0x40031004, 6, 3⟩
def ISO_STATUS_WELD_FAIL : Fld := ⟨0x40031004, 9, 1⟩
def ISO_STATUS_TEST_DUE : Fld := ⟨0x40031004, 10, 1⟩
def ISO_STATUS_WERR : Fld := ⟨0x40031004, 11, 1⟩
def ISO_STATUS_INCOMPLETE : Fld := ⟨0x40031004, 12, 1⟩
def ISO_COMMIT_COMMIT : Fld := ⟨0x40031008, 0, 1⟩
def ISO_CFG_VCONV : Fld := ⟨0x4003100C, 0, 2⟩
def ISO_CFG_VTJ : Fld := ⟨0x4003100C, 2, 2⟩
def ISO_CFG_RB_POL : Fld := ⟨0x4003100C, 4, 4⟩
def ISO_CFG_SETTLE : Fld := ⟨0x4003100C, 8, 8⟩
def ISO_CFG_OVERDUE_H : Fld := ⟨0x4003100C, 16, 8⟩
def ISO_VTH_OPEN_MAX : Fld := ⟨0x40031010, 0, 16⟩
def ISO_VTH_CLOSED_MIN : Fld := ⟨0x40031010, 16, 16⟩
def ISO_WELD_RESULT : Fld := ⟨0x40031014, 0, 3⟩
def ISO_WELD_REASON : Fld := ⟨0x40031014, 3, 3⟩
def ISO_WELD_AGE : Fld := ⟨0x40031014, 16, 16⟩
def ISO_TPS_LAG : Fld := ⟨0x40031018, 0, 5⟩
def ISO_SIN_EN (i : Nat) : Fld := ⟨0x40031040 + 0x4 * i, 0, 1⟩
def ISO_SIN_SRC (i : Nat) : Fld := ⟨0x40031040 + 0x4 * i, 1, 1⟩
def ISO_SIN_OPEN_SRC (i : Nat) : Fld := ⟨0x40031040 + 0x4 * i, 2, 1⟩
def ISO_SINSTAT_STATE : Fld := ⟨0x40031060, 0, 8⟩
def ISO_SINSTAT_CROSS : Fld := ⟨0x40031060, 8, 8⟩
def ISO_SINSTAT_CROSS_SEEN : Fld := ⟨0x40031060, 16, 8⟩
def ISO_SEAL_LATCHED : Fld := ⟨0x40031064, 0, 8⟩
def ISO_SEAL_LIVE : Fld := ⟨0x40031064, 8, 8⟩
def ISO_SEAL_CHANGED : Fld := ⟨0x40031064, 16, 1⟩
def CIRC_CTRL_EN : Fld := ⟨0x40040000, 0, 1⟩
def CIRC_CTRL_TICK : Fld := ⟨0x40040000, 4, 10⟩
def CIRC_CTRL_AFFWIN : Fld := ⟨0x40040000, 16, 8⟩
def CIRC_STATUS_WERR : Fld := ⟨0x40040004, 0, 1⟩
def CIRC_STATUS_WAITING : Fld := ⟨0x40040004, 8, 4⟩
def CIRC_STATUS_RUNNING : Fld := ⟨0x40040004, 16, 4⟩
def CIRC_TICKCNT_COUNT : Fld := ⟨0x40040008, 0, 32⟩
def CIRC_CMD_SLOT : Fld := ⟨0x4004000C, 0, 8⟩
def CIRC_CMD_OP : Fld := ⟨0x4004000C, 8, 3⟩
def CIRC_PREEMPT_CORES : Fld := ⟨0x40040010, 0, 4⟩
def CIRC_MSIP_CORES : Fld := ⟨0x40040014, 0, 4⟩
def CIRC_TAKE_SLOT (i : Nat) : Fld := ⟨0x40040020 + 0x10 * i, 0, 8⟩
def CIRC_TAKE_WAKE (i : Nat) : Fld := ⟨0x40040020 + 0x10 * i, 8, 3⟩
def CIRC_TAKE_PREEMPTED (i : Nat) : Fld := ⟨0x40040020 + 0x10 * i, 11, 1⟩
def CIRC_TAKE_VALID (i : Nat) : Fld := ⟨0x40040020 + 0x10 * i, 31, 1⟩
def CIRC_CUR_TCB (i : Nat) : Fld := ⟨0x40040024 + 0x10 * i, 0, 32⟩
def CIRC_GIVE_OP (i : Nat) : Fld := ⟨0x40040028 + 0x10 * i, 0, 3⟩
def CIRC_GIVE_WAIT_ALL (i : Nat) : Fld := ⟨0x40040028 + 0x10 * i, 3, 1⟩
def CIRC_GIVE_GROUP (i : Nat) : Fld := ⟨0x40040028 + 0x10 * i, 4, 2⟩
def CIRC_GIVE_TICKS (i : Nat) : Fld := ⟨0x40040028 + 0x10 * i, 8, 24⟩
def CIRC_WAITMASK_MASK (i : Nat) : Fld := ⟨0x4004002C + 0x10 * i, 0, 32⟩
def CIRC_FLAG_BITS (i : Nat) : Fld := ⟨0x40040080 + 0x4 * i, 0, 32⟩
def CIRC_FLAGSET_BITS (i : Nat) : Fld := ⟨0x40040090 + 0x4 * i, 0, 32⟩
def CIRC_FLAGCLR_BITS (i : Nat) : Fld := ⟨0x400400A0 + 0x4 * i, 0, 32⟩
def CIRC_FLAGCONS_BITS (i : Nat) : Fld := ⟨0x400400B0 + 0x4 * i, 0, 32⟩
def CIRC_FLAGREP_BITS (i : Nat) : Fld := ⟨0x400400C0 + 0x4 * i, 0, 32⟩
def CIRC_FLAGOVR_COUNT : Fld := ⟨0x400400D0, 0, 16⟩
def CIRC_SLOT_CFG_PRIO (i : Nat) : Fld := ⟨0x40040100 + 0x4 * i, 0, 5⟩
def CIRC_SLOT_CFG_AFF (i : Nat) : Fld := ⟨0x40040100 + 0x4 * i, 8, 4⟩
def CIRC_SLOT_CFG_STARVE (i : Nat) : Fld := ⟨0x40040100 + 0x4 * i, 12, 10⟩
def CIRC_SLOT_CFG_RUNMAX (i : Nat) : Fld := ⟨0x40040100 + 0x4 * i, 22, 10⟩
def CIRC_SLOT_TCB_PTR (i : Nat) : Fld := ⟨0x40040500 + 0x4 * i, 0, 32⟩
def CIRC_SLOT_STAT_STATE (i : Nat) : Fld := ⟨0x40040900 + 0x4 * i, 0, 3⟩
def CIRC_SLOT_STAT_LASTCORE (i : Nat) : Fld := ⟨0x40040900 + 0x4 * i, 3, 2⟩
def CIRC_SLOT_STAT_PEND_SUSP (i : Nat) : Fld := ⟨0x40040900 + 0x4 * i, 5, 1⟩
def CIRC_SLOT_STAT_PEND_STOP (i : Nat) : Fld := ⟨0x40040900 + 0x4 * i, 6, 1⟩
def CIRC_SLOT_STAT_LATE (i : Nat) : Fld := ⟨0x40040900 + 0x4 * i, 7, 1⟩
def CIRC_SLOT_STAT_RUNS (i : Nat) : Fld := ⟨0x40040900 + 0x4 * i, 16, 16⟩
def TIME_NS_NS : Fld := ⟨0x40050000, 0, 30⟩
def TIME_SEC_LO_SEC : Fld := ⟨0x40050004, 0, 32⟩
def TIME_SEC_HI_SEC : Fld := ⟨0x40050008, 0, 16⟩
def TIME_SHORT_TIME : Fld := ⟨0x4005000C, 0, 32⟩
def TIME_INCR_INCR : Fld := ⟨0x40050010, 0, 32⟩
def TIME_ADJ_INCR_INCR : Fld := ⟨0x40050014, 0, 32⟩
def TIME_ADJ_TICKS_K : Fld := ⟨0x40050018, 0, 24⟩
def TIME_STEP_NS_NS : Fld := ⟨0x4005001C, 0, 32⟩
def TIME_STEP_SEC_SEC : Fld := ⟨0x40050020, 0, 16⟩
def TIME_STEP_CTRL_GO : Fld := ⟨0x40050024, 0, 1⟩
def TIME_STEP_CTRL_WAITING : Fld := ⟨0x40050024, 1, 1⟩
def TIME_STEP_CTRL_STEP_SEQ : Fld := ⟨0x40050024, 16, 16⟩
def TIME_STEP_SHORT_TIME : Fld := ⟨0x40050028, 0, 32⟩
def TIME_STATUS_BYP : Fld := ⟨0x4005002C, 0, 1⟩
def TIME_STATUS_WERR : Fld := ⟨0x4005002C, 1, 1⟩
def TIME_PPSIN_NS_NS : Fld := ⟨0x40050030, 0, 30⟩
def TIME_PPSIN_SEC_SEC : Fld := ⟨0x40050034, 0, 32⟩
def TIME_PPSIN_SHORT_TIME : Fld := ⟨0x40050038, 0, 32⟩
def TIME_PPSOUT_EN : Fld := ⟨0x4005003C, 0, 1⟩
def TIME_PPSOUT_WIDTH : Fld := ⟨0x4005003C, 1, 10⟩
def TIME_CMPSTAT_FIRED : Fld := ⟨0x40050040, 0, 8⟩
def TIME_CMPSTAT_MISSED : Fld := ⟨0x40050040, 16, 16⟩
def TIME_CMP_CFG_EN (i : Nat) : Fld := ⟨0x40050080 + 0x10 * i, 0, 1⟩
def TIME_CMP_CFG_MODE (i : Nat) : Fld := ⟨0x40050080 + 0x10 * i, 1, 1⟩
def TIME_CMP_AT_T (i : Nat) : Fld := ⟨0x40050084 + 0x10 * i, 0, 32⟩
def TIME_CMP_ATSEC_SEC (i : Nat) : Fld := ⟨0x40050088 + 0x10 * i, 0, 32⟩
def TIME_CMP_PERIOD_NS (i : Nat) : Fld := ⟨0x4005008C + 0x10 * i, 0, 32⟩
def ETH_CTRL_EN (i : Nat) : Fld := ⟨0x40051000 + 0x1000 * i, 0, 1⟩
def ETH_CTRL_SPEED (i : Nat) : Fld := ⟨0x40051000 + 0x1000 * i, 1, 2⟩
def ETH_CTRL_TXDLY (i : Nat) : Fld := ⟨0x40051000 + 0x1000 * i, 3, 1⟩
def ETH_CTRL_RXDLY (i : Nat) : Fld := ⟨0x40051000 + 0x1000 * i, 4, 1⟩
def ETH_CTRL_INBAND (i : Nat) : Fld := ⟨0x40051000 + 0x1000 * i, 5, 1⟩
def ETH_CTRL_LINK (i : Nat) : Fld := ⟨0x40051000 + 0x1000 * i, 6, 1⟩
def ETH_STATUS_LINK (i : Nat) : Fld := ⟨0x40051004 + 0x1000 * i, 0, 1⟩
def ETH_STATUS_DESC_ERR (i : Nat) : Fld := ⟨0x40051004 + 0x1000 * i, 1, 1⟩
def ETH_STATUS_RXF (i : Nat) : Fld := ⟨0x40051004 + 0x1000 * i, 2, 1⟩
def ETH_STATUS_TXF (i : Nat) : Fld := ⟨0x40051004 + 0x1000 * i, 3, 1⟩
def ETH_STATUS_WERR (i : Nat) : Fld := ⟨0x40051004 + 0x1000 * i, 4, 1⟩
def ETH_MACADDR_LO_ADDR (i : Nat) : Fld := ⟨0x40051008 + 0x1000 * i, 0, 32⟩
def ETH_MACADDR_HI_ADDR (i : Nat) : Fld := ⟨0x4005100C + 0x1000 * i, 0, 16⟩
def ETH_PTPLAT_TX (i : Nat) : Fld := ⟨0x40051010 + 0x1000 * i, 0, 16⟩
def ETH_PTPLAT_RX (i : Nat) : Fld := ⟨0x40051010 + 0x1000 * i, 16, 16⟩
def ETH_RXLOST_COUNT (i : Nat) : Fld := ⟨0x40051014 + 0x1000 * i, 0, 16⟩
def ETH_MDIO_DATA (i : Nat) : Fld := ⟨0x40051020 + 0x1000 * i, 0, 16⟩
def ETH_MDIO_REG (i : Nat) : Fld := ⟨0x40051020 + 0x1000 * i, 16, 5⟩
def ETH_MDIO_PHY (i : Nat) : Fld := ⟨0x40051020 + 0x1000 * i, 21, 5⟩
def ETH_MDIO_OP (i : Nat) : Fld := ⟨0x40051020 + 0x1000 * i, 26, 2⟩
def ETH_MDIO_GO (i : Nat) : Fld := ⟨0x40051020 + 0x1000 * i, 28, 1⟩
def ETH_MDIO_BUSY (i : Nat) : Fld := ⟨0x40051020 + 0x1000 * i, 29, 1⟩
def ETH_MDIO_TIMEOUT (i : Nat) : Fld := ⟨0x40051020 + 0x1000 * i, 30, 1⟩
def ETH_MDIOCFG_DIV (i : Nat) : Fld := ⟨0x40051024 + 0x1000 * i, 24, 8⟩
def ETH_RXQ_BASE_OFF (i : Nat) : Fld := ⟨0x40051040 + 0x1000 * i, 0, 18⟩
def ETH_RXQ_LEN_N (i : Nat) : Fld := ⟨0x40051044 + 0x1000 * i, 0, 12⟩
def ETH_RXQ_HEAD_IDX (i : Nat) : Fld := ⟨0x40051048 + 0x1000 * i, 0, 12⟩
def ETH_TXQ_BASE_OFF (i j : Nat) : Fld := ⟨0x40051100 + 0x1000 * i + 0x10 * j, 0, 18⟩
def ETH_TXQ_LEN_N (i j : Nat) : Fld := ⟨0x40051104 + 0x1000 * i + 0x10 * j, 0, 12⟩
def ETH_TXQ_HEAD_IDX (i j : Nat) : Fld := ⟨0x40051108 + 0x1000 * i + 0x10 * j, 0, 12⟩
def ETH_TXQ_CFG_LATE_POL (i j : Nat) : Fld := ⟨0x4005110C + 0x1000 * i + 0x10 * j, 0, 1⟩
def ETH_TXQ_CFG_KICK (i j : Nat) : Fld := ⟨0x4005110C + 0x1000 * i + 0x10 * j, 1, 1⟩
def CAN_CTRL_EN (i : Nat) : Fld := ⟨0x40060000 + 0x1000 * i, 0, 1⟩
def CAN_CTRL_MODE (i : Nat) : Fld := ⟨0x40060000 + 0x1000 * i, 1, 2⟩
def CAN_CTRL_FD_EN (i : Nat) : Fld := ⟨0x40060000 + 0x1000 * i, 3, 1⟩
def CAN_CTRL_BRS_EN (i : Nat) : Fld := ⟨0x40060000 + 0x1000 * i, 4, 1⟩
def CAN_CTRL_RECOVER (i : Nat) : Fld := ⟨0x40060000 + 0x1000 * i, 5, 1⟩
def CAN_CTRL_KEY (i : Nat) : Fld := ⟨0x40060000 + 0x1000 * i, 16, 16⟩
def CAN_STATUS_BUSOFF (i : Nat) : Fld := ⟨0x40060004 + 0x1000 * i, 0, 1⟩
def CAN_STATUS_PASSIVE (i : Nat) : Fld := ⟨0x40060004 + 0x1000 * i, 1, 1⟩
def CAN_STATUS_WARNING (i : Nat) : Fld := ⟨0x40060004 + 0x1000 * i, 2, 1⟩
def CAN_STATUS_ALONE (i : Nat) : Fld := ⟨0x40060004 + 0x1000 * i, 3, 1⟩
def CAN_STATUS_LASTERR (i : Nat) : Fld := ⟨0x40060004 + 0x1000 * i, 4, 3⟩
def CAN_STATUS_IN0 (i : Nat) : Fld := ⟨0x40060004 + 0x1000 * i, 7, 1⟩
def CAN_STATUS_IN1 (i : Nat) : Fld := ⟨0x40060004 + 0x1000 * i, 8, 1⟩
def CAN_STATUS_SENT (i : Nat) : Fld := ⟨0x40060004 + 0x1000 * i, 9, 1⟩
def CAN_STATUS_LOST (i : Nat) : Fld := ⟨0x40060004 + 0x1000 * i, 10, 1⟩
def CAN_STATUS_WERR (i : Nat) : Fld := ⟨0x40060004 + 0x1000 * i, 11, 1⟩
def CAN_ERRCNT_TEC (i : Nat) : Fld := ⟨0x40060008 + 0x1000 * i, 0, 9⟩
def CAN_ERRCNT_REC (i : Nat) : Fld := ⟨0x40060008 + 0x1000 * i, 16, 8⟩
def CAN_ERRCNT_RXPASSIVE (i : Nat) : Fld := ⟨0x40060008 + 0x1000 * i, 24, 1⟩
def CAN_ACKRUN_RUN (i : Nat) : Fld := ⟨0x4006000C + 0x1000 * i, 0, 8⟩
def CAN_ARBT_SEG1 (i : Nat) : Fld := ⟨0x40060010 + 0x1000 * i, 0, 8⟩
def CAN_ARBT_SEG2 (i : Nat) : Fld := ⟨0x40060010 + 0x1000 * i, 8, 7⟩
def CAN_ARBT_SJW (i : Nat) : Fld := ⟨0x40060010 + 0x1000 * i, 16, 7⟩
def CAN_ARBT_PRESC (i : Nat) : Fld := ⟨0x40060010 + 0x1000 * i, 24, 8⟩
def CAN_DATT_SEG1 (i : Nat) : Fld := ⟨0x40060014 + 0x1000 * i, 0, 5⟩
def CAN_DATT_SEG2 (i : Nat) : Fld := ⟨0x40060014 + 0x1000 * i, 8, 4⟩
def CAN_DATT_SJW (i : Nat) : Fld := ⟨0x40060014 + 0x1000 * i, 12, 4⟩
def CAN_DATT_PRESC (i : Nat) : Fld := ⟨0x40060014 + 0x1000 * i, 16, 5⟩
def CAN_DATT_SSP_EN (i : Nat) : Fld := ⟨0x40060014 + 0x1000 * i, 23, 1⟩
def CAN_DATT_SSP_OFS (i : Nat) : Fld := ⟨0x40060014 + 0x1000 * i, 24, 7⟩
def CAN_NOMATCH_BASE_TO (i : Nat) : Fld := ⟨0x40060018 + 0x1000 * i, 0, 2⟩
def CAN_NOMATCH_EXT_TO (i : Nat) : Fld := ⟨0x40060018 + 0x1000 * i, 2, 2⟩
def CAN_NOMATCH_RTR_DROP_B (i : Nat) : Fld := ⟨0x40060018 + 0x1000 * i, 4, 1⟩
def CAN_NOMATCH_RTR_DROP_X (i : Nat) : Fld := ⟨0x40060018 + 0x1000 * i, 5, 1⟩
def CAN_LAY_GB_OFF (i : Nat) : Fld := ⟨0x40060020 + 0x1000 * i, 0, 16⟩
def CAN_LAY_GB_COUNT (i : Nat) : Fld := ⟨0x40060020 + 0x1000 * i, 16, 8⟩
def CAN_LAY_GX_OFF (i : Nat) : Fld := ⟨0x40060024 + 0x1000 * i, 0, 16⟩
def CAN_LAY_GX_COUNT (i : Nat) : Fld := ⟨0x40060024 + 0x1000 * i, 16, 7⟩
def CAN_LAY_IN_OFF (i j : Nat) : Fld := ⟨0x40060028 + 0x1000 * i + 0x4 * j, 0, 16⟩
def CAN_LAY_IN_COUNT (i j : Nat) : Fld := ⟨0x40060028 + 0x1000 * i + 0x4 * j, 16, 7⟩
def CAN_LAY_IN_SIZE (i j : Nat) : Fld := ⟨0x40060028 + 0x1000 * i + 0x4 * j, 24, 3⟩
def CAN_LAY_OUT_OFF (i : Nat) : Fld := ⟨0x40060030 + 0x1000 * i, 0, 16⟩
def CAN_LAY_OUT_COUNT (i : Nat) : Fld := ⟨0x40060030 + 0x1000 * i, 16, 6⟩
def CAN_LAY_OUT_SIZE (i : Nat) : Fld := ⟨0x40060030 + 0x1000 * i, 24, 3⟩
def CAN_LAY_RCPT_OFF (i : Nat) : Fld := ⟨0x40060034 + 0x1000 * i, 0, 16⟩
def CAN_LAY_RCPT_COUNT (i : Nat) : Fld := ⟨0x40060034 + 0x1000 * i, 16, 6⟩
def CAN_IN_STAT_LEVEL (i j : Nat) : Fld := ⟨0x40060040 + 0x1000 * i + 0x4 * j, 0, 7⟩
def CAN_IN_STAT_TAKE (i j : Nat) : Fld := ⟨0x40060040 + 0x1000 * i + 0x4 * j, 8, 6⟩
def CAN_IN_STAT_FULL (i j : Nat) : Fld := ⟨0x40060040 + 0x1000 * i + 0x4 * j, 16, 1⟩
def CAN_IN_STAT_LOST (i j : Nat) : Fld := ⟨0x40060040 + 0x1000 * i + 0x4 * j, 24, 8⟩
def CAN_IN_DONE_IDX (i j : Nat) : Fld := ⟨0x40060048 + 0x1000 * i + 0x4 * j, 0, 6⟩
def CAN_RCPT_STAT_LEVEL (i : Nat) : Fld := ⟨0x40060050 + 0x1000 * i, 0, 6⟩
def CAN_RCPT_STAT_TAKE (i : Nat) : Fld := ⟨0x40060050 + 0x1000 * i, 8, 5⟩
def CAN_RCPT_STAT_LOST (i : Nat) : Fld := ⟨0x40060050 + 0x1000 * i, 24, 8⟩
def CAN_RCPT_DONE_IDX (i : Nat) : Fld := ⟨0x40060054 + 0x1000 * i, 0, 5⟩
def CAN_OUT_GO_SLOTS (i : Nat) : Fld := ⟨0x40060060 + 0x1000 * i, 0, 32⟩
def CAN_OUT_WAIT_SLOTS (i : Nat) : Fld := ⟨0x40060064 + 0x1000 * i, 0, 32⟩
def CAN_OUT_ABORT_SLOTS (i : Nat) : Fld := ⟨0x40060068 + 0x1000 * i, 0, 32⟩
def CAN_OUT_SENT_SLOTS (i : Nat) : Fld := ⟨0x4006006C + 0x1000 * i, 0, 32⟩
def CAN_OUT_ABORTED_SLOTS (i : Nat) : Fld := ⟨0x40060070 + 0x1000 * i, 0, 32⟩
def DPL_CFG_EN : Fld := ⟨0x40060800, 0, 1⟩
def DPL_CFG_BUS : Fld := ⟨0x40060800, 1, 2⟩
def DPL_CFG_INBOX : Fld := ⟨0x40060800, 3, 1⟩
def DPL_CFG_HB_COPY : Fld := ⟨0x40060800, 4, 1⟩
def DPL_CFG_ARM_EN : Fld := ⟨0x40060800, 5, 1⟩
def DPL_CFG_ARM_SELF : Fld := ⟨0x40060800, 6, 1⟩
def DPL_CFG_ALLOWLIST : Fld := ⟨0x40060800, 7, 1⟩
def DPL_CFG_TIMECHK : Fld := ⟨0x40060800, 8, 1⟩
def DPL_CFG_COLO_CHK : Fld := ⟨0x40060800, 9, 1⟩
def DPL_CFG_TXKEY : Fld := ⟨0x40060800, 10, 1⟩
def DPL_CFG_PEER_TO : Fld := ⟨0x40060800, 12, 4⟩
def DPL_STATUS_WERR : Fld := ⟨0x40060804, 0, 1⟩
def DPL_STATUS_GVER : Fld := ⟨0x40060804, 2, 2⟩
def DPL_STATUS_UPCOUNT : Fld := ⟨0x40060804, 8, 6⟩
def DPL_NODE_ID : Fld := ⟨0x40060808, 0, 8⟩
def DPL_VER_VMIN : Fld := ⟨0x4006080C, 0, 2⟩
def DPL_VER_VMAX : Fld := ⟨0x4006080C, 2, 2⟩
def DPL_HB_PERIOD : Fld := ⟨0x40060810, 0, 10⟩
def DPL_HB_REPL : Fld := ⟨0x40060810, 16, 16⟩
def DPL_TXFRESH_CNT : Fld := ⟨0x40060814, 0, 32⟩
def DPL_CNT_TAGFAIL : Fld := ⟨0x40060818, 0, 8⟩
def DPL_CNT_REPLAY : Fld := ⟨0x40060818, 8, 8⟩
def DPL_CNT_RATED : Fld := ⟨0x40060818, 16, 8⟩
def DPL_CNT_NOT_MINE : Fld := ⟨0x40060818, 24, 8⟩
def DPL_CNT2_UNKNOWN : Fld := ⟨0x4006081C, 0, 8⟩
def DPL_CNT2_MALFORMED : Fld := ⟨0x4006081C, 8, 8⟩
def DPL_CNT2_TXREF : Fld := ⟨0x4006081C, 16, 8⟩
def DPL_KEY_W_KEY (i j : Nat) : Fld := ⟨0x40060820 + 0x10 * i + 0x4 * j, 0, 32⟩
def DPL_KEYSTAT_VALID : Fld := ⟨0x40060840, 0, 2⟩
def DPL_CFG2_DEF_RATE : Fld := ⟨0x40060844, 0, 8⟩
def DPL_CFG2_DEF_BURST : Fld := ⟨0x40060844, 8, 8⟩
def DPL_PEER_CTRL_NODE (i : Nat) : Fld := ⟨0x40060900 + 0x10 * i, 0, 8⟩
def DPL_PEER_CTRL_RATE (i : Nat) : Fld := ⟨0x40060900 + 0x10 * i, 8, 8⟩
def DPL_PEER_CTRL_BURST (i : Nat) : Fld := ⟨0x40060900 + 0x10 * i, 16, 8⟩
def DPL_PEER_CTRL_LOCK (i : Nat) : Fld := ⟨0x40060900 + 0x10 * i, 24, 1⟩
def DPL_PEER_CTRL_FREE (i : Nat) : Fld := ⟨0x40060900 + 0x10 * i, 25, 1⟩
def DPL_PEER_STAT_STATE (i : Nat) : Fld := ⟨0x40060904 + 0x10 * i, 0, 2⟩
def DPL_PEER_STAT_VER (i : Nat) : Fld := ⟨0x40060904 + 0x10 * i, 2, 2⟩
def DPL_PEER_STAT_MODE (i : Nat) : Fld := ⟨0x40060904 + 0x10 * i, 4, 4⟩
def DPL_PEER_STAT_PSTATE (i : Nat) : Fld := ⟨0x40060904 + 0x10 * i, 8, 8⟩
def DPL_PEER_STAT_COLO_DIFF (i : Nat) : Fld := ⟨0x40060904 + 0x10 * i, 16, 1⟩
def DPL_PEER_COLO_LO_VAL (i : Nat) : Fld := ⟨0x40060908 + 0x10 * i, 0, 32⟩
def DPL_PEER_COLO_HI_VAL (i : Nat) : Fld := ⟨0x4006090C + 0x10 * i, 0, 32⟩
def PWRB_CTRL_BUDGET : Fld := ⟨0x40002000, 0, 8⟩
def PWRB_CTRL_HYST : Fld := ⟨0x40002000, 8, 8⟩
def PWRB_CTRL_TJLIM : Fld := ⟨0x40002000, 16, 8⟩
def PWRB_STATUS_STAGE : Fld := ⟨0x40002004, 0, 3⟩
def PWRB_STATUS_OVER : Fld := ⟨0x40002004, 3, 1⟩
def PWRB_STATUS_UP : Fld := ⟨0x40002004, 4, 1⟩
def PWRB_STATUS_WERR : Fld := ⟨0x40002004, 5, 1⟩
def PWRB_EST_P : Fld := ⟨0x40002008, 0, 16⟩
def PWRB_EST_PMAX : Fld := ⟨0x40002008, 16, 16⟩
def PWRB_TJ_T : Fld := ⟨0x4000200C, 0, 16⟩
def PWRB_TJ_TMAX : Fld := ⟨0x4000200C, 16, 16⟩
def PWRB_THR_EPOCHS : Fld := ⟨0x40002010, 0, 32⟩
def CLK_STAT_XTAL_OK : Fld := ⟨0x40001000, 0, 1⟩
def CLK_STAT_LOCKED : Fld := ⟨0x40001000, 1, 3⟩
def CLK_STAT_ON_BYP : Fld := ⟨0x40001000, 4, 3⟩
def CLK_STAT_FAIL : Fld := ⟨0x40001000, 7, 3⟩
def CLK_STAT_WERR : Fld := ⟨0x40001000, 10, 1⟩
def CLK_PLL_BAND (i : Nat) : Fld := ⟨0x40001010 + 0x4 * i, 0, 4⟩
def CLK_PLL_LOCKS (i : Nat) : Fld := ⟨0x40001010 + 0x4 * i, 8, 8⟩
def CLK_PLL_LOSSES (i : Nat) : Fld := ⟨0x40001010 + 0x4 * i, 16, 16⟩
def CLK_SSC_EN : Fld := ⟨0x40001020, 0, 1⟩
def CLK_SSC_MODE : Fld := ⟨0x40001020, 1, 1⟩
def CLK_SSC_DEPTH : Fld := ⟨0x40001020, 2, 4⟩
def CLK_SSC_RATE : Fld := ⟨0x40001020, 6, 6⟩
def CLK_GATE_BLOCKS : Fld := ⟨0x40001024, 0, 10⟩
def LEDGER_CTRL_EN : Fld := ⟨0x40003000, 0, 1⟩
def LEDGER_CTRL_POINT_NOW : Fld := ⟨0x40003000, 1, 1⟩
def LEDGER_CTRL_POINT_H : Fld := ⟨0x40003000, 8, 8⟩
def LEDGER_CTRL_WIN : Fld := ⟨0x40003000, 16, 6⟩
def LEDGER_CTRL_EOL_WARN : Fld := ⟨0x40003000, 24, 8⟩
def LEDGER_STATUS_POINT : Fld := ⟨0x40003004, 0, 1⟩
def LEDGER_STATUS_MEAS_DONE : Fld := ⟨0x40003004, 1, 1⟩
def LEDGER_STATUS_MEAS_REF : Fld := ⟨0x40003004, 2, 1⟩
def LEDGER_STATUS_WERR : Fld := ⟨0x40003004, 3, 1⟩
def LEDGER_EOL_MONTHS : Fld := ⟨0x40003008, 0, 16⟩
def LEDGER_EOL_IND : Fld := ⟨0x40003008, 16, 4⟩
def LEDGER_EOLB_LO : Fld := ⟨0x4000300C, 0, 16⟩
def LEDGER_EOLB_HI : Fld := ⟨0x4000300C, 16, 16⟩
def LEDGER_HOURS_H : Fld := ⟨0x40003010, 0, 32⟩
def LEDGER_AGE_EQ_H : Fld := ⟨0x40003014, 0, 32⟩
def LEDGER_IND_X (i : Nat) : Fld := ⟨0x40003040 + 0x4 * i, 0, 16⟩
def LEDGER_IND_MONTHS (i : Nat) : Fld := ⟨0x40003040 + 0x4 * i, 16, 16⟩
def LEDGER_RO_PPM (i : Nat) : Fld := ⟨0x40003080 + 0x4 * i, 0, 16⟩
def LEDGER_MARGIN_STEP : Fld := ⟨0x400030BC, 0, 4⟩
def LEDGER_CAP_V : Fld := ⟨0x400030C0, 0, 32⟩
def LEDGER_ESR_V : Fld := ⟨0x400030C4, 0, 32⟩
def LEDGER_C0_V : Fld := ⟨0x400030C8, 0, 32⟩
def LEDGER_ESR0_V : Fld := ⟨0x400030CC, 0, 32⟩
def LEDGER_MCFG_CONV : Fld := ⟨0x400030D0, 0, 2⟩
def LEDGER_MCFG_VAIN : Fld := ⟨0x400030D0, 2, 6⟩
def LEDGER_MCFG_IAIN : Fld := ⟨0x400030D0, 8, 6⟩
def LEDGER_MCFG_LEG : Fld := ⟨0x400030D0, 14, 6⟩
def LEDGER_MCFG_NSWEEP : Fld := ⟨0x400030D0, 20, 8⟩
def LEDGER_VGAIN_V : Fld := ⟨0x400030D4, 0, 32⟩
def LEDGER_IGAIN_V : Fld := ⟨0x400030D8, 0, 32⟩
def LEDGER_MEAS_START : Fld := ⟨0x400030DC, 0, 1⟩
def LEDGER_OSV_GATE_BITS : Fld := ⟨0x400030E0, 0, 24⟩
def LEDGER_PT_SEL_POINT : Fld := ⟨0x400030F0, 0, 6⟩
def LEDGER_PT_SEL_IND : Fld := ⟨0x400030F0, 8, 3⟩
def LEDGER_PT_HOURS_H : Fld := ⟨0x400030F4, 0, 32⟩
def LEDGER_PT_X_X : Fld := ⟨0x400030F8, 0, 16⟩
def LEDGER_PT_X_VALID : Fld := ⟨0x400030F8, 16, 1⟩
def LEDGER_OSVB_BASE (i : Nat) : Fld := ⟨0x40003100 + 0x4 * i, 0, 8⟩
def LEDGER_OSVB_LAST (i : Nat) : Fld := ⟨0x40003100 + 0x4 * i, 8, 8⟩
def LEDGER_REPAIR_RUN : Fld := ⟨0x40003200, 0, 1⟩
def LEDGER_REPAIR_COMMIT : Fld := ⟨0x40003200, 1, 1⟩
def LEDGER_REPAIR_KEY : Fld := ⟨0x40003200, 16, 16⟩
def LEDGER_SPARES_STK_A : Fld := ⟨0x40003204, 0, 2⟩
def LEDGER_SPARES_STK_B : Fld := ⟨0x40003204, 2, 2⟩
def LEDGER_SPARES_SLICE : Fld := ⟨0x40003204, 4, 4⟩
def LEDGER_SPARES_ROWMIN : Fld := ⟨0x40003204, 8, 3⟩
def LEDGER_SPARES_TAPLOW : Fld := ⟨0x40003204, 11, 6⟩
def LEDGER_SPARES_COARSE : Fld := ⟨0x40003204, 17, 6⟩
def LEDGER_SPARES_WITHDRAWN : Fld := ⟨0x40003204, 23, 8⟩
def SYSCTL_WDOG_KICK_KEY : Fld := ⟨0x40000034, 0, 32⟩
def CFG_WERR_ADDR_ADDR : Fld := ⟨0x40004030, 0, 32⟩
def CFG_COEF_ADDR_OFF : Fld := ⟨0x40004040, 0, 32⟩
def CFG_COEF_BUF_WORD (i : Nat) : Fld := ⟨0x40004100 + 0x4 * i, 0, 32⟩

end R

end Sys2Proof.Machine
end

