-- ==== Sys2Proof/Machine/Sparse.lean ====
section
/-! DEFINITION. Sparse tables: lists of (key, value) in one canonical form, keys strictly rising and no entry equal to
what an unlisted key reads as. Memory, the register file and every repeated unit of the device are held so. -/

namespace Sys2Proof.Machine.Sparse

variable {V : Type} [DecidableEq V]

/-- The value listed for a key. -/
def find? : List (Nat × V) → Nat → Option V
  | [], _ => none
  | (b, v) :: t, a => if b = a then some v else find? t a

/-- The value of a key: `dflt` where it is not listed. -/
def get (dflt : Nat → V) (l : List (Nat × V)) (a : Nat) : V := (find? l a).getD (dflt a)

/-- The table without a key. -/
def erase (l : List (Nat × V)) (a : Nat) : List (Nat × V) := l.filter fun p => p.1 != a

/-- Lists a key at its place in the rising order. -/
def insert (a : Nat) (v : V) : List (Nat × V) → List (Nat × V)
  | [] => [(a, v)]
  | (b, w) :: t => if a < b then (a, v) :: (b, w) :: t else (b, w) :: insert a v t

/-- Sets a key; a value equal to the default removes the entry. -/
def set (dflt : Nat → V) (l : List (Nat × V)) (a : Nat) (v : V) : List (Nat × V) :=
  if v = dflt a then erase l a else insert a v (erase l a)

/-- Keys strictly rising. -/
def rising : List (Nat × V) → Bool
  | [] => true
  | [_] => true
  | p :: q :: t => decide (p.1 < q.1) && rising (q :: t)

/-- The canonical form. -/
def wf (dflt : Nat → V) (l : List (Nat × V)) : Bool := rising l && l.all fun p => p.2 != dflt p.1

/-- A list in rising order of a key; entries of one key keep their order. -/
def insertBy {α : Type} (key : α → Nat) (x : α) : List α → List α
  | [] => [x]
  | y :: t => if key x ≤ key y then x :: y :: t else y :: insertBy key x t

def sortBy {α : Type} (key : α → Nat) (l : List α) : List α := l.foldr (insertBy key) []

/-- A table whose unlisted keys hold one value. -/
def at' (dflt : V) (l : List (Nat × V)) (a : Nat) : V := get (fun _ => dflt) l a

def put (dflt : V) (l : List (Nat × V)) (a : Nat) (v : V) : List (Nat × V) := set (fun _ => dflt) l a v

end Sys2Proof.Machine.Sparse
end

