-- ==== Sys2Proof/Machine/Ops.lean ====
section
/-! DEFINITION. The named operations that every family uses: the register file and its fields, control-path channels,
raising a fault, stamps, event-flag requests, bus answers, the tables of lanes and legs, memory, and free values. -/

namespace Sys2Proof.Machine

/-! ### Addresses and reset words -/

/-- Whether an offset is one of a register's repetitions. -/
def coversDims : Nat → List (Nat × Nat) → Bool
  | off, [] => off == 0
  | off, (c, s) :: t => decide (off / s < c) && coversDims (off % s) t

def RegSpec.covers (r : RegSpec) (a : Nat) : Bool := decide (r.base ≤ a) && coversDims (a - r.base) r.dims

/-- The register blocks by address bits [19:12] (R23). -/
def blockOf (a : Nat) : List RegSpec :=
  match a / 0x1000 with
  | 0x40000 => regMapSYSCTL
  | 0x40001 => regMapCLK
  | 0x40002 => regMapPWRB
  | 0x40003 => regMapLEDGER
  | 0x40004 => regMapCFG
  | 0x40008 => regMapWV
  | 0x40009 => regMapWV
  | 0x4000A => regMapLANE
  | 0x40010 => regMapADC
  | 0x40011 => regMapADC
  | 0x40012 => regMapADC
  | 0x40013 => regMapADC
  | 0x40014 => regMapSDF
  | 0x40020 => regMapPWM
  | 0x40021 => regMapPWM
  | 0x40022 => regMapPWM
  | 0x40023 => regMapPWM
  | 0x40024 => regMapGSUP
  | 0x40030 => regMapACC
  | 0x40031 => regMapISO
  | 0x40032 => regMapARCH
  | 0x40040 => regMapCIRC
  | 0x40050 => regMapTIME
  | 0x40051 => regMapETH
  | 0x40052 => regMapETH
  | 0x40060 => regMapCAN ++ regMapDPL
  | 0x40061 => regMapCAN
  | 0x40062 => regMapCAN
  | 0x40063 => regMapCAN
  | _ => []

/-- The register at an address, if the map lists one. -/
def regSpec? (a : Nat) : Option RegSpec := (blockOf a).find? fun r => r.covers a

/-- Sources whose class and reaction the spec fixes: Severe, SAFE (R350). -/
def isFixed (s : Nat) : Bool := [77, 78, 79, 81, 82, 83, 74].contains s

/-- First and last source of a range with its Bexrax default: class (0 Info to 3 Severe) and reaction (0 LOG to 3 SAFE),
from the source tables of the chapters (R34, R49, R100, R140, R168, R204, R238, R273, R339, R345, R363, R388, R407,
R431, R458, R487, R517). Numbers that no chapter assigns stand as Minor, LOG (log entry 21). -/
def srcDefaults : List (Nat × Nat × Nat × Nat) := [
  (0, 47, 3, 3), (48, 52, 2, 1), (53, 53, 1, 0), (54, 55, 2, 1), (56, 56, 1, 0), (57, 58, 2, 1), (59, 59, 3, 3),
  (60, 65, 2, 1), (66, 66, 3, 1), (67, 69, 2, 1), (70, 70, 1, 0), (71, 73, 2, 1), (74, 74, 3, 3), (75, 75, 2, 1),
  (76, 76, 1, 0), (77, 79, 3, 3), (80, 80, 2, 1), (81, 83, 3, 3), (84, 85, 2, 1), (86, 86, 1, 0), (87, 90, 2, 1),
  (91, 93, 3, 3), (94, 94, 2, 1), (95, 96, 3, 3), (97, 97, 1, 0), (98, 101, 2, 1), (102, 102, 3, 3), (112, 112, 0, 0),
  (115, 115, 2, 1), (118, 118, 2, 1), (120, 121, 2, 1), (125, 125, 2, 1), (126, 126, 0, 0), (127, 128, 2, 1),
  (129, 129, 0, 0), (134, 134, 2, 1), (136, 139, 2, 1), (147, 148, 2, 1), (150, 152, 2, 1), (156, 156, 2, 1),
  (160, 160, 2, 1), (161, 161, 0, 0), (162, 163, 2, 1), (164, 164, 0, 0), (165, 165, 2, 1), (168, 168, 0, 0),
  (169, 171, 2, 1)]

/-- Default class and reaction of a source (R348). -/
def srcDefault (s : Nat) : Nat × Nat :=
  match srcDefaults.find? fun r => r.1 ≤ s && s ≤ r.2.1 with
  | some r => r.2.2
  | none => (1, 0)

/-- The word a register holds after reset: that of the map, and R348's settings for the fault sources. -/
def resetWord (a : Nat) : Word :=
  if 0x40030400 ≤ a ∧ a < 0x40030700 then
    let s := (a - 0x40030400) / 4
    let d := srcDefault s
    word (1 + d.1 * 2 + d.2 * 8 + 255 * 2 ^ 8 + 1000 * 2 ^ 16 + b2n (isFixed s) * 2 ^ 31)
  else if 0x40030700 ≤ a ∧ a < 0x40030A00 then 240
  else
    match regSpec? a with
    | some r => word r.rst
    | none => 0

/-! ### Fields -/

/-- A word with bits [lo + w - 1 : lo] replaced. -/
def setBits (x : Word) (lo w v : Nat) : Word :=
  word (x.toNat - bits x.toNat lo w * 2 ^ lo + v % 2 ^ w * 2 ^ lo)

/-- The partner of a converter. -/
def partner (c : Nat) : Nat := if c % 2 = 0 then c + 1 else c - 1

namespace Dev

/-- The word of a register. -/
def rdw (d : Dev) (a : Nat) : Word := Sparse.get resetWord d.regs a

def wrw (d : Dev) (a : Nat) (v : Word) : Dev := { d with regs := Sparse.set resetWord d.regs a v }

/-- The value of a field. -/
def get (d : Dev) (f : Fld) : Nat := bits (d.rdw f.addr).toNat f.lo f.w

/-- Sets a field, wrapped to its width. -/
def set (d : Dev) (f : Fld) (v : Nat) : Dev := d.wrw f.addr (setBits (d.rdw f.addr) f.lo f.w v)

def isSet (d : Dev) (f : Fld) : Bool := d.get f != 0

def setB (d : Dev) (f : Fld) (b : Bool) : Dev := d.set f (b2n b)

/-- Adds to a counter field that saturates. -/
def incSat (d : Dev) (f : Fld) (k : Nat := 1) : Dev := d.set f (satAdd f.w (d.get f) k)

/-- Adds to a counter field that wraps. -/
def incWrap (d : Dev) (f : Fld) (k : Nat := 1) : Dev := d.set f (d.get f + k)

/-- Bit `i` of a bank of registers that hold one bit per unit (`f i` names word i). -/
def bit (d : Dev) (f : Nat → Fld) (i : Nat) : Bool := (d.get (f (i / 32))).testBit (i % 32)

def setBit (d : Dev) (f : Nat → Fld) (i : Nat) (b : Bool) : Dev :=
  let x := d.get (f (i / 32))
  if x.testBit (i % 32) = b then d
  else d.set (f (i / 32)) (if b then x + 2 ^ (i % 32) else x - 2 ^ (i % 32))

/-- The acting word of a Staged register (R90). -/
def actw (d : Dev) (a : Nat) : Word := Sparse.get resetWord d.cfg.act a

/-- The acting value of a Staged field. -/
def act (d : Dev) (f : Fld) : Nat := bits (d.actw f.addr).toNat f.lo f.w

def wrAct (d : Dev) (a : Nat) (v : Word) : Dev :=
  { d with cfg := { d.cfg with act := Sparse.set resetWord d.cfg.act a v } }

/-! ### Modes, time, answers -/

/-- SYSCTL.MODE.CUR (R42). -/
def mode (d : Dev) : Nat := d.get R.SYSCTL_MODE_CUR

/-- A core stands in reset in M0; cores 1 to 3 until step 12 of R62; debug hold halts the cores in M1 (R47, R57, R417). The
debug port, agent 4, is no core. -/
def coreHeld (d : Dev) (core : Nat) : Bool :=
  decide (core < 4) && (d.mode == 0 || (d.mode == 1 && d.sys.debugHold) || (core != 0 && !d.sys.coresOut))

/-- M4 to M9. -/
def control (d : Dev) : Bool := decide (4 ≤ d.mode) && decide (d.mode ≤ 9)

/-- The short time (R438). -/
def shortTime (d : Dev) : Word := word d.time.short

/-- The answer of an agent's bus access: cores 0 to 3, debug port 4. -/
def answer (d : Dev) (agent : Nat) (r : Resp) : Dev := { d with resp := Sparse.put .none d.resp agent r }

/-! ### Channels, reports, requests -/

/-- A sender presents a word on a channel for a receiver (R13). -/
def send (d : Dev) (ch recv : Nat) (w : HWord) : Dev :=
  { d with hoop := d.hoop ++ [{ ch := ch, recv := recv, w := w, stalled := false, acked := false }] }

/-- A word for the lane forks: one channel with a handshake for LANEA and one for LANEB (R16, R18). -/
def sendFork (d : Dev) (ch : Nat) (w : HWord) : Dev := (d.send ch 4 w).send ch 5 w

/-- Takes the oldest word that satisfies `p` on a channel for a receiver. -/
def takeFirst (p : HEntry → Bool) : List HEntry → Option (HEntry × List HEntry)
  | [] => none
  | e :: t => if p e then some (e, t) else
    match takeFirst p t with
    | some (x, r) => some (x, e :: r)
    | none => none

/-- Takes the oldest word of a channel for a receiver, with its entry (R13: in order). -/
def takeEntry (d : Dev) (ch recv : Nat) : Option (HEntry × Dev) :=
  match takeFirst (fun e => e.ch == ch && e.recv == recv) d.hoop with
  | some (e, t) => some (e, { d with hoop := t })
  | none => none

/-- Takes the oldest word of a channel for a receiver. -/
def take (d : Dev) (ch recv : Nat) : Option (HWord × Dev) := (d.takeEntry ch recv).map fun x => (x.1.w, x.2)

/-- Island numbers (R16). -/
def islGUARD : Nat := 3
def islCORE : Nat := 1
def islBUS : Nat := 2

/-- A source in island `isl` raises a fault: its report goes on channel 0x30 + isl to ACC, stamped with the short time
(R346). -/
def raise (d : Dev) (isl src ctx : Nat) (lane : Nat := 2) : Dev :=
  d.send (0x30 + isl) islGUARD (.report ⟨src, word ctx, lane, d.time.short, false⟩)

/-- The sources that are lane faults (R140): LOOPSET_HUNG, LANE_MEM_DED, STAKE_CHECK, LANE_INPUT_LOSS. -/
def isLaneFault (src : Nat) : Bool := [64, 66, 67, 68].contains src

/-- A lane raises a Weave source: the report carries its code (R109). -/
def raiseLane (d : Dev) (lane src ctx : Nat) : Dev := d.raise (4 + lane) src ctx lane

/-- A report reaches GUARD: a lane fault is signalled to LANE, whatever ACC does with it (R11, R109). -/
def laneSignal (d : Dev) (r : Report) : Dev :=
  if isLaneFault r.src && decide (r.lane < 2) then { d with lc := { d.lc with signals := d.lc.signals ++ [r.lane] } } else d

/-- Sets or clears a source's bit in ACC.CONDi (R347). -/
def setCond (d : Dev) (src : Nat) (b : Bool) : Dev := d.setBit R.ACC_COND_SRC src b

/-- The stepping code of the silicon: a letter from A in the upper digit, a decimal digit in the lower (R2). -/
def stepCode : Nat := (0xA + Config.stepping.1.val) * 16 + Config.stepping.2.val

/-- The device word, with the silicon's stepping (R2). -/
def deviceId (d : Dev) : Word := word ((d.rdw 0x40000000).toNat / 0x100 * 0x100 + stepCode)

/-- A condition begins: one report, and the COND bit while it lasts (R347). -/
def beginCond (d : Dev) (isl src ctx : Nat) : Dev :=
  if d.bit R.ACC_COND_SRC src then d else (d.setCond src true).raise isl src ctx

/-- A request of island `isl` for event flag n goes to the Circulation Desk (R16, R424). -/
def request (d : Dev) (isl n : Nat) : Dev := d.send (0x40 + isl) islCORE (.flag n)

/-- STATUS registers whose W1C bits drive their block's request line (R424): address, mask of the W1C bits, sending
island and event flag. -/
def statusLines : List (Nat × Nat × Nat × Nat) := [
  (0x40010004, 0xC0, 8, 5), (0x40011004, 0xC0, 8, 6), (0x40012004, 0xC0, 9, 7), (0x40013004, 0xC0, 9, 8),
  (0x40014004, 0x3, 10, 9), (0x40023004, 0x1, 6, 10), (0x40024004, 0x3, 6, 11), (0x40031004, 0x1800, 3, 12),
  (0x40002004, 0x10, 3, 14), (0x40003004, 0x1, 3, 15), (0x40051004, 0x1E, 11, 25), (0x40052004, 0x1E, 11, 26),
  (0x40060004, 0xF80, 12, 27), (0x40061004, 0xF80, 12, 28), (0x40062004, 0xF80, 12, 29), (0x40063004, 0xF80, 12, 30),
  (0x40060804, 0x1, 12, 31), (0x40001000, 0x780, 0, 43)]

/-- Sets a status flag (to `v`); the block's request line rises with the first W1C bit of its STATUS register (R424). -/
def note (d : Dev) (f : Fld) (v : Nat := 1) : Dev :=
  match statusLines.find? fun l => l.1 == f.addr with
  | some l =>
    let d' := d.set f v
    if (d.rdw f.addr).toNat &&& l.2.1 = 0 ∧ (d'.rdw f.addr).toNat &&& l.2.1 ≠ 0 then d'.request l.2.2.1 l.2.2.2 else d'
  | none => d.set f v

/-! ### Events -/

/-- An alignment event of the mask test: kind 2 a period event of leg `unit`, 3 an event of TIME comparator `unit`
(R382). -/
def maskAlign (d : Dev) (kind unit : Nat) : Dev :=
  if d.act R.ARCH_MASKCFG_ALIGN == kind && d.act R.ARCH_MASKCFG_UNIT == unit then
    { d with arch := { d.arch with maskIdx := some 0 } }
  else d

/-- An event of TRIG_KIND `kind` (R74) leaves its block: 0 and 1 to the lane forks on the channel of the converter or of
SDF, 2 and 3 also to the converters and, for period events, to SDF (R16). -/
def event (d : Dev) (kind unit time : Nat) : Dev :=
  let w := HWord.event kind unit time
  let ch := match kind with
    | 0 => unit
    | 1 => 4
    | 2 => if unit < 24 then 5 else 6
    | _ => 7
  let d := if d.pat.loopsets.any fun l => l.kind == kind && l.unit == unit then d.sendFork ch w else d
  let d := if 2 ≤ kind then ((d.send ch 8 w).send ch 9 w).maskAlign kind unit else d
  if kind = 2 then d.send ch 10 w else d

/-- A capture word goes to the Archive where an enabled channel names its source: kind 0 input `sel` of converter
`conv`, kind 1 sigma-delta channel `sel` (R374). -/
def archFeed (d : Dev) (kind conv sel : Nat) (value : Word) (time : Nat) : Dev :=
  if d.isSet R.ARCH_CTRL_EN && (List.range 64).any fun k =>
      d.isSet (R.ARCH_CH_CFG_EN k) && d.get (R.ARCH_CH_CFG_KIND k) == kind && d.get (R.ARCH_CH_CFG_SEL k) == sel &&
        (kind == 1 || d.get (R.ARCH_CH_CFG_CONV k) == conv) then
    d.send (if kind = 1 then 0x2A else 0x28 + conv / 2) islBUS (.arch kind conv sel value time)
  else d

/-! ### Tables of lanes and legs -/

def lane (d : Dev) (n : Nat) : Lane := Sparse.at' {} d.lanes n
def setLane (d : Dev) (n : Nat) (l : Lane) : Dev := { d with lanes := Sparse.put {} d.lanes n l }
def leg (d : Dev) (n : Nat) : Leg := Sparse.at' {} d.legs n
def setLeg (d : Dev) (n : Nat) (l : Leg) : Dev := { d with legs := Sparse.put {} d.legs n l }

/-- The next free value and the counter advanced (log entry 10). -/
def freeWord (d : Dev) : Word × Dev := (Config.freeWord d.free, { d with free := d.free + 1 })

/-- Applies an effect to each of a list. -/
def forEach {α : Type} (l : List α) (f : Dev → α → Dev) (d : Dev) : Dev := l.foldl f d

end Dev

/-! ### Write-error flags (R5, R88, R105) -/

/-- The write-error flag of the block that owns an address; none for SYSCTL, CFG, WVA and WVB, whose field tables give
no such flag (log entry 22). -/
def werrFlag (a : Nat) : Option Fld :=
  match a / 0x1000 with
  | 0x40001 => some R.CLK_STAT_WERR
  | 0x40002 => some R.PWRB_STATUS_WERR
  | 0x40003 => some R.LEDGER_STATUS_WERR
  | 0x4000A => some R.LANE_STATUS_WERR
  | 0x40010 => some (R.ADC_STATUS_WERR 0)
  | 0x40011 => some (R.ADC_STATUS_WERR 1)
  | 0x40012 => some (R.ADC_STATUS_WERR 2)
  | 0x40013 => some (R.ADC_STATUS_WERR 3)
  | 0x40014 => some R.SDF_STATUS_WERR
  | 0x40020 => some (R.PWM_LEG_STAT_WERR ((a - 0x40020000) / 0x100))
  | 0x40021 => some (R.PWM_LEG_STAT_WERR ((a - 0x40020000) / 0x100))
  | 0x40022 => some (R.PWM_LEG_STAT_WERR ((a - 0x40020000) / 0x100))
  | 0x40023 => some R.PWM_STATUS_WERR
  | 0x40024 => some R.GSUP_STATUS_WERR
  | 0x40030 => some R.ACC_STATUS_WERR
  | 0x40031 => some R.ISO_STATUS_WERR
  | 0x40032 => some R.ARCH_STATUS_WERR
  | 0x40040 => some R.CIRC_STATUS_WERR
  | 0x40050 => some R.TIME_STATUS_WERR
  | 0x40051 => some (R.ETH_STATUS_WERR 0)
  | 0x40052 => some (R.ETH_STATUS_WERR 1)
  | 0x40060 => if 0x40060800 ≤ a then some R.DPL_STATUS_WERR else some (R.CAN_STATUS_WERR 0)
  | 0x40061 => some (R.CAN_STATUS_WERR 1)
  | 0x40062 => some (R.CAN_STATUS_WERR 2)
  | 0x40063 => some (R.CAN_STATUS_WERR 3)
  | _ => none

/-- Sets the write-error flag of the block that owns an address. -/
def Dev.werr (d : Dev) (a : Nat) : Dev :=
  match werrFlag a with
  | some f => d.note f
  | none => d

/-- Bits [19:12] of the base of the block that owns an address; PWM is one block of 16 KiB (R23, R105). -/
def blockBits (a : Nat) : Nat :=
  let b := a / 0x1000 % 0x100
  if 0x20 ≤ b ∧ b ≤ 0x23 then 0x20 else b

/-- Records an event in CFG.WERR_ADDR and CFG.WERR_INFO (R105). -/
def Dev.recordWerr (d : Dev) (a reason : Nat) : Dev :=
  (((d.set R.CFG_WERR_ADDR_ADDR a).set R.CFG_WERR_INFO_REASON reason).set R.CFG_WERR_INFO_BLOCK (blockBits a)).incSat
    R.CFG_WERR_INFO_COUNT

/-! ### Memory -/

/-- What a byte that nothing has written reads as (log entry 11). -/
def memDefault (_ : Nat) : Byte := 0

abbrev Mem := List Host.Cell

namespace Mem

def rd (m : Mem) (a : Nat) : Byte := Sparse.get memDefault m a
def wr (m : Mem) (a : Nat) (v : Byte) : Mem := Sparse.set memDefault m a v

/-- The canonical form of memory. -/
def wf (m : Mem) : Bool := Sparse.wf memDefault m

/-- `n` bytes from an address, as numbers. -/
def bytes (m : Mem) (a n : Nat) : List Nat := (List.range n).map fun i => (rd m (a + i)).toNat

/-- A little-endian number of `n` bytes. -/
def num (m : Mem) (a : Nat) : Nat → Nat
  | 0 => 0
  | n + 1 => (rd m a).toNat + 256 * num m (a + 1) n

def word (m : Mem) (a : Nat) : Word := Sys2Proof.word (num m a 4)

/-- Stores `n` bytes of a number, little-endian. -/
def wrNum (m : Mem) (a : Nat) : Nat → Nat → Mem
  | 0, _ => m
  | n + 1, v => wrNum (wr m a (BitVec.ofNat 8 v)) (a + 1) n (v / 256)

def wrWord (m : Mem) (a : Nat) (w : Word) : Mem := wrNum m a 4 w.toNat

def wrBytes (m : Mem) : Nat → List Nat → Mem
  | _, [] => m
  | a, b :: t => wrBytes (wr m a (BitVec.ofNat 8 b)) (a + 1) t

def wrWords (m : Mem) : Nat → List Word → Mem
  | _, [] => m
  | a, w :: t => wrWords (wrWord m a w) (a + 4) t

end Mem

/-- Base of a lane's slot and coefficient memory (R110). -/
def laneBase (lane : Nat) : Nat := 0x20000000 + 0x100000 * lane

/-- Address of a slot of a logical Stake (R110). -/
def slotAddr (lane stake slot : Nat) : Nat := laneBase lane + stake * 0x1000 + 4 * slot

/-- An effect on the device alone. -/
def State.onDev (s : State) (f : Dev → Dev) : State := { s with d := f s.d }

/-- What a core does: nothing while it is held (R417, log entry 149). -/
def State.byCore (s : State) (core : Nat) (f : State → Host.Outcome State Fault Refusal) :
    Host.Outcome State Fault Refusal :=
  if s.d.coreHeld core then .next s else f s

/-- An effect of a core on the device alone. -/
def State.coreDev (s : State) (core : Nat) (f : Dev → Dev) : State :=
  if s.d.coreHeld core then s else s.onDev f

end Sys2Proof.Machine
end

