-- ==== Sys2Proof/Machine/Repair.lean ====
section
/-! DEFINITION. Spares and the repair map (chapter 17): what a failing unit does to the bindings, the spare registers and
SYSCTL.MODE.DEGRADED. -/

namespace Sys2Proof.Machine

/-! ### Entries of the repair map (R513) -/

def stakeEntry (lane p q : Nat) : Nat := 1 * 2 ^ 28 + q * 2 ^ 8 + lane * 2 ^ 7 + p
def sliceEntry (c p : Nat) : Nat := 2 * 2 ^ 28 + c * 2 ^ 4 + p
def rowEntry (m r q : Nat) : Nat := 3 * 2 ^ 28 + m * 2 ^ 21 + r * 2 ^ 14 + q * 2 ^ 12
def tapEntry (leg t q : Nat) : Nat := 4 * 2 ^ 28 + leg * 2 ^ 16 + q * 2 ^ 5 + t

/-- KIND of an entry that binds something; 0 for an empty, reserved or revoked one. -/
def entryKind (e : Word) : Nat :=
  let k := bits e.toNat 28 4
  if bits e.toNat 0 28 = 2 ^ 28 - 1 ∨ 4 < k then 0 else k

/-- Source of a double-bit error at an address (R345): core SRAM and the TCMs, Archive memory, message RAM, the Pattern
store. -/
def dedSource (a : Nat) : Nat :=
  if 0x30000000 ≤ a ∧ a < 0x30180000 then 89
  else if 0x38000000 ≤ a ∧ a < 0x38040000 then 90
  else if 0x3C000000 ≤ a ∧ a < 0x3C040000 then 91
  else 88

namespace Dev

/-- Entries in force of a kind that satisfy `p`. -/
def entries (d : Dev) (kind : Nat) (p : Nat → Bool) : List Nat :=
  (d.repair.map (·.1)).filterMap fun e => if entryKind e = kind ∧ p e.toNat then some e.toNat else none

/-- A Stake has failed BIST. -/
def stakeDead (d : Dev) (lane p : Nat) : Bool :=
  d.dead.any fun u => match u with | .stake l q => l.val == lane && q.val == p | _ => false

/-- Spare Stakes of a lane that are free (R107). -/
def freeStakes (d : Dev) (lane : Nat) : List Nat :=
  [32, 33].filter fun q =>
    !d.stakeDead lane q &&
      (d.entries 1 fun e => bits e 7 1 == lane && bits e 8 6 == q).isEmpty

/-- A physical Stake serves a logical one. -/
def stakeServes (d : Dev) (lane p : Nat) : Bool :=
  (d.entries 1 fun e => bits e 7 1 == lane && bits e 0 6 == p).isEmpty &&
    (decide (p < 32) || !(d.entries 1 fun e => bits e 7 1 == lane && bits e 8 6 == p).isEmpty)

/-- The physical Stake that the bindings give a logical one; a spare's own failure is followed too (R107, R513). -/
def servedBy (d : Dev) (lane s : Nat) : Nat :=
  let next (p : Nat) : Option Nat :=
    (d.entries 1 fun e => bits e 7 1 == lane && bits e 0 6 == p).head?.map fun e => bits e 8 6
  match next s with
  | none => s
  | some q => (next q).getD q

/-- WVx.MAPs show the bindings (R146). -/
def mapSync (d : Dev) : Dev :=
  [0, 1].foldl (fun d n => (List.range 32).foldl (fun d s =>
    let p := d.servedBy n s
    (d.set (R.WV_MAP_PHYS n s) p).setB (R.WV_MAP_SPARE n s) (decide (32 ≤ p))) d) d

/-- After BIST: FORMED where all 32 logical Stakes are bound to Stakes that passed it, and SPARES_USED (R107, R141). -/
def formSync (d : Dev) (n : Nat) : Dev :=
  let ps := (List.range 32).map (d.servedBy n)
  (d.setB (R.WV_STATUS_FORMED n) (ps.all fun p => !d.stakeDead n p)).set (R.WV_STATUS_SPARES_USED n)
    (ps.filter fun p => 32 ≤ p).length

/-- BIST has tested the Stakes that `mine` names: those among `bad` have failed, the others pass (R514). -/
def stakesTested (d : Dev) (mine : Nat → Bool) (bad : List BadUnit) : Dev :=
  let tested (u : BadUnit) : Bool := match u with | .stake l _ => mine l.val | _ => false
  { d with dead := d.dead.filter (fun u => !tested u) ++ bad.filter tested }

/-- Failed physical slices of a converter. -/
def failedSlices (d : Dev) (c : Nat) : List Nat :=
  (List.range 9).filter fun p =>
    (d.dead.any fun u => match u with | .slice k q => k.val == c && q.val == p | _ => false) ||
      !(d.entries 2 fun e => bits e 4 2 == c && bits e 0 4 == p).isEmpty

/-- SLICEMAP and STATUS.OUT follow the failed slices; the partner in service carries the open channels of a converter
that is out (R180, R210). -/
def sliceSync (d : Dev) (c : Nat) : Dev :=
  let f := d.failedSlices c
  let low := f.filter (· < 8)
  let out := decide (2 ≤ f.length)
  let pout := decide (2 ≤ (d.failedSlices (partner c)).length)
  let used := !out && !low.isEmpty
  let d := d.set (R.ADC_SLICEMAP_FAILED c) (f.foldl (fun m p => m + 2 ^ p) 0)
  let d := d.set (R.ADC_SLICEMAP_REPL c) (if used then low.headD 0 else 0)
  let d := (d.setB (R.ADC_SLICEMAP_SPARE_USED c) used).setB (R.ADC_SLICEMAP_OUT c) out
  let d := d.setB (R.ADC_STATUS_OUT c) out
  let d := if out then d.setB (R.ADC_STATUS_HANDED c) (!pout) else d
  if out || pout then d.setB (R.ADC_STATUS_CARRYING c) (!out) else d

/-- The slice spare of a converter is free. -/
def freeSlice (d : Dev) (c : Nat) : Bool := (d.failedSlices c).isEmpty

/-- Spare rows of a macro that are free. -/
def freeRows (d : Dev) (m : Nat) : List Nat :=
  (List.range 4).filter fun q => (d.entries 3 fun e => bits e 21 7 == m && bits e 12 2 == q).isEmpty

/-- Bindings of a leg's spare taps (R512, R513). -/
def tapBindings (d : Dev) (leg : Nat) : Nat := (d.entries 4 fun e => bits e 16 6 == leg).length

/-- Spare taps of a leg that are free. -/
def freeTaps (d : Dev) (leg : Nat) : List Nat :=
  [0, 1].filter fun q => (d.entries 4 fun e => bits e 16 6 == leg && bits e 5 1 == q).isEmpty

/-- The last binding of each resource whose spares are all bound: Stakes by lane, slices by converter, rows by macro, taps
by leg (R107, R180, R514). -/
def usedUp (d : Dev) : List Nat :=
  let last (kind lo w n : Nat) (k : Nat) : Option Nat :=
    let es := d.entries kind fun e => bits e lo w == k
    if n ≤ es.length then es.getLast? else none
  (List.range 2).filterMap (last 1 7 1 2) ++ (List.range 4).filterMap (last 2 4 2 1) ++
    (List.range 100).filterMap (last 3 21 7 4) ++ (List.range 48).filterMap (last 4 16 6 2)

/-- LEDGER.SPARES follows the bindings (R519). -/
def spareSync (d : Dev) : Dev :=
  let d := d.set R.LEDGER_SPARES_STK_A (d.freeStakes 0).length
  let d := d.set R.LEDGER_SPARES_STK_B (d.freeStakes 1).length
  let d := d.set R.LEDGER_SPARES_SLICE ((List.range 4).foldl (fun m c => m + b2n (d.freeSlice c) * 2 ^ c) 0)
  let macs := (d.entries 3 fun _ => true).map fun e => bits e 21 7
  let d := d.set R.LEDGER_SPARES_ROWMIN (macs.foldl (fun n m => min n (d.freeRows m).length) 4)
  let d := d.set R.LEDGER_SPARES_TAPLOW ((List.range 48).filter fun n => 2 ≤ d.tapBindings n).length
  let d := d.set R.LEDGER_SPARES_COARSE ((List.range 48).filter fun n => (d.leg n).coarse).length
  let d := d.set R.LEDGER_SPARES_WITHDRAWN (min d.withdrawn.length 255)
  (List.range 4).foldl sliceSync d

/-- The device runs with a resource that has no unbound spare (R42, R107, R180, R514). -/
def exhausted (d : Dev) : Bool :=
  (d.freeStakes 0).isEmpty || (d.freeStakes 1).isEmpty || (List.range 4).any (fun c => !d.freeSlice c) ||
    d.get R.LEDGER_SPARES_ROWMIN == 0 || d.get R.LEDGER_SPARES_TAPLOW != 0 || d.get R.LEDGER_SPARES_COARSE != 0 ||
    d.get R.LEDGER_SPARES_WITHDRAWN != 0

/-- SPARE_EXHAUSTED (R514), at a location given as an entry word. -/
def spareGone (d : Dev) (entry : Nat) : Dev := (d.raise islGUARD 169 entry).set R.SYSCTL_MODE_DEGRADED 1

/-- A binding is made: volatile, reported with REPAIR_BOUND, and SPARE_EXHAUSTED where it took the last spare. -/
def bindSpare (d : Dev) (entry : Nat) (lastOne : Bool) : Dev :=
  let d := { d with repair := d.repair ++ [(word entry, true)] }.raise islGUARD 168 entry
  if lastOne then d.spareGone entry else d

/-- A failing tap gets a spare, or its leg runs coarse (R514, R515). -/
def tapRepair (d : Dev) (leg t : Nat) : Dev :=
  match d.freeTaps leg with
  | q :: rest => (d.bindSpare (tapEntry leg t q) rest.isEmpty).spareSync
  | [] =>
    ((d.setLeg leg { d.leg leg with coarse := true }).raise islGUARD 171 leg).spareGone (tapEntry leg t 0) |>.spareSync

/-- One unit that BIST found failing; false where a lane cannot be formed (R38, R514). -/
def bistUnit (r : Dev × Bool) (u : BadUnit) : Dev × Bool :=
  let d := r.1
  match u with
  | .stake l p =>
    let serves := d.stakeServes l.val p.val
    let free := (d.freeStakes l.val).filter (· != p.val)
    if serves then
      match free with
      | q :: rest => ((d.bindSpare (stakeEntry l.val p.val q) rest.isEmpty).spareSync, r.2)
      | [] => ((d.spareGone (stakeEntry l.val p.val 0)).spareSync, false)
    else if p.val ≥ 32 ∧ free.isEmpty then ((d.spareGone (stakeEntry l.val p.val 0)).spareSync, r.2)
    else (d.spareSync, r.2)
  | .slice c p =>
    let before := d.failedSlices c.val
    if before.contains p.val then r
    else
      let d := { d with dead := d.dead ++ [u] }
      let entry := sliceEntry c.val p.val
      let d := if before.isEmpty ∧ p.val < 8 then d.bindSpare entry true else d.spareGone entry
      (d.spareSync, r.2)
  | .row m w base =>
    match d.freeRows m.val with
    | q :: rest => ((d.bindSpare (rowEntry m.val w.val q) rest.isEmpty).spareSync, r.2)
    | [] =>
      let a := base.toNat / 512 * 512
      let d := d.spareGone (rowEntry m.val w.val 0)
      if (0x20000000 ≤ a ∧ a < 0x20200000) ∨ dedSource a = 91 then (d.spareSync, false)
      else (({ d with withdrawn := d.withdrawn.filter (· != a) ++ [a] }).spareSync, r.2)
  | .tap leg t => (d.tapRepair leg.val t.val, r.2)

/-- Rows whose place a spare takes start their count of corrected errors again (R505). -/
def forgetHits (d : Dev) (us : List BadUnit) : Dev :=
  { d with rowHits := us.foldl (fun l u => match u with
    | .row m w _ => Sparse.put 0 l (m.val * 128 + w.val) 0
    | _ => l) d.rowHits }

/-- BIST over the units found failing and the rows marked weak: the device after it, and whether the lanes can be formed
(R505, R514). A resource that the bindings before this run leave without a spare is reported too. -/
def bist (d : Dev) (bad : List BadUnit) : Dev × Bool :=
  let units := bad ++ d.weak.filter fun u => !bad.contains u
  let start := { (d.stakesTested (fun _ => true) bad).forgetHits units with weak := [] }
  let r := units.foldl bistUnit (start, true)
  let r1 := d.usedUp.foldl spareGone r.1
  let d := ((r1.spareSync.mapSync).formSync 0).formSync 1
  (if d.exhausted then d.set R.SYSCTL_MODE_DEGRADED 1 else d, r.2)

end Dev

end Sys2Proof.Machine
end

