-- ==== Sys2Proof/Machine/Crypto.lean ====
section
/-! DEFINITION. The cryptographic functions that the spec names and takes from their standards (log entry 14): SHA-256
(R60, R82, R97), ECDSA over P-256 (R60, R82) and AES-128 CMAC (R476). Words and field elements are numbers. -/

namespace Sys2Proof.Machine.Crypto

/-- `f x`: an evaluator that works on demand reduces x to a numeral here, so that no loop below builds up a long unevaluated
term. -/
def strict {α : Type} (x : Nat) (f : Nat → α) : α :=
  match x with
  | 0 => f 0
  | n + 1 => f (n + 1)

@[simp] theorem strict_eq {α : Type} (x : Nat) (f : Nat → α) : strict x f = f x := by cases x <;> rfl

/-- `f l`, the members first. -/
def strictL {α : Type} : List Nat → (List Nat → α) → α
  | [], f => f []
  | x :: l, f => strict x fun y => strictL l fun r => f (y :: r)

@[simp] theorem strictL_eq {α : Type} (l : List Nat) (f : List Nat → α) : strictL l f = f l := by
  induction l generalizing f with
  | nil => rfl
  | cons x l ih => simp [strictL, ih]

/-! ### SHA-256 -/

def m32 (n : Nat) : Nat := n % 2 ^ 32

def rotr (k x : Nat) : Nat := m32 ((x >>> k) ||| (x <<< (32 - k)))

/-- The eight 32-bit words of a 256-bit number, the most significant first. -/
def words8 (n : Nat) : List Nat := (List.range 8).map fun i => n / 2 ^ (224 - 32 * i) % 2 ^ 32

/-- The round constants, eight to a number: the fractions of the cube roots of the first 64 primes
(`Sys2Proof.Laws.shaK_spec`). -/
def shaK : List Nat := [
  0x428a2f9871374491b5c0fbcfe9b5dba53956c25b59f111f1923f82a4ab1c5ed5,
  0xd807aa9812835b01243185be550c7dc372be5d7480deb1fe9bdc06a7c19bf174,
  0xe49b69c1efbe47860fc19dc6240ca1cc2de92c6f4a7484aa5cb0a9dc76f988da,
  0x983e5152a831c66db00327c8bf597fc7c6e00bf3d5a7914706ca635114292967,
  0x27b70a852e1b21384d2c6dfc53380d13650a7354766a0abb81c2c92e92722c85,
  0xa2bfe8a1a81a664bc24b8b70c76c51a3d192e819d6990624f40e3585106aa070,
  0x19a4c1161e376c082748774c34b0bcb5391c0cb34ed8aa4a5b9cca4f682e6ff3,
  0x748f82ee78a5636f84c878148cc7020890befffaa4506cebbef9a3f7c67178f2].flatMap words8

structure Sha where
  a : Nat
  b : Nat
  c : Nat
  d : Nat
  e : Nat
  f : Nat
  g : Nat
  h : Nat
deriving DecidableEq, Repr

/-- The state of eight words. -/
def shaOf : List Nat → Sha
  | [a, b, c, d, e, f, g, h] => ⟨a, b, c, d, e, f, g, h⟩
  | _ => ⟨0, 0, 0, 0, 0, 0, 0, 0⟩

/-- The initial state: the fractions of the square roots of the first eight primes (`Sys2Proof.Laws.shaInit_spec`). -/
def shaInit : Sha := shaOf (words8 0x6a09e667bb67ae853c6ef372a54ff53a510e527f9b05688c1f83d9ab5be0cd19)

/-- Runs the rounds; `ws` is the sliding window of the 16 schedule words still to use. -/
def shaRounds : List Nat → List Nat → Sha → Sha
  | [], _, s => s
  | k :: ks, w :: ws, s =>
    let w1 := ws.getD 0 0
    let w14 := ws.getD 13 0
    let g0 := rotr 7 w1 ^^^ rotr 18 w1 ^^^ (w1 >>> 3)
    let g1 := rotr 17 w14 ^^^ rotr 19 w14 ^^^ (w14 >>> 10)
    let s1 := rotr 6 s.e ^^^ rotr 11 s.e ^^^ rotr 25 s.e
    let ch := (s.e &&& s.f) ^^^ ((2 ^ 32 - 1 - s.e) &&& s.g)
    let s0 := rotr 2 s.a ^^^ rotr 13 s.a ^^^ rotr 22 s.a
    let mj := (s.a &&& s.b) ^^^ (s.a &&& s.c) ^^^ (s.b &&& s.c)
    strict (m32 (w + g0 + ws.getD 8 0 + g1)) fun w16 =>
    strict (s.h + s1 + ch + k + w) fun t1 =>
    strict (m32 (t1 + s0 + mj)) fun a =>
    strict (m32 (s.d + t1)) fun e =>
      shaRounds ks (ws ++ [w16]) ⟨a, s.a, s.b, s.c, e, s.e, s.f, s.g⟩
  | _ :: _, [], s => s

def beNum (bs : List Nat) : Nat := bs.foldl (fun n b => n * 256 + b % 256) 0

def beBytes : Nat → Nat → List Nat
  | 0, _ => []
  | k + 1, n => beBytes k (n / 256) ++ [n % 256]

def chunks (k : Nat) : Nat → List Nat → List (List Nat)
  | 0, _ => []
  | f + 1, l => if l.isEmpty then [] else l.take k :: chunks k f (l.drop k)

def shaBlock (s : Sha) (blk : List Nat) : Sha :=
  strictL ((chunks 4 16 blk).map beNum) fun ws =>
    let t := shaRounds shaK ws s
    strict (m32 (s.a + t.a)) fun a => strict (m32 (s.b + t.b)) fun b => strict (m32 (s.c + t.c)) fun c =>
    strict (m32 (s.d + t.d)) fun d => strict (m32 (s.e + t.e)) fun e => strict (m32 (s.f + t.f)) fun f =>
    strict (m32 (s.g + t.g)) fun g => strict (m32 (s.h + t.h)) fun h => ⟨a, b, c, d, e, f, g, h⟩

def shaPad (bs : List Nat) : List Nat :=
  let n := bs.length
  bs ++ [0x80] ++ List.replicate ((119 - n % 64) % 64) 0 ++ beBytes 8 (8 * n)

/-- SHA-256 of a byte string, as 32 bytes. -/
def sha256 (bs : List Nat) : List Nat :=
  strictL (shaPad bs) fun p =>
    let s := (chunks 64 (p.length / 64 + 1) p).foldl shaBlock shaInit
    strictL ([s.a, s.b, s.c, s.d, s.e, s.f, s.g, s.h].flatMap (beBytes 4)) id

/-- H64: the first 8 bytes of SHA-256 as a big-endian number (chapter 03, before R97). -/
def h64 (bs : List Nat) : BitVec 64 := BitVec.ofNat 64 (beNum ((sha256 bs).take 8))

/-! ### ECDSA over P-256 -/

def p256 : Nat := 0xffffffff00000001000000000000000000000000ffffffffffffffffffffffff
def n256 : Nat := 0xffffffff00000000ffffffffffffffffbce6faada7179e84f3b9cac2fc632551
def b256 : Nat := 0x5ac635d8aa3a93e7b3ebbd55769886bc651d06b0cc53b0f63bce3c3e27d2604b
def gx : Nat := 0x6b17d1f2e12c4247f8bce6e563a440f277037d812deb33a0f4a13945d898c296
def gy : Nat := 0x4fe342e2fe1a7f9b8ee7eb4a7c0f9e162bce33576b315ececbb6406837bf51f5

/-- r * b ^ e modulo m, for e < 2 ^ k. -/
def powMod (m : Nat) : Nat → Nat → Nat → Nat → Nat
  | 0, _, _, r => r % m
  | k + 1, b, e, r =>
    strict (b * b % m) fun b2 => strict (e / 2) fun e2 => strict (if e % 2 = 1 then r * b % m else r) fun r2 => powMod m k b2 e2 r2

/-- Inverse modulo a 256-bit prime. -/
def invMod (m a : Nat) : Nat := powMod m 256 (a % m) (m - 2) 1

/-- A point in Jacobian coordinates; z = 0 is the point at infinity. -/
structure Pt where
  x : Nat
  y : Nat
  z : Nat
deriving DecidableEq, Repr

def subP (a b : Nat) : Nat := (a + p256 - b % p256) % p256

/-- `f q`, the coordinates first. -/
def strictPt {α : Type} (q : Pt) (f : Pt → α) : α := strict q.x fun x => strict q.y fun y => strict q.z fun z => f ⟨x, y, z⟩

@[simp] theorem strictPt_eq {α : Type} (q : Pt) (f : Pt → α) : strictPt q f = f q := by simp [strictPt]

def dbl (q : Pt) : Pt :=
  strict (q.z * q.z % p256) fun d =>
  strict (3 * subP q.x d * (q.x + d) % p256) fun m =>
  strict (q.y * q.y % p256) fun y2 =>
  strict (4 * q.x * y2 % p256) fun s =>
  strict (subP (m * m) (2 * s)) fun x =>
    ⟨x, subP (m * subP s x) (8 * y2 * y2), 2 * q.y * q.z % p256⟩

def addPt (a b : Pt) : Pt :=
  if a.z = 0 then b else if b.z = 0 then a
  else
    strict (a.z * a.z % p256) fun za =>
    strict (b.z * b.z % p256) fun zb =>
    strict (a.x * zb % p256) fun u1 =>
    strict (b.x * za % p256) fun u2 =>
    strict (a.y * zb * b.z % p256) fun s1 =>
    strict (b.y * za * a.z % p256) fun s2 =>
      if u1 = u2 then (if s1 = s2 then dbl a else ⟨1, 1, 0⟩)
      else
        strict (subP u2 u1) fun h =>
        strict (subP s2 s1) fun r =>
        strict (h * h % p256) fun h2 =>
        strict (h2 * h % p256) fun h3 =>
        strict (u1 * h2 % p256) fun v =>
        strict (subP (r * r) (h3 + 2 * v)) fun x =>
          ⟨x, subP (r * subP v x) (s1 * h3), h * a.z * b.z % p256⟩

/-- r + e q, for e < 2 ^ k. -/
def mulPt : Nat → Nat → Pt → Pt → Pt
  | 0, _, _, r => r
  | k + 1, e, q, r =>
    strictPt (dbl q) fun q2 => strictPt (if e % 2 = 1 then addPt r q else r) fun r2 => strict (e / 2) fun e2 => mulPt k e2 q2 r2

/-- ECDSA verification of a digest under the key (qx, qy). -/
def ecdsaVerify (qx qy r s : Nat) (digest : List Nat) : Bool :=
  let onCurve := qx < p256 && qy < p256 && qy * qy % p256 == (qx * qx * qx + (p256 - 3) * qx + b256) % p256
  if !onCurve || r == 0 || s == 0 || n256 ≤ r || n256 ≤ s then false
  else
    let w := invMod n256 s
    let z := beNum digest
    let q := mulPt 256 (r * w % n256) ⟨qx, qy, 1⟩ (mulPt 256 (z * w % n256) ⟨gx, gy, 1⟩ ⟨1, 1, 0⟩)
    if q.z = 0 then false
    else
      let zi := invMod p256 q.z
      q.x * zi * zi % p256 % n256 == r

/-! ### AES-128 and CMAC -/

def xtime (a : Nat) : Nat := let b := 2 * a; if 256 ≤ b then (b ^^^ 0x11b) % 256 else b

def gmul : Nat → Nat → Nat → Nat
  | 0, _, _ => 0
  | k + 1, a, b => strict (xtime a) fun a2 => strict (b / 2) fun b2 => (if b % 2 = 1 then a else 0) ^^^ gmul k a2 b2

/-- r * s ^ (2 + 4 + ... + 2 ^ k) in the field. -/
def gpow : Nat → Nat → Nat → Nat
  | 0, _, r => r
  | k + 1, s, r => strict (gmul 8 s s) fun s2 => strict (gmul 8 r s2) fun r2 => gpow k s2 r2

def rot8 (k x : Nat) : Nat := (x * 2 ^ k % 256) ||| (x >>> (8 - k))

/-- The S-box: the inverse x ^ 254 in the field, then the affine map. -/
def sbox (x : Nat) : Nat :=
  strict (gpow 7 x 1) fun i => i ^^^ rot8 1 i ^^^ rot8 2 i ^^^ rot8 3 i ^^^ rot8 4 i ^^^ 0x63

def xorL (a b : List Nat) : List Nat := List.zipWith (· ^^^ ·) a b

/-- The next round key from the last (16 bytes each). -/
def nextKey (rc : Nat) (k : List Nat) : List Nat :=
  let w := fun i => (k.drop (4 * i)).take 4
  let t := match (w 3) with
    | [a, b, c, d] => [sbox b ^^^ rc, sbox c, sbox d, sbox a]
    | l => l
  let w0 := xorL (w 0) t
  let w1 := xorL (w 1) w0
  let w2 := xorL (w 2) w1
  let w3 := xorL (w 3) w2
  w0 ++ w1 ++ w2 ++ w3

def shiftRows (s : List Nat) : List Nat :=
  (List.range 16).map fun i => s.getD ((i + 4 * (i % 4)) % 16) 0

def mixCol (c : List Nat) : List Nat :=
  (List.range 4).map fun i =>
    let g := fun j => c.getD ((i + j) % 4) 0
    xtime (g 0) ^^^ (xtime (g 1) ^^^ g 1) ^^^ g 2 ^^^ g 3

def aesRounds : List Nat → List Nat → List Nat → List Nat
  | [], _, s => s
  | rc :: rcs, k, s =>
    strictL (nextKey rc k) fun k' =>
    strictL (shiftRows (s.map sbox)) fun t =>
    strictL (xorL (if rcs.isEmpty then t else (chunks 4 4 t).flatMap mixCol) k') fun s' => aesRounds rcs k' s'

/-- AES-128 encryption of one block. -/
def aes (key blk : List Nat) : List Nat :=
  strictL (xorL blk key) fun s => aesRounds [1, 2, 4, 8, 16, 32, 64, 128, 0x1b, 0x36] key s

/-- Doubling in the field of CMAC. -/
def cmacDouble (b : List Nat) : List Nat :=
  let n := 2 * beNum b
  beBytes 16 (if 2 ^ 128 ≤ n then (n - 2 ^ 128) ^^^ 0x87 else n)

/-- AES-128 CMAC of a message: 16 bytes. -/
def cmac (key msg : List Nat) : List Nat :=
  let k1 := cmacDouble (aes key (List.replicate 16 0))
  let k2 := cmacDouble k1
  let nb := (msg.length + 15) / 16 - 1
  let head := msg.take (16 * nb)
  let last := msg.drop (16 * nb)
  let x := (chunks 16 nb head).foldl (fun s b => aes key (xorL s b)) (List.replicate 16 0)
  let l := if last.length = 16 then xorL last k1
    else xorL (last ++ [0x80] ++ List.replicate (15 - last.length) 0) k2
  aes key (xorL x l)

end Sys2Proof.Machine.Crypto
end

