-- ==== Sys2Proof/Machine/Commit.lean ====
section
/-! DEFINITION. Commit classes and the Colophon (chapter 03): captures and pending sets of Staged fields, their
application, the incremental Colophon, the coefficient port, and the CFG commands. -/

namespace Sys2Proof.Machine

/-! ### The Colophon (R97 to R102) -/

def le4 (n : Nat) : List Nat := [n % 256, n / 256 % 256, n / 65536 % 256, n / 16777216 % 256]

/-- A big-endian number of bytes i to i + n - 1. -/
def beAt (f : List Nat) (i n : Nat) : Nat := Crypto.beNum ((f.drop i).take n)

/-- e(a, v) of R98. -/
def coloEntry (a : Nat) (v : Word) : BitVec 64 := Crypto.h64 (le4 a ++ le4 v.toNat)

/-- The mask of the fields of a register that satisfy `p`. -/
def fieldMask (p : FieldSpec → Bool) (fs : List FieldSpec) : Nat :=
  fs.foldl (fun m f => if p f then m + (2 ^ f.w - 1) * 2 ^ f.lo else m) 0

def staticMask (a : Nat) : Nat :=
  match regSpec? a with
  | some r => fieldMask (fun f => f.cls == .static) r.fields
  | none => 0

def stagedMask (a : Nat) : Nat :=
  match regSpec? a with
  | some r => fieldMask (fun f => f.cls == .staged) r.fields
  | none => 0

namespace Dev

/-- Registers of the leg set, EVT of a leg that the Weave owns (R99), and the registers of the MACs and of the CAN
controllers with DPL: not covered. -/
def uncovered (d : Dev) (a : Nat) : Bool :=
  (decide (0x40051000 ≤ a) && decide (a < 0x40053000)) || (decide (0x40060000 ≤ a) && decide (a < 0x40064000)) ||
  decide (0x40020000 ≤ a) && decide (a < 0x40023000) &&
    ([0x08, 0x0C, 0x10, 0x14].contains (a % 0x100) ||
      (a % 0x100 == 0x18 && d.get (R.PWM_LEG_MAP_OWNER ((a - 0x40020000) / 0x100)) == 1))

/-- The Staged fields of a register that the Colophon covers: of a fixed source, N and GRACE without EN, CLASS and
REACTION (R78, R99). -/
def coverMask (a : Nat) : Nat :=
  if 0x40030400 ≤ a ∧ a < 0x40030700 ∧ isFixed ((a - 0x40030400) / 4) then stagedMask a / 32 * 32 else stagedMask a

/-- The covered value of a register: its Static fields as they stand and its Staged fields as they act (R98, R99). -/
def coverWord (d : Dev) (a : Nat) : Word :=
  if d.uncovered a then 0
  else word (((d.rdw a).toNat &&& staticMask a) ||| ((d.actw a).toNat &&& coverMask a))

/-- CFG sends a covered change over separate channels to both accumulators, once a Pattern is loaded (R98, R100). -/
def sendColophon (d : Dev) (delta : BitVec 64) : Dev :=
  if d.isSet R.CFG_STATUS_LOADED && delta != 0 then (d.send 0x13 4 (.colophon delta)).send 0x1B 5 (.colophon delta)
  else d

/-- Changes register `a` by `f` and enters the change in the Colophon (R98). -/
def covered (d : Dev) (a : Nat) (f : Dev → Dev) : Dev :=
  let v := d.coverWord a
  let d' := f d
  let v' := d'.coverWord a
  if v = v' then d' else d'.sendColophon (coloEntry a v ^^^ coloEntry a v')

/-- Accumulator of a lane as one number. -/
def coloA (d : Dev) : BitVec 64 := BitVec.ofNat 64 (d.get R.CFG_COLO_A_HI * 2 ^ 32 + d.get R.CFG_COLO_A_LO)
def coloB (d : Dev) : BitVec 64 := BitVec.ofNat 64 (d.get R.CFG_COLO_B_HI * 2 ^ 32 + d.get R.CFG_COLO_B_LO)

/-- Colophon of the active lane. -/
def coloActive (d : Dev) : BitVec 64 := if d.get R.LANE_STATUS_ACTIVE = 0 then d.coloA else d.coloB

/-- A peer entry is UP and its last Colophon differs from the unit's own (R486). -/
def peerDiffers (d : Dev) (k : Nat) : Bool :=
  d.isSet R.DPL_CFG_COLO_CHK && d.get (R.DPL_PEER_STAT_STATE k) == 1 &&
    d.coloActive != BitVec.ofNat 64 (d.get (R.DPL_PEER_COLO_HI_VAL k) * 2 ^ 32 + d.get (R.DPL_PEER_COLO_LO_VAL k))

/-- COLO_DIFF of every entry and the condition DPL_COLO_DIFF, raised in island CAN (R486). -/
def coloPeers (d : Dev) : Dev :=
  let d := (List.range 32).foldl (fun d k => d.setB (R.DPL_PEER_STAT_COLO_DIFF k) (d.peerDiffers k)) d
  if (List.range 32).any d.peerDiffers then d.beginCond 12 152 0 else d.setCond 152 false

/-- CFG.STATUS.SPLIT and LANE.STATUS.NOSWITCH follow the accumulators; when they agree again the condition of
COLOPHON_SPLIT ends (R100). -/
def syncSplit (d : Dev) : Dev :=
  let d := (d.setB R.CFG_STATUS_SPLIT (d.coloA != d.coloB)).setB R.LANE_STATUS_NOSWITCH (d.coloA != d.coloB)
  (if d.coloA = d.coloB then d.setCond 87 false else d).coloPeers

/-- An accumulator takes a change: lane 0 A, lane 1 B. -/
def takeColophon (d : Dev) (lane : Nat) (delta : BitVec 64) : Dev :=
  let x := (if lane = 0 then d.coloA else d.coloB) ^^^ delta
  let d := if lane = 0 then (d.set R.CFG_COLO_A_LO x.toNat).set R.CFG_COLO_A_HI (x.toNat / 2 ^ 32)
    else (d.set R.CFG_COLO_B_LO x.toNat).set R.CFG_COLO_B_HI (x.toNat / 2 ^ 32)
  d.syncSplit

/-! ### Captures and pending sets (R90 to R93) -/

end Dev

/-- The members (address, lowest bit) of the paired group that a field belongs to; none for a field of no paired group
(R199, R202, R348, and the chapter of ARCH). -/
def pairGroup (a : Nat) : List (Nat × Nat) :=
  let off := a % 0x1000
  if 0x40010000 ≤ a ∧ a < 0x40014000 then
    if 0x40 ≤ off ∧ off < 0x80 then
      let b := a - off % 8
      [(b, 0), (b, 6), (b + 4, 0), (b + 4, 16)]
    else if 0x100 ≤ off ∧ off < 0x200 ∧ off % 0x40 < 8 then
      let b := a - off % 8
      [(b, 0), (b, 16), (b + 4, 0), (b + 4, 24)]
    else []
  else if 0x40030400 ≤ a ∧ a < 0x40030700 then [(a, 8), (a + 0x300, 0)]
  else if 0x40030700 ≤ a ∧ a < 0x40030A00 then [(a - 0x300, 8), (a, 0)]
  else if 0x40032080 ≤ a ∧ a < 0x40032100 ∧ off % 16 < 12 then
    let b := a - off % 16
    [(b, 0), (b, 6), (b + 4, 0), (b + 4, 16), (b + 8, 0), (b + 8, 16)]
  else []

/-- Whether field (a, lo) lies in a paired group. -/
def inPair (a lo : Nat) : Bool := (pairGroup a).contains (a, lo)

namespace Dev

/-- A group is complete: every field of it has been written since it was last applied (R93). -/
def groupComplete (d : Dev) (g : List (Nat × Nat)) : Bool := g.all d.cfg.fresh.contains

/-- The word that a capture takes for register `a`: the shadow's Staged fields over the acting word; fields of a group
that is not complete, or that `hold` keeps back, stay as they act (R90, R93, R232). -/
def captureWord (d : Dev) (hold : Nat → Bool) (a : Nat) : Word :=
  match regSpec? a with
  | none => d.actw a
  | some r => r.fields.foldl (fun w f =>
      if f.cls == .staged && !hold a && (!inPair a f.lo || d.groupComplete (pairGroup a)) then
        setBits w f.lo f.w (bits (d.rdw a).toNat f.lo f.w)
      else w) (d.actw a)

/-- Registers of a block with an entry in the shadow or among the acting words. -/
def listed (d : Dev) (lo hi : Nat) : List Nat :=
  let x := (d.regs.map (·.1)).filter fun a => lo ≤ a && a < hi && stagedMask a != 0
  let y := (d.cfg.act.map (·.1)).filter fun a => lo ≤ a && a < hi && stagedMask a != 0 && !x.contains a
  x ++ y

/-- Paired groups of a block with a field written since they were last applied, one entry a group: the field written
last. -/
def touched : List (Nat × Nat) → List (Nat × Nat)
  | [] => []
  | f :: t => f :: (touched t).filter fun g => !(pairGroup f.1).contains g

/-- A commit captures the shadow of a block, registers lo to hi - 1, into its pending set, which replaces one that
stands. `mark` is the address of the block's commit register, whose entry keeps a set without a changed register pending
where one boundary serves the whole block (log entry 152); `inc` is the block's INCOMPLETE flag. -/
def capture (d : Dev) (lo hi : Nat) (mark : Option Nat) (inc : Option Fld) (hold : Nat → Bool) : Dev :=
  let mine := d.cfg.fresh.filter fun f => lo ≤ f.1 && f.1 < hi
  let groups := touched mine
  let bad := groups.filter fun f => !d.groupComplete (pairGroup f.1)
  let good := groups.filter fun f => d.groupComplete (pairGroup f.1)
  let held := (d.listed lo hi).any fun a => hold a && d.rdw a != d.actw a
  let new := ((d.listed lo hi).map fun a => (a, d.captureWord hold a)).filter fun p => p.2 != d.actw p.1
  let others := d.cfg.pend.filter fun p => !(lo ≤ p.1 && p.1 < hi)
  let replaced := others.length != d.cfg.pend.length
  let d' := { d with cfg := { d.cfg with
    pend := others ++ new ++ (match mark with | some m => [(m, 0)] | none => [])
    taken := d.cfg.taken.filter (fun f => !(lo ≤ f.1 && f.1 < hi)) ++ good.flatMap fun f => pairGroup f.1 } }
  let d' := if replaced then d'.incSat R.CFG_WERR_INFO_REPLACED else d'
  let d' := bad.foldl (fun d f => d.recordWerr f.1 2) d'
  match inc with
  | some f => if bad.isEmpty && !held then d' else d'.note f
  | none => d'

/-- One captured register acts (R90, R98). -/
def applyReg (d : Dev) (p : Nat × Word) : Dev := d.covered p.1 fun d => d.wrAct p.1 p.2

/-- The boundary: captured registers that satisfy `p` act, and their paired groups count as applied. -/
def applyPend (d : Dev) (p : Nat → Bool) : Dev :=
  let now := d.cfg.pend.filter fun e => p e.1
  let d := { d with cfg := { d.cfg with
    pend := d.cfg.pend.filter fun e => !p e.1
    fresh := d.cfg.fresh.filter fun f => !(p f.1 && d.cfg.taken.contains f)
    taken := d.cfg.taken.filter fun f => !p f.1 } }
  now.foldl applyReg d

def inBlock (lo hi : Nat) (a : Nat) : Bool := decide (lo ≤ a) && decide (a < hi)

/-- A commit of a block: capture, and application at once where the block's enable is 0 (R91). -/
def commit (d : Dev) (lo hi : Nat) (mark : Option Nat) (inc : Option Fld) (hold : Nat → Bool) (en : Bool) : Dev :=
  let d := d.capture lo hi mark inc hold
  if en then d else d.applyPend (inBlock lo hi)

/-! ### The coefficient port (R96, R106) -/

/-- Whether a range lies inside a coefficient region of the Pattern. -/
def coefRange (d : Dev) (off n : Nat) : Bool := d.pat.coefs.any fun c => c.1 ≤ off && off + 4 * n ≤ c.1 + 4 * c.2

/-- State code of a lane (R322, R340). -/
def laneState (d : Dev) (lane : Nat) : Nat :=
  if lane = 0 then d.get R.LANE_STATUS_STATE_A else d.get R.LANE_STATUS_STATE_B

/-- PENDING clears when every lane that is not STOPPED has taken the words; its fall requests flag 4 (R96, R424). -/
def coefSettle (d : Dev) : Dev :=
  match d.cfg.coef with
  | none => d
  | some c =>
    if (c.waitA && d.laneState 0 != 0) || (c.waitB && d.laneState 1 != 0) then d
    else ({ d with cfg := { d.cfg with coef := none } }.set R.CFG_COEF_CTRL_PENDING 0).request islBUS 4

/-- The Colophon counts the words of a set as registers at their lane-memory address (R98), once for a set: when the
first lane takes it (log entry 23). -/
def coefColophon (d : Dev) (c : CoefSet) : Dev :=
  (List.range c.words.length).foldl (fun d i =>
    let off := c.off + 4 * i
    let v := Sparse.at' 0 d.cfg.coefAct off
    let v' := c.words.getD i 0
    let d := { d with cfg := { d.cfg with coefAct := Sparse.put 0 d.cfg.coefAct off v' } }
    if v = v' then d else d.sendColophon (coloEntry (0x20000000 + off) v ^^^ coloEntry (0x20000000 + off) v')) d

end Dev

/-- Coefficient words wait for a lane's next run of a Loop Set (R96). -/
def State.coefsDue (s : State) (lane ls : Nat) : Bool :=
  match s.d.cfg.coef with
  | none => false
  | some c => c.ls == ls && (if lane = 0 then c.waitA else c.waitB) && !s.d.lc.copying

/-- A lane takes pending coefficient words in the cycle in which it starts a run of the Loop Set named (R96). -/
def State.takeCoefs (s : State) (lane ls : Nat) : State :=
  match s.d.cfg.coef with
  | none => s
  | some c =>
    if s.coefsDue lane ls then
      let c' := if lane = 0 then { c with waitA := false } else { c with waitB := false }
      let d := if c.waitA && c.waitB then s.d.coefColophon c else s.d
      { s with
        mem := Mem.wrWords s.mem (laneBase lane + c.off) c.words
        d := { d with cfg := { d.cfg with coef := some c' } }.coefSettle }
    else s

/-- The words of the profile window wait for a lane that takes triggers, between two runs of Loop Set 15 (R284, R96). -/
def State.profileDue (s : State) (lane : Nat) : Bool :=
  s.d.sys.profWait.contains lane && s.d.isSet R.CFG_STATUS_LOADED && !s.d.lc.copying &&
    [1, 2, 3].contains (s.d.laneState lane) && !((s.d.lane lane).runs.any fun r => r.ls == 15)

/-- A lane takes REQ and CUR into its profile window (R284). -/
def State.takeProfile (s : State) (lane : Nat) : State :=
  if s.profileDue lane then
    let req := match s.d.sys.slot with
      | some t => word (t + 256 * (s.d.sys.reqSeq % 256))
      | none => 0
    let cur := word (s.d.mode + 16 * s.d.get R.SYSCTL_MODE_PREV)
    let a := laneBase lane + s.d.pat.profOff
    { s with
      mem := Mem.wrWord (Mem.wrWord s.mem (a + 0xE4) req) (a + 0xE8) cur
      d := { s.d with sys := { s.d.sys with profWait := s.d.sys.profWait.filter (· != lane) } } }
  else s

/-- COEF_COMMIT: the write of COEF_CTRL with COMMIT = 1 (R106). COUNT and LOOPSET take the written values. A capture
pending, a COUNT of 0 or above 64, or a range outside a coefficient region is refused with reason 3. -/
def execCoefCommit (count : BitVec 7) (ls : Fin 16) (s : State) : Host.Outcome State Fault Refusal :=
  .next <| s.onDev fun d =>
    let n := count.toNat
    let d := (d.set R.CFG_COEF_CTRL_COUNT n).set R.CFG_COEF_CTRL_LOOPSET ls.val
    let off := d.get R.CFG_COEF_ADDR_OFF / 4 * 4
    if d.cfg.coef.isSome || n == 0 || decide (64 < n) || !d.coefRange off n then d.recordWerr 0x40004044 3
    else
      let words := (List.range n).map fun i => d.rdw (0x40004100 + 4 * i)
      ({ d with cfg := { d.cfg with coef := some ⟨off, words, ls.val, true, true⟩ } }.set
        R.CFG_COEF_CTRL_PENDING 1).coefSettle

/-! ### Commands of CFG -/

/-- COLOPHON_SPLIT: accumulators that differ for more than 64 SYS cycles raise the condition, with the low word of their
XOR as context (R100). -/
def execColophonSplit (s : State) : Host.Outcome State Fault Refusal :=
  .next <| s.onDev fun d =>
    if d.isSet R.CFG_STATUS_SPLIT then d.beginCond Dev.islGUARD 87 ((d.coloA ^^^ d.coloB).toNat % 2 ^ 32) else d

/-- The LO register of a Colophon pair: 0 COLO0, 1 COLO_A, 2 COLO_B. -/
def coloLo (which : Nat) : Nat := 0x40004010 + 8 * which

/-- A read of a LO register answers its value and latches the matching HI (R104); the debug port has a latch of its own
(R7). -/
def Dev.readColoLo (d : Dev) (agent which : Nat) : Dev :=
  let key := if agent = 4 then which + 3 else which
  let kept := d.cfg.hiLatch.filter fun p => p.1 != key
  let d := { d with cfg := { d.cfg with hiLatch := kept ++ [(key, d.rdw (coloLo which + 4))] } }
  d.answer agent (.data (d.rdw (coloLo which)))

/-- A read of a HI register answers the latched word, or the register where no read has latched it. -/
def Dev.coloHi (d : Dev) (agent which : Nat) : Word :=
  let key := if agent = 4 then which + 3 else which
  match d.cfg.hiLatch.find? fun p => p.1 == key with
  | some p => p.2
  | none => d.rdw (coloLo which + 4)

/-- COLOPHON_LO_READ (R104). -/
def execColophonLoRead (core : Fin 4) (which : Fin 3) (s : State) : Host.Outcome State Fault Refusal :=
  .next <| s.coreDev core.val fun d => d.readColoLo core.val which.val

end Sys2Proof.Machine
end

