-- ==== Sys2Proof/Machine/Adc.lean ====
section
/-! DEFINITION. The converters (chapter 06): sequences, the slot grid, conversions and their delivery, shared and carried
conversions, injected requests, calibration and trims, the result queue, window comparators and the Tally. -/

namespace Sys2Proof.Machine

open Dev (islBUS islGUARD islCORE)

/-- Island of a converter. -/
def adcIsland (c : Nat) : Nat := 8 + c / 2

namespace Dev

def adc (d : Dev) (c : Nat) : AdcU := Sparse.at' {} d.adcs c
def setAdc (d : Dev) (c : Nat) (u : AdcU) : Dev := { d with adcs := Sparse.put {} d.adcs c u }
def adcMap (d : Dev) (c : Nat) : AdcMap := Sparse.at' {} d.pat.adc c

/-- CLASS of an input on a converter; without a channel record it is 0 (R183). -/
def adcClass (d : Dev) (c ain : Nat) : Nat :=
  match (d.adcMap c).chans.find? fun r => r.ain == ain with
  | some r => r.cls
  | none => 0

def adcOut (d : Dev) (c : Nat) : Bool := d.isSet (R.ADC_STATUS_OUT c)
def adcCal (d : Dev) (c : Nat) : Bool := d.isSet (R.ADC_STATUS_CAL_BUSY c)
def adcHanded (d : Dev) (c : Nat) : Bool := d.isSet (R.ADC_STATUS_HANDED c)

/-- Enabled, in service and not in calibration. -/
def adcAvail (d : Dev) (c : Nat) : Bool := d.isSet (R.ADC_CTRL_EN c) && !d.adcOut c && !d.adcCal c

/-- Conversions of a sequence of `c` are on their way to their sample end. -/
def seqFlying (d : Dev) (c : Nat) : Bool :=
  ((d.adc c).flights ++ (d.adc (partner c)).flights).any fun f => f.owner == c && !f.inj && !f.extra

/-- STATUS, QSTAT and the head registers follow the converter's state (R205, R208). -/
def adcSync (d : Dev) (c : Nat) : Dev :=
  let u := d.adc c
  let d := d.setB (R.ADC_STATUS_SEQ_ACTIVE c) (u.running || d.seqFlying c)
  let d := d.setB (R.ADC_STATUS_INJ_BUSY c) (u.inj.isSome || u.flights.any fun f => f.inj)
  let d := d.set (R.ADC_QSTAT_LEVEL c) u.queue.length
  match u.queue with
  | [] => (d.wrw (0x40010034 + 0x1000 * c) 0).wrw (0x40010038 + 0x1000 * c) 0
  | e :: _ => (d.wrw (0x40010034 + 0x1000 * c) e.1).wrw (0x40010038 + 0x1000 * c) e.2

/-! ### Commits (R205, R92) -/

/-- The converter's pending set acts. -/
def adcApply (d : Dev) (c : Nat) : Dev := d.applyPend (inBlock (0x40010000 + 0x1000 * c) (0x40011000 + 0x1000 * c))

/-! ### Sequences (R181, R182, R192) -/

/-- The sequence ends: its event goes behind the last word to the lane forks and to the converters it triggers; it is
the boundary of a commit (R181, R92). -/
def seqEnd (d : Dev) (c time : Nat) : Dev :=
  let d := d.event 0 c time
  let d := (List.range 4).foldl (fun d o =>
    if o != c && !(d.adcMap o).seq.isEmpty && (d.adcMap o).trigKind == 0 && (d.adcMap o).trigUnit == c then
      d.setAdc o { d.adc o with trigIn := (d.adc o).trigIn ++ [time] }
    else d) d
  d.adcApply c

/-- Whether the sequence of a converter is triggered by its own end (R181). -/
def selfTrig (d : Dev) (c : Nat) : Bool :=
  (d.adcMap c).trigKind == 0 && (d.adcMap c).trigUnit == c && !(d.adcMap c).seq.isEmpty

/-- First position from `pos` that will be converted: a handed converter's class 1 entries are skipped (R192). -/
def skipTo (d : Dev) (c pos : Nat) : Nat :=
  if d.adcHanded c then
    let rest := (d.adcMap c).seq.drop pos
    pos + (rest.takeWhile fun a => d.adcClass c a == 1).length
  else pos

/-- The sequence stands at `pos`: it ends its grants when no entry is left, and a pending trigger, or its own end, starts
the next one in the slot after (R181, R182). DESIGN CHOICE: where a handed converter's entries are all sealed, none is
started so (log entry 161). -/
def seqAt (d : Dev) (c pos : Nat) : Dev :=
  let u := d.adc c
  let pos := d.skipTo c pos
  if pos < (d.adcMap c).seq.length then d.setAdc c { u with running := true, pos := pos }
  else if (u.pend || d.selfTrig c) && decide (d.skipTo c 0 < (d.adcMap c).seq.length) then
    d.setAdc c { u with running := true, pos := d.skipTo c 0, pend := false, seqNo := (u.seqNo + 1) % 64 }
  else d.setAdc c { u with running := false, pos := 0, pend := false }

/-- Whether the entry at the present position is the last that will be converted. -/
def lastEntry (d : Dev) (c : Nat) : Bool := decide ((d.adcMap c).seq.length ≤ d.skipTo c ((d.adc c).pos + 1))

/-- A sequence trigger is taken (R181, R182). A converter that is not enabled, or out of service or in calibration
without a partner to carry it, takes none. -/
def seqTrigger (d : Dev) (c : Nat) : Dev :=
  let u := d.adc c
  if !d.isSet (R.ADC_CTRL_EN c) || !(d.adcAvail c || d.adcHanded c) || (d.adcMap c).seq.isEmpty then d
  else if u.running then
    if u.pend then d.incSat (R.ADC_CNT_SEQ_LOST c)
    else ((d.setAdc c { u with pend := true }).incSat (R.ADC_CNT_SEQ_OVR c)).raise (adcIsland c) 52 c
  else
    let d := d.setAdc c { u with seqNo := (u.seqNo + 1) % 64 }
    let d' := d.seqAt c 0
    if (d'.adc c).running then d' else d'.seqEnd c d.time.short

/-! ### Injected requests (R186 to R188) -/

/-- A full calibration is in progress, or accepted and about to begin (R187, R190, R191; log entry 162). -/
def calTaken (d : Dev) (c : Nat) : Bool := d.adcCal c || (d.adc c).calWait

/-- An injected request for an input: dropped and counted while another is pending or running or the converter is in
calibration or out of service, else accepted. -/
def injTake (d : Dev) (c k ain : Nat) : Dev :=
  let u := d.adc c
  if u.inj.isSome || (u.flights.any fun f => f.inj) || d.calTaken c || d.adcOut c then d.incSat (R.ADC_CNT_INJ_DROP c)
  else (d.setAdc c { u with inj := some (k, ain) }).adcSync c

/-- The Ledger holds INJ2 and INJ3 of its converter while it measures (R506). -/
def injHeld (d : Dev) (c k : Nat) : Bool := d.led.meas.isSome && d.get R.LEDGER_MCFG_CONV == c && decide (2 ≤ k)

/-- A request of INJk: ignored with EN = 0 (R187). -/
def injRequest (d : Dev) (c k : Nat) : Dev :=
  if d.act (R.ADC_INJ_CFG_EN c k) = 0 || !d.isSet (R.ADC_CTRL_EN c) || d.injHeld c k then d
  else d.injTake c k (d.act (R.ADC_INJ_CFG_AIN c k))

/-- An event reaches the converters of an island: sequences and injected configurations that name it (R181, R207). -/
def adcEvent (d : Dev) (isl kind unit time : Nat) : Dev :=
  [2 * (isl - 8), 2 * (isl - 8) + 1].foldl (fun d c =>
    let m := d.adcMap c
    let d := if !m.seq.isEmpty && m.trigKind == kind && m.trigUnit == unit then
        d.setAdc c { d.adc c with trigIn := (d.adc c).trigIn ++ [time] } else d
    (List.range 4).foldl (fun d k =>
      if d.act (R.ADC_INJ_CFG_TRIG c k) == kind - 1 && d.act (R.ADC_INJ_CFG_UNIT c k) == unit then
        d.setAdc c { d.adc c with injIn := (d.adc c).injIn ++ [k] } else d) d) d

/-! ### The slot grid (R176, R177, R185, R192) -/

end Dev

/-- What a converter takes at a slot boundary. -/
inductive Grant where
  | none | inj | own | carried | lead | both | join
deriving DecidableEq, Repr

namespace Dev

/-- The converter's choice before shared entries are settled: an accepted injected request, then its own sequence and the
carried one, alternately, the carried one at most every second slot (R177, R192). -/
def grantOf (d : Dev) (c : Nat) : Grant :=
  let u := d.adc c
  let p := partner c
  if !d.isSet (R.ADC_CTRL_EN c) || d.adcOut c then .none
  else if u.inj.isSome then .inj
  else if d.adcCal c then .none
  else
    let car := d.adcHanded p && (d.adc p).running && !u.lastCarried
    if u.running && !(car && u.turn) then .own
    else if car then .carried
    else .none

/-- Input at the head of a converter's sequence. -/
def headAin (d : Dev) (c : Nat) : Nat := (d.adcMap c).seq.getD (d.adc c).pos 0

/-- Whether converter `c`'s choice `g` is a shared entry that its partner can share (R185). -/
def sharesHead (d : Dev) (c : Nat) (g : Grant) : Bool :=
  g == .own && decide (2 ≤ d.adcClass c (d.headAin c)) && d.adcAvail (partner c)

/-- The choices of the two converters of a pair with their shared entries settled: both convert a shared input at one
boundary; of two different ones the lower converter's goes first; a partner's injected request makes the entry wait
(R177, R185). -/
def settle (d : Dev) (a b : Nat) (ga gb : Grant) : Grant × Grant :=
  let sa := d.sharesHead a ga
  let sb := d.sharesHead b gb
  if sa && gb == .inj then (.none, gb)
  else if sb && ga == .inj then (ga, .none)
  else if sa && gb == .own && d.headAin a == d.headAin b then (.both, .both)
  else if sa then (.lead, .join)
  else if sb then (.join, .lead)
  else (ga, gb)

/-- The physical slice of the next conversion: the logical one that the rotation has reached, or the spare that serves
in its place (R175, R180). -/
def nextSlice (d : Dev) (c : Nat) : Nat :=
  if d.isSet (R.ADC_SLICEMAP_SPARE_USED c) && d.get (R.ADC_SLICEMAP_REPL c) == (d.adc c).rot then 8 else (d.adc c).rot

/-- The slice of the next conversion still converts: no slice is used twice within 200 ns (R174, R175). -/
def sliceBusy (d : Dev) (c : Nat) : Bool := (d.adc c).flights.any fun f => f.slice == d.nextSlice c

/-- A conversion starts in converter `c`, on the next slice in rotation (R175). -/
def hold (d : Dev) (c : Nat) (f : Conv) : Dev :=
  let u := d.adc c
  d.setAdc c { u with flights := u.flights ++ [{ f with slice := d.nextSlice c }], rot := (u.rot + 1) % 8 }

/-- Starts the conversion of the entry at the head of `owner`'s sequence in converter `c`. -/
def holdEntry (d : Dev) (c owner : Nat) (shared : Bool) : Dev :=
  let u := d.adc owner
  let f : Conv := {
    owner := owner, ain := d.headAin owner, inj := false, carried := c != owner, shared := shared, extra := false
    last := d.lastEntry owner, seq := u.seqNo, time := d.time.short }
  (d.hold c f).seqAt owner (u.pos + 1)

/-- One converter takes its slot. -/
def grant (d : Dev) (c : Nat) (g : Grant) (lead : Nat) : Dev :=
  let turns (d : Dev) (t l : Bool) : Dev := d.setAdc c { d.adc c with turn := t, lastCarried := l }
  match g with
  | .none => turns d false false
  | .inj =>
    match (d.adc c).inj with
    | some (_, ain) =>
      let d := d.hold c {
        owner := c, ain := ain, inj := true, carried := false, shared := false, extra := false, last := false
        seq := (d.adc c).seqNo, time := d.time.short }
      d.setAdc c { d.adc c with inj := none, lastCarried := false }
    | none => d
  | .own => turns (d.holdEntry c c false) true false
  | .lead => turns (d.holdEntry c c true) true false
  | .both => turns (d.holdEntry c c true) true false
  | .join => d.hold c {
      owner := c, ain := lead, inj := false, carried := false, shared := true, extra := true, last := false
      seq := (d.adc c).seqNo, time := d.time.short }
  | .carried => turns (d.holdEntry c (partner c) false) false true

/-- The last conversion of the regular sequence that is on its way becomes its last entry; the flag says that there is
one. -/
def markLast (c : Nat) : List Conv → List Conv × Bool
  | [] => ([], false)
  | f :: t =>
    let r := markLast c t
    if r.2 then (f :: r.1, true)
    else if f.owner == c && !f.inj && !f.extra then ({ f with last := true } :: t, true)
    else (f :: t, false)

/-- A calibration begins: the partner carries the converter's open entries, the first not yet granted first; sealed
ones are skipped (R191, R192). A sequence of which only sealed entries are left ends with its last conversion. -/
def calBegin (d : Dev) (c : Nat) : Dev :=
  let d := ((d.set (R.ADC_STATUS_CAL_BUSY c) 1).set (R.ADC_STATUS_HANDED c) 1).set (R.ADC_STATUS_CARRYING (partner c)) 1
  let d := d.setAdc c { d.adc c with calWait := false }
  let u := d.adc c
  let d := if u.running then
      if decide ((d.adcMap c).seq.length ≤ d.skipTo c u.pos) then
        let d := d.seqAt c u.pos
        let m := markLast c u.flights
        if m.2 then d.setAdc c { d.adc c with flights := m.1 } else d.seqEnd c d.time.short
      else d.seqAt c u.pos
    else d
  (d.adcSync c).adcSync (partner c)

/-- An accepted calibration begins at the first boundary at which no accepted injected request waits (R191). -/
def calDue (d : Dev) (c : Nat) : Dev := if (d.adc c).calWait && (d.adc c).inj.isNone then d.calBegin c else d

/-- A slot boundary of a pair (R176): commits whose converter runs no sequence act, accepted calibrations begin, then
both converters take their slots. It is not due while the slice that either would use still converts (R175). -/
def pairSlot (d : Dev) (p : Nat) : Dev :=
  let a := 2 * p
  let b := 2 * p + 1
  if d.sliceBusy a || d.sliceBusy b then d
  else
    let d := [a, b].foldl (fun d c => if (d.adc c).running || d.seqFlying c then d else d.adcApply c) d
    let d := (d.calDue a).calDue b
    let g := d.settle a b (d.grantOf a) (d.grantOf b)
    let ha := d.headAin a
    let hb := d.headAin b
    ((((d.grant a g.1 hb).grant b g.2 ha).adcSync a).adcSync b)

/-! ### Results (R170, R173, R183, R194 to R202) -/

/-- A signed 16-bit code as register bits. -/
def code16 (x : Int) : Nat := toBits 16 x

end Dev

/-- 32 768 · (V − 0.900 V) / 1.25 V, rounded convergently, for V the voltage of an input against its sense ground (R170). -/
def voltsLsb (v : Volts) : Int :=
  let n : Int := 65536 * (10 * v.num - 9 * v.den)
  let m : Int := roundNat .even (n < 0) n.natAbs (25 * v.den)
  if n < 0 then -m else m

namespace Dev

/-- The corrected code of a rounded value, and whether the clamp limited it (R170). -/
def clampCode (x : Int) : Int × Bool :=
  (max (-32768) (min 32767 x), decide (x < -32768) || decide (32767 < x))

/-- Conversions of a trim block (R178). -/
def blockLen : Nat := 2 ^ 20

/-- The trim block of a converter is complete: its end comes before the next conversion. -/
def blockFull (d : Dev) (c : Nat) : Bool := decide (blockLen ≤ (d.adc c).block)

/-- A conversion enters the trim block of the converter that made it (R178). -/
def blockTake (d : Dev) (c : Nat) (code : Int) : Dev :=
  let u := d.adc c
  d.setAdc c { u with block := u.block + 1, blockSq := u.blockSq + (code * code).toNat }

/-- The ensemble RMS of the block exceeds 256 LSB (R178). -/
def blockLoud (d : Dev) (c : Nat) : Bool := decide (256 * 256 * (d.adc c).block < (d.adc c).blockSq)

/-- A result enters the converter's queue, or is lost (R197, R198). -/
def enqueue (d : Dev) (c : Nat) (tag stamp : Word) : Dev :=
  let u := d.adc c
  if 1024 ≤ u.queue.length then
    let d' := (d.setAdc c { u with lost := true }).incSat (R.ADC_QSTAT_QLOSS c)
    if u.lost then d' else d'.raise (adcIsland c) 53 c
  else d.setAdc c { u with queue := u.queue ++ [(tag, stamp)] }

/-- Window comparators of converter `c` judge a result; their states go to both PWM islands (R199). -/
def windows (d : Dev) (c ain : Nat) (code : Int) : Dev :=
  (List.range 8).foldl (fun d k =>
    if d.act (R.ADC_WC_CFG_EN c k) != 0 && d.act (R.ADC_WC_CFG_AIN c k) == ain then
      let out := decide (code < signed 16 (d.act (R.ADC_WC_LIM_LO c k))) ||
        decide (signed 16 (d.act (R.ADC_WC_LIM_HI c k)) < code)
      let d := d.setBit (fun _ => R.ADC_WCSTAT_NOW c) k out
      let d := if out then d.setBit (fun _ => R.ADC_WCSTAT_OUT c) k true else d
      let ch := if c < 2 then 0x20 else 0x22
      (d.send ch 6 (.wcState c k out)).send (ch + 1) 7 (.wcState c k out)
    else d) d

/-- An open result goes to its owner's consumers: queue, routed ports, window comparators, the Archive, and, behind it,
the sequence end (R183, R173, R181). -/
def deliver (d : Dev) (f : Conv) (code : Int) (ovr : Bool) : Dev :=
  let c := f.owner
  let tag := word (code16 code + f.ain * 2 ^ 16 + b2n f.inj * 2 ^ 22 + b2n f.carried * 2 ^ 23 + b2n ovr * 2 ^ 24 +
    b2n (f.shared || (!f.inj && decide (2 ≤ d.adcClass c f.ain))) * 2 ^ 25 + f.seq * 2 ^ 26)
  let d := d.enqueue c tag (word f.time)
  let d := if d.pat.routes.any fun r => r.kind == 1 && r.srcUnit == c && r.srcItem == f.ain then
      d.sendFork c (.sample 1 c f.ain (word (code16 code * 2 ^ 16)) f.time) else d
  let d := d.windows c f.ain code
  let d := d.archFeed 0 c f.ain (word (code16 code * 2 ^ 16)) f.time
  if f.last then d.seqEnd c f.time else d

/-- The Tally channel of a sealed input: the place of its record among the class 1 records (R200). -/
def tallyOf (d : Dev) (c ain : Nat) : Option Nat :=
  (((d.adcMap c).chans.filter fun r => r.cls == 1).map (·.ain)).findIdx? (· == ain)

def tally (d : Dev) (c j : Nat) : Tally := Sparse.at' {} (d.adc c).tally j
def setTally (d : Dev) (c j : Nat) (t : Tally) : Dev :=
  d.setAdc c { d.adc c with tally := Sparse.put {} (d.adc c).tally j t }

/-- A Tally channel takes a code (R200, R202). -/
def tallyTake (d : Dev) (c j : Nat) (code : Int) (time : Nat) : Dev :=
  let t := d.tally c j
  let outside := decide (signed 16 (d.act (R.ADC_T_LIM_HI c j)) < code) ||
    decide (code < signed 16 (d.act (R.ADC_T_LIM_LO c j)))
  d.setTally c j {
    sum := t.sum + code
    sq := t.sq + (code * code).toNat
    min := Min.min t.min code
    max := Max.max t.max code
    n := t.n + 1
    run := if outside then t.run + 1 else 0
    raised := outside && t.raised
    first := if t.n = 0 then time else t.first }

/-- A Tally count has reached WIN_N: the close comes before the next conversion (R200). -/
def tallyDue (d : Dev) (c j : Nat) : Bool := decide (d.act (R.ADC_T_WIN_WIN_N c j) ≤ (d.tally c j).n)

/-- The Tally has a run of exceedances to raise, which comes before the next conversion (R202). -/
def tallyOver (d : Dev) (c j : Nat) : Bool :=
  let n := d.act (R.ADC_T_WIN_EXCEED_N c j)
  n != 0 && decide (n ≤ (d.tally c j).run) && !(d.tally c j).raised

/-- The pair comparison of a shared conversion (R194). -/
def pairCheck (d : Dev) (c ain : Nat) (x y : Int) : Dev :=
  let w := match (d.adcMap c).chans.find? fun r => r.ain == ain with
    | some r => r.window
    | none => 0
  if w < (x - y).natAbs then
    ((d.incSat (R.ADC_PAIRCNT_MISMATCH c)).incSat (R.ADC_PAIRCNT_MISMATCH (partner c))).raise (adcIsland c) 54 ain
  else d

/-- The reference check of one converter on its own code (R195). -/
def refCheck (d : Dev) (c ain : Nat) (x : Int) : Dev :=
  let w := d.act (R.ADC_PAIRCFG_REF_WIN c)
  if (ain == 38 || ain == 39) && w != 0 && decide (w < (x - signed 16 (d.act (R.ADC_PAIRCFG_REF_EXPECT c))).natAbs) then
    d.raise (adcIsland c) 55 c
  else d

/-- Takes the oldest conversion of a converter. -/
def popFlight (d : Dev) (c : Nat) : Dev := d.setAdc c { d.adc c with flights := (d.adc c).flights.drop 1 }

/-- The oldest conversion of converter `c` reaches its sample end with rounded value `x`; a shared one does so in both
converters, the partner's with `y` (R174, R185). -/
def sampleEnd (d : Dev) (c : Nat) (x y : Int) : Dev :=
  match (d.adc c).flights with
  | [] => d
  | f :: _ =>
    let p := partner c
    let r := clampCode x
    if f.shared then
      match (d.adc p).flights with
      | g :: _ =>
        if g.shared && g.ain == f.ain && !d.blockFull c && !d.blockFull p then
          let q := clampCode y
          let d := (((d.popFlight c).popFlight p).blockTake c r.1).blockTake p q.1
          let d := (d.deliver f r.1 r.2).deliver g q.1 q.2
          let d := d.pairCheck (2 * (c / 2)) f.ain r.1 q.1
          (((d.refCheck c f.ain r.1).refCheck p f.ain q.1).adcSync c).adcSync p
        else d
      | [] => d
    else if d.blockFull c then d
    else if d.adcClass f.owner f.ain == 1 then
      match d.tallyOf f.owner f.ain with
      | some j =>
        if d.tallyDue f.owner j || d.tallyOver f.owner j then d
        else
          let d := ((d.popFlight c).blockTake c r.1).tallyTake f.owner j r.1 f.time
          let d := if f.last then d.seqEnd f.owner f.time else d
          (d.adcSync c).adcSync p
      | none => d
    else
      let alone := decide (2 ≤ d.adcClass f.owner f.ain) && !f.inj
      let d := ((d.popFlight c).blockTake c r.1).deliver f r.1 r.2
      let d := if alone then
          ((d.incSat (R.ADC_PAIRCNT_SKIPPED c)).incSat (R.ADC_PAIRCNT_SKIPPED p)).refCheck c f.ain r.1 else d
      (d.adcSync c).adcSync p

/-! ### Calibration and trims (R178, R179, R189 to R193) -/

end Dev

/-- Ranges of R178 in steps; the register widths of R210 hold them (log entry 24). -/
def Trim.inRange (t : Trim) : Bool :=
  decide (t.skew.natAbs ≤ 2047) && decide (t.gain.natAbs ≤ 2047) && decide (-128 ≤ t.offset) && decide (t.offset ≤ 127)

namespace Dev

def trim (d : Dev) (c p : Nat) : Trim :=
  ⟨signed 12 (d.get (R.ADC_SLICE_TRIM_SKEW c p)), signed 12 (d.get (R.ADC_SLICE_TRIM_GAIN c p)),
    signed 8 (d.get (R.ADC_SLICE_TRIM_OFFSET c p))⟩

def setTrim (d : Dev) (c p : Nat) (t : Trim) : Dev :=
  ((d.set (R.ADC_SLICE_TRIM_SKEW c p) (toBits 12 t.skew)).set (R.ADC_SLICE_TRIM_GAIN c p) (toBits 12 t.gain)).set
    (R.ADC_SLICE_TRIM_OFFSET c p) (toBits 8 t.offset)

/-- Calibration ends: the trims are replaced, or kept where one lies outside its range; the converter takes its sequence
back (R189, R193). -/
def calEnd (d : Dev) (c : Nat) (trims : List Trim) : Dev :=
  let ok := trims.all Trim.inRange
  let d := if ok then (List.range 9).foldl (fun d p =>
      match trims[p]? with
      | some t => d.setTrim c p t
      | none => d) d
    else (d.set (R.ADC_CAL_FAILED c) 1).raise (adcIsland c) 57 c
  let d := d.set (R.ADC_STATUS_CAL_BUSY c) 0
  let d := if d.adcOut c then d
    else (d.set (R.ADC_STATUS_HANDED c) 0).set (R.ADC_STATUS_CARRYING (partner c)) 0
  let d := if d.mode = 2 then { d with sys := { d.sys with calDone := d.sys.calDone ++ [c] } } else d
  (d.adcSync c).adcSync (partner c)

/-- Refusal reason of a CAL.START; 0 accepts it. Where several hold, the lowest number stands (R190, log entry 25). -/
def calReason (d : Dev) (c : Nat) : Nat :=
  let p := partner c
  if d.calTaken p || d.adcOut p then 1
  else if d.control && (d.adcMap c).chans.any fun r => r.cls == 1 then 2
  else if d.calTaken c then 3
  else if !d.isSet (R.ADC_CTRL_EN c) || d.adcOut c then 4
  else 0

/-- One trim moves by at most one step toward its estimate, inside its range; the flag says that it reached an end. -/
def stepTrim (lo hi : Int) (now est : Int) : Int × Bool :=
  let t := max lo (min hi est)
  let n := if now < t then now + 1 else if t < now then now - 1 else now
  (n, decide (n ≠ now) && (decide (n = lo) || decide (n = hi)))

/-- The end of a trim block for one physical slice (R178, R179). -/
def trimSlice (d : Dev) (c p : Nat) (est : Trim) (rms : Bool) : Dev :=
  let t := d.trim c p
  let s := if rms then stepTrim (-2047) 2047 t.skew est.skew else (t.skew, false)
  let g := stepTrim (-2047) 2047 t.gain est.gain
  let o := stepTrim (-128) 127 t.offset est.offset
  let d := d.setTrim c p ⟨s.1, g.1, o.1⟩
  if s.2 || g.2 || o.2 then d.raise (adcIsland c) 56 (p + 16 * c) else d

/-- A Tally window closes: the readout set is latched in one cycle, WSEQ advances, accumulation starts from zero (R200,
R211). -/
def tallyLatch (d : Dev) (c j : Nat) : Dev :=
  let t := d.tally c j
  let d := d.set (R.ADC_T_SUM_LO_SUM c j) (toBits 40 t.sum)
  let d := d.set (R.ADC_T_SUM_HI_SUM c j) (toBits 32 (signed 8 (toBits 40 t.sum / 2 ^ 32)))
  let d := d.set (R.ADC_T_SQ_LO_SQ c j) t.sq
  let d := d.set (R.ADC_T_SQ_HI_SQ c j) (t.sq / 2 ^ 32)
  let d := (d.set (R.ADC_T_MINMAX_MIN c j) (code16 t.min)).set (R.ADC_T_MINMAX_MAX c j) (code16 t.max)
  let d := (d.set (R.ADC_T_COUNT_N c j) t.n).incWrap (R.ADC_T_COUNT_WSEQ c j)
  d.setTally c j { run := t.run, raised := t.raised }

/-- Answers the head entry's stamp and removes the entry; an empty queue answers 0 (R197). -/
def qtimeRead (d : Dev) (core c : Nat) : Dev :=
  match (d.adc c).queue with
  | [] => d.answer core (.data 0)
  | e :: t => ((d.setAdc c { d.adc c with queue := t, lost := false }).adcSync c).answer core (.data e.2)

end Dev

/-! ### Commands -/

/-- ADC_COMMIT (R205, R92): the boundary is the end of the current sequence, or the next slot; with the converter
disabled it acts at once (R91). -/
def execAdcCommit (c : Fin 4) (s : State) : Host.Outcome State Fault Refusal :=
  .next <| s.onDev fun d =>
    let b := 0x40010000 + 0x1000 * c.val
    d.commit b (b + 0x1000) (some (b + 8)) (some (R.ADC_STATUS_INCOMPLETE c.val)) (fun _ => false)
      (d.isSet (R.ADC_CTRL_EN c.val))

/-- ADC_SEQ_TRIGGER: the converter takes the oldest trigger that has reached it; a sequence that triggers itself needs
none to start (R181, R182). -/
def execAdcSeqTrigger (c : Fin 4) (s : State) : Host.Outcome State Fault Refusal :=
  .next <| s.onDev fun d =>
    match (d.adc c.val).trigIn with
    | _ :: t => ((d.setAdc c.val { d.adc c.val with trigIn := t }).seqTrigger c.val).adcSync c.val
    | [] => if d.selfTrig c.val && !(d.adc c.val).running then (d.seqTrigger c.val).adcSync c.val else d

/-- ADC_SLOT_GRANT: a boundary of the pair's slot phase (R176, R177). -/
def execAdcSlotGrant (pair : Fin 2) (s : State) : Host.Outcome State Fault Refusal :=
  .next <| s.onDev fun d => d.pairSlot pair.val

/-- CONVERSION_COMPLETE (R174). `x` is the voltage of the input against its sense ground that the corrected conversion
stands for (log entry 160); `y` the partner's in a shared conversion (R170, R194). -/
def execConversionComplete (c : Fin 4) (x y : Volts) (s : State) : Host.Outcome State Fault Refusal :=
  .next <| s.onDev fun d => d.sampleEnd c.val (voltsLsb x) (voltsLsb y)

/-- INJ_SW_REQUEST: a write of INJ_SW requests each configuration whose bit is 1, in order of k (R186, R188). -/
def execInjSwRequest (c : Fin 4) (req : BitVec 4) (s : State) : Host.Outcome State Fault Refusal :=
  .next <| s.onDev fun d =>
    (List.range 4).foldl (fun d k => if req.toNat.testBit k then d.injRequest c.val k else d) d

/-- INJECTED_TRIGGER: an event that INJk names has reached the converter (R186). Requests are treated as they came, those
of one event in order of k (R188). -/
def execInjectedTrigger (c k : Fin 4) (s : State) : Host.Outcome State Fault Refusal :=
  .next <| s.onDev fun d =>
    let u := d.adc c.val
    match u.injIn with
    | j :: t => if j = k.val then (d.setAdc c.val { u with injIn := t }).injRequest c.val k.val else d
    | [] => d

/-- CAL_START: the write of CAL.START = 1, accepted or refused with a REASON from M3 onwards (R190, R191). -/
def execCalStart (c : Fin 4) (s : State) : Host.Outcome State Fault Refusal :=
  .next <| s.onDev fun d =>
    if d.mode < 3 then d
    else
      let r := d.calReason c.val
      if r = 0 then d.setAdc c.val { d.adc c.val with calWait := true }
      else (d.set (R.ADC_CAL_REFUSED c.val) 1).set (R.ADC_CAL_REASON c.val) r

/-- CAL_COMPLETE: the calibration measured these trims, one per physical slice (R189, R193). -/
def execCalComplete (c : Fin 4) (trims : List Trim) (s : State) : Host.Outcome State Fault Refusal :=
  .next <| s.onDev fun d => if d.adcCal c.val then d.calEnd c.val trims else d

/-- TRIM_BLOCK_END, after 2^20 conversions: the estimates of the block for physical slices 0 to 7 and for the
spare (R178, R179; log entry 160). A new block begins. -/
def execTrimBlockEnd (c : Fin 4) (estimates : List Trim) (spare : Trim) (s : State) : Host.Outcome State Fault Refusal :=
  .next <| s.onDev fun d =>
    if !d.blockFull c.val then d
    else
      let rms := d.blockLoud c.val
      let d := d.setAdc c.val { d.adc c.val with block := 0, blockSq := 0 }
      if d.isSet (R.ADC_CAL_FREEZE c.val) || d.get R.PWRB_STATUS_STAGE == 7 then d
      else (List.range 9).foldl (fun d p =>
        match if p = 8 then some spare else estimates[p]? with
        | some e => d.trimSlice c.val p e rms
        | none => d) d

/-- TALLY_LIMIT: a run of EXCEED_N exceedances raises once (R202). -/
def execTallyLimit (c j : Fin 4) (s : State) : Host.Outcome State Fault Refusal :=
  .next <| s.onDev fun d =>
    if d.tallyOver c.val j.val then
      (d.setTally c.val j.val { d.tally c.val j.val with raised := true }).raise (adcIsland c.val) 59 (j.val + 4 * c.val)
    else d

/-- QTIME_READ (R197). -/
def execQtimeRead (core c : Fin 4) (s : State) : Host.Outcome State Fault Refusal :=
  .next <| s.coreDev core.val fun d => d.qtimeRead core.val c.val

end Sys2Proof.Machine
end

