-- ==== Sys2Proof/Machine/Sdf.lean ====
section
/-! DEFINITION. Sigma-delta inputs (chapter 07): the decimation filters, the DC-blocking stage, delivery, the fractional
resampler, commits and supervision. -/

namespace Sys2Proof.Machine

open Dev (islBUS islGUARD islCORE)

/-! ### Arithmetic -/

/-- Division rounded convergently. -/
def divEven (n : Int) (d : Nat) : Int :=
  let q := n / d
  let r := n % d
  if 2 * r < d then q else if (d : Int) < 2 * r then q + 1 else if q % 2 = 0 then q else q + 1

/-- A Q1.31 result saturated, and whether it was. -/
def satQ31 (z : Int) : Int × Bool := (max (-2147483648) (min 2147483647 z), decide (z < -2147483648) || decide (2147483647 < z))

def addLists : List Int → List Int → List Int
  | [], l => l
  | l, [] => l
  | a :: s, b :: t => (a + b) :: addLists s t

/-- The sum of `m` copies of a list, each shifted by one more. -/
def boxConv (l : List Int) : Nat → List Int
  | 0 => []
  | m + 1 => addLists l (0 :: boxConv l m)

/-- Impulse response of the sinc filter of order `n` and decimation `m` (R216). -/
def sincTaps (m : Nat) : Nat → List Int
  | 0 => [1]
  | n + 1 => (boxConv (sincTaps m n) m).take ((n + 1) * (m - 1) + 1)

/-- Weight of a bit (R214). -/
def bitWeight (b : Bool) : Int := if b then 1 else -1

/-- Decimation ratio and order of FAST, BALANCED and QUIET (R217). -/
def sincOf : Nat → Nat × Nat
  | 0 => (32, 3)
  | 1 => (64, 4)
  | _ => (256, 5)

/-- The sinc sum over the history, over M^N, in Q1.31 before its one rounding's saturation (R216). -/
def sincWord (preset : Nat) (hist : List Bool) : Int :=
  let p := sincOf preset
  let s := (List.zipWith (fun h b => h * bitWeight b) (sincTaps p.1 p.2) hist).foldl (· + ·) 0
  divEven (s * 2147483648) (p.1 ^ p.2)

/-- 10^(c/32) with 40 decimal places, rounded down. -/
def tenRoot (c : Nat) : Nat :=
  let f := isqrt
  f (f (f (f (f (10 ^ (c + 1280))))))

/-- pi with 50 decimal places. -/
def pi50 : Nat := 314159265358979323846264338327950288419716939937510

/-- The DC-blocking coefficient with 40 fraction bits for corner code `c` and an interval of `cycles` SDM cycles (R219,
R220). -/
def dcbAlpha (c cycles : Nat) : Int := divEven (2 * pi50 * tenRoot c * cycles * 2 ^ 40 : Nat) (10 ^ 9 * 10 ^ 40 * 10 ^ 50)

namespace Dev

def sd (d : Dev) (n : Nat) : SdCh := Sparse.at' {} d.sds n
def setSd (d : Dev) (n : Nat) (u : SdCh) : Dev := { d with sds := Sparse.put {} d.sds n u }

/-- SDM cycles of a modulator period of the channel's clock; 0 where the clock is off (R212). -/
def sdDiv (d : Dev) (n : Nat) : Nat :=
  let f := d.get (R.SDF_CLK_FREQ (d.get (R.SDF_CH_CFG_SDC n)))
  if f = 0 then 0 else 1000 / f

def sdPreset (d : Dev) (n : Nat) : Nat := d.act (R.SDF_CH_FILT_PRESET n)

/-- The channel runs: block and channel enabled, clock on. -/
def sdRuns (d : Dev) (n : Nat) : Bool := d.isSet R.SDF_CTRL_EN && d.isSet (R.SDF_CH_CFG_EN n) && d.sdDiv n != 0

/-- SDM cycles between two words of a preset (T_in), FAST, BALANCED or QUIET. -/
def sdTin (d : Dev) (n : Nat) : Nat := (sincOf (d.sdPreset n)).1 * d.sdDiv n

/-- Level of clock output SDCk: high for the first half of its period, low where it or the block is off (R212). -/
def sdcPin (d : Dev) (k : Nat) : Bool :=
  let f := d.get (R.SDF_CLK_FREQ k)
  d.isSet R.SDF_CTRL_EN && f != 0 && decide (d.sdmCycle % (1000 / f) < 1000 / f / 2)

/-- SDM cycles from the start of a modulator period to the sampling instant of the channel (R213). -/
def sdSampleOff (d : Dev) (n : Nat) : Nat :=
  (if d.isSet (R.SDF_CH_CFG_EDGE n) then d.sdDiv n / 2 else 0) + d.get (R.SDF_CH_CFG_SAMPLE_DLY n)

/-- In the present SDM cycle the running channel samples the bit of this modulator period (R213, R215). -/
def sdSample (d : Dev) (n : Nat) : Option Nat :=
  let off := d.sdSampleOff n
  if d.sdRuns n && decide (off ≤ d.sdmCycle) && (d.sdmCycle - off) % d.sdDiv n == 0 then
    some ((d.sdmCycle - off) / d.sdDiv n)
  else none

/-- A bit enters the filters, the SETTLE1 window and the stuck-data run (R216, R218, R236). A full window of a channel
that delivers another preset starts anew. -/
def sdBit (d : Dev) (n : Nat) (b : Bool) : Dev :=
  let u := d.sd n
  let same := match u.hist with | p :: _ => p == b | [] => false
  let u := if decide (2 ^ 20 ≤ u.wbits) && d.sdPreset n != 3 then { u with wbits := 0, wones := 0, win := .whole } else u
  d.setSd n { u with
    hist := (b :: u.hist).take 1276
    wbits := u.wbits + 1
    wones := u.wones + b2n b
    run := if same then u.run + 1 else 1
    stuck := same && u.stuck }

/-- DCB_EST shows e rounded to Q1.31 (R221). -/
def setEst (d : Dev) (n : Nat) (e : Int) : Dev :=
  (d.setSd n { d.sd n with e := e }).set (R.SDF_CH_DCB_EST_EST n) (toBits 32 (satQ31 (divEven e 65536)).1)

/-- The DC-blocking stage on a word, over an interval of `cycles` SDM cycles: the state after it, and the word (R219,
R221). -/
def dcb (d : Dev) (n : Nat) (x : Int) (cycles : Nat) : Dev × Int :=
  if d.act (R.SDF_CH_FILT_DCB_EN n) = 0 then (d, x)
  else
    let e := (d.sd n).e
    let diff := x * 65536 - e
    let y := satQ31 (divEven diff 65536)
    let d := if y.2 then d.set (R.SDF_CH_STAT_SAT n) 1 else d
    let d := if d.isSet (R.SDF_CH_DCB_FREEZE n) then d
      else d.setEst n (e + divEven (dcbAlpha (d.act (R.SDF_CH_FILT_CORNER n)) cycles * diff) (2 ^ 40))
    (d, y.1)

/-- The limit comparator on a delivered word (R237). -/
def sdLimit (d : Dev) (n : Nat) (w : Word) : Dev :=
  let v := signed 16 (bits w.toNat 16 16)
  let out := decide (v < signed 16 (d.act (R.SDF_CH_LIM_LO n))) || decide (signed 16 (d.act (R.SDF_CH_LIM_HI n)) < v)
  let entry := out && !d.isSet (R.SDF_CH_STAT_LIM_NOW n)
  let d := d.setB (R.SDF_CH_STAT_LIM_NOW n) out
  if entry then (d.set (R.SDF_CH_STAT_LIM_OUT n) 1).raise 10 61 n else d

/-- A word is delivered: limits, DATA, routed ports, then its trigger, and the Archive (R223 to R225, R237). -/
def sdDeliver (d : Dev) (n : Nat) (w : Word) (time : Nat) : Dev :=
  let d := d.sdLimit n w
  let d := (d.set (R.SDF_CH_DATA_WORD n) w.toNat).incWrap (R.SDF_CH_CNT_WORDS n)
  let d := d.setSd n { d.sd n with stamp := word time }
  let d := if d.pat.routes.any fun r => r.kind == 2 && r.srcUnit == n then d.sendFork 4 (.sample 2 n 0 w time) else d
  let d := d.event 1 n time
  let d := (List.range 4).foldl (fun d c =>
    let m := d.adcMap c
    if !m.seq.isEmpty && m.trigKind == 1 && m.trigUnit == n then
      d.setAdc c { d.adc c with trigIn := (d.adc c).trigIn ++ [time] } else d) d
  d.archFeed 1 0 n w time

/-- The channel delivers preset words at this instant: no resampler runs, and the last one's hand-back is over (R228,
R231). -/
def sdOpen (d : Dev) (n : Nat) : Bool :=
  let u := d.sd n
  u.rs.isNone && (match u.hand with | some h => decide (h < d.sdmCycle) | none => true)

/-- A preset word leaves the DC-blocking stage: into the resampler's history, and delivered unless a resampler runs or
its hand-back keeps the word (R227, R228, R231). -/
def sdStream (d : Dev) (n : Nat) (x : Int) (cycles time : Nat) : Dev :=
  let s := satQ31 x
  let d := if s.2 then d.set (R.SDF_CH_STAT_SAT n) 1 else d
  let r := d.dcb n s.1 cycles
  let w := word (toBits 32 r.2)
  let d := r.1
  let u := { d.sd n with past := (w :: (d.sd n).past).take 20 }
  match u.rs with
  | some rs =>
    d.setSd n { u with rs := some (match rs.start with
      | some _ => { rs with inputs := rs.inputs + 1 }
      | none => { rs with start := some (d.sdmCycle, cycles) }) }
  | none =>
    let go := d.sdOpen n
    let d := d.setSd n { u with hand := if go then none else u.hand }
    if go then d.sdDeliver n w time else d

/-! ### Commits (R232, R233) -/

/-- FILT of a channel whose resampler is active is kept back (R232). -/
def sdHold (d : Dev) (a : Nat) : Bool :=
  decide (0x40014100 ≤ a) && decide (a < 0x40014700) && (a - 0x40014100) % 0x40 == 4 &&
    d.isSet (R.SDF_CH_RS_CTRL_ACTIVE ((a - 0x40014100) / 0x40))

/-- Channel n's pending set acts. With SETTLE1 chosen anew the first word is that of a window that starts from here on
(R233). -/
def sdApply (d : Dev) (n : Nat) : Dev :=
  let old := d.sdPreset n
  let d := d.applyPend (inBlock (0x40014100 + 0x40 * n) (0x40014140 + 0x40 * n))
  if d.sdPreset n = 3 ∧ old ≠ 3 then d.setSd n { d.sd n with win := .none, wdue := false } else d

/-- The limits of channel n's pending set act; its FILT waits for the hand-back (R232). -/
def sdApplyLim (d : Dev) (n : Nat) : Dev := d.applyPend (inBlock (0x40014108 + 0x40 * n) (0x40014140 + 0x40 * n))

/-! ### Output instants -/

/-- Whether a counter value is an output instant of a preset (R215). -/
def isInstant (preset counter : Nat) : Bool :=
  match preset with
  | 0 => counter % 32 == 0
  | 1 => counter % 64 == 0
  | 2 => counter == 0
  | _ => false

/-- A SETTLE1 window closes and the next one starts; its word goes out where `word` says so (R216, R218). -/
def sdClose (d : Dev) (n : Nat) (gives : Bool) : Dev :=
  let u := d.sd n
  let x := divEven ((2 * (u.wones : Int) - u.wbits) * 2147483648) u.wbits
  let cycles := u.wbits * d.sdDiv n
  let d := d.setSd n { u with wbits := 0, wones := 0, win := .whole, wdue := false }
  if gives ∧ u.wbits ≠ 0 then d.sdStream n x cycles d.time.short else d

/-- A window whose word SETTLE1 delivers reaches its end: the boundary of a commit (R92, R218, R233). -/
def sdBoundary (d : Dev) (n : Nat) : Dev :=
  let d := if d.sdOpen n then d.sdApply n else d
  d.sdClose n (d.sdPreset n == 3)

/-- A period event of a leg reaches the SETTLE1 windows that name it: a window that such an event or a full window has
begun ends with its word, another one gives none (R218). -/
def sdPeriod (d : Dev) (leg : Nat) : Dev :=
  (List.range 24).foldl (fun d n =>
    if d.act (R.SDF_CH_FILT_S1_LEG n) == leg && d.sdRuns n then
      let u := d.sd n
      if d.sdPreset n = 3 ∧ u.win = .whole then d.setSd n { u with wdue := true }
      else d.setSd n { u with wbits := 0, wones := 0, win := .whole }
    else d) d

/-! ### The resampler (R226 to R231) -/

/-- A resampler starts. -/
def rsStart (d : Dev) (n : Nat) (claimed : Bool) (phase : Nat) (ratio : Option Nat) : Dev :=
  (d.setSd n { d.sd n with rs := some ⟨claimed, phase, ratio, none, 0, phase * 2 ^ 18⟩ }).set (R.SDF_CH_RS_CTRL_ACTIVE n) 1

/-- A resampler stops and hands back: no preset word whose instant is at or before T_in after the last resampled word
(R231, log entry 75). -/
def rsStop (d : Dev) (n : Nat) : Dev :=
  let u := d.sd n
  if u.rs.isNone then d
  else ((d.setSd n { u with rs := none, hand := u.tlast.map (· + d.sdTin n) }).set (R.SDF_CH_RS_CTRL_ACTIVE n) 0).set
    (R.SDF_CH_RS_CTRL_EN n) 0

/-- LANE claims a channel (R230). -/
def sdClaim (d : Dev) (n ratio phase : Nat) : Dev :=
  let fw := (d.sd n).rs.isSome
  let d := d.rsStart n true phase (some ratio)
  let d := if fw then d.set (R.SDF_CH_RS_CTRL_PREEMPT n) 1 else d
  d.set R.SDF_STATUS_RECOVERING 1

/-- LANE releases its claim at the channel's first preset instant after HOLD is released (R333). -/
def claimEnd (d : Dev) (n : Nat) : Dev :=
  match (d.sd n).rs with
  | some r =>
    if r.claimed && d.lc.hold.isNone then
      let d := d.rsStop n
      d.setB R.SDF_STATUS_RECOVERING ((List.range 24).any fun k =>
        match (d.sd k).rs with | some r => r.claimed | none => false)
    else d
  | none => d

/-- An output instant of FAST, BALANCED or QUIET, at this value of the decimation counter (R215, R233). Where no preset
word is delivered, no pending set acts (R92). -/
def sdInstant (d : Dev) (n counter : Nat) : Dev :=
  if d.sdPreset n ≠ 3 ∧ isInstant (d.sdPreset n) counter then
    let d := d.claimEnd n
    let d := if d.sdOpen n then d.sdApply n else d
    let p := d.sdPreset n
    if isInstant p counter then d.sdStream n (sincWord p (d.sd n).hist) (d.sdTin n) d.time.short else d
  else d

/-- One SDM cycle of a channel: a SETTLE1 window whose event has come ends, then the ball's level is sampled where the
cycle is the channel's sampling instant (R213, R218). -/
def sdCycle (d : Dev) (n : Nat) (level : Bool) : Dev :=
  let d := if (d.sd n).wdue && d.sdRuns n then d.sdBoundary n else d
  match d.sdSample n with
  | some j => (d.sdBit n level).sdInstant n (j % 256)
  | none => d

/-- The run of equal bits has reached the count and has not raised (R236). -/
def sdStuckDue (d : Dev) (n : Nat) : Bool :=
  let k := 16 * d.get (R.SDF_CH_CFG_STUCK_N n)
  d.sdRuns n && k != 0 && decide (k ≤ (d.sd n).run) && !(d.sd n).stuck

/-- The SETTLE1 window of the delivered preset is full (R218). -/
def sdFull (d : Dev) (n : Nat) : Bool := d.sdRuns n && d.sdPreset n == 3 && decide (2 ^ 20 ≤ (d.sd n).wbits)

/-- SDM cycle of a resampler's next output instant (R227). -/
def rsAt (r : Rs) : Option Nat :=
  r.start.map fun t => t.1 + (divEven (r.next * t.2 : Nat) (2 ^ 24)).toNat

/-- Index, from the resampler's first preset instant on, of the newest word of its next sum, and the phase of the sum: the
accumulated fraction rounded to 6 bits, where 64 is phase 0 of the next word (R227). -/
def rsPlace (r : Rs) : Nat × Nat :=
  let q := (divEven (r.next % 2 ^ 24 : Nat) (2 ^ 18)).toNat
  if q = 64 then (r.next / 2 ^ 24 + 1, 0) else (r.next / 2 ^ 24, q)

/-- The resampler's next output instant has come, and with it the words of its sum (R227). -/
def rsDue (d : Dev) (n : Nat) : Bool :=
  d.sdRuns n && match (d.sd n).rs with
    | some r => (match rsAt r with | some t => decide (t ≤ d.sdmCycle) && decide ((rsPlace r).1 ≤ r.inputs) | none => false)
    | none => false

/-- An event of the present cycle is still to be taken: stuck data, a full window, a resampler's instant. -/
def sdWaits (d : Dev) : Bool := (List.range 24).any fun n => d.sdStuckDue n || d.sdFull n || d.rsDue n

/-- One SDM cycle with these levels at SDD0 to SDD23: the words of the channels that end together leave in ascending order,
each with its trigger behind it (R224). It comes after the events of the cycle before it. -/
def sdmStep (d : Dev) (pins : Nat) : Dev :=
  if !d.isSet R.SDF_CTRL_EN || d.sdWaits then d
  else
    let d := (List.range 24).foldl (fun d n => d.sdCycle n (pins.testBit n)) d
    { d with sdmCycle := d.sdmCycle + 1 }

/-- When the mode leaves M1, M2 and M11 every resampler that firmware enabled stops and EN clears (R226); a claim of LANE
goes on. -/
def sdModeLeave (d : Dev) : Dev :=
  (List.range 24).foldl (fun d n =>
    match (d.sd n).rs with
    | some r => if r.claimed then d.set (R.SDF_CH_RS_CTRL_EN n) 0 else d.rsStop n
    | none => d) d

/-- A write of RS_CTRL (R226, R230, R242). -/
def rsWrite (d : Dev) (n : Nat) (v : Word) : Dev :=
  let en := bitAt v.toNat 0
  if en && (!([1, 2, 11].contains d.mode) || d.sdPreset n == 3) then d.note R.SDF_STATUS_WERR
  else
    let d := d.set (R.SDF_CH_RS_CTRL_PHASE n) (bits v.toNat 8 6)
    let d := if bitAt v.toNat 2 then d.set (R.SDF_CH_RS_CTRL_PREEMPT n) 0 else d
    let claimed := match (d.sd n).rs with | some r => r.claimed | none => false
    if claimed then d.setB (R.SDF_CH_RS_CTRL_EN n) en
    else if en then
      let d := d.set (R.SDF_CH_RS_CTRL_EN n) 1
      if (d.sd n).rs.isSome then d else d.rsStart n false (bits v.toNat 8 6) none
    else d.rsStop n

/-- An output instant of a resampler: the word of 16 taps, or a skip less than 64 SDM cycles after the last word (R227 to
R229). A channel that does not run delivers nothing (R225). -/
def rsOutput (d : Dev) (n : Nat) : Dev :=
  match (d.sd n).rs with
  | none => d
  | some r =>
    match rsAt r with
    | none => d
    | some t =>
      if !d.rsDue n then d
      else
        let p := rsPlace r
        let step := match r.ratio with | some x => x | none => d.get (R.SDF_CH_RS_RATIO_RATIO n)
        let soon := match (d.sd n).tlast with | some l => decide (t < l + 64) | none => false
        let d := d.setSd n { d.sd n with rs := some { r with next := r.next + step } }
        if soon then d.incSat (R.SDF_CH_CNT_RS_SKIP n)
        else
          let d := d.sdApplyLim n
          let xs := ((d.sd n).past.drop (r.inputs - p.1)).take 16
          let sum := (List.zipWith (fun (k : Nat) (x : Word) => signed 24 (Config.resamplerRom p.2 k).toNat * signed 32 x.toNat)
            (List.range 16) xs).foldl (· + ·) 0
          let y := satQ31 (divEven sum (2 ^ 23))
          let d := if y.2 then d.set (R.SDF_CH_STAT_SAT n) 1 else d
          let d := d.setSd n { d.sd n with tlast := some t }
          d.sdDeliver n (word (toBits 32 y.1)) d.time.short

/-- A write of DCB_EST (R221). -/
def estWrite (d : Dev) (n : Nat) (v : Word) : Dev :=
  if d.isSet (R.SDF_CH_DCB_FREEZE n) then d.setEst n (signed 32 v.toNat * 65536) else d.note R.SDF_STATUS_WERR

/-- A read of DATA answers the last word and latches its stamp (R242). -/
def sdRead (d : Dev) (agent n : Nat) : Dev :=
  (d.set (R.SDF_CH_STAMP_TIME n) (d.sd n).stamp.toNat).answer agent (.data (d.rdw (R.SDF_CH_DATA_WORD n).addr))

/-- A channel that starts has no bits yet. -/
def sdFresh (u : SdCh) : SdCh :=
  { u with hist := [], wbits := 0, wones := 0, win := .start, wdue := false, run := 0, stuck := false }

/-- CHn_CFG.EN goes to 1 (R234). -/
def sdStart (d : Dev) (n : Nat) : Dev := d.setSd n (sdFresh (d.sd n))

/-- A write of SDF.CTRL.EN: all dividers and phase counters start together at 1 (R212, R215); a write of 0 is ignored in
M4 to M9 (R235). -/
def sdfEnable (d : Dev) (en : Bool) : Dev :=
  if en then
    if d.isSet R.SDF_CTRL_EN then d
    else
      let d := { d.set R.SDF_CTRL_EN 1 with sdmCycle := 0 }
      (List.range 24).foldl (fun d n =>
        let u := d.sd n
        d.setSd n { sdFresh u with
          tlast := none, hand := none
          rs := u.rs.map fun r => { r with start := none, inputs := 0, next := r.phase * 2 ^ 18 } }) d
  else if d.control then d.note R.SDF_STATUS_WERR
  else d.set R.SDF_CTRL_EN 0

end Dev

/-! ### Commands -/

/-- SDF_COMMIT (R233). -/
def execSdfCommit (s : State) : Host.Outcome State Fault Refusal :=
  .next <| s.onDev fun d =>
    d.commit 0x40014000 0x40015000 none (some R.SDF_STATUS_INCOMPLETE) d.sdHold (d.isSet R.SDF_CTRL_EN)

/-- SDF_ENABLE: a write of SDF.CTRL.EN = 1 (R212). -/
def execSdfEnable (s : State) : Host.Outcome State Fault Refusal := .next <| s.onDev fun d => d.sdfEnable true

/-- SD_OUTPUT_WORD: one SDM cycle with the levels of SDD23 to SDD16, SDD15 to SDD8 and SDD7 to SDD0; at the output instant of
a channel it produces the channel's word (R213, R215, R223, R224; log entry 163). -/
def execSdOutputWord (high mid low : BitVec 8) (s : State) : Host.Outcome State Fault Refusal :=
  .next <| s.onDev fun d => d.sdmStep (high ++ mid ++ low).toNat

/-- S1_WINDOW_TRUNC: the SETTLE1 window of channel 8 * group + k that has 2^20 bits closes, delivers and starts anew (R218). -/
def execS1WindowTrunc (group : Fin 3) (k : Fin 8) (s : State) : Host.Outcome State Fault Refusal :=
  .next <| s.onDev fun d =>
    let n := 8 * group.val + k.val
    if d.sdFull n then
      let d := d.set (R.SDF_CH_STAT_S1_TRUNC n) 1
      if (d.sd n).win = .none then d.sdClose n false else d.sdBoundary n
    else d

/-- SD_STUCK: 16 times STUCK_N equal bits raise once (R236). -/
def execSdStuck (n : Fin 24) (s : State) : Host.Outcome State Fault Refusal :=
  .next <| s.onDev fun d =>
    if d.sdStuckDue n.val then
      ((d.setSd n.val { d.sd n.val with stuck := true }).set (R.SDF_CH_STAT_STUCK n.val) 1).raise 10 60 n.val
    else d

/-- RESAMPLER_ENABLE: a write of RS_CTRL (R226). -/
def execResamplerEnable (n : Fin 24) (value : Word) (s : State) : Host.Outcome State Fault Refusal :=
  .next <| s.onDev fun d => d.rsWrite n.val value

/-- RESAMPLER_OUTPUT (R227). -/
def execResamplerOutput (n : Fin 24) (s : State) : Host.Outcome State Fault Refusal :=
  .next <| s.onDev fun d => d.rsOutput n.val

/-- DCB_EST_WRITE (R221). -/
def execDcbEstWrite (n : Fin 24) (value : Word) (s : State) : Host.Outcome State Fault Refusal :=
  .next <| s.onDev fun d => d.estWrite n.val value

/-- SD_DATA_READ (R242). -/
def execSdDataRead (core : Fin 4) (n : Fin 24) (s : State) : Host.Outcome State Fault Refusal :=
  .next <| s.coreDev core.val fun d => d.sdRead core.val n.val

end Sys2Proof.Machine
end

