-- ==== Sys2Proof/Machine/Cordic.lean ====
section
/-! DEFINITION. The CORDIC-unit functions (R163): the exact value of each function, rounded once. A value that is not
rational is enclosed between two fractions computed in fixed point; when both round alike, that is the rounded value.
The enclosure is tried at 320, 1100 and 2600 fraction bits (more where a result has many integer bits); an operand that
none of them decides is not known, and would give the free value `Config.cordicFree` (log entry 30). -/

namespace Sys2Proof.Machine

/-- Sum over k of sg^k * z^(2k+1) / (2k+1), in fixed point with `p` fraction bits: arctangent for sg = -1, its
hyperbolic counterpart for sg = 1. -/
def oddSeries (p : Nat) (sg z2 : Int) : Nat → Int → Int → Int → Int
  | 0, _, _, acc => acc
  | fuel + 1, t, k, acc => oddSeries p sg z2 fuel (sg * (t * z2 / 2 ^ p)) (k + 2) (acc + t / k)

/-- Arctangent of z for |z| ≤ 0.21 (sg = -1), or its hyperbolic counterpart (sg = 1). -/
def arcSmall (p : Nat) (sg z : Int) : Int := oddSeries p sg (z * z / 2 ^ p) (p / 4 + 8) z 1 0

/-- π with `p` fraction bits: 16 atan(1/5) - 4 atan(1/239). -/
def piFix (p : Nat) : Int := 16 * arcSmall p (-1) (2 ^ p / 5) - 4 * arcSmall p (-1) (2 ^ p / 239)

/-- ln 2 with `p` fraction bits: 18 arctanh(1/26) - 2 arctanh(1/4801) + 8 arctanh(1/8749). -/
def ln2Fix (p : Nat) : Int :=
  18 * arcSmall p 1 (2 ^ p / 26) - 2 * arcSmall p 1 (2 ^ p / 4801) + 8 * arcSmall p 1 (2 ^ p / 8749)

/-- Terms of a Taylor series: t, t*u/((k+1)(k+2)), ... summed. -/
def pairSeries (p : Nat) (u : Int) : Nat → Int → Int → Int → Int
  | 0, _, _, acc => acc
  | fuel + 1, t, k, acc => pairSeries p u fuel (t * u / 2 ^ p / ((k + 1) * (k + 2))) (k + 2) (acc + t)

def sinSmall (p : Nat) (r : Int) : Int := pairSeries p (-(r * r / 2 ^ p)) (p / 8 + 16) r 1 0
def cosSmall (p : Nat) (r : Int) : Int := pairSeries p (-(r * r / 2 ^ p)) (p / 8 + 16) (2 ^ p) 0 0

def expSeries (p : Nat) (r : Int) : Nat → Int → Int → Int → Int
  | 0, _, _, acc => acc
  | fuel + 1, t, k, acc => expSeries p r fuel (t * r / 2 ^ p / k) (k + 1) (acc + t)

def expSmall (p : Nat) (r : Int) : Int := expSeries p r (p / 4 + 16) (2 ^ p) 1 0

/-- The error allowed for in every enclosure, in units of the last fraction bit. -/
def fixErr : Int := 2 ^ 20

/-- A fixed-point number as a value. -/
def ofFix (p : Nat) (z : Int) : Val := .fin (z < 0) z.natAbs (2 ^ p)

/-- Numerator with sign of a finite value. -/
def Val.num : Val → Int
  | .fin s n _ => if s then -(n : Int) else n
  | _ => 0

def Val.den : Val → Nat
  | .fin _ _ d => d
  | _ => 1

/-- Sine and cosine from a reduced angle and its quadrant. -/
def quadrant (k : Int) (s c : Int) : Int × Int :=
  match (k % 4).toNat with
  | 0 => (s, c)
  | 1 => (c, -s)
  | 2 => (-s, -c)
  | _ => (-c, s)

/-- Sine and cosine, in fixed point, of a finite angle: in radians, or in units of π for Q1.31 (R155, R163). -/
def sincosFix (f : Fmt) (p : Nat) (x : Val) : Int × Int :=
  let num := x.num
  let den : Int := x.den
  match f with
  | .q31 =>
    let k := (4 * num + den) / (2 * den)      -- nearest multiple of 1/2 turn-half
    let r := piFix p * (2 * num - k * den) / (2 * den)
    quadrant k (sinSmall p r) (cosSmall p r)
  | _ =>
    let g : Nat := 160
    let pi := piFix (p + g)
    let xf := num * 2 ^ (p + g) / den
    let k := (2 * xf + pi / 2) / pi
    let r := (xf - k * pi / 2) / 2 ^ g
    quadrant k (sinSmall p r) (cosSmall p r)

/-- Angle of the point (x, y) in radians, in fixed point; not both zero. -/
def atan2Fix (p : Nat) (y x : Val) : Int :=
  let yn : Int := y.num.natAbs * x.den
  let xn : Int := x.num.natAbs * y.den
  let pi := piFix p
  let small := if yn ≤ xn then yn * 2 ^ p / xn else xn * 2 ^ p / yn
  -- two half-angle steps bring the tangent below 0.21
  let half := fun t : Int => t * 2 ^ p / (2 ^ p + (isqrt ((2 ^ (2 * p) + t * t).toNat) : Int))
  let a := 4 * arcSmall p (-1) (half (half small))
  let q := if yn ≤ xn then a else pi / 2 - a
  let h := if x.neg? then pi - q else q
  if y.neg? then -h else h

/-- Two bounds of a value. -/
abbrev Encl := Nat → Val × Val

def around (p : Nat) (z : Int) : Val × Val := (ofFix p (z - fixErr), ofFix p (z + fixErr))

/-- Two rounded bounds give one written value: equal, and in FP32, which has two zeros (R149), of one sign too, so that
an enclosure of zero decides nothing there. -/
def Val.same (f : Fmt) : Val → Val → Bool
  | .nan, .nan => true
  | .inf s, .inf t => s == t
  | .fin s n d, .fin t m e => n * e == m * d && (s == t || (f != .fp32 && n == 0))
  | _, _ => false

/-- Rounds an enclosed value: the common rounding of both bounds, at the first precision of `ps` at which they agree.
`more` adds fraction bits where a result has many integer bits. -/
def roundEnclAt (f : Fmt) (r : Rnd) (more : Nat) (e : Encl) : List Nat → Option Val
  | [] => none
  | p :: ps =>
    let b := e (p + more)
    let lo := roundVal f r b.1
    if lo.same f (roundVal f r b.2) then some lo else roundEnclAt f r more e ps

def roundEncl (f : Fmt) (r : Rnd) (more : Nat) (e : Encl) : Option Val := roundEnclAt f r more e [320, 1100, 2600]

def fmtCode : Fmt → Nat
  | .fp32 => 0
  | .q31 => 1
  | .q16 => 2

def rndCode : Rnd → Nat
  | .even => 0
  | .zero => 1
  | .floor => 2
  | .ceil => 3

/-- Writes an enclosed value; `fn` and the operand words name the free value of the last resort. -/
def writeEncl (f : Fmt) (r : Rnd) (o : Ovf) (fn : Nat) (ws : List Word) (e : Encl) (more : Nat := 0) : Word × Flags :=
  match roundEncl f r more e with
  | some v => finish f o v
  | none => (Config.cordicFree fn (fmtCode f) (rndCode r) ws, {})

/-- An angle that is a whole number of quarter units of π (Q1.31), where sine and cosine have simple values. -/
def eighthTurn (f : Fmt) (x : Val) : Option Nat :=
  match f with
  | .q31 => if (4 * x.num) % (x.den : Int) = 0 then some ((4 * x.num / x.den) % 8).toNat else none
  | _ => if x.num = 0 then some 0 else none

/-- Sine at the whole numbers k of right angles. -/
def sinQuarter (k : Nat) : Val :=
  match k % 4 with
  | 1 => .fin false 1 1
  | 3 => .fin true 1 1
  | _ => .fin false 0 1

/-- Sine (`isCos` = false) or cosine of an operand (R163). -/
def sinOp (f : Fmt) (r : Rnd) (isCos : Bool) (w : Word) : Word × Flags :=
  let x := readFmt f w
  match x with
  | .nan => nanResult f false
  | .inf _ => nanResult f false
  | _ =>
    match eighthTurn f x with
    | some k =>
      if k % 2 = 0 then
        let v := sinQuarter (k / 2 + b2n isCos)
        writeVal f r .limit (if !isCos && x.isZero then x else v)
      else writeEncl f r .limit (1 + b2n isCos) [w] fun p =>
        let sc := sincosFix f p x
        around p (if isCos then sc.2 else sc.1)
    | none => writeEncl f r .limit (1 + b2n isCos) [w] fun p =>
        let sc := sincosFix f p x
        around p (if isCos then sc.2 else sc.1)

/-- The least and the greatest of the four products of two intervals' bounds with one exact factor. -/
def mulBounds (x : Val) (b : Val × Val) : Val × Val :=
  let u := x.mul b.1
  let v := x.mul b.2
  if Val.lt v u then (v, u) else (u, v)

/-- a·cos x − b·sin x (`second` = false) or a·sin x + b·cos x, exact but for one rounding (R163). -/
def rotOp (f : Fmt) (r : Rnd) (o : Ovf) (second : Bool) (wa wb wc : Word) : Word × Flags :=
  let a := readFmt f wa
  let b := readFmt f wb
  let x := readFmt f wc
  let b' := if second then b else b.neg
  -- first result: a·cos + b'·sin; second: b·cos + a·sin
  let c1 := if second then b else a
  let s1 := if second then a else b'
  match x with
  | .nan => nanResult f (o == .sat)
  | .inf _ => nanResult f (o == .sat)
  | _ =>
    if a.isNan || b.isNan then nanResult f (o == .sat)
    else
      match eighthTurn f x with
      | some k =>
        if k % 2 = 0 then
          let sv := if x.isZero then x else sinQuarter (k / 2)
          writeVal f r o (Val.add r (c1.mul (sinQuarter (k / 2 + 1))) (s1.mul sv))
        else
          -- odd eighths: ±(c1 ± s1)·√(1/2), the square of which is rational
          let cs := if k = 1 ∨ k = 7 then c1 else c1.neg
          let ss := if k = 1 ∨ k = 3 then s1 else s1.neg
          let t := Val.add r cs ss
          match sqrtVal (t.num.natAbs * t.num.natAbs) (2 * t.den * t.den) with
          | .fin _ n d => writeVal f r o (.fin t.neg? n d)
          | v => writeVal f r o v
      | none =>
        if a.isInf || b.isInf then
          let sc := sincosFix f 1100 x
          finish f o (Val.add r (c1.mul (ofFix 1100 sc.2)) (s1.mul (ofFix 1100 sc.1)))
        else if a.isZero && b.isZero then
          let sc := sincosFix f 1100 x
          finish f o (Val.add r (c1.mul (ofFix 1100 sc.2)) (s1.mul (ofFix 1100 sc.1)))
        else writeEncl f r o (3 + b2n second) [wa, wb, wc] fun p =>
          let sc := sincosFix f p x
          let u := mulBounds c1 (around p sc.2)
          let v := mulBounds s1 (around p sc.1)
          (Val.add r u.1 v.1, Val.add r u.2 v.2)

/-- √(a² + b²) (R163). -/
def hypotOp (f : Fmt) (r : Rnd) (o : Ovf) (wa wb : Word) : Word × Flags :=
  let a := readFmt f wa
  let b := readFmt f wb
  if a.isNan || b.isNan then nanResult f (o == .sat)
  else if a.isInf || b.isInf then finish f o (.inf false)
  else
    match Val.add r (a.mul a) (b.mul b) with
    | .fin _ n d => writeVal f r o (sqrtVal n d)
    | v => writeVal f r o v

/-- The multiple k/4 of π as an enclosure, or exactly in units of π. -/
def quarterPi (f : Fmt) (r : Rnd) (neg : Bool) (k : Nat) (ws : List Word) : Word × Flags :=
  match f with
  | .q31 => writeVal f r .angle (.fin neg k 4)
  | _ =>
    if k = 0 then writeVal f r .angle (.fin neg 0 1)
    else writeEncl f r .angle 5 ws fun p =>
      let z := piFix p * k / 4
      around p (if neg then -z else z)

/-- atan2(a, b), a the ordinate (R163). -/
def atan2Op (f : Fmt) (r : Rnd) (sat : Bool) (wa wb : Word) : Word × Flags :=
  let y := readFmt f wa
  let x := readFmt f wb
  if y.isNan || x.isNan then nanResult f sat
  else if y.isZero && x.isZero then (0, {})
  else if y.isInf || x.isInf then
    if y.isInf && x.isInf then quarterPi f r y.neg? (if x.neg? then 3 else 1) [wa, wb]
    else if y.isInf then quarterPi f r y.neg? 2 [wa, wb]
    else quarterPi f r y.neg? (if x.neg? then 4 else 0) [wa, wb]
  else if y.isZero then quarterPi f r y.neg? (if x.neg? then 4 else 0) [wa, wb]
  else if x.isZero then quarterPi f r y.neg? 2 [wa, wb]
  else if Val.eq y.abs x.abs then quarterPi f r y.neg? (if x.neg? then 3 else 1) [wa, wb]
  else
    match f with
    | .q31 => writeEncl f r .angle 5 [wa, wb] fun p => around p (atan2Fix p y x * 2 ^ p / piFix p)
    | _ => writeEncl f r .angle 5 [wa, wb] fun p => around p (atan2Fix p y x)

/-- e^a (R163). Far outside every format's range the enclosure is coarse, and still rounds to one value. -/
def expOp (f : Fmt) (r : Rnd) (o : Ovf) (w : Word) : Word × Flags :=
  let x := readFmt f w
  match x with
  | .nan => nanResult f (o == .sat)
  | .inf s => if s then writeVal f r o (.fin false 0 1) else finish f o (.inf false)
  | .fin s n d =>
    if n = 0 then writeVal f r o (.fin false 1 1)
    else if s && 1024 * d < n then writeVal f r o (.fin false 1 (2 ^ 400))
    else if f = .fp32 ∧ 1024 * d < n then finish f o (.fin false (2 ^ 400) 1)
    else writeEncl f r o 6 [w] (fun p =>
      let g := p + 16
      let xf := x.num * 2 ^ g / (d : Int)
      let l := ln2Fix g
      let k := (2 * xf + l) / (2 * l)
      let e := expSmall g (xf - k * l) / 2 ^ 16
      let b := around p e
      (Val.scale k b.1, Val.scale k b.2)) (2 * (n / d))

/-- ln a (R163), with the cases of zero and of a negative operand of R162. DEDUCED: in FP32 with SAT = 1, LN of zero
writes the most negative finite value with Z alone (log entry 159). -/
def lnOp (f : Fmt) (r : Rnd) (o : Ovf) (w : Word) : Word × Flags :=
  let x := readFmt f w
  match x with
  | .nan => nanResult f (o == .sat)
  | .inf s => if s then nanResult f (o == .sat) else finish f o (.inf false)
  | .fin s n d =>
    if n = 0 then
      (match f with
       | .fp32 => if o = .sat then maxFinite true else infWord true
       | _ => 0x80000000, { z := true })
    else if s then nanResult f (o == .sat)
    else if n = d then writeVal f r o (.fin false 0 1)
    else writeEncl f r o 7 [w] fun p =>
      let e0 := ilog2 n d
      -- m in [2/3, 4/3)
      let e := if 4 * d * 2 ^ e0.toNat ≤ 3 * n * 2 ^ (-e0).toNat then e0 + 1 else e0
      let m := Val.scale (-e) x
      let mf := m.num * 2 ^ p / m.den
      let z := (mf - 2 ^ p) * 2 ^ p / (mf + 2 ^ p)
      around p (2 * arcSmall p 1 z + e * ln2Fix p)

end Sys2Proof.Machine
end

