-- ==== Sys2Proof/Machine/Flags.lean ====
section
/-! DEFINITION. The flag computations of the Stake operations (R157) and the flag word of a run (R158). -/

namespace Sys2Proof.Machine

namespace Flags

/-- ORs the flags of a completing operation into a flag word (R158). -/
def or (x y : Flags) : Flags := ⟨x.s || y.s, x.v || y.v, x.n || y.n, x.z || y.z⟩

/-- The flag word as GETF writes it (R158). -/
def toWord (x : Flags) : Word := word (b2n x.s + 2 * b2n x.v + 4 * b2n x.n + 8 * b2n x.z)

/-- N for a NaN among the operands of a typed operation (R157). -/
def ofNan (vs : List Val) : Flags := { n := vs.any Val.isNan }

end Flags

/-- A result with further flags ORed in. -/
def withFlags (r : Word × Flags) (f : Flags) : OpOut := { v := r.1, flags := r.2.or f }

/-- An integer result (IADD to IMAC): saturated with S or wrapped with V (R152). -/
def intResult (w : OpWord) (z : Int) : OpOut := withFlags (finishInt w.ovf z) {}

/-- The raw word of a compare: 1 or 0 (R162). -/
def boolWord (b : Bool) : Word := if b then 1 else 0

end Sys2Proof.Machine
end

