-- ==== Sys2Proof/Machine/StakeOps.lean ====
section
/-! DEFINITION. What each Stake operation computes from its operands (R154, R155, R161 to R167). Memory, port and
flag-word operations (LD, ST, LDP, STP, PRD, PWR, RAISE, GETF) act in Weave.lean. -/

namespace Sys2Proof.Machine

/-- A typed operation of operands a, b, ... : NaN operands give the NaN result with N, else `v` is rounded once and
written (R150, R153). -/
def typed (w : OpWord) (o : Ovf) (ops : List Val) (v : Val) : OpOut :=
  if ops.any Val.isNan then withFlags (nanResult w.format (o == .sat)) {} else
  withFlags (writeVal w.format w.round o v) {}

namespace Op

variable (w : OpWord) (x : OpIn)

def A : Val := readFmt w.format x.a
def B : Val := readFmt w.format x.b
def C : Val := readFmt w.format x.c
def C' : Val := readFmt w.format x.c'
def D : Val := readFmt w.format x.d

/-- The immediate operand of ADDI and MULI (R154). -/
def X : Val :=
  match w.format with
  | .fp32 => readFmt .fp32 (word (w.imm * 2 ^ 16))
  | .q31 => readFmt .q31 (word (w.imm * 2 ^ 16))
  | .q16 => readFmt .q16 (word (toBits 32 (w.immS * 256)))

def mov : OpOut := { v := x.a }
def ldi : OpOut := { v := word (toBits 32 w.immS) }
def ldih : OpOut := { v := word (w.imm * 2 ^ 16 + x.a.toNat % 2 ^ 16) }
def rtime : OpOut := { v := x.trig }

def add : OpOut := typed w w.ovf [A w x, B w x] ((A w x).add w.round (B w x))
def sub : OpOut := typed w w.ovf [A w x, B w x] ((A w x).sub w.round (B w x))
def addi : OpOut := typed w w.ovf [A w x, X w] ((A w x).add w.round (X w))
def neg : OpOut := typed w w.ovf [A w x] (A w x).neg
def abs : OpOut := typed w w.ovf [A w x] (A w x).abs
def absd : OpOut := typed w w.ovf [A w x, B w x] ((A w x).sub w.round (B w x)).abs
def cpys : OpOut := typed w w.ovf [A w x, B w x] (if (B w x).neg? then (A w x).abs.neg else (A w x).abs)

/-- MIN and MAX: a NaN operand yields the other (R161). -/
def pick (p : Val → Val → Val) : OpOut :=
  let a := A w x
  let b := B w x
  let v := if a.isNan then b else if b.isNan then a else p a b
  withFlags (writeVal w.format w.round .limit v) (Flags.ofNan [a, b])

def min : OpOut := pick w x Val.min
def max : OpOut := pick w x Val.max

def mid3 : OpOut :=
  let a := A w x
  let b := B w x
  let c := C w x
  typed w .limit [a, b, c] (Val.max (Val.min a b) (Val.min (Val.max a b) c))

/-- A value limited to [c, c']; c when c > c' (R161, R164). -/
def clampTo (c c' v : Val) : Val := Val.max c (Val.min c' v)

/-- A rounded value limited to [c, c'], with S when the limits change it (R157, R164, R165). DESIGN CHOICE: an FP32 value
that overflows within infinite limits is the infinity, with V (log entry 157). -/
def clamped (ops : List Val) (v : Val) : OpOut :=
  let c := C w x
  let c' := C' w x
  if v.isNan || (ops ++ [c, c']).any Val.isNan then withFlags (nanResult w.format false) {}
  else
    let r := roundVal w.format w.round v
    let y := clampTo c c' r
    withFlags (finish w.format .limit y) { s := !Val.eq y r }

def clamp : OpOut := clamped w x [A w x] (A w x)
def intg : OpOut := clamped w x [A w x, B w x, D w x] ((D w x).add w.round ((A w x).mul (B w x)))
def ipre : OpOut := clamped w x [A w x, B w x] ((A w x).sub w.round (B w x))

def sel : OpOut := { v := if x.c = 0 then x.b else x.a }

/-- A compare: false with a NaN operand unless `nanIs`, and N (R162). -/
def compare (nanIs : Bool) (p : Val → Val → Bool) : OpOut :=
  let a := A w x
  let b := B w x
  if a.isNan || b.isNan then { v := boolWord nanIs, flags := { n := true } }
  else { v := boolWord (p a b) }

def cmplt : OpOut := compare w x false Val.lt
def cmple : OpOut := compare w x false Val.le
def cmpeq : OpOut := compare w x false Val.eq
def cmpne : OpOut := compare w x true fun a b => !Val.eq a b

def hyst : OpOut :=
  let a := A w x
  let c := C w x
  let c' := C' w x
  if a.isNan || c.isNan || c'.isNan then { v := x.d, flags := { n := true } }
  else if Val.lt c' a then { v := 1 } else if Val.lt a c then { v := 0 } else { v := x.d }

def isat : OpOut :=
  let a := A w x
  let c := C w x
  let c' := C' w x
  if a.isNan || c.isNan || c'.isNan then { v := 1, flags := { n := true } }
  else { v := boolWord (Val.le a c || Val.le c' a) }

def sgn : OpOut :=
  let a := A w x
  if w.format = .q31 ∧ Val.lt (.fin false 0 1) a then { v := 0x7FFFFFFF }
  else typed w .limit [a] (if a.isZero then .fin false 0 1 else .fin a.neg? 1 1)

def avg : OpOut := typed w .limit [A w x, B w x] (Val.scale (-1) ((A w x).add w.round (B w x)))

def dzone : OpOut :=
  let a := A w x
  let b := B w x
  if a.isNan || b.isNan then withFlags (nanResult w.format w.sat) {}
  else if Val.le a.abs b.abs then { v := 0, flags := { s := !a.isZero } }
  else typed w w.ovf [a, b] (a.sub w.round (if a.neg? then b.abs.neg else b.abs))

def rlim : OpOut :=
  let a := A w x
  let b := (B w x).abs
  let d := D w x
  let e := a.sub w.round d
  let y := clampTo b.neg b e
  let o := typed w w.ovf [a, b, d, e] (d.add w.round y)
  { o with flags := o.flags.or { s := !e.isNan && !b.isNan && Val.lt b e.abs } }

/-- 2π as the angle operations take it (R155). -/
def twoPi : Val :=
  match w.format with
  | .q16 => readFmt .q16 0x0006487F
  | _ => readFmt .fp32 0x40C90FDB

/-- Adds or subtracts 2π once to bring a value into [-π, π) (R155). DESIGN CHOICE: π is half the constant that the rule
gives for 2π (log entry 158). -/
def wrapOnce (v : Val) : Val :=
  let pi := Val.scale (-1) (twoPi w)
  if Val.lt v pi.neg then v.add w.round (twoPi w)
  else if Val.le pi v then v.sub w.round (twoPi w) else v

/-- ANGADD and ANGDIFF (R155). DESIGN CHOICE: a corrected sum outside the format is handled by R152 and R153, with their
flags (log entries 157 and 158). -/
def angle (z : Nat) (v : Val) (ops : List Val) : OpOut :=
  match w.format with
  | .q31 => { v := word z }
  | _ => typed w .limit ops (wrapOnce w v)

def angadd : OpOut :=
  angle w (x.a.toNat + x.b.toNat) ((A w x).add w.round (B w x)) [A w x, B w x]
def angdiff : OpOut :=
  angle w (x.a.toNat + 2 ^ 32 - x.b.toNat) ((A w x).sub w.round (B w x)) [A w x, B w x]

def wrapa : OpOut :=
  match w.format with
  | .q31 => { v := x.a }
  | _ =>
    let a := A w x
    let y := wrapOnce w a
    let pi := Val.scale (-1) (twoPi w)
    let o := typed w .limit [a] y
    { o with flags := o.flags.or { v := !a.isNan && (Val.lt y pi.neg || Val.le pi y) } }

def ldexp : OpOut := typed w w.ovf [A w x] (Val.scale w.k (A w x))

/-- The value rounded to an integer. -/
def integral (r : Rnd) : Val → Val
  | .fin s n d => .fin s (roundNat r s n d) 1
  | v => v

/-- RINT (R161). DESIGN CHOICE: a result outside a Q format with SAT = 0 wraps and sets V (R152; log entry 157). -/
def rint : OpOut := typed w w.ovf [A w x] (integral w.round (A w x))

def frac : OpOut :=
  let a := A w x
  match a with
  | .inf _ => withFlags (nanResult w.format false) {}
  | _ => typed w .limit [a] (a.sub w.round (integral .floor a))

def cvt : OpOut :=
  let src : Fmt := match w.imm % 8 with
    | 1 => .q31
    | 2 => .q16
    | _ => .fp32
  let a := readFmt src x.a
  typed w w.ovf [a] a

/-- TOI and TOU: the integer of a·2^k in the range [lo, hi] (R162, items 3 and R152). -/
def toInt (lo hi : Int) : OpOut :=
  match Val.scale w.k (A w x) with
  | .nan => { v := 0, flags := { n := true } }
  | .inf s => { v := word (toBits 32 (if s then lo else hi)), flags := { s := true } }
  | .fin s n d =>
    let m : Int := roundNat w.round s n d
    let z := if s then -m else m
    if lo ≤ z ∧ z ≤ hi then { v := word (toBits 32 z) }
    else if w.sat then { v := word (toBits 32 (if z < lo then lo else hi)), flags := { s := true } }
    else { v := word (toBits 32 z), flags := { v := true } }

def toi : OpOut := toInt w x (-(2 ^ 31)) (2 ^ 31 - 1)
def tou : OpOut := toInt w x 0 (2 ^ 32 - 1)

def ito : OpOut := typed w w.ovf [] (Val.scale (-w.k) (Val.ofInt (signed 32 x.a.toNat)))
def uto : OpOut := typed w w.ovf [] (Val.scale (-w.k) (Val.ofInt x.a.toNat))

/-- SATT and SATTL (R166). -/
def satTimer (leaky : Bool) : OpOut :=
  let a := A w x
  let c := C w x
  let c' := C' w x
  let t := x.trig.toNat
  let d0 := (t + 2 ^ 32 - x.d'.toNat) % 2 ^ 32
  let delta := if x.period ≠ 0 ∧ 4 * x.period < d0 then 4 * x.period else d0
  let nan := a.isNan || c.isNan || c'.isNan
  let sat := Val.le a c || Val.le c' a || a.isNan
  let old := x.d.toNat
  let new := if sat then Nat.min (old + delta) (2 ^ 32 - 1) else if leaky then old - delta / 4 else 0
  let b := x.b.toNat
  { v := word new, v' := word t, flags := { n := nan }, expire := b != 0 && decide (old < b) && decide (b ≤ new) }

def satt : OpOut := satTimer w x false
def sattl : OpOut := satTimer w x true

def sa : Int := signed 32 x.a.toNat
def sb : Int := signed 32 x.b.toNat
def sc : Int := signed 32 x.c.toNat

def iadd : OpOut := intResult w (sa x + sb x)
def isub : OpOut := intResult w (sa x - sb x)
def iaddi : OpOut := intResult w (sa x + w.immS)
def iabs : OpOut := intResult w (sa x).natAbs
def imin : OpOut := { v := if sb x < sa x then x.b else x.a }
def imax : OpOut := { v := if sa x < sb x then x.b else x.a }
def land : OpOut := { v := x.a &&& x.b }
def lor : OpOut := { v := x.a ||| x.b }
def lxor : OpOut := { v := x.a ^^^ x.b }
def andn : OpOut := { v := x.a &&& ~~~x.b }
def shl : OpOut := { v := x.a <<< w.pos }
def shr : OpOut := { v := x.a >>> w.pos }
def sar : OpOut := { v := x.a.sshiftRight w.pos }
def ror : OpOut := { v := x.a.rotateRight w.pos }
def bfx : OpOut := { v := word (bits x.a.toNat w.pos w.len) }
def bfi : OpOut :=
  let m : Nat := (2 ^ w.len - 1) * 2 ^ w.pos
  { v := (x.d &&& ~~~word m) ||| (word (x.a.toNat * 2 ^ w.pos) &&& word m) }
def icmplt : OpOut := { v := boolWord (sa x < sb x) }
def icmpltu : OpOut := { v := boolWord (x.a.toNat < x.b.toNat) }
def icmpeq : OpOut := { v := boolWord (x.a == x.b) }
def clz : OpOut := { v := word (if x.a = 0 then 32 else 31 - Nat.log2 x.a.toNat) }
def popc : OpOut := { v := word ((List.range 32).countP fun i => x.a.toNat.testBit i) }

def mul : OpOut := typed w w.ovf [A w x, B w x] ((A w x).mul (B w x))
def mac : OpOut := typed w w.ovf [A w x, B w x, C w x] (((A w x).mul (B w x)).add w.round (C w x))
def msub : OpOut := typed w w.ovf [A w x, B w x, C w x] ((C w x).sub w.round ((A w x).mul (B w x)))
def msbr : OpOut := typed w w.ovf [A w x, B w x, C w x] (((A w x).mul (B w x)).sub w.round (C w x))
def muli : OpOut := typed w w.ovf [A w x, X w] ((A w x).mul (X w))
def sqr : OpOut := typed w w.ovf [A w x] ((A w x).mul (A w x))
def lpf1 : OpOut :=
  typed w w.ovf [A w x, B w x, D w x] ((D w x).add w.round ((A w x).mul ((B w x).sub w.round (D w x))))

def imul : OpOut := intResult w (sa x * sb x)
def imulh : OpOut := { v := word (toBits 32 (sa x * sb x / 2 ^ 32)) }
def imac : OpOut := intResult w (sa x * sb x + sc x)

def sincos : OpOut :=
  let s := sinOp w.format w.round false x.a
  let c := sinOp w.format w.round true x.a
  { v := s.1, v' := c.1, flags := s.2.or c.2 }
def sin : OpOut := withFlags (sinOp w.format w.round false x.a) {}
def cos : OpOut := withFlags (sinOp w.format w.round true x.a) {}
def rot : OpOut :=
  let p := rotOp w.format w.round w.ovf false x.a x.b x.c
  let q := rotOp w.format w.round w.ovf true x.a x.b x.c
  { v := p.1, v' := q.1, flags := p.2.or q.2 }
def atan2 : OpOut := withFlags (atan2Op w.format w.round false x.a x.b) {}
def hypot : OpOut := withFlags (hypotOp w.format w.round w.ovf x.a x.b) {}
def vec : OpOut :=
  let p := hypotOp w.format w.round w.ovf x.a x.b
  let q := atan2Op w.format w.round w.sat x.a x.b
  { v := p.1, v' := q.1, flags := p.2.or q.2 }
def exp : OpOut := withFlags (expOp w.format w.round w.ovf x.a) {}
def ln : OpOut := withFlags (lnOp w.format w.round w.ovf x.a) {}

/-- The result of a division by zero, by the sign of the quotient (R162, item 4). -/
def overZero (neg : Bool) : OpOut :=
  match w.format with
  | .fp32 => { v := if w.sat then maxFinite neg else infWord neg, flags := { z := true } }
  | _ => { v := extreme neg, flags := { z := true } }

/-- DIV and RECIP (R161, R162). -/
def divide (a b : Val) : OpOut :=
  if a.isNan || b.isNan then withFlags (nanResult w.format w.sat) {}
  else if b.isZero then
    if a.isZero then withFlags (nanResult w.format w.sat) {}
    else overZero w (a.neg? != (b.neg? && w.format == .fp32))
  else typed w w.ovf [a, b] (a.div b)

def div : OpOut := divide w (A w x) (B w x)
def recip : OpOut := divide w (.fin false 1 1) (A w x)

/-- √a or, when `inv`, 1/√a (R162, items 4, 5 and 7). DEDUCED: RSQRT of zero writes what a division by zero writes (log
entry 159). -/
def root (inv : Bool) (o : Ovf) : OpOut :=
  match A w x with
  | .nan => withFlags (nanResult w.format (o == .sat)) {}
  | .inf s =>
    if s then withFlags (nanResult w.format (o == .sat)) {}
    else if inv then typed w o [] (.fin false 0 1) else typed w o [] (.inf false)
  | .fin s n d =>
    if n = 0 then (if inv then overZero w s else typed w o [] (.fin s 0 1))
    else if s then withFlags (nanResult w.format (o == .sat)) {}
    else typed w o [] (if inv then sqrtVal d n else sqrtVal n d)

def sqrt : OpOut := root w x false .limit
def rsqrt : OpOut := root w x true w.ovf

def idiv : OpOut :=
  if x.b = 0 then { v := extreme (sa x < 0), flags := { z := true } }
  else intResult w ((sa x).tdiv (sb x))
def idivu : OpOut :=
  if x.b = 0 then { v := 0xFFFFFFFF, flags := { z := true } }
  else { v := word (x.a.toNat / x.b.toNat) }

end Op

end Sys2Proof.Machine
end

