-- ==== Sys2Proof/Machine/Weave.lean ====
section
/-! DEFINITION. The Weave (chapter 04): forks and ports, triggers, runs, issue with its hazards and tags, memory requests
and port writes, completion, abandonment and the lane registers. The Stake operations' meanings stand in Stake.lean. -/

namespace Sys2Proof.Machine

open Dev (islBUS islGUARD islCORE)

/-! ### Commit words (R121, R324) -/

/-- Channel of a lane's commit port to the PWM island of a leg, and its receiver (R16). -/
def pwmChannel (lane leg : Nat) : Nat × Nat :=
  ((if lane = 0 then 0x10 else 0x18) + (if leg < 24 then 0 else 1), if leg < 24 then 6 else 7)

/-- Channel of a lane's commit port to LANE. -/
def laneChannel (lane : Nat) : Nat := if lane = 0 then 0x12 else 0x1A

def CommitWord.isRun (c : CommitWord) (lane ls no : Nat) : Bool := c.lane == lane && c.ls == ls && c.run == no

namespace Dev

/-! ### Lane registers (R141 to R145) -/

def freeTags (l : Lane) : Nat := 256 - l.flight.length

/-- STATUS.TAGS_FREE, MIN_FREE and LS_RUN follow the lane. -/
def laneSync (d : Dev) (n : Nat) : Dev :=
  let l := d.lane n
  let free := freeTags l
  let d := d.set (R.WV_STATUS_TAGS_FREE n) free
  let d := if free < d.get (R.WV_WINDOW_MIN_FREE n) then d.set (R.WV_WINDOW_MIN_FREE n) free else d
  let mask (f : Nat → Bool) : Nat := (List.range 16).foldl (fun m k => if f k then m + 2 ^ k else m) 0
  let d := d.set (R.WV_LS_RUN_RUNNING n) (mask fun k => l.runs.any fun r => r.ls == k)
  d.set (R.WV_LS_RUN_PENDING n) (mask fun k => l.pend.any fun r => r.ls == k)

def laneRuns (d : Dev) (n : Nat) : Bool := d.isSet (R.WV_STATUS_RUN n)

/-- The lane stops: RUN = 0, and what it was doing is gone (R139, R322). -/
def stopLane (d : Dev) (n : Nat) : Dev :=
  let l := d.lane n
  ((d.setLane n { faults := l.faults }).set (R.WV_STATUS_RUN n) 0).laneSync n

/-- The lane starts: ports and snapshots read 0, FIFOs are empty, all tags are free (R139). -/
def startLane (d : Dev) (n : Nat) : Dev :=
  let l := d.lane n
  let d := (d.setLane n { faults := l.faults }).set (R.WV_STATUS_RUN n) 1
  (d.set (R.WV_WINDOW_MIN_FREE n) 256).laneSync n

end Dev

/-! ### Memory requests (R113, R134) -/

/-- Banks of a memory request (R110). -/
def OpAct.banks : OpAct → List Nat
  | .load off k => (List.range k).map fun j => (off + 4 * j) / 4 % 8
  | .store off ws => (List.range ws.length).map fun j => (off + 4 * j) / 4 % 8
  | _ => []

namespace Dev

def loopSet (d : Dev) (ls : Nat) : Option LoopSet := d.pat.loopsets.find? fun l => l.idx == ls

/-- Priority of a Loop Set; 0 where it is not defined. -/
def prioOf (d : Dev) (ls : Nat) : Nat := match d.loopSet ls with | some l => l.prio | none => 0

/-- A waiting request gets its banks: no waiting request of an earlier operation of its stream, and no waiting request to
one of its banks with a higher priority, or of equal priority and a lower Stake (R113, R134). -/
def granted (d : Dev) (n : Nat) (f : InFlight) : Bool :=
  f.waiting && !f.act.banks.isEmpty &&
    (d.lane n).flight.all fun g =>
      g.tag == f.tag || !g.waiting || g.act.banks.isEmpty ||
        (!(g.ls == f.ls && g.stake == f.stake && decide (g.idx < f.idx)) &&
          (!(g.act.banks.any fun b => f.act.banks.contains b) ||
            decide (d.prioOf g.ls < d.prioOf f.ls) ||
            (d.prioOf g.ls == d.prioOf f.ls && (decide (f.stake < g.stake) || g.stake == f.stake))))

def onTag (d : Dev) (n tag : Nat) (f : InFlight → InFlight) : Dev :=
  let l := d.lane n
  d.setLane n { l with flight := l.flight.map fun x => if x.tag == tag then f x else x }

/-- The operation returns its tag. -/
def dropTag (d : Dev) (n tag : Nat) : Dev :=
  let l := d.lane n
  (d.setLane n { l with flight := l.flight.filter fun x => x.tag != tag }).laneSync n

def findTag (d : Dev) (n tag : Nat) : Option InFlight := (d.lane n).flight.find? fun f => f.tag == tag

end Dev

/-- A bank grants a waiting request (R134): the load's words are read, the store's written, as they stand now. `ecc` is
what the check of a word finds, of the second word of a pair where `second` says so. -/
def State.grant (s : State) (n tag : Nat) (ecc : Ecc) (second : Bool) : State :=
  match s.d.findTag n tag with
  | none => s
  | some f =>
    if !s.d.granted n f then s
    else
      let done (outs : List (Nat × Word)) (d : Dev) : Dev := d.onTag n tag fun x => { x with waiting := false, outs := outs }
      match f.act with
      | .load off k =>
        let ws := (List.range k).map fun j => Mem.word s.mem (laneBase n + off + 4 * j)
        match ecc with
        | .double => s.onDev fun d =>
            done (f.writes.map fun w => (w, 0)) ((d.incSat (R.WV_ECC_DED n)).raiseLane n 66 (if second && k == 2 then off + 4 else off))
        | e => s.onDev fun d =>
            let d := if e = .single then d.incSat (R.WV_ECC_CORR n) else d
            done (f.writes.zip ws) d
      | .store off ws =>
        { s with mem := Mem.wrWords s.mem (laneBase n + off) ws, d := done [] s.d }
      | _ => s

/-- Requests that wait for a bank are granted one after another, in the order of R134, before an agent that takes a bank only
in a cycle in which no Stake requests it. -/
def State.drainBanks (n : Nat) : Nat → State → State
  | 0, s => s
  | k + 1, s =>
    match (s.d.lane n).flight.find? fun f => s.d.granted n f with
    | some f => State.drainBanks n k (s.grant n f.tag .none false)
    | none => s

/-- A Stake requests one of these banks of a lane (R134). -/
def Dev.bankBusy (d : Dev) (n : Nat) (banks : List Nat) : Bool :=
  (d.lane n).flight.any fun f => f.waiting && f.act.banks.any banks.contains

namespace Dev

/-! ### Forks and ports (R18, R117 to R119) -/

/-- A word of a source channel reaches one lane's fork buffer (R18, R139). -/
def forkTo (d : Dev) (ch : Nat) (w : HWord) (n : Nat) : Dev :=
  if !d.laneRuns n then d
  else
    let l := d.lane n
    let q := Sparse.at' [] l.forks ch
    if 4 ≤ q.length then d.raiseLane n 68 ch
    else d.setLane n { l with forks := Sparse.put [] l.forks ch (q ++ [w]) }

/-- Takes the oldest word of a fork buffer. -/
def forkPop (d : Dev) (n ch : Nat) : Dev :=
  let l := d.lane n
  d.setLane n { l with forks := Sparse.put [] l.forks ch ((Sparse.at' [] l.forks ch).drop 1) }

def forkFront (d : Dev) (n ch : Nat) : Option HWord := (Sparse.at' [] (d.lane n).forks ch).head?

/-- A sample word reaches every sample port that routes it (R118, R123). -/
def samplePorts (d : Dev) (n kind unit item : Nat) (v : Word) : Dev :=
  let l := d.lane n
  let hit := d.pat.routes.filter fun r => r.kind == kind && r.srcUnit == unit && (kind == 2 || r.srcItem == item)
  d.setLane n { l with ports := hit.foldl (fun ps r => Sparse.put 0 ps (r.dstStake * 8 + r.dstPort) v) l.ports }

/-! ### Runs (R124 to R128) -/

/-- The modes in which a Loop Set takes triggers (R124). -/
def lsTakes (d : Dev) (l : LoopSet) : Bool :=
  if l.run then decide (3 ≤ d.mode) && decide (d.mode ≤ 10) else d.mode == 11

/-- The instruction stream of a Loop Set on a Stake: its Strands' operations in ascending INDEX (R116). -/
def stream (d : Dev) (l : LoopSet) (stake : Nat) : List (BitVec 64) :=
  (d.pat.strands.filter fun t => t.stake == stake && l.first ≤ t.idx && t.idx < l.first + l.count).flatMap (·.ops)

/-- The streams of a new run, each operation with its place. -/
def streams (d : Dev) (l : LoopSet) : List (Nat × List (Nat × BitVec 64)) :=
  (List.range 32).filterMap fun s =>
    match d.stream l s with
    | [] => none
    | ops => some (s, (List.range ops.length).zip ops)

/-- The LOOPSET has a range in the mirror list (R336). -/
def mirrored (d : Dev) (ls : Nat) : Bool := d.pat.mirror.any fun m => m.ls == ls

/-- The slot reads of the Archive that the completion of a run makes due (R374). -/
def archRunDone (d : Dev) (ls time : Nat) : Dev :=
  if d.isSet R.ARCH_CTRL_EN then
    let ks := (List.range 64).filter fun k =>
      d.isSet (R.ARCH_CH_CFG_EN k) && d.get (R.ARCH_CH_CFG_KIND k) == 2 && d.get (R.ARCH_CH_CFG_SEL k) == ls
    { d with slotDue := d.slotDue ++ ks.map fun k => (k, ls, time) }
  else d

/-- Skipped source words are counted; ARCH_RATE is raised once per record (R375). -/
def archSkip (d : Dev) (ch n : Nat) : Dev :=
  let d := d.incSat R.ARCH_CNT2_RATE_SKIP n
  if d.arch.rate then d else { d with arch := { d.arch with rate := true } }.raise islBUS 116 ch

/-- Slot reads not granted before the Loop Set's next trigger are skipped (R375). -/
def archLate (d : Dev) (ls : Nat) : Dev :=
  let late := d.slotDue.filter fun e => e.2.1 == ls
  match late with
  | [] => d
  | e :: _ => { d with slotDue := d.slotDue.filter fun e => e.2.1 != ls }.archSkip e.1 late.length

/-- A mirror capture that is not complete at the Loop Set's next trigger in the active lane is abandoned (R336). -/
def mirrorSkip (d : Dev) (ls : Nat) : Dev :=
  if d.lc.bufs.any fun b => b.ls == ls && !b.ready then
    let d := { d with lc := { d.lc with bufs := d.lc.bufs.filter fun b => b.ls != ls || b.ready } }
    (d.incSat R.LANE_CNT2_MIRROR_SKIP).raise islGUARD 76 ls
  else d

/-- The running Loop Sets of a lane in the order of fetch and of issue: priority, then number (R129, R130). -/
def runOrder (d : Dev) (n : Nat) : List Run := Sparse.sortBy (fun r => (15 - d.prioOf r.ls) * 16 + r.ls) (d.lane n).runs

/-- The issue queue of a Stake, 16 entries for all its Loop Sets, fills in the order of R129. -/
def refill (d : Dev) (n st : Nat) : Dev :=
  let rs := d.runOrder n
  let f := (d.lane n).fetched
  let used := (rs.map fun r => Sparse.at' 0 f (st * 16 + r.ls)).sum
  let step (x : List (Nat × Nat) × Nat) (r : Run) : List (Nat × Nat) × Nat :=
    let have' := Sparse.at' 0 x.1 (st * 16 + r.ls)
    let k := min (16 - x.2) ((Sparse.at' [] r.streams st).length - have')
    (Sparse.put 0 x.1 (st * 16 + r.ls) (have' + k), x.2 + k)
  d.setLane n { d.lane n with fetched := (rs.foldl step (f, used)).1 }

/-- A Loop Set's entries leave the issue queues of a lane, and the queues of all Stakes that run something fill again. -/
def refillAll (d : Dev) (n ls : Nat) : Dev :=
  let l := d.lane n
  let live := l.runs.any fun r => r.ls == ls
  let d := if live then d else d.setLane n { l with fetched := l.fetched.filter fun p => p.1 % 16 != ls }
  let stakes := (List.range 32).filter fun st => l.runs.any fun r => !(Sparse.at' [] r.streams st).isEmpty
  stakes.foldl (fun d st => d.refill n st) d

/-- A run starts on a snapshot: its streams, its flag words at zero, its counters (R118, R125, R158). -/
def beginRun (d : Dev) (n : Nat) (l : LoopSet) (no : Nat) (snap : List (Nat × Word)) : Dev :=
  let t := d.lane n
  let r : Run := { ls := l.idx, no := no, snap := snap, streams := d.streams l, sent := [] }
  let flags := t.flags.filter fun f => f.1 % 16 != l.idx
  let d := (d.setLane n { t with runs := t.runs ++ [r], flags := flags }).refillAll n l.idx
  (d.incWrap (R.WV_LS_CNT_RUNS n l.idx)).laneSync n

end Dev

/-- A run starts in a lane, after the lane has taken coefficient words that wait for it, once no Stake requests their
banks, and a run of Loop Set 15 after the words of the profile window (R96, R125, R134, R284). -/
def State.beginRun (s : State) (n : Nat) (l : LoopSet) (no : Nat) (snap : List (Nat × Word)) : State :=
  let s := if s.coefsDue n l.idx then State.drainBanks n (s.d.lane n).flight.length s else s
  let s := s.takeCoefs n l.idx
  (if l.idx = 15 then s.takeProfile n else s).onDev fun d => d.beginRun n l no snap

/-- A trigger of a Loop Set is taken in a lane (R124, R127, R328, R336). -/
def State.trigger (s : State) (n : Nat) (l : LoopSet) (time : Nat) : State :=
  if !s.d.lsTakes l then s
  else if s.d.laneState n = 4 then s.onDev fun d => d.incSat R.LANE_CNT_HOLD_TRIG
  else
    let s := if s.d.laneState n = 1 then s.onDev fun d => (d.archLate l.idx).mirrorSkip l.idx else s
    let t := s.d.lane n
    let running := t.runs.any fun r => r.ls == l.idx
    let waiting := t.pend.any fun r => r.ls == l.idx
    if running || t.mirroring.contains l.idx then
      s.onDev fun d =>
        let p : PendRun := ⟨l.idx, time, t.ports⟩
        let d := d.setLane n { t with pend := (t.pend.filter fun r => r.ls != l.idx) ++ [p] }
        let d := if !running then d
          else if waiting then d.incSat (R.WV_LS_CNT_LOST n l.idx)
          else (d.incSat (R.WV_LS_CNT_OVERRUN n l.idx)).raiseLane n 63 l.idx
        d.laneSync n
    else s.beginRun n l time t.ports

/-- The pending run of a Loop Set starts, unless a mirror write is to come first; in the active lane its trigger has come
before the capture and the slot reads of the run before it (R127, R336, R375). -/
def State.startPending (s : State) (n ls : Nat) : State :=
  let t := s.d.lane n
  let blocked := t.mirroring.contains ls ||
    (s.d.laneState n != 1 && s.d.lc.bufs.any fun b => b.ls == ls && b.ready && b.standbyDone)
  match t.pend.find? fun r => r.ls == ls, s.d.loopSet ls with
  | some p, some l =>
    if blocked || t.runs.any fun r => r.ls == ls then s
    else
      let s := s.onDev fun d => d.setLane n { t with pend := t.pend.filter fun r => r.ls != ls }
      let s := if s.d.laneState n = 1 then s.onDev fun d => (d.archLate ls).mirrorSkip ls else s
      s.beginRun n l p.no p.snap
  | _, _ => s

namespace Dev

/-- When a mode change withdraws a Loop Set it discards its pending trigger (R124). -/
def withdraw (d : Dev) : Dev :=
  [0, 1].foldl (fun d n =>
    let l := d.lane n
    let keep := l.pend.filter fun p =>
      match d.loopSet p.ls with
      | some x => d.lsTakes x
      | none => false
    (d.setLane n { l with pend := keep }).laneSync n) d

/-- A run is abandoned: what has not issued is discarded, tags are given up without results; words that stand on a hoop
channel stay there (R128 steps 1 to 3). -/
def abandon (d : Dev) (n ls : Nat) : Dev :=
  let l := d.lane n
  ((d.setLane n { l with
    runs := l.runs.filter fun r => r.ls != ls
    flight := l.flight.filter fun f => f.ls != ls }).refillAll n ls).laneSync n

/-- The Loop Set has a route of KIND 0x10, 0x11 or 0x12: a Stake of its Strands feeds one (R337). -/
def committing (d : Dev) (l : LoopSet) : Bool :=
  d.pat.routes.any fun r => 0x10 ≤ r.kind && (d.stream l r.srcUnit).any fun w =>
    (opWord w).opc == 2 && (opWord w).dst == r.srcItem

/-- A run of a Loop Set is complete in both lanes while one is SYNCING: it agreed unless a word of it disagreed or is
missing; CONV_N such runs in a row of every committing Loop Set make the lane SYNCED (R337). -/
def convOne (d : Dev) (k : Nat × Nat) : Dev :=
  let words := (d.lc.table.any fun c => c.ls == k.1 && c.run == k.2) ||
    d.hoop.any fun e => (e.ch == 0x12 || e.ch == 0x1A) &&
      (match e.w with | .commit c => c.ls == k.1 && c.run == k.2 | _ => false)
  if words then d
  else
    let n := if d.laneState 0 = 3 then 0 else 1
    let l := d.lane n
    let agreed := !d.lc.missed.contains k
    let count := if agreed then Sparse.at' 0 l.conv k.1 + 1 else 0
    let d := { d with lc := { d.lc with both := d.lc.both.filter (· != k), missed := d.lc.missed.filter (· != k) } }
    d.setLane n { l with conv := Sparse.put 0 l.conv k.1 count }

def converged (d : Dev) (n : Nat) : Bool :=
  d.pat.loopsets.all fun l => !d.committing l || decide (d.get R.LANE_CFG_CONV_N ≤ Sparse.at' 0 (d.lane n).conv l.idx)

/-- State codes of a lane; a change requests flag 3 and settles the coefficient port (R322, R424, R96). -/
def setLaneState (d : Dev) (n code : Nat) : Dev :=
  if d.laneState n = code then d
  else
    let d := d.set (if n = 0 then R.LANE_STATUS_STATE_A else R.LANE_STATUS_STATE_B) code
    (d.request islGUARD 3).coefSettle

/-- STATUS.SIMPLEX and ACTIVE follow the lane states (R322); the peers' Colophons stand against the new active lane's
(R486). -/
def laneStatus (d : Dev) : Dev :=
  let a := d.laneState 0
  let b := d.laneState 1
  let was := d.get R.LANE_STATUS_ACTIVE
  let d := if a = 1 then d.set R.LANE_STATUS_ACTIVE 0 else if b = 1 then d.set R.LANE_STATUS_ACTIVE 1 else d
  let d := if d.get R.LANE_STATUS_ACTIVE = was then d else d.coloPeers
  d.setB R.LANE_STATUS_SIMPLEX (a == 0 || a == 3 || b == 0 || b == 3)

/-- LANE_CONVERGED (R337). -/
def converge (d : Dev) : Dev :=
  let n := if d.laneState 0 = 3 then 0 else 1
  if d.laneState n ≠ 3 then d
  else
    let d := d.lc.both.foldl convOne d
    if d.converged n then
      (({ d with lc := { d.lc with restart := none, half := [], both := [], missed := [] } }).setLaneState n 2).laneStatus
    else d

/-- A run of a Loop Set is complete in lane `n`, for the count of R337. -/
def convRun (d : Dev) (n ls no : Nat) : Dev :=
  if d.laneState 0 ≠ 3 ∧ d.laneState 1 ≠ 3 then d
  else
    let o := 1 - n
    let c := d.lc
    if c.half.contains (ls, no, o) then
      ({ d with lc := { c with half := c.half.filter (· != (ls, no, o)), both := c.both ++ [(ls, no)] } }).converge
    else { d with lc := { c with half := c.half ++ [(ls, no, n)] } }

/-- A run is over: its registers, the Archive's slot reads, the mirror copy, and the count of R337 (R126, R145, R336,
R374). -/
def endRun (d : Dev) (n : Nat) (r : Run) (cycles : Nat) : Dev :=
  let l := d.lane n
  let c := min cycles 0xFFFF
  let d := (d.setLane n { l with
    runs := l.runs.filter fun x => x.ls != r.ls
    done := Sparse.put none l.done r.ls (some r.no) }).refillAll n r.ls
  let d := d.set (R.WV_LS_TIME_LAST n r.ls) c
  let d := if d.get (R.WV_LS_TIME_MAX n r.ls) < c then d.set (R.WV_LS_TIME_MAX n r.ls) c else d
  let active := d.laneState n == 1
  let o := 1 - n
  let d := if active then d.archRunDone r.ls r.no else d
  let standby := d.laneState o == 2 || d.laneState o == 3
  let bufs : List MirrorBuf :=
    if active && d.mirrored r.ls && standby then
      let done := Sparse.at' none (d.lane o).done r.ls == some r.no
      (d.lc.bufs.filter fun b => b.ls != r.ls || b.writing) ++ [⟨r.ls, r.no, false, [], false, done⟩]
    else d.lc.bufs.map fun b => if !active && b.ls == r.ls && b.no == r.no then { b with standbyDone := true } else b
  let d := { d with lc := { d.lc with bufs := bufs } }
  (d.convRun n r.ls r.no).laneSync n

end Dev

/-! ### Issue (R129 to R139, R159) -/

/-- A row's effect on the slots of lane memory. -/
def slotWord (m : Mem) (lane stake slot : Nat) : Word := Mem.word m (slotAddr lane stake slot)

/-- Writes slots of a Stake. -/
def writeSlots (m : Mem) (lane stake : Nat) (outs : List (Nat × Word)) : Mem :=
  outs.foldl (fun m o => Mem.wrWord m (slotAddr lane stake o.1) o.2) m

/-- What an issue has read: the operation word, its table row, its operands and whether its predicate enables it. -/
structure Issued where
  run : Run
  set : LoopSet
  idx : Nat
  word : OpWord
  info : OpInfo
  x : OpIn
  enabled : Bool
deriving DecidableEq, Repr

/-- The operation that would have its producer's result chained: operation `idx`'s predecessor writes `slot` as DST, is in
flight, and is a port read or of the add or MAC unit (R135). -/
def chained (l : Lane) (ls stake idx slot : Nat) : Option Word :=
  match l.flight.find? fun f => f.ls == ls && f.stake == stake && f.idx + 1 == idx with
  | some f =>
    if f.chains && f.writes.head? == some slot then
      (f.outs.find? fun o => o.1 == slot).map (·.2)
    else none
  | none => none

/-- The first cycle in which an operation may take the result of its predecessor `f` for its slot `s` along the chain: the
cycle of a port read, one cycle after an add-unit operation and for the addend of a MAC-unit operation after another, three
otherwise (R135). -/
def chainFrom (f : InFlight) (w : OpWord) (i : OpInfo) (s : Nat) : Nat :=
  let addend := i.unit == .mac && i.srcs.all fun x => x == .c || w.slotOf x != some s
  match f.unit with
  | .port => f.cycle
  | .mac => if addend then f.cycle + 1 else f.cycle + 3
  | _ => f.cycle + 1

/-- A chained operand is to be had: the operation carries CHAIN and the slot is no predicate's (R135, R159). -/
def chainHit (l : Lane) (ls stake idx : Nat) (w : OpWord) (slot : Nat) : Bool :=
  w.chain && (chained l ls stake idx slot).isSome

/-- No hazard links an operation to an earlier one of its stream that has not issued (R131): `before` lists those. A GETF
that has not issued holds back every later operation, and port operations of one port keep their order (log entry 42). -/
def noHazard (before : List (Nat × BitVec 64)) (w : OpWord) (i : OpInfo) : Bool :=
  before.all fun b =>
    let v := opWord b.2
    match opInfo v.opc with
    | none => true
    | some j =>
      !((w.reads i).any fun s => (v.writes j).contains s) &&
      !((w.writes i).any fun s => (v.reads j).contains s || (v.writes j).contains s) &&
      !(i.unit == .memory && j.unit == .memory) && w.opc != 0x13 && v.opc != 0x13 &&
      !(w.opc == 1 && v.opc == 1 && w.imm == v.imm) && !(w.opc == 2 && v.opc == 2 && w.dst == v.dst)

/-- No operation in flight stands in the way: no pending write to an operand slot, but for a chained one, none of the same
stream to a destination slot, its unit is free, and for GETF none of its Loop Set on its Stake (R131 to R133, R158). -/
def flightFree (l : Lane) (ls stake idx cycle : Nat) (w : OpWord) (i : OpInfo) : Bool :=
  l.flight.all fun f =>
    f.stake != stake ||
      (((w.reads i).all fun s => !f.writes.contains s ||
          (chainHit l ls stake idx w s && f.ls == ls && f.idx + 1 == idx && !(w.pen && w.predSlot == s) &&
            decide (chainFrom f w i s ≤ cycle))) &&
        (f.ls != ls || !((w.writes i).any fun s => f.writes.contains s)) &&
        !(i.unit == .divide && f.unit == .divide) &&
        !(w.opc == 0x13 && f.ls == ls))

/-- The Stake may issue in this lane cycle: it has issued nothing in it, or the port read before this operation, whose
result this operation takes along the chain (R108, R135); the CORDIC unit takes an operation every two cycles (R133). -/
def stakeFree (l : Lane) (ls stake idx cycle : Nat) (w : OpWord) (i : OpInfo) : Bool :=
  match Sparse.at' none l.issued stake with
  | none => true
  | some p =>
    (p.cycle != cycle || (p.port && p.ls == ls && p.idx + 1 == idx && w.chain &&
      (i.srcs.filterMap w.slotOf).any fun s => (chained l ls stake idx s).isSome)) &&
      (i.unit != .cordic || decide (p.cordic ≤ cycle))

/-- The operation at a place of a stream, where it may issue in a lane cycle but for a tag: it stands in the issue queue or
is one of the four fetched in advance, and it is ready and free of hazards (R125, R129 to R133, R135). Its operands come
from its slots or along a chain. -/
def State.eligible (s : State) (n st ls place cycle : Nat) : Option Issued :=
  let l := s.d.lane n
  match l.runs.find? fun r => r.ls == ls, s.d.loopSet ls with
  | some r, some set =>
    let q := Sparse.at' [] r.streams st
    match q[place]? with
    | none => none
    | some op =>
      let w := opWord op.2
      match opInfo w.opc with
      | none => none
      | some info =>
        let read (slot : Nat) : Word :=
          match (if w.chain then chained l r.ls st op.1 slot else none) with
          | some v => v
          | none => slotWord s.mem n st slot
        let fifo := Sparse.at' [] l.fifos (st * 8 + w.imm)
        let routed := s.d.pat.routes.any fun t => t.kind == 3 && t.dstStake == st && t.dstPort == w.imm
        let inQueue := decide (place < Sparse.at' 0 l.fetched (st * 16 + ls)) || decide (op.1 < 4)
        if s.d.laneRuns n ∧ inQueue ∧ l.cycle ≤ cycle ∧ stakeFree l r.ls st op.1 cycle w info ∧
            noHazard (q.take place) w info ∧ flightFree l r.ls st op.1 cycle w info ∧
            !(w.opc == 1 && routed && fifo.isEmpty) then
          some {
            run := r, set := set, idx := op.1, word := w, info := info
            x := { a := read w.srca, b := read w.srcb, b' := read (w.srcb + 1), c := read w.srcc, c' := read (w.srcc + 1)
                   d := read w.dst, d' := read (w.dst + 1), trig := Sys2Proof.word r.no, period := set.period }
            enabled := !w.pen || ((slotWord s.mem n st w.predSlot != 0) != w.pinv) }
        else none
  | _, _ => none

namespace Dev

/-- Changes the run of a Loop Set in a lane. -/
def onRun (d : Dev) (n ls : Nat) (f : Run → Run) : Dev :=
  let l := d.lane n
  d.setLane n { l with runs := l.runs.map fun r => if r.ls == ls then f r else r }

/-- The operation leaves its stream, and the issue queue where it stood there; the queue fills again (R129). -/
def dropOp (d : Dev) (n ls stake idx : Nat) : Dev :=
  let l := d.lane n
  let key := stake * 16 + ls
  let place := match l.runs.find? fun r => r.ls == ls with
    | some r => (Sparse.at' [] r.streams stake).findIdx fun o => o.1 == idx
    | none => 0
  let k := Sparse.at' 0 l.fetched key
  let d := if place < k then d.setLane n { l with fetched := Sparse.put 0 l.fetched key (k - 1) } else d
  (d.onRun n ls fun r =>
    { r with streams := Sparse.put [] r.streams stake ((Sparse.at' [] r.streams stake).filter fun o => o.1 != idx)
    }).refill n stake

/-- Highest priority among the running Loop Sets of a lane. -/
def topPrio (d : Dev) (n : Nat) : Nat := (d.lane n).runs.foldl (fun m r => max m (d.prioOf r.ls)) 0

/-- The reserve rule: fewer than 32 free tags serve only the Loop Sets of the highest priority running (R137). -/
def reserve (d : Dev) (n free prio : Nat) : Bool := decide (32 ≤ free) || decide (d.topPrio n ≤ prio)

/-- The lowest free tag. -/
def newTag (d : Dev) (n : Nat) : Nat :=
  ((List.range 256).find? fun t => !((d.lane n).flight.any fun f => f.tag == t)).getD 0

end Dev

/-! #### Which operation a Stake issues (R130, R137) -/

/-- What becomes of an operation in a lane cycle: it is not examined; it and the Loop Sets named are refused a tag; or it
issues, with the Loop Sets whose operations were passed over for lack of a tag. -/
inductive Turn where
  | no
  | refused (lss : List Nat)
  | take (q : Issued) (lss : List Nat)
deriving DecidableEq, Repr

/-- The places of a Stake's issue queue in the order of R130: priority, Loop Set, program order. -/
def Dev.places (d : Dev) (n st : Nat) : List (Nat × Nat) :=
  (d.runOrder n).flatMap fun r => (List.range (min 16 (Sparse.at' [] r.streams st).length)).map fun p => (r.ls, p)

/-- The eligible operations of a Stake that stand before `mine` in the order of R130, in that order; all of them where
`mine` is none. -/
def State.ahead (s : State) (n st cycle : Nat) (mine : Option (Nat × Nat)) : List Issued :=
  ((s.d.places n st).takeWhile fun c => some c != mine).filterMap fun c => s.eligible n st c.1 c.2 cycle

/-- The reserve rule admits an eligible operation; a NOP takes no tag (R137, R161). -/
def State.admitted (s : State) (n : Nat) (q : Issued) : Bool :=
  q.word.opc == 0 || s.d.reserve n (Dev.freeTags (s.d.lane n)) q.set.prio

/-- The order in which the lane grants the offers of a cycle: priority, Loop Set, logical Stake (R137). -/
def offerRank (q : Issued) (st : Nat) : Nat := (15 - q.set.prio) * 512 + q.run.ls * 32 + st

/-- Tags that are free when an offer's turn comes: the better offers of the other Stakes in this cycle are granted first.
With 64 free, no offer of one cycle can find fewer than 32 (R137). -/
def State.freeFor (s : State) (n st cycle : Nat) (q : Issued) : Nat :=
  let free := Dev.freeTags (s.d.lane n)
  if 64 ≤ free then free
  else
    let offers := (List.range 32).filterMap fun t =>
      if t = st then none
      else ((s.ahead n t cycle none).find? fun o => s.admitted n o).map fun o => (offerRank o t, o)
    let better := Sparse.sortBy (·.1) (offers.filter fun o => decide (o.1 < offerRank q st) && o.2.word.opc != 0)
    better.foldl (fun f o => if 0 < f ∧ s.d.reserve n f o.2.set.prio then f - 1 else f) free

/-- The turn of an operation: its Stake examines its eligible operations in the order of R130 and offers the first that the
reserve rule admits; the offer issues where a tag is left for it. A NOP takes no tag, and does not issue where none is
free (R130, R137). -/
def State.turn (s : State) (opc : Nat) (i : Issue) : Turn :=
  let n := i.lane.val
  let st := i.stake.val
  match s.eligible n st i.ls.val i.place.val i.cycle with
  | none => .no
  | some q =>
    let first := s.ahead n st i.cycle (some (i.ls.val, i.place.val))
    let lss := first.map fun o => o.run.ls
    if q.word.opc ≠ opc ∨ first.any (s.admitted n) then .no
    else if opc = 0 then (if Dev.freeTags (s.d.lane n) = 0 then .no else .take q lss)
    else
      let free := s.freeFor n st i.cycle q
      if 0 < free ∧ s.admitted n q ∧ s.d.reserve n free q.set.prio then .take q lss else .refused (lss ++ [q.run.ls])

namespace Dev

/-- Operations of these Loop Sets are refused a tag in a lane cycle: STALL counts the cycle once, and each run's count of
such cycles in a row goes up, or starts again after a cycle without a refusal (R137, R138, R143). -/
def refuse (d : Dev) (n cycle : Nat) (lss : List Nat) : Dev :=
  if lss.isEmpty then d
  else
    let d := if (d.lane n).stalled = some cycle then d
      else (d.incSat (R.WV_STALL_CYCLES n)).setLane n { d.lane n with stalled := some cycle, cycle := cycle }
    lss.foldl (fun d ls => d.onRun n ls fun r =>
      if r.grantedAt = some cycle ∨ r.refusedAt = some cycle then r
      else if r.refusedAt.map (· + 1) = some cycle then { r with refused := r.refused + 1, refusedAt := some cycle }
      else { r with refused := 1, refusedAt := some cycle, full := false }) d

/-- CHAIN.MISS counts an operation with CHAIN = 1 whose predecessor does not write one of its operands as DST (R135). An
operation chained to a unit that does not chain meets the conditions and is not counted (DEDUCED, log entry 64). -/
def chainMiss (d : Dev) (n stake : Nat) (q : Issued) : Dev :=
  let hit := match q.idx with
    | 0 => false
    | p + 1 =>
      match (d.stream q.set stake)[p]? with
      | none => false
      | some v =>
        let v := opWord v
        match opInfo v.opc with
        | some j => j.dsts != 0 && (q.info.srcs.filterMap q.word.slotOf).contains v.dst
        | none => false
  if q.word.chain && !hit then d.incSat (R.WV_CHAIN_MISS n) else d

/-- The Stake's issue of this cycle is spent, and the lane's cycle goes on (R108, R133). -/
def spend (d : Dev) (n stake cycle : Nat) (q : Issued) : Dev :=
  let l := d.lane n
  let before := match Sparse.at' none l.issued stake with | some p => p.cordic | none => 0
  let p : LastIssue := {
    cycle := cycle, ls := q.run.ls, idx := q.idx, port := q.word.opc == 1
    cordic := if q.info.unit = .cordic then cycle + 2 else before }
  d.setLane n { l with issued := Sparse.put none l.issued stake (some p), cycle := cycle }

/-- The operation takes its tag and leaves its stream; the run's count of refusals returns to zero (R136, R138). -/
def takeTag (d : Dev) (n stake : Nat) (q : Issued) (f : InFlight) : Dev :=
  let l := d.lane n
  let d := d.setLane n { l with flight := l.flight ++ [f] }
  let d := d.onRun n q.run.ls fun r =>
    { r with refused := 0, refusedAt := none, grantedAt := some f.cycle, full := false }
  (d.dropOp n q.run.ls stake q.idx).laneSync n

/-- A Strand-store word with a double-bit error: its operation does not issue (R115, R140). -/
def storeUpset (d : Dev) (n ls stake idx : Nat) : Dev :=
  let d := (d.incSat (R.WV_ECC_DED n)).setBit (fun _ => R.WV_STKCHK_STAKE n) stake true
  (d.raiseLane n 67 stake).dropOp n ls stake idx

/-- The slot that read `which` of the operation is of, where it makes that read (R115, R159). -/
def upsetSlot (q : Issued) (which : Nat) : Option Nat :=
  if which = 7 then (if q.word.pen then some q.word.predSlot else none)
  else
    let src := [Src.a, .b, .b', .c, .c', .d, .d'].getD which .a
    if q.info.srcs.contains src then q.word.slotOf src else none

/-- A double-bit error in a slot word (R115, R140). -/
def slotUpset (d : Dev) (n stake slot : Nat) : Dev :=
  (d.incSat (R.WV_ECC_DED n)).raiseLane n 66 (stake * 0x1000 + 4 * slot)

end Dev

/-- What the unit of an operation does with its operands: the results and flags, and what it waits for; the device's
change at issue (a fault raised, a word sent, a FIFO read). -/
structure Effect where
  outs : List (Nat × Word) := []
  flags : Flags := {}
  act : OpAct := .none
  waiting : Bool := false

/-- The operation enters its unit with its tag (R115, R136, R160). `eff` gives its effect where its predicate enables it. A
double-bit error in a word that it reads makes it write zeros: a port write or a store then sends or stores nothing; the
error counts and raises its source whether or not the predicate enables the operation, and in the predicate's own word
counts the operation as enabled (DESIGN CHOICE, log entry 155). -/
def Dev.enter (d : Dev) (n st opc cycle : Nat) (upset : Upset) (q : Issued) (eff : Issued → Dev → Dev × Effect) : Dev :=
  let bad := match upset with | .slotDouble w => Dev.upsetSlot q w.val | _ => none
  let r := if q.enabled ∧ bad = none then eff q d else (d, {})
  let d := match bad with | some slot => r.1.slotUpset n st slot | none => r.1
  let writes := q.word.writes q.info
  let zeros := q.enabled || upset == .slotDouble 7
  let outs := if bad = none then r.2.outs else if zeros then writes.map fun w => (w, 0) else []
  d.takeTag n st q {
    tag := d.newTag n, ls := q.run.ls, stake := st, idx := q.idx, unit := q.info.unit, writes := writes
    chains := q.info.unit == .add || q.info.unit == .mac || opc == 1
    outs := outs, flags := r.2.flags, act := r.2.act, waiting := r.2.waiting, cycle := cycle }

/-- Issue of an operation (R129 to R139, R115, R160): its turn comes and it takes a tag, or it is refused one; a NOP takes
none (R161). The state is unchanged where the Stake does not examine the operation. -/
def State.issue (s : State) (opc : Nat) (i : Issue) (eff : Issued → Dev → Dev × Effect) : State :=
  match s.turn opc i with
  | .no => s
  | .refused lss => s.onDev fun d => d.refuse i.lane.val i.cycle lss
  | .take q lss => s.onDev fun d =>
    let n := i.lane.val
    let st := i.stake.val
    let d := d.refuse n i.cycle lss
    if i.upset = .storeDouble then d.storeUpset n q.run.ls st q.idx
    else
      let d := if i.upset = .storeSingle ∨ i.upset = .slotSingle then d.incSat (R.WV_ECC_CORR n) else d
      let d := (d.chainMiss n st q).spend n st i.cycle q
      if opc = 0 then d.dropOp n q.run.ls st q.idx else d.enter n st opc i.cycle i.upset q eff

/-! ### Memory requests and port writes (R113, R121, R122, R134) -/

/-- The byte offset of a load or store, and whether a word there can be addressed (R113). -/
def memOffset (q : Issued) : Nat := (q.x.a.toNat + 4 * q.word.imm) % 2 ^ 32
def offsetOk (off : Nat) : Bool := off % 4 == 0 && decide (0x20000 ≤ off) && decide (off ≤ 0xFFFFF)

/-- A load of `k` words: a request, or zeros and WEAVE_ADDR (R113, R162). -/
def loadEffect (n stake k : Nat) (q : Issued) (d : Dev) : Dev × Effect :=
  let off := memOffset q
  let outs := (List.range k).map fun j => (q.word.dst + j, (0 : Word))
  if (List.range k).all fun j => offsetOk (off + 4 * j) then
    (d, { outs := outs, act := .load off k, waiting := true })
  else (d.raiseLane n 65 stake, { outs := outs })

/-- A store of words: a request, or nothing and WEAVE_ADDR (R113, R162). -/
def storeEffect (n stake : Nat) (ws : List Word) (q : Issued) (d : Dev) : Dev × Effect :=
  let off := memOffset q
  if (List.range ws.length).all fun j => offsetOk (off + 4 * j) then
    (d, { act := .store off ws, waiting := true })
  else (d.raiseLane n 65 stake, {})

/-- A port write: the word goes to the channel FIFO of another Stake, or to LANE and, from the lane that LANE marks
active, to the PWM island of the leg, or is discarded (R29, R121, R122, R324). -/
def portWrite (n stake : Nat) (q : Issued) (d : Dev) : Dev × Effect :=
  match d.pat.routes.find? fun r => (r.kind == 3 || 0x10 ≤ r.kind) && r.srcUnit == stake && r.srcItem == q.word.dst with
  | none => (d, {})
  | some r =>
    if r.kind = 3 then (d, { act := .chan r.dstStake r.dstPort q.x.a, waiting := true })
    else
      let field := if r.kind = 0x12 then 0 else q.word.imm % 16
      let key := (r.kind, r.dstUnit, field)
      let occ := (q.run.sent.filter (· == key)).length
      let c : CommitWord := ⟨n, q.run.ls, q.run.no, r.kind, r.dstUnit, field, occ,
        r.kind != 0x12 && q.word.imm.testBit 4, q.x.a⟩
      let d := d.onRun n q.run.ls fun t => { t with sent := t.sent ++ [key] }
      let d := if r.kind = 0x10 ∧ d.laneState n = 1 then
          let p := pwmChannel n r.dstUnit
          d.send p.1 p.2 (.commit c) else d
      (d.send (laneChannel n) islGUARD (.commit c), { act := .commit c, waiting := true })

namespace Dev

/-- A completing operation ORs its flags into the flag word of its Loop Set on its Stake (R158). -/
def orFlags (d : Dev) (n stake ls : Nat) (f : Flags) : Dev :=
  let l := d.lane n
  let key := stake * 16 + ls
  d.setLane n { l with flags := Sparse.put {} l.flags key ((Sparse.at' {} l.flags key).or f) }

/-- A failed residue check (R140). -/
def residue (d : Dev) (n stake : Nat) : Dev :=
  (d.setBit (fun _ => R.WV_STKCHK_STAKE n) stake true).raiseLane n 67 stake

/-- Every receiver of a commit word has taken it (R122). -/
def commitTaken (d : Dev) (c : CommitWord) : Bool :=
  d.hoop.all fun e => e.acked || e.w != .commit c

end Dev

/-- Completion of an operation that waits for nothing: its slots are written, its flags are ORed, its tag returns
(R133, R136, R158). -/
def State.complete (s : State) (n tag : Nat) (residueFails : Bool) : State :=
  match s.d.findTag n tag with
  | none => s
  | some f =>
    if f.waiting then s
    else
      let checked := f.unit == .add || f.unit == .mac || f.unit == .divide
      { s with
        mem := writeSlots s.mem n f.stake f.outs
        d :=
          let d := (s.d.orFlags n f.stake f.ls f.flags).dropTag n tag
          if residueFails && checked && !f.outs.isEmpty then d.residue n f.stake else d }

/-! ### Commands -/

/-- FORK_WORD: the oldest word of a source channel reaches the lane forks, which acknowledge it for both lanes (R18). -/
def execForkWord (ch : Fin 8) (s : State) : Host.Outcome State Fault Refusal :=
  .next <| s.onDev fun d =>
    match d.take ch.val 4 with
    | some (w, d) =>
      let d := match d.take ch.val 5 with | some x => x.2 | none => d
      (d.forkTo ch.val w 0).forkTo ch.val w 1
    | none => d

/-- SAMPLE_PORT_WORD: a sample word at the front of a lane's fork buffer reaches its ports (R118). -/
def execSamplePortWord (lane : Fin 2) (ch : Fin 8) (s : State) : Host.Outcome State Fault Refusal :=
  .next <| s.onDev fun d =>
    match d.forkFront lane.val ch.val with
    | some (.sample k u x v _) => (d.forkPop lane.val ch.val).samplePorts lane.val k u x v
    | _ => d

/-- LOOPSET_TRIGGER: an event at the front of a lane's fork buffer is taken by every Loop Set that names it, in ascending
number (R124, R127). -/
def execLoopsetTrigger (lane : Fin 2) (ch : Fin 8) (s : State) : Host.Outcome State Fault Refusal :=
  .next <|
    match s.d.forkFront lane.val ch.val with
    | some (.event k u t) =>
      let hit := s.d.pat.loopsets.filter fun l => l.kind == k && l.unit == u
      hit.foldl (fun s l => s.trigger lane.val l t) (s.onDev fun d => d.forkPop lane.val ch.val)
    | _ => s

/-- LOOPSET_RUN_COMPLETE: every operation of the run has issued and completed; `cycles` is the count that LAST reports
(R126, R145). -/
def execLoopsetRunComplete (lane : Fin 2) (ls : Fin 16) (cycles : Nat) (s : State) : Host.Outcome State Fault Refusal :=
  .next <|
    let l := s.d.lane lane.val
    match l.runs.find? fun r => r.ls == ls.val with
    | some r =>
      if (r.streams.all fun t => t.2.isEmpty) ∧ !(l.flight.any fun f => f.ls == ls.val) then
        (s.onDev fun d => d.endRun lane.val r cycles).startPending lane.val ls.val
      else s
    | none => s

/-- LOOPSET_HUNG: a run not complete after four periods is abandoned (R128). -/
def execLoopsetHung (lane : Fin 2) (ls : Fin 16) (s : State) : Host.Outcome State Fault Refusal :=
  .next <|
    match (s.d.lane lane.val).runs.find? fun r => r.ls == ls.val, s.d.loopSet ls.val with
    | some _, some l =>
      if l.period = 0 then s
      else (s.onDev fun d => (d.abandon lane.val ls.val).raiseLane lane.val 64 ls.val).startPending lane.val ls.val
    | _, _ => s

/-- WINDOW_FULL: refusals in lane cycles in a row for longer than the period raise once (R138). -/
def execWindowFull (lane : Fin 2) (ls : Fin 16) (s : State) : Host.Outcome State Fault Refusal :=
  .next <| s.onDev fun d =>
    let n := lane.val
    match (d.lane n).runs.find? fun r => r.ls == ls.val, d.loopSet ls.val with
    | some r, some l =>
      if l.period ≠ 0 ∧ (2 * l.period + 4) / 5 < r.refused ∧ !r.full ∧ r.refusedAt = some (d.lane n).cycle then
        let d := d.onRun n ls.val fun r => { r with full := true }
        ((d.set (R.WV_WINDOW_LAST_LS n) ls.val).incSat (R.WV_WINDOW_FULL_COUNT n)).raiseLane n 62 ls.val
      else d
    | _, _ => d

/-- OPERATION_COMPLETE (R133); `residueFails` is the outcome of the modulo-3 check (R140). -/
def execOperationComplete (lane : Fin 2) (tag : Fin 256) (residueFails : Bool) (s : State) :
    Host.Outcome State Fault Refusal :=
  .next (s.complete lane.val tag.val residueFails)

/-- A port write that waits for the FIFO of an input port. -/
def OpAct.toPort : OpAct → Nat → Nat → Bool
  | .chan s p _, stake, port => s == stake && p == port
  | _, _, _ => false

/-- PORT_WRITE_COMPLETE: the receiver takes the word: the FIFO has room, in the order in which the writes to it issued, or
the commit channels are acknowledged (R122, R131). -/
def execPortWriteComplete (lane : Fin 2) (tag : Fin 256) (s : State) : Host.Outcome State Fault Refusal :=
  .next <| s.onDev fun d =>
    let n := lane.val
    match d.findTag n tag.val with
    | some f =>
      match f.act with
      | .chan stake port v =>
        let l := d.lane n
        let q := Sparse.at' [] l.fifos (stake * 8 + port)
        let next := (l.flight.find? fun g => g.act.toPort stake port).map (·.tag)
        if q.length < 4 ∧ next = some tag.val then
          (d.setLane n { l with fifos := Sparse.put [] l.fifos (stake * 8 + port) (q ++ [v]) }).dropTag n tag.val
        else d
      | .commit c => if d.commitTaken c then d.dropTag n tag.val else d
      | _ => d
    | none => d

/-- MEMORY_GRANT (R134). -/
def execMemoryGrant (lane : Fin 2) (tag : Fin 256) (ecc : GrantEcc) (s : State) : Host.Outcome State Fault Refusal :=
  .next (s.grant lane.val tag.val ecc.ecc ecc.second)

end Sys2Proof.Machine
end

