-- ==== Sys2Proof/Machine/Arch.lean ====
section
/-! DEFINITION. The Archive disturbance recorder (chapter 12): its layout and enable, channels and blocks, records,
triggers, the mask test, arming, and the lines shared across units. -/

namespace Sys2Proof.Machine

open Dev (islBUS)

/-- Base of capture memory (R372). -/
def archBase : Nat := 0x30000000

namespace Dev

def archCh (d : Dev) (k : Nat) : ArchCh := Sparse.at' {} d.arch.chans k
def setArchCh (d : Dev) (k : Nat) (c : ArchCh) : Dev :=
  { d with arch := { d.arch with chans := Sparse.put {} d.arch.chans k c } }

def archTu (d : Dev) (u : Nat) : ArchTu := Sparse.at' {} d.arch.tus u
def setArchTu (d : Dev) (u : Nat) (t : ArchTu) : Dev :=
  { d with arch := { d.arch with tus := Sparse.put {} d.arch.tus u t } }

def archState (d : Dev) : Nat := d.get R.ARCH_STATUS_STATE

/-- Enabled channels, ascending. -/
def archChans (d : Dev) : List Nat := (List.range 64).filter fun k => d.isSet (R.ARCH_CH_CFG_EN k)

/-! ### Layout and enable (R372, R373) -/

def archMaskBlocks (d : Dev) : Nat := (d.get R.ARCH_MASK_LEN + 15) / 16
def archBanks (d : Dev) : Nat := 2 ^ d.get R.ARCH_CTRL_NBANK

/-- B: blocks of a bank. -/
def archB (d : Dev) : Nat := (24576 - d.archMaskBlocks) / d.archBanks

/-- Address of a block of a bank. -/
def archBlockAddr (d : Dev) (bank blk : Nat) : Nat := archBase + 64 * (bank * d.archB + blk)

/-- Address of an entry of the envelope region at the top of memory. -/
def archEnvAddr (d : Dev) (i : Nat) : Nat := archBase + 64 * (24576 - d.archMaskBlocks) + 4 * i

def ringBase (d : Dev) (k : Nat) : Nat := d.get (R.ARCH_CH_RING_BASE k)
def ringLen (d : Dev) (k : Nat) : Nat := d.get (R.ARCH_CH_RING_LEN k)

/-- The ring of a channel lies within blocks 17 to B - 1 and has at least two blocks. -/
def ringInside (d : Dev) (k : Nat) : Bool :=
  decide (17 ≤ d.ringBase k) && decide (2 ≤ d.ringLen k) && decide (d.ringBase k + d.ringLen k ≤ d.archB)

def ringsOverlap (d : Dev) (j k : Nat) : Bool :=
  decide (d.ringBase j < d.ringBase k + d.ringLen k) && decide (d.ringBase k < d.ringBase j + d.ringLen j)

end Dev

/-- Inputs that a converter reaches (R169). -/
def adcReaches (c ain : Nat) : Bool :=
  if c < 2 then decide (ain ≤ 18) || ain == 38
  else (decide (19 ≤ ain) && decide (ain ≤ 37)) || ain == 39

namespace Dev

/-- A channel names a legal source (R374). -/
def archLegal (d : Dev) (k : Nat) : Bool :=
  let sel := d.get (R.ARCH_CH_CFG_SEL k)
  match d.get (R.ARCH_CH_CFG_KIND k) with
  | 0 =>
    let c := d.get (R.ARCH_CH_CFG_CONV k)
    adcReaches c sel && !((d.adcMap c).chans.any fun r => r.ain == sel && r.cls == 1)
  | 1 => decide (sel < 24)
  | 2 => decide (sel < 16)
  | _ => false

/-- The first violation of R373: CFGERR code and channel. -/
def archCfgErr (d : Dev) : Option (Nat × Nat) :=
  let ks := d.archChans
  match ks.find? fun k => !d.ringInside k with
  | some k => some (1, k)
  | none =>
    match ks.find? fun k => ks.any fun j => decide (j < k) && d.ringsOverlap j k with
    | some k => some (2, k)
    | none =>
      match ks.find? fun k => !d.archLegal k with
      | some k => some (3, k)
      | none => (ks.find? fun k => d.get (R.ARCH_CH_CFG_DECIM k) == 0).map fun k => (4, k)

/-- Capture starts anew; the lines that are driven, the arms that are due and the trigger that DEAD_LAST counts from
(R385) stay. -/
def archFresh (d : Dev) : Dev :=
  { d with slotDue := [], arch :=
      { trigio := d.arch.trigio, armio := d.arch.armio, due := d.arch.due, dead := d.arch.dead } }

/-- A write of CTRL.EN = 1 (R373). -/
def archEnable (d : Dev) : Dev :=
  if d.isSet R.ARCH_CTRL_EN then d
  else
    match d.archCfgErr with
    | some (code, k) => ((d.set R.ARCH_STATUS_CFGERR code).set R.ARCH_STATUS_CFGCH k).raise islBUS 119 k
    | none =>
      let d := (d.set R.ARCH_CTRL_EN 1).set R.ARCH_STATUS_CFGERR 0
      (((d.set R.ARCH_STATUS_CFGCH 0).set R.ARCH_STATUS_DONE 0).set R.ARCH_STATUS_STATE 0).archFresh

/-- A write of CTRL.EN = 0 stops capture at once; every bank keeps its contents. -/
def archDisable (d : Dev) : Dev :=
  if d.isSet R.ARCH_CTRL_EN then
    (((d.set R.ARCH_CTRL_EN 0).set R.ARCH_STATUS_STATE 0).set R.ARCH_STATUS_ARM_PEND 0).archFresh
  else d

end Dev

/-! ### Blocks (R376, R379) -/

namespace Dev

/-- PRE and POST in ns. -/
def archPre (d : Dev) : Nat := d.act R.ARCH_TRIG_PRE * 10000
def archPost (d : Dev) : Nat := d.act R.ARCH_TRIG_POST * 10000

/-- t in force: 0 from the trigger to completion (R383). -/
def archT (d : Dev) : Nat := if d.archState = 2 then 0 else d.get R.ARCH_STATUS_THROTTLE

/-- A channel whose ring has overwritten a block that the record needs is marked once (R379). -/
def archTrunc (d : Dev) (k : Nat) : Dev :=
  let c := d.archCh k
  match d.arch.trig, c.lost with
  | some g, some l =>
    if !c.trunc && decide (max d.arch.armAt (g.t - d.archPre) ≤ l) then
      ((d.setArchCh k { c with trunc := true }).incSat R.ARCH_CNT2_TRUNC).raise islBUS 114 k
    else d
  | _, _ => d

end Dev

/-- The sixteen words of a block. -/
def blockWords (d : Dev) (k : Nat) (c : ArchCh) (b : ArchBlk) : List Word :=
  let wide := d.isSet (R.ARCH_CH_CFG_WIDE k)
  let head := word (c.count % 0x10000 + b.ents.length * 2 ^ 16 + b.t * 2 ^ 20 + b2n (d.archState == 2) * 2 ^ 22 + k * 2 ^ 24)
  let ents := if wide then b.ents.flatMap fun e => [e.2, word e.1]
    else b.ents.map fun e => word (e.1 + e.2.toNat / 2 ^ 16 * 2 ^ 16)
  word b.first :: head :: ents

/-- Writes the open block of a channel into its ring; a full ring loses its oldest block (R376). The unused words of a
block that is not full are zero (log entry 50). -/
def State.archFlush (s : State) (k : Nat) : State :=
  let d := s.d
  let c := d.archCh k
  match c.blk with
  | none => s
  | some b =>
    let pos := d.ringBase k + c.count % max 1 (d.ringLen k)
    let ws := blockWords d k c b
    let full := decide (d.ringLen k ≤ c.stamps.length)
    let c' := { c with
      blk := none
      count := c.count + 1
      stamps := (if full then c.stamps.tail else c.stamps) ++ [b.last]
      lost := if full then c.stamps.head? else c.lost }
    { s with
      mem := Mem.wrWords s.mem (d.archBlockAddr (d.get R.ARCH_STATUS_BANK) pos) (ws ++ List.replicate (16 - ws.length) 0)
      d := (d.setArchCh k c').archTrunc k }

/-- n / 10 rounded to the nearest, ties to even. -/
def round10 (n : Nat) : Nat :=
  let q := n / 10
  if 5 < n % 10 ∨ (n % 10 = 5 ∧ q % 2 = 1) then q + 1 else q

/-- Stores a taken sample (R376). -/
def State.archStore (s : State) (k : Nat) (w : Word) (time : Nat) : State :=
  let new (s : State) : State :=
    s.onDev fun d => d.setArchCh k { d.archCh k with blk := some ⟨time, time, 0, d.archT, [(0, w)]⟩ }
  let s' := match (s.d.archCh k).blk with
    | none => new s
    | some b =>
      let cum := round10 (time - b.first)
      if 0xFFFF < cum - b.cum then new (s.archFlush k)
      else s.onDev fun d =>
        d.setArchCh k { d.archCh k with blk := some { b with last := time, cum := cum, ents := b.ents ++ [(cum - b.cum, w)] } }
  let cap := if s'.d.isSet (R.ARCH_CH_CFG_WIDE k) then 7 else 14
  match (s'.d.archCh k).blk with
  | some b => if cap ≤ b.ents.length then s'.archFlush k else s'
  | none => s'

/-! ### The end of a record (R377, R378) -/

/-- The capture of a channel ends. -/
def State.archEnd (s : State) (k : Nat) (noEnd : Bool) : State :=
  if (s.d.archCh k).ended then s
  else (s.archFlush k).onDev fun d => d.setArchCh k { d.archCh k with ended := true, noEnd := noEnd }

def State.archEndAll (s : State) (noEnd : Bool) : State := s.d.archChans.foldl (fun s k => s.archEnd k noEnd) s

/-- The record completes when every channel has ended. -/
def Dev.archComplete (d : Dev) : Dev :=
  if d.archState = 2 ∧ d.arch.complete.isNone ∧ d.archChans.all (fun k => (d.archCh k).ended) then
    { d with arch := { d.arch with complete := some d.time.short } }
  else d

/-- One directory entry: OLDEST, TRIG, LAST and the flags. A word that the spec gives no value, of a channel without
blocks or without a sample at or after T, is free. -/
def Dev.archDirectory (d : Dev) (t k : Nat) : List Word × Dev :=
  let on := d.isSet (R.ARCH_CH_CFG_EN k)
  let c := if on then d.archCh k else {}
  let block (n : Nat) : Word := word (d.ringBase k + n % max 1 (d.ringLen k))
  let flags := word (min c.count 0xFFFFFF + b2n c.trunc * 2 ^ 24 + b2n (c.count == 0) * 2 ^ 25 + b2n c.noEnd * 2 ^ 26)
  let f0 := d.freeWord
  let f1 := f0.2.freeWord
  let f2 := f1.2.freeWord
  let first := c.count - c.stamps.length
  let gone := match c.lost with | some l => decide (t ≤ l) | none => false
  let trig := match c.stamps.findIdx? fun x => decide (t ≤ x) with
    | some i => if gone then f1.1 else block (first + i)
    | none => f1.1
  if c.count = 0 then ([f0.1, f1.1, f2.1, flags], f2.2)
  else ([block first, trig, block (c.count - 1), flags], f2.2)

def Dev.archDirectories (d : Dev) (t : Nat) : List Nat → List Word × Dev
  | [] => ([], d)
  | k :: r =>
    let x := d.archDirectory t k
    let y := x.2.archDirectories t r
    (x.1 ++ y.1, y.2)

/-- The mask of enabled channels, 32 from `lo`. -/
def Dev.archMask (d : Dev) (lo : Nat) : Word :=
  word ((d.archChans.filter fun k => lo ≤ k && k < lo + 32).foldl (fun m k => m + 2 ^ (k - lo)) 0)

/-- The header words of a record, without the magic. -/
def Dev.archHeader (d : Dev) (g : ArchTrig) (done : Nat) : List Word :=
  let trunc := d.archChans.any fun k => (d.archCh k).trunc
  [word (d.arch.id + g.unit * 2 ^ 16 + g.cause * 2 ^ 19 + b2n (decide (g.t - d.arch.armAt < d.archPre)) * 2 ^ 22 +
      b2n trunc * 2 ^ 23 + b2n d.arch.maskFail * 2 ^ 24 + b2n d.arch.throttled * 2 ^ 25),
    word g.t, word d.arch.armAt, word done, word g.sec, word (g.sec / 2 ^ 32), word g.ns,
    word (d.act R.ARCH_TRIG_PRE + d.act R.ARCH_TRIG_POST * 2 ^ 16), d.archMask 0, d.archMask 32, 0, 0, 0, 0, 0]

/-! ### Arming (R378, R384, R385) -/

namespace Dev

/-- The lowest free bank. -/
def archFree (d : Dev) : Option Nat :=
  (List.range d.archBanks).find? fun b => !(d.get R.ARCH_STATUS_DONE).testBit b

/-- DEAD_LAST and DEAD_MAX at an arm (R385). -/
def archDead (d : Dev) : Dev :=
  match d.arch.dead with
  | none => d
  | some t =>
    let x := min ((d.time.short - t) / 100) 0xFFFFFFFF
    let d := { d with arch := { d.arch with dead := none } }.set R.ARCH_DEAD_LAST_T x
    if d.get R.ARCH_DEAD_MAX_T < x then d.set R.ARCH_DEAD_MAX_T x else d

/-- The channel, alignment and unit of the mask test that act (R382). -/
def maskSetting (d : Dev) : Nat × Nat × Nat :=
  (d.act R.ARCH_MASKCFG_CH, d.act R.ARCH_MASKCFG_ALIGN, d.act R.ARCH_MASKCFG_UNIT)

/-- The staged set acts (R384). With another channel, alignment or unit the mask test counts from that alignment's next
event (DESIGN CHOICE, log entry 170). -/
def archApply (d : Dev) : Dev :=
  let t := d.applyPend (inBlock 0x40032000 0x40033000)
  if t.maskSetting = d.maskSetting then t else { t with arch := { t.arch with maskIdx := none } }

/-- What an arm of bank `b` starts with; `id`: the record ID of a DPL arm. -/
def archStart (d : Dev) (b : Nat) (id : Option Nat) : Dev :=
  let d := d.archApply.archDead
  let n := id.getD (d.get R.ARCH_ID_NEXT)
  let d := ((d.set R.ARCH_ID_NEXT (n + 1)).set R.ARCH_STATUS_STATE 1).set R.ARCH_STATUS_BANK b
  let d := d.set R.ARCH_STATUS_ARM_PEND 0
  let chans := d.archChans.map fun k => (k, { words := (d.archCh k).words, last := (d.archCh k).last : ArchCh })
  let a := { d.arch with
    chans := [], tus := [], maskFail := false, armAt := d.time.short, id := n, trig := none, complete := none,
    throttled := d.get R.ARCH_STATUS_THROTTLE != 0, rate := false, pend := none }
  chans.foldl (fun d c => d.setArchCh c.1 c.2) { d with arch := a }

end Dev

/-- An arm takes bank `b`; its magic is cleared (R377). -/
def State.archArm (s : State) (b : Nat) (id : Option Nat) : State :=
  { s with d := s.d.archStart b id, mem := Mem.wrWord s.mem (s.d.archBlockAddr b 0) 0 }

/-- An arm request (R384). -/
def State.archRequest (s : State) (id : Option Nat) : State :=
  let wait (st : Nat) : State := s.onDev fun d =>
    { d with arch := { d.arch with pend := some id } }.set R.ARCH_STATUS_ARM_PEND 1 |>.set R.ARCH_STATUS_STATE st
  if !s.d.isSet R.ARCH_CTRL_EN then s
  else
    match s.d.archState with
    | 0 => match s.d.archFree with
      | some b => s.archArm b id
      | none => wait 3
    | 1 => s
    | st => wait st

/-- A bank was completed or freed: a pending request, or AUTO, arms the next free bank (R378). -/
def State.archNext (s : State) : State :=
  match s.d.arch.pend with
  | some id =>
    match s.d.archFree with
    | some b => s.archArm b id
    | none => s.onDev fun d => d.set R.ARCH_STATUS_STATE 3
  | none => s

/-- Header, directory and magic of a complete record; the bank is DONE (R377, R378). -/
def State.archFinish (s : State) (g : ArchTrig) (done : Nat) : State :=
  let d := s.d
  let b := d.get R.ARCH_STATUS_BANK
  let base := d.archBlockAddr b 0
  let dir := d.archDirectories g.t (List.range 64)
  let mem := Mem.wrWords (Mem.wrWords s.mem (base + 64) dir.1) (base + 4) (d.archHeader g done)
  let mem := Mem.wrBytes mem base [0x41, 0x52, 0x43, 0x52]
  let d := dir.2
  let d := (d.set R.ARCH_STATUS_DONE (d.get R.ARCH_STATUS_DONE ||| 2 ^ b)).request islBUS 13
  let d := { d with arch := { d.arch with trig := none, complete := none } }.set R.ARCH_STATUS_STATE 0
  let auto := d.isSet R.ARCH_CTRL_AUTO && d.arch.pend.isNone
  let d := if auto then { d with arch := { d.arch with pend := some none } }.set R.ARCH_STATUS_ARM_PEND 1 else d
  { s with d := d, mem := mem }.archNext

/-! ### Triggers (R380 to R382, R386) -/

namespace Dev

/-- A record starts with stamp `t` (R378, R381, R386). Mask index 0 follows where the alignment event is the trigger. -/
def archRecord (d : Dev) (cause unit t : Nat) : Dev :=
  let total := d.time.sec * 1000000000 + d.time.ns - (d.time.short - t)
  let a := { d.arch with
    trig := some ⟨t, cause, unit, total / 1000000000, total % 1000000000⟩
    dead := some t
    maskIdx := if d.act R.ARCH_MASKCFG_ALIGN = 1 then some 0 else d.arch.maskIdx
    trigio := d.arch.trigio || (d.isSet R.ARCH_CTRL_TRIGIO_OUT && cause != 3) }
  let d := ({ d with arch := a }.set R.ARCH_STATUS_STATE 2).incWrap R.ARCH_CNT_FIRED
  let d := d.raise islBUS 112 (cause + 8 * d.get R.ARCH_STATUS_BANK)
  (d.archChans.foldl archTrunc d).archComplete

/-- A trigger of a cause whose TRIGSRC bit is set (R381). -/
def archFire (d : Dev) (cause unit t : Nat) : Dev :=
  match d.archState with
  | 1 => d.archRecord cause unit t
  | 2 => d.incSat R.ARCH_CNT_INPOST
  | _ => (d.incSat R.ARCH_CNT_MISSED).raise islBUS 113 cause

/-- A trigger from outside the channels: 2 software, 3 TRIGIO, 4 ACC SAFE. -/
def archTrigger (d : Dev) (cause t : Nat) : Dev :=
  let src := match cause with
    | 2 => R.ARCH_TRIGSRC_SW
    | 3 => R.ARCH_TRIGSRC_TRIGIO
    | _ => R.ARCH_TRIGSRC_SAFE
  if d.isSet R.ARCH_CTRL_EN && d.act src != 0 then d.archFire cause 0 t else d

/-- Trigger unit `u` judges a taken sample while the bank is ARMED (R380). -/
def archUnit (d : Dev) (u : Nat) (v : Int) (t : Nat) : Dev :=
  if d.archState ≠ 1 then d
  else
    let x := d.archTu u
    let lo := signed 16 (d.act (R.ARCH_TU_LIM_LO u))
    let hi := signed 16 (d.act (R.ARCH_TU_LIM_HI u))
    let n := d.act (R.ARCH_TU_RATE_N u)
    let kind := d.act (R.ARCH_TU_CFG_KIND u)
    let fires := match kind with
      | 1 => x.seen && decide (hi ≤ v)
      | 2 => x.seen && decide (v ≤ lo)
      | 3 => x.seen && (decide (v < lo) || decide (hi < v))
      | 4 => match x.hist[n - 1]? with
        | some w => decide (d.act (R.ARCH_TU_RATE_DELTA u) < (v - w).natAbs)
        | none => false
      | _ => false
    let seen := match kind with
      | 1 => x.seen || decide (v ≤ lo)
      | 2 => x.seen || decide (hi ≤ v)
      | 3 => x.seen || (decide (lo ≤ v) && decide (v ≤ hi))
      | _ => x.seen
    let d := d.setArchTu u ⟨seen, (v :: x.hist).take n⟩
    if fires && (d.act R.ARCH_TRIGSRC_UNITS).testBit u then d.archFire 0 u t else d

end Dev

/-- The mask test judges a taken sample of its channel (R382). `judged`: the channel's capture had not ended. -/
def State.archMaskTest (s : State) (k : Nat) (v : Int) (t : Nat) (judged : Bool) : State :=
  let d := s.d
  if d.act R.ARCH_MASKCFG_ALIGN = 0 ∨ d.act R.ARCH_MASKCFG_CH ≠ k then s
  else
    match d.arch.maskIdx with
    | none => s
    | some i =>
      let s := { s with d := { d with arch := { d.arch with maskIdx := some (i + 1) } } }
      let env := (Mem.word s.mem (d.archEnvAddr i)).toNat
      let bad := decide (v < signed 16 env) || decide (signed 16 (env / 2 ^ 16) < v)
      let st := d.archState
      if !judged || !(st == 1 || st == 2) || !bad || decide (d.get R.ARCH_MASK_LEN ≤ i) then s
      else
        let s := s.onDev fun d => d.raise islBUS 115 i
        if st = 1 then
          if d.act R.ARCH_TRIGSRC_MASK = 0 then s
          else ((s.onDev fun d => d.archRecord 1 0 t).archEndAll false).onDev Dev.archComplete
        else
          let s := s.onDev fun d => { d with arch := { d.arch with maskFail := true } }
          (s.archEndAll false).onDev Dev.archComplete

/-! ### Samples (R375, R378, R383) -/

/-- The record wants no sample stamped `t`: the channel's capture has ended, or `t` lies after T + POST (R378). -/
def Dev.archPast (d : Dev) (k t : Nat) : Bool :=
  (d.archCh k).ended || match d.arch.trig with
    | some g => decide (g.t + d.archPost < t)
    | none => false

/-- A channel takes a word: stores it or ends its capture. -/
def State.archTake (s : State) (k : Nat) (w : Word) (time : Nat) : State :=
  let d := s.d
  let c := d.archCh k
  let s := s.onDev fun d => d.setArchCh k { c with last := some time, taken := c.taken + 1 }
  match d.archState with
  | 1 => if c.taken % 2 ^ d.archT = 0 then s.archStore k w time else s
  | 2 =>
    if c.ended || d.arch.complete.isSome then s
    else if d.archPast k time then (s.archEnd k false).onDev Dev.archComplete
    else s.archStore k w time
  | _ => s

/-- The channel takes the next source word: every DECIM-th (R375). -/
def Dev.archTurn (d : Dev) (k : Nat) : Bool := ((d.archCh k).words + 1) % d.get (R.ARCH_CH_CFG_DECIM k) == 0

/-- A word stamped `t` comes too soon after the channel's previous taken one (R375). -/
def Dev.archSoon (d : Dev) (k t : Nat) : Bool :=
  match (d.archCh k).last with
  | some l => decide (t < l + 1000)
  | none => false

/-- A source word reaches a channel (R375). -/
def State.archOffer (s : State) (k : Nat) (w : Word) (time : Nat) : State :=
  let t := s.onDev fun d => d.setArchCh k { d.archCh k with words := (d.archCh k).words + 1 }
  if !s.d.archTurn k then t
  else if s.d.archSoon k time then t.onDev fun d => d.archSkip k 1
  else t.archTake k w time

/-- A source word reaches the channels that it feeds. All take it before it is judged, and of its triggers the mask comes
before the trigger units, the lowest number first (R381). -/
def State.archWords (s : State) (ks : List Nat) (w : Word) (time : Nat) : State :=
  let v := signed 16 (w.toNat / 2 ^ 16)
  let taken := ks.filter fun k => s.d.archTurn k && !s.d.archSoon k time
  let t := ks.foldl (fun t k => t.archOffer k w time) s
  let t := taken.foldl (fun t k => t.archMaskTest k v time (!s.d.archPast k time)) t
  t.onDev fun d => (List.range 8).foldl
    (fun d u => if taken.contains (d.act (R.ARCH_TU_CFG_CH u)) then d.archUnit u v time else d) d

/-- A source word reaches one channel. -/
def State.archWord (s : State) (k : Nat) (w : Word) (time : Nat) : State := s.archWords [k] w time

/-- The channels that a capture word feeds (R374). -/
def Dev.archFed (d : Dev) (kind conv sel : Nat) : List Nat :=
  d.archChans.filter fun k => d.get (R.ARCH_CH_CFG_KIND k) == kind && d.get (R.ARCH_CH_CFG_SEL k) == sel &&
    (kind == 1 || d.get (R.ARCH_CH_CFG_CONV k) == conv)

/-! ### Commands -/

/-- ARCH_COMMIT: a write of ARCH.COMMIT; the set acts at the next arm (R92, R384). -/
def execArchCommit (s : State) : Host.Outcome State Fault Refusal :=
  .next <| s.onDev fun d =>
    d.commit 0x40032000 0x40033000 (some 0x40032008) (some R.ARCH_STATUS_INCOMPLETE) (fun _ => false) (d.isSet R.ARCH_CTRL_EN)

/-- ARCH_ENABLE: a write of CTRL.EN = 1 (R373). -/
def execArchEnable (s : State) : Host.Outcome State Fault Refusal := .next (s.onDev Dev.archEnable)

/-- ARCH_SAMPLE: the front capture word of channel 0x28 + ch reaches the Archive (R375). -/
def execArchSample (ch : Fin 3) (s : State) : Host.Outcome State Fault Refusal :=
  match s.d.take (0x28 + ch.val) islBUS with
  | some (.arch kind conv sel w time, d) =>
    let s := { s with d := d }
    if d.isSet R.ARCH_CTRL_EN then
      .next (s.archWords (d.archFed kind conv sel) w time)
    else .next s
  | _ => .next s

/-- Address of the word that a KIND 2 channel reads in the ACTIVE lane (R374). -/
def Dev.archSlotAddr (d : Dev) (k : Nat) : Nat :=
  laneBase (d.get R.LANE_STATUS_ACTIVE) + d.get (R.ARCH_CH_SRC_OFFSET k) / 4 * 4

/-- ARCH_SLOT_READ: the lane-memory read of a KIND 2 channel is granted in a cycle in which no Stake requests its bank;
while both lanes are HELD it takes nothing (R134, R374, R375). -/
def execArchSlotRead (ch : Fin 64) (s : State) : Host.Outcome State Fault Refusal :=
  .next <|
    match s.d.slotDue.find? fun e => e.1 == ch.val with
    | none => s
    | some e =>
      let a := s.d.archSlotAddr ch.val
      if s.d.bankBusy (s.d.get R.LANE_STATUS_ACTIVE) [a / 4 % 8] then s
      else
        let s := s.onDev fun d => { d with slotDue := d.slotDue.filter fun x => x != e }
        if s.d.laneState 0 = 4 ∧ s.d.laneState 1 = 4 then s else s.archWord ch.val (Mem.word s.mem a) e.2.2

/-- ARCH_RECORD_TIMEOUT: T + POST + 1 ms (R378). -/
def execArchRecordTimeout (s : State) : Host.Outcome State Fault Refusal :=
  .next <|
    if s.d.archState = 2 ∧ s.d.arch.complete.isNone then (s.archEndAll true).onDev Dev.archComplete else s

/-- ARCH_HEADER_WRITTEN: within 2 µs of completion (R378). -/
def execArchHeaderWritten (s : State) : Host.Outcome State Fault Refusal :=
  .next <|
    match s.d.arch.trig, s.d.arch.complete with
    | some g, some done => s.archFinish g done
    | _, _ => s

/-- A write of ARM.ARM (R384). -/
def State.armWrite (s : State) : State :=
  s.archRequest none |>.onDev fun d =>
    if d.isSet R.ARCH_CTRL_EN && d.isSet R.ARCH_CTRL_ARMIO_OUT then { d with arch := { d.arch with armio := true } } else d

/-- A write of ARM.DISARM (R378, R388). -/
def Dev.archDisarm (d : Dev) : Dev :=
  if d.archState = 1 then d.set R.ARCH_STATUS_STATE 0 else d.set R.ARCH_STATUS_WERR 1

/-- A write of RELEASE (R378, R388). -/
def State.releaseWrite (s : State) (banks : Nat) : State :=
  let d := (List.range 4).foldl (fun d b =>
    if !banks.testBit b then d
    else if (d.get R.ARCH_STATUS_DONE).testBit b then d.set R.ARCH_STATUS_DONE (d.get R.ARCH_STATUS_DONE - 2 ^ b)
    else d.set R.ARCH_STATUS_WERR 1) s.d
  let s := { s with d := d }
  if d.archState = 3 then s.archNext else s

/-- ARCH_ARM: a write of ARM.ARM (R384). -/
def execArchArm (s : State) : Host.Outcome State Fault Refusal := .next s.armWrite

/-- ARCH_DISARM: a write of ARM.DISARM (R378). -/
def execArchDisarm (s : State) : Host.Outcome State Fault Refusal := .next (s.onDev Dev.archDisarm)

/-- ARCH_SWTRIG: a write of ARM.SWTRIG, stamped at the write (R380). -/
def execArchSwtrig (s : State) : Host.Outcome State Fault Refusal :=
  .next <| s.onDev fun d => d.archTrigger 2 d.time.short

/-- ARCH_RELEASE: a write of RELEASE (R378). -/
def execArchRelease (banks : BitVec 4) (s : State) : Host.Outcome State Fault Refusal :=
  .next (s.releaseWrite banks.toNat)

/-- ARMIO_EDGE: a falling edge on ARMIO (R384). -/
def execArmioEdge (s : State) : Host.Outcome State Fault Refusal :=
  .next (if s.d.isSet R.ARCH_CTRL_ARMIO_IN then s.archRequest none else s)

/-- A DPL ARM message asks for an arm at a TIME value; one whose time has passed acts at once (R384, R478). -/
def State.dplArm (s : State) (id sec ns : Nat) : State :=
  let late := decide (sec * 1000000000 + ns ≤ s.d.time.sec * 1000000000 + s.d.time.ns)
  if late then (s.onDev fun d => d.raise islBUS 117 id).archRequest (some id)
  else s.onDev fun d =>
    let before := d.arch.due.filter fun e => e.2.1 * 1000000000 + e.2.2 ≤ sec * 1000000000 + ns
    let after := d.arch.due.filter fun e => !(e.2.1 * 1000000000 + e.2.2 ≤ sec * 1000000000 + ns)
    { d with arch := { d.arch with due := before ++ (id, sec, ns) :: after } }

/-- DPL_ARM_TIME: TIME reaches the earliest arm time (R384). -/
def execDplArmTime (s : State) : Host.Outcome State Fault Refusal :=
  .next <|
    match s.d.arch.due with
    | [] => s
    | e :: t => (s.onDev fun d => { d with arch := { d.arch with due := t } }).archRequest (some e.1)

/-- TRIGIO_EDGE: a falling edge on TRIGIO, not driven by this unit; its stamp is the detection time less 30 ns (R386). -/
def execTrigioEdge (s : State) : Host.Outcome State Fault Refusal :=
  .next <| s.onDev fun d =>
    if d.isSet R.ARCH_CTRL_TRIGIO_IN && !d.arch.trigio && !d.bit R.ACC_COND_SRC 118 then
      d.archTrigger 3 (d.time.short - 30)
    else d

/-- ARCH_TRIGIO_STUCK (R386). -/
def execArchTrigioStuck (s : State) : Host.Outcome State Fault Refusal :=
  .next <| s.onDev fun d => d.beginCond islBUS 118 0

/-- TRIGIO_READS_HIGH (R386). -/
def execTrigioReadsHigh (s : State) : Host.Outcome State Fault Refusal :=
  .next <| s.onDev fun d => d.setCond 118 false

/-- TRIGIO_PULSE_END: the 2 µs drive ends (R386). -/
def execTrigioPulseEnd (s : State) : Host.Outcome State Fault Refusal :=
  .next <| s.onDev fun d => { d with arch := { d.arch with trigio := false } }

/-- ARMIO_PULSE_END: the 2 µs drive ends (R384). -/
def execArmioPulseEnd (s : State) : Host.Outcome State Fault Refusal :=
  .next <| s.onDev fun d => { d with arch := { d.arch with armio := false } }

end Sys2Proof.Machine
end

