-- ==== Sys2Proof/Machine/Pwm.lean ====
section
/-! DEFINITION. PWM legs and gate supervision (chapter 08): the shadow sets and their commits, the reload, the interlock
and the bootstrap refresh, the leg states, desaturation and driver trips, and on-state voltage sweeps. -/

namespace Sys2Proof.Machine

open Dev (islBUS islGUARD islCORE)

/-! ### From compare to pin (R248 to R250, R256) -/

/-- C of a compare word by format, and whether it sets NEG_DUTY (R249). -/
def compareTicks (frac : Bool) (word p : Nat) : Nat × Bool :=
  if !frac then (word, false)
  else if word = 0xFFFFFF then (p, false)
  else if 0x800000 ≤ word then (0, true)
  else ((divEven (word * p : Nat) (2 ^ 23)).toNat, false)

/-- Rounds to multiples of 32 ticks for a leg that runs coarse (R514). -/
def coarseTicks (coarse : Bool) (c : Nat) : Nat := if coarse then ((divEven c 32) * 32).toNat else c

/-- A span of ticks: from the first up to, and without, the second. -/
abbrev Span := Nat × Nat

def Span.has (s : Span) (t : Nat) : Bool := decide (s.1 ≤ t) && decide (t < s.2)

/-- The ticks of a period of `p` in which a reference signal with live compare `c` is high (R248). -/
def refSpan (updown : Bool) (c p : Nat) : Span :=
  if p ≤ c then (0, p)
  else if updown then (p / 2 - c / 2, p / 2 - c / 2 + c)
  else (0, c)

/-- A is held low from `tail` on in a refresh period (R259). -/
def Span.cut (s : Span) (tail : Nat) : Span := (s.1, max s.1 (min s.2 tail))

/-- Position at which A is forced low in a refresh period: WIDTH and DT before the boundary, not before its half (R259). -/
def refreshTail (p width dt : Nat) : Nat := max (p / 2) (p - (width + dt))

/-- PWMnH and PWMnL as a complementary leg commands them in a period in which A is high in `a` (R250): each waits DT after
the edge of A that lets it turn on, be that edge in this period or before it. -/
def deadSpans (a : Span) (dt p : Nat) (k : Lock) : List Span × List Span :=
  let carried : Nat := (k.aEdge + dt).toNat
  if a.2 ≤ a.1 then ([], [((if k.a then dt else carried), p)])
  else
    let on := if a.1 = 0 ∧ k.a then carried else a.1 + dt
    ([(on, a.2)], [((if k.a then dt else carried), a.1), (a.2 + dt, p)])

/-- The interlock at one tick: outputs turn off as commanded; one that is commanded on turns on unless the other is on or
has been off for less than the floor, PWMnL first (R256). The flag says that an output is held off. -/
def lockAt (on : Bool × Bool) (floor t : Nat) (k : Lock) : Lock × Bool :=
  let h := k.h && on.1
  let l := k.l && on.2
  let hOff := if k.h && !on.1 then (t : Int) else k.hOff
  let lOff := if k.l && !on.2 then (t : Int) else k.lOff
  let l := l || (on.2 && !h && decide (hOff + floor ≤ t))
  let h := h || (on.1 && !l && decide (lOff + floor ≤ t))
  ({ k with h := h, l := l, hOff := hOff, lOff := lOff }, (on.1 && !h) || (on.2 && !l))

/-- What the interlock has made of a stretch of a period: its state, whether it held an output off, and the ticks for
which PWMnL was on. -/
structure LockRun where
  k : Lock
  held : Bool := false
  lowOn : Nat := 0
deriving DecidableEq, Repr

/-- The interlock over the instants `ts` at which anything can change, up to `stop`. -/
def lockRun (on : Nat → Bool × Bool) (floor stop : Nat) : List Nat → LockRun → LockRun
  | [], r => r
  | t :: ts, r =>
    let x := lockAt (on t) floor t r.k
    lockRun on floor stop ts ⟨x.1, r.held || x.2, r.lowOn + if x.1.l then ts.headD stop - t else 0⟩

/-- The first `stop` ticks of a period with these commanded spans. Changes come at the ends of spans and a floor after an
output has turned off. -/
def lockSpans (hs ls : List Span) (floor stop : Nat) (k : Lock) : LockRun :=
  let ends := (hs ++ ls).flatMap fun s => [s.1, s.2, s.2 + floor]
  let ts := (0 :: (k.hOff + floor).toNat :: (k.lOff + floor).toNat :: ends).filter (· < stop)
  lockRun (fun t => (hs.any (·.has t), ls.any (·.has t))) floor stop (Sparse.sortBy id ts.dedup) { k := k }

/-- The boundary of a period of `p` in which A was high in `a`: what is carried on counts from there. -/
def Lock.shift (k : Lock) (a : Span) (p : Nat) : Lock :=
  let high := decide (a.1 < a.2) && a.2 == p
  let edge : Int := if a.2 ≤ a.1 then (if k.a then 0 else k.aEdge)
    else if a.2 < p then a.2
    else if a.1 = 0 ∧ k.a then k.aEdge else a.1
  let back (x : Int) : Int := max (-4096) (x - p)
  { k with hOff := back k.hOff, lOff := back k.lOff, a := high, aEdge := back edge }

namespace Dev

/-- PWM island of a leg (R11). -/
def legIsland (leg : Nat) : Nat := if leg < 24 then 6 else 7

def livePeriod (d : Dev) (leg : Nat) : Nat := d.get (R.PWM_LEG_LIVE_PERIOD_P leg)
def legState (d : Dev) (leg : Nat) : Nat := d.get (R.PWM_LEG_STAT_STATE leg)
def legOwner (d : Dev) (leg : Nat) : Nat := d.get (R.PWM_LEG_MAP_OWNER leg)
def legFrac (d : Dev) (leg : Nat) : Bool := d.isSet (R.PWM_LEG_CFG_FMT leg)
def legIndep (d : Dev) (leg : Nat) : Bool := d.isSet (R.PWM_LEG_CFG_OUTMODE leg)
def legUpdown (d : Dev) (leg : Nat) : Bool := d.isSet (R.PWM_LEG_MAP_MODE leg)

/-- The bits of the two HIZ registers. -/
def hizReg (w : Nat) : Fld := if w = 0 then R.PWM_HIZ0_LEGS else R.PWM_HIZ1_LEGS
def shootReg (w : Nat) : Fld := if w = 0 then R.PWM_SHOOT0_LEGS else R.PWM_SHOOT1_LEGS

/-! ### Leg states (R260 to R262) -/

/-- SOFTOFF_EN is high from M3 onwards while a leg that uses soft-off runs (R282). -/
def softoffBall (d : Dev) : Dev :=
  d.setB R.GSUP_CTRL_SOFTOFF_EN (decide (3 ≤ d.mode) &&
    (List.range 48).any fun n => d.isSet (R.PWM_LEG_MAP_SOFTOFF n) && d.legState n == 1)

/-! ### The outputs of a period (R248 to R250, R256 to R259) -/

/-- Position of the leg counter now, in ticks from the boundary (R243, R244). -/
def legPos (d : Dev) (leg : Nat) : Nat :=
  let l := d.leg leg
  min (d.livePeriod leg - 1) (l.start + (d.time.short - l.at') * 64 / 5)

/-- The ticks of the present period in which A is high. -/
def legA (d : Dev) (leg : Nat) : Span :=
  let p := d.livePeriod leg
  let a := refSpan (d.legUpdown leg) (d.get (R.PWM_LEG_LIVE_CMPA_C leg)) p
  if (d.leg leg).refresh then
    a.cut (refreshTail p (32 * d.get (R.PWM_LEG_BOOT_WIDTH leg)) (d.get (R.PWM_LEG_LIVE_DT_DT leg)))
  else a

/-- The interlock over the first `stop` ticks of the present period of a running leg. -/
def legRun (d : Dev) (leg stop : Nat) : LockRun :=
  let p := d.livePeriod leg
  let k := (d.leg leg).lock
  let floor := d.get (R.PWM_LEG_MAP_DT_FLOOR leg)
  if d.legIndep leg then
    lockSpans [refSpan (d.legUpdown leg) (d.get (R.PWM_LEG_LIVE_CMPA_C leg)) p]
      [refSpan (d.legUpdown leg) (d.get (R.PWM_LEG_LIVE_CMPB_C leg)) p] floor stop k
  else
    let s := deadSpans (d.legA leg) (d.get (R.PWM_LEG_LIVE_DT_DT leg)) p k
    lockSpans s.1 s.2 floor stop k

/-- A period in which the interlock has held an output off (R257). -/
def shoot (d : Dev) (leg : Nat) : Dev :=
  let first := !d.isSet (R.PWM_LEG_STAT_SHOOT leg)
  let d := ((d.incSat (R.PWM_LEG_CNT_SHOOT leg)).set (R.PWM_LEG_STAT_SHOOT leg) 1).setBit shootReg leg true
  if first then d.raise (legIsland leg) 48 leg else d

/-- The outputs of a running leg stop following the period at its present position: the interlock's account of the part
that has passed (R257). Outputs that a confirmation has frozen already have none (R267). -/
def legCut (d : Dev) (leg : Nat) : Dev :=
  if d.legState leg = 1 ∧ !d.isSet (R.PWM_LEG_STAT_SOFTOFF_ACT leg) then
    let r := d.legRun leg (d.legPos leg)
    let d := d.setLeg leg { d.leg leg with lock := r.k }
    if r.held then d.shoot leg else d
  else d

/-- Both outputs are off from here on. -/
def legOff (d : Dev) (leg : Nat) : Dev :=
  let k := (d.leg leg).lock
  let pos : Int := d.legPos leg
  d.setLeg leg { d.leg leg with lock := { k with
    h := false, l := false, hOff := if k.h then pos else k.hOff, lOff := if k.l then pos else k.lOff } }

def toState (d : Dev) (leg state cause : Nat) : Dev :=
  let d := if state = 1 then d else (d.legCut leg).legOff leg
  let d := ((d.set (R.PWM_LEG_STAT_STATE leg) state).set (R.PWM_LEG_STAT_HIZ_CAUSE leg) cause).setBit hizReg leg (state == 2)
  d.softoffBall

/-- A leg stops being enabled. -/
def disarm (d : Dev) (leg : Nat) : Dev :=
  (d.setLeg leg { d.leg leg with enabling := false, refresh := false, short := 0 }).set (R.PWM_LEG_CTRL_EN leg) 0

/-- The state of a leg follows its causes: a trip, M10, the block's enable and the mode take it to HIZ, in that order of
reporting; a running soft-off delay is not cut short; without a cause a leg in HIZ enters DISABLED (R260, R262, R268). -/
def legSync (d : Dev) (leg : Nat) : Dev :=
  let l := d.leg leg
  if l.softoff.isSome then d
  else
    match l.trip with
    | some c => (d.disarm leg).toState leg 2 c
    | none =>
      if d.mode = 10 then (d.disarm leg).toState leg 2 2
      else if !d.isSet R.PWM_CTRL_EN || [0, 1, 2].contains d.mode then (d.disarm leg).toState leg 2 1
      else if d.legState leg = 2 then d.toState leg 0 0
      else d

/-- The modes that permit the enable of a leg (R261). -/
def legPermitted (d : Dev) (leg : Nat) : Bool :=
  if d.mode = 4 then decide (8 ≤ d.get (R.PWM_LEG_MAP_GROUP leg))
  else (decide (5 ≤ d.mode) && decide (d.mode ≤ 9)) || d.mode == 11

/-- An enable or disable request of a leg's owner (R261). -/
def legRequest (d : Dev) (leg : Nat) (en : Bool) : Dev :=
  if !en then
    let d := d.disarm leg
    if d.legState leg = 1 ∧ (d.leg leg).softoff = none then d.toState leg 0 0 else d
  else if !d.legPermitted leg then d.raise (legIsland leg) 51 leg
  else if d.legState leg = 0 then
    (d.setLeg leg { d.leg leg with enabling := true }).set (R.PWM_LEG_CTRL_EN leg) 1
  else d

/-- Entry to M3 from M2 clears every leg's trip, and with it the soft-off lines (R262, R267). -/
def clearTrips (d : Dev) : Dev :=
  (List.range 48).foldl (fun d n => (d.setLeg n { d.leg n with trip := none }).legSync n)
    { d with gsup := { d.gsup with softoff := [] } }

/-- On a mode change every leg whose enable the new mode forbids is disabled, without a fault (R261), and the states
follow the mode. -/
def legsMode (d : Dev) : Dev :=
  (List.range 48).foldl (fun d n =>
    let d := if d.legPermitted n || (d.legState n == 0 && !(d.leg n).enabling) then d else d.legRequest n false
    d.legSync n) d

/-! ### Shadow sets and commits (R251 to R255) -/

/-- Records an ignored write in PWM.WRITE_ERR (R30, R278). -/
def legWriteErr (d : Dev) (leg src : Nat) : Dev :=
  ((d.set R.PWM_WRITE_ERR_LEG leg).set R.PWM_WRITE_ERR_SRC src).incSat R.PWM_WRITE_ERR_COUNT

/-- PENDING and FROZEN follow the leg's sets. -/
def setSync (d : Dev) (leg : Nat) : Dev :=
  (d.setB (R.PWM_LEG_STAT_PENDING leg) (d.leg leg).pend.isSome).setB (R.PWM_LEG_STAT_FROZEN leg) (d.leg leg).frozen.isSome

/-- Live compare of a stored word: its ticks, and NEG_DUTY where the word sets it. -/
def liveCompare (d : Dev) (leg word p : Nat) (f : Fld) : Dev :=
  let c := compareTicks (d.legFrac leg) word p
  let d := d.set f (coarseTicks (d.leg leg).coarse c.1)
  if c.2 then d.set (R.PWM_LEG_STAT_NEG_DUTY leg) 1 else d

/-- The live compares and the live dead time follow their stored words at every reload (R249, R514). -/
def recompute (d : Dev) (leg : Nat) : Dev :=
  let p := d.livePeriod leg
  let l := d.leg leg
  let d := d.set (R.PWM_LEG_LIVE_DT_DT leg) (coarseTicks l.coarse l.wordDt)
  (d.liveCompare leg l.wordA p (R.PWM_LEG_LIVE_CMPA_C leg)).liveCompare leg l.wordB p (R.PWM_LEG_LIVE_CMPB_C leg)

/-- Applies the set group of a set (R254, R255). -/
def applyGroup (d : Dev) (leg : Nat) (x : LegSet) : Dev :=
  let p0 := d.livePeriod leg
  let p := x.period.getD p0
  if p < 0x1000 then (d.set (R.PWM_LEG_STAT_SET_REJ leg) 1).raise (legIsland leg) 49 leg
  else
    let stale := p != p0 && (x.cmpa.isNone || (d.legIndep leg && x.cmpb.isNone))
    let d := if stale then (d.set (R.PWM_LEG_STAT_STALE_DUTY leg) 1).incSat (R.PWM_LEG_CNT_STALE leg) else d
    let carry (w c : Nat) : Nat := if p != p0 && !d.legFrac leg then min c p else w
    let l := d.leg leg
    let a := match x.cmpa with | some w => w | none => carry l.wordA (d.get (R.PWM_LEG_LIVE_CMPA_C leg))
    let b := match x.cmpb with | some w => w | none => carry l.wordB (d.get (R.PWM_LEG_LIVE_CMPB_C leg))
    let d := d.setLeg leg { l with wordA := a, wordB := b, wordDt := x.dt.getD l.wordDt }
    (d.set (R.PWM_LEG_LIVE_PERIOD_P leg) p).recompute leg

/-- A set applies: the set group, or its refusal, and EVT (R253, R255). -/
def applySet (d : Dev) (leg : Nat) (x : LegSet) : Dev :=
  (d.applyGroup leg x).applyReg ((R.PWM_LEG_EVT_POS leg).addr, x.evt)

/-- Writes a field of a leg's shadow by its code (R251): 0 CMPA, 1 CMPB, 2 PERIOD, 3 DT, 4 EVT. -/
def legField (d : Dev) (leg code v : Nat) : Dev :=
  let v := v % 2 ^ 24
  let d := match code with
    | 0 => d.set (R.PWM_LEG_CMPA_C leg) v
    | 1 => d.set (R.PWM_LEG_CMPB_C leg) v
    | 2 => d.set (R.PWM_LEG_PERIOD_P leg) (v / 32 * 32)
    | 3 => d.set (R.PWM_LEG_DT_DT leg) v
    | _ => d.set (R.PWM_LEG_EVT_POS leg) (v / 32 * 32)
  let l := d.leg leg
  if code ≤ 3 ∧ !l.fresh.contains code then d.setLeg leg { l with fresh := l.fresh ++ [code] } else d

/-- The capture of a leg's shadow (R90, R94). -/
def legCapture (d : Dev) (leg : Nat) : LegSet :=
  let fresh := (d.leg leg).fresh
  let pick (code : Nat) (f : Fld) : Option Nat := if fresh.contains code then some (d.get f) else none
  ⟨pick 2 (R.PWM_LEG_PERIOD_P leg), pick 0 (R.PWM_LEG_CMPA_C leg), pick 1 (R.PWM_LEG_CMPB_C leg),
    pick 3 (R.PWM_LEG_DT_DT leg), d.rdw (R.PWM_LEG_EVT_POS leg).addr⟩

/-- A commit of a leg: at once with the block disabled; else a pending set that replaces an unfrozen one whole, and that
counts as late inside the guard window (R252, R253). -/
def legCommit (d : Dev) (leg : Nat) : Dev :=
  let x := d.legCapture leg
  let d := d.setLeg leg { d.leg leg with fresh := [] }
  if !d.isSet R.PWM_CTRL_EN then (d.applySet leg x).setSync leg
  else
    let l := d.leg leg
    let d := if l.pend.isSome then d.incSat R.CFG_WERR_INFO_REPLACED else d
    let d := if l.window then d.incSat (R.PWM_LEG_CNT_COMMIT_LATE leg) else d
    (d.setLeg leg { l with pend := some x }).setSync leg

/-- The guard window opens: the pending set is frozen (R253). -/
def legWindow (d : Dev) (leg : Nat) : Dev :=
  let l := d.leg leg
  if !d.isSet R.PWM_CTRL_EN || l.window then d
  else
    match l.pend with
    | some x => (d.setLeg leg { l with window := true, frozen := some x, pend := none }).setSync leg
    | none => d.setLeg leg { l with window := true }

/-! ### The reload -/

/-- The period ends: the interlock's account of it, and that of the bootstrap refresh (R257, R259). A leg whose outputs a
confirmation has frozen follows no period (R267). -/
def periodEnd (d : Dev) (leg : Nat) (misplaced : Bool) : Dev :=
  let l := d.leg leg
  let p := d.livePeriod leg
  let runs := d.legState leg == 1 && l.softoff.isNone
  let r := d.legRun leg p
  let k := (if runs then r.k else l.lock).shift (d.legA leg) p
  let d := if runs && (r.held || misplaced) then d.shoot leg else d
  let d := d.setLeg leg { d.leg leg with lock := k, start := 0, at' := d.time.short }
  let l := d.leg leg
  if !d.isSet (R.PWM_LEG_MAP_BOOT leg) || d.legIndep leg || !runs then
    d.setLeg leg { l with short := 0, refresh := false }
  else
    let width := 32 * d.get (R.PWM_LEG_BOOT_WIDTH leg)
    if l.refresh then
      let d := (d.setLeg leg { l with short := 0, refresh := false }).incWrap (R.PWM_LEG_CNT_REFRESH leg)
      if p < 2 * (width + d.get (R.PWM_LEG_LIVE_DT_DT leg)) then d.set (R.PWM_LEG_STAT_REFRESH_CLIP leg) 1 else d
    else if r.lowOn < width then
      let n := l.short + 1
      d.setLeg leg { l with short := n, refresh := decide (d.get (R.PWM_LEG_BOOT_K leg) ≤ n) }
    else d.setLeg leg { l with short := 0 }

/-- Failed taps are replaced by free spares at a boundary with the leg not in RUN, or the leg runs coarse from there (R514,
R515). -/
def tapBind (d : Dev) (leg : Nat) : Dev :=
  let l := d.leg leg
  if d.legState leg = 1 then d
  else l.badTap.foldl (fun d t => d.tapRepair leg t) (d.setLeg leg { l with badTap := [] })


/-- A sweep of an input counts the periods of its leg: every EVERY-th has a measuring pulse (R272). -/
def sweepPeriod (d : Dev) (leg : Nat) : Dev :=
  (List.range 24).foldl (fun d k =>
    match Sparse.at' none d.gsup.sweeps k with
    | some w =>
      if d.get (R.GSUP_OSV_CFG_LEG k) = leg ∧ d.isSet (R.GSUP_OSV_SWEEP_EN k) then
        let n := w.periods + 1
        let go := decide (d.get (R.GSUP_OSV_SWEEP_EVERY k) ≤ n)
        let w' := { w with periods := if go then 0 else n, pulse := go, read := false }
        { d with gsup := { d.gsup with sweeps := Sparse.put none d.gsup.sweeps k (some w') } }
      else d
    | none => d) d

/-- Addresses of the staged registers of the GSUP inputs assigned to a leg (R92, R280). -/
def gsupOf (d : Dev) (leg a : Nat) : Bool :=
  decide (0x40024100 ≤ a) && decide (a < 0x40024400) &&
    d.get (R.GSUP_OSV_CFG_LEG ((a - 0x40024100) / 0x20)) == leg

/-- The period boundary (R253, R254, R259, R261, R92). -/
def reload (d : Dev) (leg : Nat) (misplaced : Bool) : Dev :=
  if !d.isSet R.PWM_CTRL_EN then d
  else
    let d := (d.periodEnd leg misplaced).tapBind leg
    let l := d.leg leg
    let d := d.setLeg leg { l with window := false, frozen := none }
    let d := match l.frozen with | some x => d.applySet leg x | none => d
    let d := ((d.recompute leg).applyPend (d.gsupOf leg)).sweepPeriod leg
    let d := if (d.leg leg).enabling ∧ d.legState leg = 0 then
        (d.setLeg leg { d.leg leg with enabling := false }).toState leg 1 0 else d
    d.setSync leg

/-! ### Commit words (R29, R30, R251, R328) -/

/-- The first commit word that a PWM island, ISO or the sequencer takes from the surviving lane releases HOLD; LANE_SWITCH
is raised where the active lane changed (R328 step 8). -/
def holdRelease (d : Dev) : Dev :=
  match d.lc.hold with
  | none => d
  | some h =>
    if !h.decided then d
    else
      let d := (({ d with lc := { d.lc with hold := none } }).set R.LANE_STATUS_HOLD 0).request islGUARD 3
      let gap := min ((d.time.short - h.reference) / 10) 0xFFFF
      let d := d.set R.LANE_GAP_LAST gap
      let d := if d.get R.LANE_GAP_MAX < gap then d.set R.LANE_GAP_MAX gap else d
      let now := d.get R.LANE_STATUS_ACTIVE
      if now ≠ h.active then (d.incSat R.LANE_CNT_SWITCH).raise islGUARD 72 now now else d

/-- The front commit word of a PWM island's channel with a field code that satisfies `p` (R13, R16). -/
def frontCommit (d : Dev) (lane : Nat) (hi : Bool) (p : Nat → Bool) : Option (CommitWord × Dev) :=
  let ch := (if lane = 0 then 0x10 else 0x18) + b2n hi
  match d.take ch (6 + b2n hi) with
  | some (.commit c, d') => if p c.field then some (c, d') else none
  | _ => none

/-- A commit word taken by a PWM island: nothing unless its lane is active (R29); recorded where the leg is not the
Weave's (R30); else its effect, and the leg's commit with END. -/
def legWord (d : Dev) (lane : Nat) (c : CommitWord) (eff : Dev → Dev) : Dev :=
  if d.laneState lane ≠ 1 then d
  else
    let d := d.holdRelease
    match d.legOwner c.unit with
    | 1 => let d := eff d; if c.fin then d.legCommit c.unit else d
    | 2 => d.legWriteErr c.unit 1
    | _ => d.legWriteErr c.unit 3

/-- The command of a commit word with field code `code`. -/
def commitField (d : Dev) (lane : Nat) (hi : Bool) (code : Nat) : Dev :=
  match d.frontCommit lane hi (· == code) with
  | some (c, d') => d'.legWord lane c fun d => d.legField c.unit code c.value.toNat
  | none => d

/-! ### Gate supervision (R264 to R272) -/

/-- Sets CONCURRENT in the context of a GSUP report, on its channel, in its staging slot or in the log (R269). -/
def markConcurrent (d : Dev) (src time : Nat) : Dev :=
  let mark (e : LogEntry) : LogEntry := if e.src == src && e.stamp == word time then { e with ctx := e.ctx ||| 0x100 } else e
  { d with
    acc := { d.acc with staged := d.acc.staged.map mark, fifo := d.acc.fifo.map mark }
    hoop := d.hoop.map fun e =>
      match e.w with
      | .report r => if r.src == src && r.time == time then { e with w := .report { r with ctx := r.ctx ||| 0x100 } } else e
      | _ => e }

/-- A confirmation raises its source; confirmations on different inputs within 20 ns of the first carry its stamp, and all
of them are marked (R269, R273). One of the first's own input stands for itself. -/
def gsupRaise (d : Dev) (isl src ctx : Nat) : Dev :=
  let now := d.time.short
  let near := match d.gsup.first with | some f => decide (f.1 ≤ now) && decide (now ≤ f.1 + 20) | none => false
  match d.gsup.first, near with
  | some f, true =>
    if f.2 = src then d.raise isl src ctx
    else (d.markConcurrent f.2 f.1).send (0x30 + isl) islGUARD (.report ⟨src, word (ctx + 0x100), 2, f.1, false⟩)
  | _, _ => { d with gsup := { d.gsup with first := some (now, src) } }.raise isl src ctx

/-- A leg takes a trip cause, unless it has one or its soft-off delay runs (R267, R268). -/
def tripLeg (d : Dev) (leg cause : Nat) : Dev :=
  let l := d.leg leg
  if l.softoff.isSome || l.trip.isSome then d else (d.setLeg leg { l with trip := some cause }).legSync leg

/-- Every other leg of the leg's group takes HIZ with cause GROUP (R268). -/
def groupTrip (d : Dev) (leg : Nat) : Dev :=
  let g := d.get (R.PWM_LEG_MAP_GROUP leg)
  (List.range 48).foldl (fun d n => if n != leg && d.get (R.PWM_LEG_MAP_GROUP n) == g then d.tripLeg n 6 else d) d

/-- The sequence of R267 on input k: freeze and soft-off, or HIZ at once, with the group where GRP = 1 (R268). -/
def confirm (d : Dev) (k cause : Nat) : Dev :=
  let leg := d.get (R.GSUP_OSV_CFG_LEG k)
  let l := d.leg leg
  let grp := d.isSet (R.GSUP_OSV_CFG_GRP k)
  let isl := legIsland leg
  let ctx := leg + 64 * d.get (R.GSUP_OSV_CFG_SIDE k) + 128 * (cause - 3)
  let d := (d.setBit (fun _ => R.GSUP_TRIPPED_OSV) k true).gsupRaise isl k ctx
  let d := if cause = 3 then d.setCond k true else d
  if l.softoff.isSome then d.setLeg leg { d.leg leg with groupWait := l.groupWait || grp }
  else if l.trip.isNone && d.isSet (R.GSUP_OSV_CFG_SOFTOFF k) && d.isSet (R.PWM_LEG_MAP_SOFTOFF leg) then
    let d := { d.legCut leg with gsup := { d.gsup with softoff := d.gsup.softoff.filter (· != k) ++ [k] } }
    (d.setLeg leg { d.leg leg with softoff := some (k, cause), groupWait := grp }).set (R.PWM_LEG_STAT_SOFTOFF_ACT leg) 1
  else
    let d := d.tripLeg leg cause
    if grp then d.groupTrip leg else d

/-- A confirmation can come on input k: supervision and input are enabled and the leg's outputs are driven (R265). -/
def osvLive (d : Dev) (k : Nat) : Bool :=
  d.isSet R.GSUP_CTRL_EN && d.isSet (R.GSUP_OSV_CFG_EN k) && d.legState (d.get (R.GSUP_OSV_CFG_LEG k)) == 1

/-- Channel on which the window comparators of converter `conv` reach the island of input `k`, and the island (R16). -/
def wcChannel (conv k : Nat) : Nat × Nat :=
  let hi := if k < 12 then 0 else 1
  ((if conv < 2 then 0x20 else 0x22) + hi, 6 + hi)

/-- The Ledger takes a sweep's code while its gate is open: the first one is BASE, each later one LAST (R508). -/
def ledgerSweep (d : Dev) (k code : Nat) : Dev :=
  if !(d.get R.LEDGER_OSV_GATE_BITS).testBit k then d
  else if !d.led.osvBase.contains k then
    { d.set (R.LEDGER_OSVB_BASE k) code with led := { d.led with osvBase := d.led.osvBase ++ [k] } }
  else
    { d.set (R.LEDGER_OSVB_LAST k) code with led := { d.led with osvLast := d.led.osvLast.filter (· != k) ++ [k] } }

/-- Firmware has written BASE: a code that it restores, or 0, after which the next code taken is BASE (R508, R511). -/
def osvWritten (d : Dev) (k : Nat) : Dev :=
  let others := d.led.osvBase.filter (· != k)
  if d.get (R.LEDGER_OSVB_BASE k) = 0 then
    { d with led := { d.led with osvBase := others, osvLast := d.led.osvLast.filter (· != k) } }
  else { d with led := { d.led with osvBase := others ++ [k] } }

/-- One reading of a measuring pulse; the eighth ends the search (R272). -/
def sweepRead (d : Dev) (k : Nat) (active : Bool) : Dev :=
  match Sparse.at' none d.gsup.sweeps k with
  | none => d
  | some w =>
    let mid := (w.lo + w.hi) / 2
    let w' : Sweep := if w.hi ≤ w.lo then { w with pulses := w.pulses + 1 }
      else if active then { w with lo := mid + 1, pulses := w.pulses + 1 } else { w with hi := mid, pulses := w.pulses + 1 }
    let put (x : Sweep) (d : Dev) : Dev := { d with gsup := { d.gsup with sweeps := Sparse.put none d.gsup.sweeps k (some x) } }
    if w'.pulses < 8 then put { w' with read := true } d
    else
      let d := put { w' with lo := 0, hi := d.act (R.GSUP_OSV_TH_THRESH k), pulses := 0, read := true } d
      let d := ((d.set (R.GSUP_OSV_SWRES_CODE k) w'.lo).set (R.GSUP_OSV_SWRES_VALID k) 1).incWrap (R.GSUP_OSV_SWRES_SEQ k)
      (d.set (R.GSUP_OSV_SWSTAMP_TIME k) d.time.short).ledgerSweep k w'.lo

/-- The measuring pulse of a sweep on input k (R272): every reading in it is a measurement. -/
def sweepPulse (d : Dev) (k : Nat) : Bool :=
  d.isSet (R.GSUP_OSV_SWEEP_EN k) && match Sparse.at' none d.gsup.sweeps k with | some w => w.pulse | none => false

/-- The counter of a leg starts at its PHASE (R246). -/
def legStart (d : Dev) (n : Nat) : Dev :=
  let l := d.leg n
  let new := d.get (R.PWM_LEG_PHASE_PHASE n) % d.livePeriod n
  let move (x : Int) : Int := max (-4096) (x + new - d.legPos n)
  let k := { l.lock with hOff := move l.lock.hOff, lOff := move l.lock.lOff, a := false, aEdge := -4096 }
  d.setLeg n { l with start := new, at' := d.time.short, lock := k }

/-- PWM.CTRL.EN set: every leg counter starts at its PHASE (R246). -/
def pwmEnable (d : Dev) : Dev :=
  if d.isSet R.PWM_CTRL_EN then d
  else (List.range 48).foldl (fun d n => (d.legStart n).legSync n) (d.set R.PWM_CTRL_EN 1)

/-- The supervision inputs of a leg that are inactive raise no condition any more (R347): comparators and driver inputs. -/
def inputsQuiet (d : Dev) (leg : Nat) : Dev :=
  (List.range 24).foldl (fun d k =>
    let d := if d.get (R.GSUP_OSV_CFG_LEG k) = leg then d.setCond k false else d
    if d.get (R.GSUP_DRV_CFG_LEG k) = leg then d.setCond (24 + k) false else d) d

end Dev

/-! ### Commands -/

/-- LEG_COMMIT: the bus write of LEGn_COMMIT; ignored and recorded on a leg that the bus does not own (R252, R30). -/
def execLegCommit (leg : Fin 48) (s : State) : Host.Outcome State Fault Refusal :=
  .next <| s.onDev fun d =>
    match d.legOwner leg.val with
    | 2 => d.legCommit leg.val
    | 1 => d.legWriteErr leg.val 0
    | _ => d.legWriteErr leg.val 3

/-- GSUP_COMMIT (R92): each input's changes act at the next period of its leg; with the block, or the legs, disabled at
once (R91, log entry 53). -/
def execGsupCommit (s : State) : Host.Outcome State Fault Refusal :=
  .next <| s.onDev fun d =>
    d.commit 0x40024000 0x40025000 none (some R.GSUP_STATUS_INCOMPLETE) (fun _ => false) (d.isSet R.GSUP_CTRL_EN && d.isSet R.PWM_CTRL_EN)

/-- PWM_BLOCK_ENABLE: a write of PWM.CTRL.EN = 1 (R246). -/
def execPwmBlockEnable (s : State) : Host.Outcome State Fault Refusal := .next <| s.onDev fun d => d.pwmEnable

/-- PWM_RESYNC: legs of the named groups that are disabled or in HIZ restart at their PHASE; an enabled one sets WERR
(R246). -/
def execPwmResync (groups : BitVec 16) (s : State) : Host.Outcome State Fault Refusal :=
  .next <| s.onDev fun d =>
    (List.range 48).foldl (fun d n =>
      if groups.toNat.testBit (d.get (R.PWM_LEG_MAP_GROUP n)) then
        if d.legState n = 1 then d.note R.PWM_STATUS_WERR else d.legStart n
      else d) d

/-- PERIOD_EVENT: the counter reaches the live EVT, where that lies inside the period (R247). -/
def execPeriodEvent (leg : Fin 48) (s : State) : Host.Outcome State Fault Refusal :=
  .next <| s.onDev fun d =>
    if d.isSet R.PWM_CTRL_EN ∧ d.act (R.PWM_LEG_EVT_POS leg.val) < d.livePeriod leg.val then
      d.event 2 leg.val d.time.short
    else d

/-- GUARD_WINDOW_OPEN (R253). -/
def execGuardWindowOpen (leg : Fin 48) (s : State) : Host.Outcome State Fault Refusal :=
  .next <| s.onDev fun d => d.legWindow leg.val

/-- PWM_RELOAD: the period boundary; `misplacedEdge` says that a delay-line edge of the period met the interlock (R253,
R257). -/
def execPwmReload (leg : Fin 48) (misplacedEdge : Bool) (s : State) : Host.Outcome State Fault Refusal :=
  .next <| s.onDev fun d => d.reload leg.val misplacedEdge

/-- COMMIT_WORD_CMPA: code 0x0 (R251). -/
def execCommitWordCmpa (lane : Fin 2) (hi : Bool) (s : State) : Host.Outcome State Fault Refusal :=
  .next <| s.onDev fun d => d.commitField lane.val hi 0

/-- COMMIT_WORD_CMPB: code 0x1 (R251). -/
def execCommitWordCmpb (lane : Fin 2) (hi : Bool) (s : State) : Host.Outcome State Fault Refusal :=
  .next <| s.onDev fun d => d.commitField lane.val hi 1

/-- COMMIT_WORD_PERIOD: code 0x2 (R251). -/
def execCommitWordPeriod (lane : Fin 2) (hi : Bool) (s : State) : Host.Outcome State Fault Refusal :=
  .next <| s.onDev fun d => d.commitField lane.val hi 2

/-- COMMIT_WORD_DT: code 0x3 (R251). -/
def execCommitWordDt (lane : Fin 2) (hi : Bool) (s : State) : Host.Outcome State Fault Refusal :=
  .next <| s.onDev fun d => d.commitField lane.val hi 3

/-- COMMIT_WORD_EVT: code 0x4 (R251). -/
def execCommitWordEvt (lane : Fin 2) (hi : Bool) (s : State) : Host.Outcome State Fault Refusal :=
  .next <| s.onDev fun d => d.commitField lane.val hi 4

/-- COMMIT_WORD_ENABLE: code 0x5, an enable or disable request (R251, R261). -/
def execCommitWordEnable (lane : Fin 2) (hi : Bool) (s : State) : Host.Outcome State Fault Refusal :=
  .next <| s.onDev fun d =>
    match d.frontCommit lane.val hi (· == 5) with
    | some (c, d') => d'.legWord lane.val c fun d => d.legRequest c.unit (bitAt c.value.toNat 0)
    | none => d

/-- COMMIT_WORD_RESERVED: codes 0x6 to 0xF: the word is discarded and recorded with SRC = 2 (R251). -/
def execCommitWordReserved (lane : Fin 2) (hi : Bool) (s : State) : Host.Outcome State Fault Refusal :=
  .next <| s.onDev fun d =>
    match d.frontCommit lane.val hi fun f => decide (6 ≤ f) with
    | some (c, d') => if d'.laneState lane.val = 1 then d'.holdRelease.legWriteErr c.unit 2 else d'
    | none => d

/-- LEG_ENABLE_REQUEST: the bus write of LEGn_CTRL.EN (R261, R30). -/
def execLegEnableRequest (leg : Fin 48) (en : Bool) (s : State) : Host.Outcome State Fault Refusal :=
  .next <| s.onDev fun d =>
    match d.legOwner leg.val with
    | 2 => d.legRequest leg.val en
    | 1 => d.legWriteErr leg.val 0
    | _ => d.legWriteErr leg.val 3

/-- LEG_CLR_FAULT: a write of CLR_FAULT = 1; `inputsInactive` says that every comparator and driver input of the leg is
inactive (R262, R267). -/
def execLegClrFault (leg : Fin 48) (inputsInactive : Bool) (s : State) : Host.Outcome State Fault Refusal :=
  .next <| s.onDev fun d =>
    let n := leg.val
    let l := d.leg n
    let d := if inputsInactive then d.inputsQuiet n else d
    if d.mode ≠ 10 ∧ inputsInactive ∧ l.softoff = none then
      let d := { d with gsup := { d.gsup with softoff := d.gsup.softoff.filter fun k => d.get (R.GSUP_OSV_CFG_LEG k) != n } }
      (d.setLeg n { l with trip := none }).legSync n
    else d.set (R.PWM_LEG_STAT_WERR n) 1

/-- TAP_DRIFT: a delay-line tap drifts beyond 39 ps (R258, R515). -/
def execTapDrift (leg : Fin 48) (tap : Fin 32) (s : State) : Host.Outcome State Fault Refusal :=
  .next <| s.onDev fun d =>
    let n := leg.val
    ((d.setLeg n { d.leg n with badTap := (d.leg n).badTap.filter (· != tap.val) ++ [tap.val] }).set (R.PWM_LEG_STAT_TAP n) 1).raise (Dev.legIsland n) 50
      (n + 64 * tap.val)

/-- DESAT_CONFIRM: the comparator of input k has been active for CONF cycles after blanking (R265, R267). In a measuring
pulse its reading is never a desaturation (R272). -/
def execDesatConfirm (k : Fin 24) (s : State) : Host.Outcome State Fault Refusal :=
  .next <| s.onDev fun d => if d.osvLive k.val && !d.sweepPulse k.val then d.confirm k.val 3 else d

/-- GUARD_TRIP: an out-of-window report of input k's guard comparator arrives inside the guard window (R266). -/
def execGuardTrip (k : Fin 24) (s : State) : Host.Outcome State Fault Refusal :=
  .next <| s.onDev fun d =>
    let conv := d.act (R.GSUP_OSV_GUARD_ADC k.val)
    let wc := d.act (R.GSUP_OSV_GUARD_WC k.val)
    let ch := Dev.wcChannel conv k.val
    match d.take ch.1 ch.2 with
    | some (w, d') =>
      if w = .wcState conv wc true ∧ d.act (R.GSUP_OSV_GUARD_EN k.val) ≠ 0 ∧ d.osvLive k.val then d'.confirm k.val 4 else d
    | none => d

/-- SOFTOFF_DELAY_END: the leg enters HIZ, with its group where a confirmation asked for it (R267, R268). -/
def execSoftoffDelayEnd (leg : Fin 48) (s : State) : Host.Outcome State Fault Refusal :=
  .next <| s.onDev fun d =>
    let n := leg.val
    let l := d.leg n
    match l.softoff with
    | none => d
    | some x =>
      let d := (d.setLeg n { l with softoff := none, groupWait := false, trip := some x.2 }).legSync n
      let d := d.set (R.PWM_LEG_STAT_SOFTOFF_ACT n) 0
      if l.groupWait then d.groupTrip n else d

/-- DRVFLT_CONFIRM: driver fault input k has been active for FILT cycles (R270). -/
def execDrvfltConfirm (k : Fin 24) (s : State) : Host.Outcome State Fault Refusal :=
  .next <| s.onDev fun d =>
    if d.isSet R.GSUP_CTRL_EN ∧ d.isSet (R.GSUP_DRV_CFG_EN k.val) then
      let leg := d.get (R.GSUP_DRV_CFG_LEG k.val)
      let d := (d.setBit (fun _ => R.GSUP_DRVTRIP_DRV) k.val true).gsupRaise (Dev.legIsland leg) (24 + k.val) leg
      let d := d.setCond (24 + k.val) true
      let grp := d.isSet (R.GSUP_DRV_CFG_GRP k.val)
      let l := d.leg leg
      if l.softoff.isSome then d.setLeg leg { l with groupWait := l.groupWait || grp }
      else
        let d := d.tripLeg leg 5
        if grp then d.groupTrip leg else d
    else d

/-- OSV_SWEEP_START: a write of OSVk_SWEEP with EN = 1, refused with no guard comparator enabled (R272). -/
def execOsvSweepStart (k : Fin 24) (every sample : BitVec 8) (s : State) : Host.Outcome State Fault Refusal :=
  .next <| s.onDev fun d =>
    let n := k.val
    let d := d.set (R.GSUP_OSV_SWEEP_SAMPLE n) sample.toNat
    let d := if every = 0 then d.note R.GSUP_STATUS_WERR else d.set (R.GSUP_OSV_SWEEP_EVERY n) every.toNat
    if d.act (R.GSUP_OSV_GUARD_EN n) = 0 then
      (d.set (R.GSUP_OSV_SWEEP_EN n) 0).set (R.GSUP_OSV_SWEEP_REFUSED n) 1
    else
      let w : Sweep := { lo := 0, hi := d.act (R.GSUP_OSV_TH_THRESH n), pulses := 0 }
      let d := { d with gsup := { d.gsup with sweeps := Sparse.put none d.gsup.sweeps n (some w) } }
      (d.set (R.GSUP_OSV_SWEEP_EN n) 1).set (R.GSUP_OSV_SWRES_VALID n) 0

/-- OSV_SWEEP_SAMPLE: the comparator is read, once in a measuring pulse (R272). A pulse that ends unread is repeated at the
next measuring opportunity, EVERY periods later. -/
def execOsvSweepSample (k : Fin 24) (active : Bool) (s : State) : Host.Outcome State Fault Refusal :=
  .next <| s.onDev fun d =>
    let read := match Sparse.at' none d.gsup.sweeps k.val with | some w => w.read | none => true
    if d.sweepPulse k.val && !read && d.osvLive k.val then d.sweepRead k.val active else d

end Sys2Proof.Machine
end

