-- ==== Sys2Proof/Machine/Lane.lean ====
section
/-! DEFINITION. Redundant lanes and switchover (chapter 10): matching and comparing commit words, the hold sequence,
mirroring, restart and swap. -/

namespace Sys2Proof.Machine

open Dev (islGUARD)

/-- The key of a commit word is that of another (R324). -/
def CommitWord.sameKey (a b : CommitWord) : Bool :=
  a.ls == b.ls && a.run == b.run && a.kind == b.kind && a.unit == b.unit && a.field == b.field && a.occ == b.occ

/-- Copies `n` bytes of memory from `src` to `dst`. -/
def Mem.copy (m : Mem) (src dst n : Nat) : Mem :=
  (m.filter fun c => src ≤ c.1 && c.1 < src + n).foldl (fun m c => Mem.wr m (c.1 - src + dst) c.2)
    (m.filter fun c => !(dst ≤ c.1 && c.1 < dst + n))

namespace Dev

/-- Tolerance of a leg (R325, R341). -/
def tol (d : Dev) (leg : Nat) : Nat :=
  let i := leg / 4
  match leg % 4 with
  | 0 => d.get (R.LANE_TOL_TOL0 i)
  | 1 => d.get (R.LANE_TOL_TOL1 i)
  | 2 => d.get (R.LANE_TOL_TOL2 i)
  | _ => d.get (R.LANE_TOL_TOL3 i)

/-- Two words of one key agree (R325). -/
def agree (d : Dev) (a b : CommitWord) : Bool :=
  if a.kind = 0x10 then
    let x := a.value.toNat % 2 ^ 24
    let y := b.value.toNat % 2 ^ 24
    a.fin == b.fin && (if a.field ≤ 1 then decide (x ≤ y + d.tol a.unit) && decide (y ≤ x + d.tol a.unit) else x == y)
  else a.value == b.value

/-- A relay command goes on to ISO, a mode commit to the sequencer (R327, R16). Mode commits come from Loop Set 15 alone
(R284; log entry 166). -/
def passOn (d : Dev) (c : CommitWord) : Dev :=
  if c.kind = 0x11 then { d with lc := { d.lc with relays := d.lc.relays ++ [(c.unit, c.value)] } }
  else if c.kind = 0x12 ∧ c.ls = 15 then d.send 0x1C 0 (.mode c.value)
  else d

def activeLane (d : Dev) : Nat := d.get R.LANE_STATUS_ACTIVE

/-- Comparison ends: words of the active lane that waited for their partners pass on (R326, R327). -/
def dropTable (d : Dev) : Dev :=
  let now := d.lc.table.filter fun c => c.lane == d.activeLane && !d.lc.sent.contains c
  now.foldl passOn { d with lc := { d.lc with table := [], sent := [] } }

/-! ### The hold sequence (R328 to R335) -/

/-- The Loop Set has a route of KIND 0x10 (R333). -/
def commitsLegs (d : Dev) (l : LoopSet) : Bool :=
  d.pat.routes.any fun r => r.kind == 0x10 && (d.stream l r.srcUnit).any fun w =>
    (opWord w).opc == 2 && (opWord w).dst == r.srcItem

/-- The resampler claims of step 3 (R333); RS_TMAX, in 100 ns, and T_in are both counted in SDM cycles of 10 ns. -/
def claimAll (d : Dev) : Dev :=
  let tmax := d.get R.LANE_CFG_RS_TMAX * 10
  (List.range 24).foldl (fun d n =>
    let tin := d.sdTin n
    let claimed := match (d.sd n).rs with | some r => r.claimed | none => false
    if d.isSet (R.SDF_CH_CFG_EN n) && d.sdPreset n != 3 && tmax != 0 && decide (tmax < tin) && !claimed &&
        d.pat.loopsets.any fun l => l.kind == 1 && l.unit == n && d.commitsLegs l then
      d.sdClaim n (max (tmax * 2 ^ 24 / tin) 0x100000) 0
    else d) d

/-- A lane is held: its pending triggers are discarded and counted (R328 step 1). -/
def holdLane (d : Dev) (n : Nat) : Dev :=
  let l := d.lane n
  let d := d.incSat R.LANE_CNT_HOLD_TRIG l.pend.length
  ((d.setLane n { l with pend := [], mirroring := [] }).laneSync n).setLaneState n 4

/-- Steps 1 to 3 of the hold sequence (R328). -/
def holdStart (d : Dev) (swap : Bool) : Dev :=
  let act := d.activeLane
  let o := 1 - act
  let h : Hold := ⟨d.time.short, swap, act, d.laneState o == 2, d.laneState o, false, false⟩
  let lc := { d.lc with table := [], sent := [], bufs := [], half := [], both := [], missed := [], hold := some h }
  let d := { d with lc := lc }.set R.LANE_STATUS_HOLD 1
  ((d.holdLane 0).holdLane 1).claimAll

/-- LAST and its companions (R326, R343). -/
def recordMismatch (d : Dev) (kind : Nat) (c : CommitWord) (va vb : Word) : Dev :=
  let d := (d.set R.LANE_LAST_KIND kind).set R.LANE_LAST_TARGET (c.kind - 0x10)
  let d := ((d.set R.LANE_LAST_UNIT c.unit).set R.LANE_LAST_FIELD c.field).set R.LANE_LAST_LOOPSET c.ls
  let d := (d.set R.LANE_LAST_VAL_A_VAL va.toNat).set R.LANE_LAST_VAL_B_VAL vb.toNat
  d.set R.LANE_LAST_TIME_STAMP d.time.short

/-- A mismatch is decided: counted while the hold sequence runs or a lane is SYNCING, else it starts the sequence
(R326, R328, R335, R337). -/
def mismatch (d : Dev) (kind : Nat) (c : CommitWord) (va vb : Word) : Dev :=
  let d := d.recordMismatch kind c va vb
  let syncing := d.laneState 0 == 3 || d.laneState 1 == 3
  let d := if syncing then
      let n := if d.laneState 0 = 3 then 0 else 1
      let l := d.lane n
      { d.setLane n { l with conv := Sparse.put 0 l.conv c.ls 0 } with
        lc := { d.lc with missed := d.lc.missed ++ [(c.ls, c.run)] } }
    else d
  if d.lc.hold.isSome then d.incSat R.LANE_CNT_MISMATCH
  else if syncing then d.incSat R.LANE_CNT2_CONV_MISS
  else
    let d := d.incSat R.LANE_CNT_MISMATCH
    if d.laneState (1 - d.activeLane) = 2 then
      (d.holdStart false).raise islGUARD 71 (bits (d.rdw 0x4000A048).toNat 0 18)
    else d

/-- A word no longer waits for its partner. -/
def untable (d : Dev) (c : CommitWord) : Dev :=
  { d with lc := { d.lc with table := d.lc.table.filter (· != c), sent := d.lc.sent.filter (· != c) } }

/-- A commit word reaches LANE (R324 to R327). While a lane is SYNCING the active lane's relay and mode words have been
passed on when they came. -/
def laneWord (d : Dev) (n : Nat) (c : CommitWord) : Dev :=
  let st := d.laneState n
  let ost := d.laneState (1 - n)
  let live (x : Nat) : Bool := x == 1 || x == 2 || x == 3
  if !live st then d
  else if !d.isSet R.LANE_CTRL_CMP_EN || !live ost then (if st = 1 then d.passOn c else d)
  else
    let syncing := st == 3 || ost == 3
    let d := if syncing && st == 1 then d.passOn c else d
    match d.lc.table.find? fun p => p.lane == 1 - n && p.sameKey c with
    | none =>
      let sent := if syncing && st == 1 then d.lc.sent ++ [c] else d.lc.sent
      { d with lc := { d.lc with table := d.lc.table ++ [c], sent := sent } }
    | some p =>
      let passed := (syncing && st == 1) || d.lc.sent.contains p
      let d := d.untable p
      let d :=
        if d.agree p c then (if passed then d else d.passOn c)
        else if n = 0 then d.mismatch 0 c c.value p.value
        else d.mismatch 0 c p.value c.value
      if syncing then d.converge else d

/-- A lane goes to STOPPED (R322, R323). -/
def toStopped (d : Dev) (n : Nat) : Dev := ((d.stopLane n).setLaneState n 0).laneStatus

/-- The standby goes to STOPPED: comparison, mirroring and a restart of it end, and LANE_STANDBY_LOST is raised (R323,
R332). -/
def standbyStop (d : Dev) (n : Nat) : Dev :=
  let d := d.dropTable
  let d := { d with lc := { d.lc with bufs := [], half := [], both := [], missed := [], restart := none, copying := false } }
  (d.toStopped n).raise islGUARD 73 n n

/-- A lane fault (R323): the standby stops, also while a hold sequence waits for its first commit; one against the active
lane starts the sequence, unless it runs, when the fault is counted (R335). -/
def laneFault (d : Dev) (n : Nat) : Dev :=
  let d := d.setLane n { d.lane n with faults := [d.time.short] }
  let holds := d.lc.hold.isSome
  let d := if holds then d.incSat R.LANE_CNT_MISMATCH else d
  match d.laneState n with
  | 1 => if holds then d else d.holdStart false
  | 2 => d.standbyStop n
  | 3 => d.standbyStop n
  | _ => d

/-- A lane has had a lane fault from 100 µs before the reference (R330 order 1). -/
def faulted (d : Dev) (ref n : Nat) : Bool := (d.lane n).faults.any fun t => decide (ref ≤ t + 100000)

/-- The outcome of R330: whether lane A and lane B lose, and the rule. -/
def blame (swap : Bool) (active : Nat) (fa fb ca cb : Bool) : Bool × Bool × Nat :=
  if fa || fb then (fa, fb, 0)
  else if ca || cb then (ca, cb, 1)
  else if swap then (active == 0, active == 1, 2)
  else (false, false, 3)

/-- A benign outcome, with the standby stopped at BENIGN_LIM of them within 1 s (R330 order 5, R332). -/
def benign (d : Dev) (standby : Nat) : Dev :=
  let now := d.time.short
  let ts := (d.lc.benign.filter fun t => decide (now < t + 1000000000)) ++ [now]
  let d := ({ d with lc := { d.lc with benign := ts } }).incSat R.LANE_CNT_BENIGN
  let lim := d.get R.LANE_CFG_BENIGN_LIM
  if lim ≠ 0 ∧ lim ≤ ts.length ∧ (d.laneState standby = 2 ∨ d.laneState standby = 3) then d.standbyStop standby else d

/-- A lane becomes the ACTIVE one; a lane that was STOPPED starts as R139 says (R331). -/
def toActive (d : Dev) (n : Nat) : Dev := (if d.laneRuns n then d else d.startLane n).setLaneState n 1

/-- Steps 6 and 7: blame, the lanes' new states, and the survivor takes triggers again (R328, R330, R331). A restart under
way ends (log entry 85). -/
def decide' (d : Dev) (h : Hold) (ca cb : Bool) : Dev :=
  let act := h.active
  let o := 1 - act
  let b := blame h.swap act (d.faulted h.reference 0) (d.faulted h.reference 1) ca cb
  let code := b2n b.1 + 2 * b2n b.2.1
  let actLoses := if act = 0 then b.1 else b.2.1
  let othLoses := if act = 0 then b.2.1 else b.1
  let d := (d.set R.LANE_BLAME_LOSER code).set R.LANE_BLAME_RULE b.2.2
  let d := { d with lc := { d.lc with hold := some { h with decided := true }, restart := none, copying := false } }
  let fit := h.synced && !d.isSet R.CFG_STATUS_SPLIT
  let d :=
    if actLoses && othLoses then ((d.toStopped o).toActive act).raise islGUARD 74 3
    else if actLoses then
      let d := if fit then d else d.raise islGUARD 74 code act
      (if b.2.2 = 2 then d.setLaneState act 2 else d.toStopped act).toActive o
    else if othLoses then (d.toStopped o).toActive act
    else (d.setLaneState o 2).toActive act
  let d := d.laneStatus
  if b.2.2 = 3 then d.benign o else d

/-! ### Mirroring (R336) -/

def onBuf (d : Dev) (p : MirrorBuf → Bool) (f : MirrorBuf → MirrorBuf) : Dev :=
  { d with lc := { d.lc with bufs := d.lc.bufs.map fun b => if p b then f b else b } }

/-- The words of a Loop Set's ranges, by lane-memory offset. -/
def mirrorWords (d : Dev) (m : Mem) (lane ls : Nat) : List (Nat × Word) :=
  (d.pat.mirror.filter fun r => r.ls == ls).flatMap fun r =>
    (List.range (r.len / 4)).map fun i => (r.off + 4 * i, Mem.word m (laneBase lane + r.off + 4 * i))

/-- The standby takes mirror writes. -/
def standbyOf (d : Dev) : Option Nat :=
  if d.laneState 0 = 1 ∧ (d.laneState 1 = 2 ∨ d.laneState 1 = 3) then some 1
  else if d.laneState 1 = 1 ∧ (d.laneState 0 = 2 ∨ d.laneState 0 = 3) then some 0
  else none

/-- The write of a mirror buffer starts (R336). -/
def mirrorStart (d : Dev) (ls : Nat) : Dev :=
  match d.standbyOf with
  | none => d
  | some n =>
    let l := d.lane n
    let go (b : MirrorBuf) : Bool := b.ls == ls && b.ready && b.standbyDone && !b.writing
    if (d.lc.bufs.any go) ∧ !(l.runs.any fun r => r.ls == ls) ∧ !l.mirroring.contains ls then
      (d.setLane n { l with mirroring := l.mirroring ++ [ls] }).onBuf go fun b => { b with writing := true }
    else d

/-! ### Restart (R337) -/

/-- The lane that is STOPPED while the other is ACTIVE. -/
def stoppedLane (d : Dev) : Option Nat :=
  if d.laneState 0 = 0 ∧ d.laneState 1 = 1 then some 0
  else if d.laneState 1 = 0 ∧ d.laneState 0 = 1 then some 1
  else none

def restartFail (d : Dev) (n step : Nat) : Dev :=
  let d := { d with lc := { d.lc with restart := none, copying := false, half := [], both := [], missed := [] } }
  let d := if d.laneState n = 0 then d else d.dropTable.toStopped n
  d.raise islGUARD 75 step n

/-- The restart's check vector, after lane BIST where TEST asks for it (R337 steps 1 and 2, R514). -/
def restartCheck (d : Dev) (r : Restart) (fails : Word) (bad : List BadUnit) : Dev :=
  let mine := bad.filter fun u => match u with | .stake l _ => l.val == r.lane | _ => false
  let t := if r.test then mine.foldl bistUnit (d.stakesTested (· == r.lane) mine, true) else (d, true)
  let d := if r.test then (t.1.mapSync.formSync r.lane).spareSync else t.1
  let d := d.set (if r.lane = 0 then R.LANE_CHK_A_STAKES else R.LANE_CHK_B_STAKES) fails.toNat
  if fails ≠ 0 ∨ !t.2 then d.restartFail r.lane 1
  else { d with lc := { d.lc with restart := some { r with checked := true }, copying := true } }

/-- The lane starts after the copy, in SYNCING (R337 step 4). -/
def restartStart (d : Dev) (r : Restart) : Dev :=
  let lc := { d.lc with restart := some { r with started := true }, copying := false, half := [], both := [], missed := [] }
  ((({ d with lc := lc }).startLane r.lane).setLaneState r.lane 3).laneStatus.converge

end Dev

/-! ### Commands -/

/-- LANE_COMMIT_WORD: LANE takes the oldest word of a lane's channel (R324). -/
def execLaneCommitWord (lane : Fin 2) (s : State) : Host.Outcome State Fault Refusal :=
  .next <| s.onDev fun d =>
    match d.take (laneChannel lane.val) Dev.islGUARD with
    | some (.commit c, d) => d.laneWord lane.val c
    | _ => d

/-- PARTNER_MISSING: PARTNER_T passes for the oldest waiting word of a lane (R326). -/
def execPartnerMissing (lane : Fin 2) (s : State) : Host.Outcome State Fault Refusal :=
  .next <| s.onDev fun d =>
    match d.lc.table.find? fun c => c.lane == lane.val with
    | some c =>
      let d := d.untable c
      if lane = 0 then d.mismatch 2 c c.value 0 else d.mismatch 1 c 0 c.value
    | none => d

/-- LANE_FAULT: LANE acts on a lane fault signalled to it (R323). -/
def execLaneFault (lane : Fin 2) (s : State) : Host.Outcome State Fault Refusal :=
  .next <| s.onDev fun d =>
    if d.lc.signals.contains lane.val then
      { d with lc := { d.lc with signals := d.lc.signals.erase lane.val } }.laneFault lane.val
    else d

/-- HOLD_DRAIN_COMPLETE: every run in progress of the HELD lanes has completed (R328 step 4). -/
def execHoldDrainComplete (s : State) : Host.Outcome State Fault Refusal :=
  .next <| s.onDev fun d =>
    match d.lc.hold with
    | some h =>
      if !h.drained ∧ (d.lane 0).runs.isEmpty ∧ (d.lane 1).runs.isEmpty then
        { d with lc := { d.lc with hold := some { h with drained := true } } }
      else d
    | none => d

/-- HOLD_DRAIN_TIMEOUT: runs not complete at 2 µs are abandoned (R328 step 4). -/
def execHoldDrainTimeout (s : State) : Host.Outcome State Fault Refusal :=
  .next <| s.onDev fun d =>
    match d.lc.hold with
    | some h =>
      if h.drained then d
      else
        let d := [0, 1].foldl (fun d n => (d.lane n).runs.foldl (fun d r => d.abandon n r.ls) d) d
        { d with lc := { d.lc with hold := some { h with drained := true } } }
    | none => d

/-- CHECK_VECTOR_COMPLETE: the check vectors end with the failing Stakes of each lane, and steps 6 and 7 follow (R328 to
R331). -/
def execCheckVectorComplete (failA failB : Word) (s : State) : Host.Outcome State Fault Refusal :=
  .next <| s.onDev fun d =>
    match d.lc.hold with
    | some h =>
      if h.drained ∧ !h.decided then
        let d := (d.set R.LANE_CHK_A_STAKES failA.toNat).set R.LANE_CHK_B_STAKES failB.toNat
        d.decide' h (failA != 0) (failB != 0)
      else d
    | none => d

/-- Banks of lane memory that the ranges of a Loop Set lie in (R110). -/
def Dev.mirrorBanks (d : Dev) (ls : Nat) : List Nat :=
  ((d.pat.mirror.filter fun r => r.ls == ls).flatMap fun r =>
    (List.range (min (r.len / 4) 8)).map fun i => (r.off / 4 + i) % 8).dedup

/-- MIRROR_CAPTURE_COMPLETE: the ranges have been read from the active lane (R336). It is not due while a Stake requests
one of their banks (R134). -/
def execMirrorCaptureComplete (ls : Fin 16) (s : State) : Host.Outcome State Fault Refusal :=
  .next <| s.onDev fun d =>
    match d.standbyOf with
    | some n =>
      if d.bankBusy (1 - n) (d.mirrorBanks ls.val) then d
      else d.onBuf (fun b => b.ls == ls.val && !b.ready) fun b =>
        { b with ready := true, words := d.mirrorWords s.mem (1 - n) ls.val }
    | none => d

/-- MIRROR_WRITE_START (R336). -/
def execMirrorWriteStart (ls : Fin 16) (s : State) : Host.Outcome State Fault Refusal :=
  .next <| s.onDev fun d => d.mirrorStart ls.val

/-- MIRROR_WRITE_COMPLETE: the standby's memory holds the buffer, and a pending run starts (R336). It is not due while a
Stake of the standby requests one of the banks (R134). -/
def execMirrorWriteComplete (ls : Fin 16) (s : State) : Host.Outcome State Fault Refusal :=
  .next <|
    match s.d.standbyOf, s.d.lc.bufs.find? fun b => b.ls == ls.val && b.writing with
    | some n, some b =>
      if s.d.bankBusy n (s.d.mirrorBanks ls.val) then s
      else
        let l := s.d.lane n
        let d := s.d.setLane n { l with mirroring := l.mirroring.filter (· != ls.val) }
        let d := { d with lc := { d.lc with bufs := d.lc.bufs.filter (· != b) } }
        { s with
          mem := b.words.foldl (fun m (w : Nat × Word) => Mem.wrWord m (laneBase n + w.1) w.2) s.mem
          d := d }.startPending n ls.val
    | _, _ => s

/-- LANE_RESTART: a write of CTRL with RESTART = 1 (R337). -/
def execLaneRestart (test : Bool) (key : BitVec 16) (s : State) : Host.Outcome State Fault Refusal :=
  .next <| s.onDev fun d =>
    match d.stoppedLane with
    | some n =>
      if key = 0xA5C3 ∧ d.lc.hold.isNone ∧ d.lc.restart.isNone then
        { d with lc := { d.lc with restart := some ⟨n, test, false, false⟩ } }
      else d.note R.LANE_STATUS_WERR
    | none => d.note R.LANE_STATUS_WERR

/-- RESTART_CHECK_COMPLETE: the check vector's failing Stakes, and the Stakes that lane BIST found failing (R337). -/
def execRestartCheckComplete (fails : Word) (bad : List BadUnit) (s : State) : Host.Outcome State Fault Refusal :=
  .next <| s.onDev fun d =>
    match d.lc.restart with
    | some r => if r.checked ∨ d.lc.hold.isSome then d else d.restartCheck r fails bad
    | none => d

/-- RESTART_COPY_COMPLETE: the memory copy ends and the lane starts (R337 steps 3 and 4). It is not due while a Stake of
the active lane requests a bank (R134). -/
def execRestartCopyComplete (s : State) : Host.Outcome State Fault Refusal :=
  .next <|
    match s.d.lc.restart with
    | some r =>
      if r.checked ∧ !r.started ∧ s.d.lc.hold.isNone ∧ !s.d.bankBusy (1 - r.lane) (List.range 8) then
        { s with
          mem := Mem.copy s.mem (laneBase (1 - r.lane)) (laneBase r.lane) 0x100000
          d := s.d.restartStart r }
      else s
    | none => s

/-- LANE_RESTART_FAIL: a lane not SYNCED within 1 s of its start (R337). -/
def execLaneRestartFail (s : State) : Host.Outcome State Fault Refusal :=
  .next <| s.onDev fun d =>
    match d.lc.restart with
    | some r => if r.started ∧ d.laneState r.lane = 3 then d.restartFail r.lane 5 else d
    | none => d

/-- LANE_SWAP: a write of CTRL with SWAP = 1 (R338). With CMP_EN = 0 only a lane fault starts the hold sequence (the text
before R340, log entry 84). -/
def execLaneSwap (key : BitVec 16) (s : State) : Host.Outcome State Fault Refusal :=
  .next <| s.onDev fun d =>
    if key = 0xA5C3 ∧ d.isSet R.LANE_CTRL_CMP_EN ∧ d.laneState (1 - d.activeLane) = 2 ∧ !d.isSet R.CFG_STATUS_SPLIT ∧ d.lc.hold.isNone then
      d.holdStart true
    else d.note R.LANE_STATUS_WERR

end Sys2Proof.Machine
end

