-- ==== Sys2Proof/Machine/Iso.lean ====
section
/-! DEFINITION. Isolation relays, the contact-weld test, test pulses, sensor inputs and seal straps (chapter 13), with the
Tally window close that judges a weld step. -/

namespace Sys2Proof.Machine

open Dev (islGUARD)

namespace Dev

def isoCmd (chain : Nat) : Fld := if chain = 0 then R.ISO_STATUS_CMD_A else R.ISO_STATUS_CMD_B
def isoRb (chain : Nat) : Fld := if chain = 0 then R.ISO_STATUS_RB_A else R.ISO_STATUS_RB_B
def energised (d : Dev) (chain : Nat) : Bool := d.isSet (isoCmd chain)

/-! ### Drives and readbacks (R390 to R394) -/

/-- Readback supervision of a chain, outside the weld test and once SETTLE has elapsed (R394). -/
def rbCheck (d : Dev) (chain : Nat) : Dev :=
  if d.iso.weld.isSome || d.iso.settling.contains chain then d
  else
    let cmd := d.energised chain
    let rb := d.get (isoRb chain)
    match [0, 1].find? fun i => rb.testBit i != cmd with
    | some i => d.beginCond islGUARD (95 + chain) (i + 2 * b2n (!cmd))
    | none => d.setCond (95 + chain) false

/-- The readbacks follow the pins and RB_POL. -/
def rbSync (d : Dev) : Dev :=
  let x := d.iso.pins.toNat ^^^ d.get R.ISO_CFG_RB_POL
  let d := (d.set R.ISO_STATUS_RB_A (x % 4)).set R.ISO_STATUS_RB_B (x / 4)
  (d.rbCheck 0).rbCheck 1

/-- Drives a chain's two coil drives; a change is a relay action that settles (R391, R394). -/
def drive (d : Dev) (chain : Nat) (on : Bool) : Dev :=
  if d.energised chain = on then d
  else
    let d := d.setB (isoCmd chain) on
    { d with iso := { d.iso with settling := d.iso.settling.filter (· != chain) ++ [chain] } }

def openBoth (d : Dev) : Dev :=
  let d := { d with iso := { d.iso with want := [] } }
  (d.drive 0 false).drive 1 false

/-! ### The contact-weld test (R396 to R399) -/

/-- Supervision goes on where a test has ended, with the chains that do not settle (R394). -/
def rbResume (d : Dev) : Dev := (d.rbCheck 0).rbCheck 1

/-- The test ends: no step, and no test running. -/
def weldEnd (d : Dev) (result : Nat) : Dev :=
  ({ d with iso := { d.iso with weld := none } }.set R.ISO_STATUS_STEP 0).set R.ISO_WELD_RESULT result

/-- Abort (R398). -/
def weldAbort (d : Dev) (reason : Nat) : Dev :=
  (((d.openBoth.weldEnd 4).set R.ISO_WELD_REASON reason).raise islGUARD 94 reason).rbResume

/-- An abandoned test (R399). -/
def weldAbandon (d : Dev) (reason : Nat) : Dev := if d.iso.weld.isSome then d.weldAbort reason else d

/-- A chain is found welded (R398). -/
def weldFail (d : Dev) (chain step : Nat) : Dev :=
  (((d.openBoth.weldEnd (2 + chain)).set R.ISO_STATUS_WELD_FAIL 1).raise islGUARD (92 + chain) step).rbResume

/-- Pass: the standing close commands act (R396 step 6, R398, R401). -/
def weldPass (d : Dev) : Dev :=
  let want := d.iso.want
  let d := d.weldEnd 1
  let d := { d with iso := { d.iso with passed := some d.time.short } }.set R.ISO_WELD_AGE 0
  let d := ((d.set R.ISO_STATUS_TEST_DUE 0).setCond 97 false).setCond 98 false
  (want.foldl (fun d c => d.drive c true) (d.set R.ISO_STATUS_STEP 6)).rbResume

/-- A step begins with its relay action; its window counts once SETTLE has elapsed (R396, R397). -/
def weldStep (d : Dev) (step chain : Nat) (on : Bool) : Dev :=
  let d := { d with iso := { d.iso with weld := some ⟨step, none⟩ } }.set R.ISO_STATUS_STEP step
  d.drive chain on

/-- The test starts, or aborts where a chain is commanded or reads closed (R396). -/
def weldStart (d : Dev) : Dev :=
  let d := { d with iso := { d.iso with weld := some ⟨1, some d.time.short⟩ } }.set R.ISO_STATUS_STEP 1
  if d.energised 0 || d.energised 1 || d.get R.ISO_STATUS_RB_A != 0 || d.get R.ISO_STATUS_RB_B != 0 then d.weldAbort 1
  else d

/-- The judgement of a step on a closed window with sum of squares `sq` over `n` conversions (R396). -/
def weldJudge (d : Dev) (step sq n : Nat) : Dev :=
  let low := decide (sq ≤ d.act R.ISO_VTH_OPEN_MAX ^ 2 * n)
  let high := decide (d.act R.ISO_VTH_CLOSED_MIN ^ 2 * n ≤ sq)
  match step with
  | 1 => if low then d.weldStep 2 0 true else d.weldAbort 2
  | 2 => if d.get R.ISO_STATUS_RB_A = 3 ∧ high then d.weldStep 3 0 false else d.weldAbort 3
  | 3 => if d.get R.ISO_STATUS_RB_A = 0 ∧ low then d.weldStep 4 1 true else d.weldFail 0 3
  | 4 => if d.get R.ISO_STATUS_RB_B = 3 ∧ high then d.weldStep 5 1 false else d.weldAbort 3
  | _ => if d.get R.ISO_STATUS_RB_B = 0 ∧ low then d.weldPass else d.weldFail 1 5

/-- The Tally window of converter `c`, channel `j` closes, and judges a weld step that waits for it (R200, R397). -/
def tallyClose (d : Dev) (c j : Nat) : Dev :=
  let t := d.tally c j
  let d := d.tallyLatch c j
  match d.iso.weld with
  | some w =>
    match w.ready with
    | some r =>
      if d.get R.ISO_CFG_VCONV = c ∧ d.get R.ISO_CFG_VTJ = j ∧ r ≤ t.first then d.weldJudge w.step t.sq t.n else d
    | none => d
  | none => d

/-! ### Relay commands (R392 to R395) -/

/-- The modes in which a close command is accepted (R393, R47). -/
def closePermitted (d : Dev) : Bool :=
  let stays (m : Nat) : Bool := [4, 5, 6, 8].contains m || (m == 7 && d.sys.from8)
  stays d.mode || (d.mode == 9 && stays d.sys.before9)

/-- A relay command (R392 to R396, R399). -/
def relayCommand (d : Dev) (chain : Nat) (v : Word) : Dev :=
  if 2 ≤ v.toNat then d.raise islGUARD 100 chain
  else if v = 0 then
    if d.iso.weld.isSome then d.weldAbort 5
    else { d with iso := { d.iso with want := d.iso.want.filter (· != chain) } }.drive chain false
  else if d.isSet R.ISO_STATUS_WELD_FAIL then d.raise islGUARD 99 chain
  else if !d.closePermitted then d.raise islGUARD 80 chain
  else if d.mode = 4 ∧ d.iso.weld.isNone ∧ d.energised chain then d
  else
    let d := { d with iso := { d.iso with want := d.iso.want.filter (· != chain) ++ [chain] } }
    if d.mode = 4 then (if d.iso.weld.isSome then d else d.weldStart) else d.drive chain true

/-- The modes whose relay column reads open (R47, R393). -/
def relaysOpenIn (d : Dev) : Bool := [0, 1, 2, 3, 10, 11].contains d.mode || (d.mode == 7 && !d.sys.from8)

/-- The change to the present mode (R393, R399). -/
def isoMode (d : Dev) : Dev :=
  let d := if d.mode = 4 then d else d.weldAbandon 6
  if d.relaysOpenIn then d.openBoth else d

/-- The SAFE line reaches ISO (R391, R399, R358 step 4). -/
def isoSafe (d : Dev) : Dev := (d.weldAbandon 7).openBoth

/-- A relay's SETTLE elapses: the step's window may start, or supervision does (R394, R397). -/
def settle' (d : Dev) (chain : Nat) : Dev :=
  if !d.iso.settling.contains chain then d
  else
    let d := { d with iso := { d.iso with settling := d.iso.settling.filter (· != chain) } }
    match d.iso.weld with
    | some w =>
      let mine := if w.step ≤ 3 then 0 else 1
      if w.ready.isNone ∧ mine = chain then
        { d with iso := { d.iso with weld := some { w with ready := some d.time.short } } }
      else d
    | none =>
      let d := if d.iso.settling.isEmpty then d.set R.ISO_STATUS_STEP 0 else d
      d.rbCheck chain

/-! ### Sensor inputs (R403, R404) -/

/-- STATE of an input, and SIN_OPENk where OPEN_SRC asks for it (R404). -/
def sinState (d : Dev) (k : Nat) (v : Bool) : Dev :=
  let d := d.setBit (fun _ => R.ISO_SINSTAT_STATE) k v
  if v || !d.isSet (R.ISO_SIN_OPEN_SRC k) then d.setCond (103 + k) false
  else d.beginCond islGUARD (103 + k) k

/-- SIN_OPENk ends where OPEN_SRC does not ask for it (R404). -/
def sinOpenEnd (d : Dev) : Dev :=
  (List.range 8).foldl (fun d k => if d.isSet (R.ISO_SIN_OPEN_SRC k) then d else d.setCond (103 + k) false) d

/-- The cross state of an input; SIN_CROSS holds while any input is in it (R403). -/
def sinCross (d : Dev) (k : Nat) (b : Bool) : Dev :=
  let d := d.setBit (fun _ => R.ISO_SINSTAT_CROSS) k b
  if b then (d.setBit (fun _ => R.ISO_SINSTAT_CROSS_SEEN) k true).beginCond islGUARD 102 k
  else if d.get R.ISO_SINSTAT_CROSS = 0 then d.setCond 102 false else d

/-- The check of an enabled input at a pulse of a supply (R403, R404). -/
def sinCheck (d : Dev) (supply k : Nat) (now : Bool) : Dev :=
  let own := d.get (R.ISO_SIN_SRC k) == supply
  let pre := d.iso.pre.toNat.testBit k
  let evidence := pre && (if own then now else !now)
  let n := if evidence then Sparse.at' 0 d.iso.cross k + 1 else if own then 0 else Sparse.at' 0 d.iso.cross k
  let was := (d.get R.ISO_SINSTAT_CROSS).testBit k
  let d := { d with iso := { d.iso with cross := Sparse.put 0 d.iso.cross k (min n 2) } }
  if evidence ∧ 2 ≤ n ∧ !was then (d.sinCross k true).sinState k false
  else
    let d := if own ∧ !evidence ∧ was then d.sinCross k false else d
    if own ∧ (!was ∨ !evidence) then d.sinState k pre else d

/-- A seal sample (R406). -/
def sealSample (d : Dev) (x : Nat) : Dev :=
  let d := d.set R.ISO_SEAL_LIVE x
  let latched := d.get R.ISO_SEAL_LATCHED
  if x = latched then { d with iso := { d.iso with sealRun := 0 } }.setCond 101 false
  else
    let n := min (d.iso.sealRun + 1) 2
    let d := { d with iso := { d.iso with sealRun := n } }
    if 2 ≤ n then (d.set R.ISO_SEAL_CHANGED 1).beginCond islGUARD 101 (x + 256 * latched) else d

end Dev

/-! ### Commands -/

/-- TALLY_WINDOW_CLOSE (R200), which judges a weld step on the window (R397). -/
def execTallyWindowClose (c j : Fin 4) (s : State) : Host.Outcome State Fault Refusal :=
  .next <| s.onDev fun d => if d.tallyDue c.val j.val then d.tallyClose c.val j.val else d

/-- ISO_COMMIT: the boundary is the end of the test-pulse cycle (R92, R402); with the block disabled at once (R91). -/
def execIsoCommit (s : State) : Host.Outcome State Fault Refusal :=
  .next <| s.onDev fun d =>
    d.commit 0x40031000 0x40032000 (some 0x40031008) (some R.ISO_STATUS_INCOMPLETE) (fun _ => false) (d.isSet R.ISO_CTRL_EN)

/-- RELAY_COMMAND: ISO takes the oldest relay word that LANE has passed on (R327, R392). -/
def execRelayCommand (s : State) : Host.Outcome State Fault Refusal :=
  .next <| s.onDev fun d =>
    match d.lc.relays with
    | [] => d
    | r :: t => ({ d with lc := { d.lc with relays := t } }).holdRelease.relayCommand r.1 r.2

/-- RELAY_SETTLE: SETTLE elapses after a chain's last relay action (R394, R397). -/
def execRelaySettle (chain : Fin 2) (s : State) : Host.Outcome State Fault Refusal :=
  .next <| s.onDev fun d => d.settle' chain.val

/-- RELAY_READBACK_CHANGE: the level of RBA0, RBA1, RBB0 or RBB1 (R394). -/
def execRelayReadbackChange (relay : Fin 4) (level : Bool) (s : State) : Host.Outcome State Fault Refusal :=
  .next <| s.onDev fun d =>
    let x := d.iso.pins.toNat
    let y := if x.testBit relay.val = level then x else x ^^^ 2 ^ relay.val
    { d with iso := { d.iso with pins := BitVec.ofNat 4 y } }.rbSync

/-- WELD_STEP_TIMEOUT: a step not judged within 500 ms (R397). -/
def execWeldStepTimeout (s : State) : Host.Outcome State Fault Refusal :=
  .next <| s.onDev fun d => d.weldAbandon 4

/-- ISO_WELD_DUE: 24 h since the last pass with a chain energised (R401). -/
def execIsoWeldDue (s : State) : Host.Outcome State Fault Refusal :=
  .next <| s.onDev fun d =>
    if d.energised 0 || d.energised 1 then (d.set R.ISO_STATUS_TEST_DUE 1).beginCond Dev.islGUARD 97 0 else d

/-- ISO_WELD_OVERDUE: OVERDUE_H hours after ISO_WELD_DUE (R401). -/
def execIsoWeldOverdue (s : State) : Host.Outcome State Fault Refusal :=
  .next <| s.onDev fun d => if d.bit R.ACC_COND_SRC 97 then d.beginCond Dev.islGUARD 98 0 else d

/-- CLR_WELD: a write of CTRL with CLR_WELD = 1 (R395, R408). -/
def execClrWeld (key : BitVec 16) (s : State) : Host.Outcome State Fault Refusal :=
  .next <| s.onDev fun d =>
    if key = 0xA5C3 ∧ d.mode = 11 then d.set R.ISO_STATUS_WELD_FAIL 0 else d.note R.ISO_STATUS_WERR

/-- SET_WELD: a write of CTRL with SET_WELD = 1 (R395, R408). -/
def execSetWeld (key : BitVec 16) (s : State) : Host.Outcome State Fault Refusal :=
  .next <| s.onDev fun d =>
    if key = 0xA5C3 then d.set R.ISO_STATUS_WELD_FAIL 1 else d.note R.ISO_STATUS_WERR

/-- TEST_PULSE_START: the low pulse of a supply; that of TPS0 starts the cycle, the boundary of ISO's commits (R402). -/
def execTestPulseStart (supply : Fin 2) (s : State) : Host.Outcome State Fault Refusal :=
  .next <| s.onDev fun d =>
    if d.isSet R.ISO_CTRL_EN then
      let d := { d with iso := { d.iso with pulses := d.iso.pulses.filter (· != supply.val) ++ [supply.val] } }
      if supply = 0 then d.applyPend (Dev.inBlock 0x40031000 0x40032000) else d
    else d

/-- TEST_PULSE_END (R402). -/
def execTestPulseEnd (supply : Fin 2) (s : State) : Host.Outcome State Fault Refusal :=
  .next <| s.onDev fun d => { d with iso := { d.iso with pulses := d.iso.pulses.filter (· != supply.val) } }

/-- SIN_PRE_SAMPLE: the levels of SIN0 to SIN7 before a pulse (R403). -/
def execSinPreSample (levels : BitVec 8) (s : State) : Host.Outcome State Fault Refusal :=
  .next <| s.onDev fun d => if d.isSet R.ISO_CTRL_EN then { d with iso := { d.iso with pre := levels } } else d

/-- SIN_IN_SAMPLE: the levels of SIN0 to SIN7 LAG after the pulse of a supply starts (R403, R404). -/
def execSinInSample (supply : Fin 2) (levels : BitVec 8) (s : State) : Host.Outcome State Fault Refusal :=
  .next <| s.onDev fun d =>
    if d.isSet R.ISO_CTRL_EN then
      (List.range 8).foldl (fun d k =>
        if d.isSet (R.ISO_SIN_EN k) then d.sinCheck supply.val k (levels.toNat.testBit k) else d) d
    else d

/-- SEAL_SAMPLE: the seal pins, from M3 onwards (R406). -/
def execSealSample (levels : BitVec 8) (s : State) : Host.Outcome State Fault Refusal :=
  .next <| s.onDev fun d => if 3 ≤ d.mode then d.sealSample levels.toNat else d

end Sys2Proof.Machine
end

