-- ==== Sys2Proof/Machine/Tick.lean ====
section
/-! DEFINITION. Network time (chapter 15): the tick, steps, adjustments, comparators and pulses. A tick is what a step of
the machine does on an empty queue. -/

namespace Sys2Proof.Machine

open Dev (islBUS islGUARD islCORE)

namespace Dev

/-- Nanoseconds in a second. -/
def giga : Nat := 1000000000

/-- The increment in force at a tick, Q8.24 ns (R437). -/
def increment (d : Dev) : Nat :=
  if d.isSet R.TIME_STATUS_BYP then 0x0A000000
  else if d.time.adj ≠ 0 then d.get R.TIME_ADJ_INCR_INCR
  else d.get R.TIME_INCR_INCR

/-- Whole nanoseconds that the next tick adds. -/
def whole (d : Dev) : Nat := (d.time.frac + d.increment) / 2 ^ 24

/-- The next tick carries NS into SEC by its increment (R436, R448). -/
def carries (d : Dev) : Bool := decide (giga ≤ d.time.ns + d.whole)

/-- The Shelf period in ns (R427). -/
def shelfNs (d : Dev) : Nat := max 1 (d.get R.CIRC_CTRL_TICK) * 1000

/-- The counters of a tick: the increment first, then a waiting step, then the carry into SEC modulo 2^48 (R436, R438,
R444). While the Shelf runs, a tick that reaches a multiple of its period makes one Shelf tick due, however large a step
forward is; a step back makes none due (R427). -/
def tickTime (d : Dev) : TimeS :=
  let t := d.time
  let w := d.whole
  let ns1 := t.ns + w
  let byInc := decide (t.ns / d.shelfNs < ns1 / d.shelfNs)
  let total : Int := (t.sec : Int) * giga + ns1 +
    (match t.step with | some x => x.sec * giga + x.ns | none => 0)
  let z := (total % ((2 : Int) ^ 48 * giga)).toNat
  let byStep := match t.step with
    | some x => decide (0 < x.sec * giga + x.ns) &&
        decide (((t.sec : Int) * giga + ns1) / d.shelfNs < total / d.shelfNs)
    | none => false
  { t with
    sec := z / giga
    ns := z % giga
    frac := (t.frac + d.increment) % 2 ^ 24
    short := t.short + w
    adj := if d.isSet R.TIME_STATUS_BYP then t.adj else t.adj - 1
    step := none
    shelf := t.shelf + b2n (d.isSet R.CIRC_CTRL_EN && (byInc || byStep))
    ppsOut := t.ppsOut || (d.carries && d.isSet R.TIME_PPSOUT_EN) }

/-- ISO.WELD.AGE: minutes since the last pass of the weld test (R409). -/
def weldAge (d : Dev) : Dev :=
  match d.iso.passed with
  | some t => d.set R.ISO_WELD_AGE (min ((d.time.short - t) / 60000000000) 0xFFFF)
  | none => d

/-- Nanoseconds in 1/256 h. -/
def hourUnit : Nat := 14062500000

/-- LEDGER.HOURS counts powered time while the Ledger runs (R504). -/
def ledgerHours (d : Dev) : Dev :=
  if d.isSet R.LEDGER_CTRL_EN && decide (d.led.hourAt + hourUnit ≤ d.time.short) then
    let n := (d.time.short - d.led.hourAt) / hourUnit
    { d with led := { d.led with hourAt := d.led.hourAt + n * hourUnit } }.incWrap R.LEDGER_HOURS_H n
  else d

/-- One tick of TIME; the tick that applies a step records it and raises TIME_STEP (R444). While a reset holds the
device the counters stand at zero (R436). -/
def tick (d : Dev) : Dev :=
  if d.sys.held ≠ .none then d
  else
    let t := d.tickTime
    let d' := (({ d with time := t }).set R.TIME_ADJ_TICKS_K t.adj).weldAge.ledgerHours
    match d.time.step with
    | none => d'
    | some x =>
      let d' := (d'.set R.TIME_STEP_CTRL_WAITING 0).incWrap R.TIME_STEP_CTRL_STEP_SEQ
      (d'.set R.TIME_STEP_SHORT_TIME t.short).raise 13 129 (toBits 32 x.ns)

/-- A write of ADJ_TICKS starts, restarts or ends an adjustment (R443). -/
def adjust (d : Dev) (k : Nat) : Dev := { d.set R.TIME_ADJ_TICKS_K k with time := { d.time with adj := k } }

/-- Latches the clock of one tick in NS, SEC_LO, SEC_HI and SHORT (R440). -/
def latchTime (d : Dev) : Dev :=
  (((d.set R.TIME_NS_NS d.time.ns).set R.TIME_SEC_LO_SEC d.time.sec).set R.TIME_SEC_HI_SEC (d.time.sec / 2 ^ 32)).set
    R.TIME_SHORT_TIME d.time.short

/-! ### Comparators (R445, R446) -/

def cmp (d : Dev) (k : Nat) : Cmp := Sparse.at' {} d.cmps k
def setCmp (d : Dev) (k : Nat) (c : Cmp) : Dev := { d with cmps := Sparse.put {} d.cmps k c }

/-- A write of CMPk_CFG: EN = 1 loads target and period and arms; EN = 0 disarms (R446). -/
def cmpWrite (d : Dev) (k : Nat) (en mode : Bool) : Dev :=
  let d := (d.setB (R.TIME_CMP_CFG_EN k) en).setB (R.TIME_CMP_CFG_MODE k) mode
  if en then
    d.setCmp k ⟨true, mode, d.get (R.TIME_CMP_AT_T k), d.get (R.TIME_CMP_ATSEC_SEC k), d.get (R.TIME_CMP_PERIOD_NS k)⟩
  else d.setCmp k { d.cmp k with armed := false }

/-- How far the clock stands past a comparator's target, in ns; none while it is not reached (R445). -/
def cmpPast (d : Dev) (c : Cmp) : Option Nat :=
  if c.mode then
    let now := d.time.sec % 2 ^ 32 * giga + d.time.ns
    let t := c.sec * giga + c.at'
    if t ≤ now then some (now - t) else none
  else
    let x := (d.time.short + 2 ^ 32 - c.at' % 2 ^ 32) % 2 ^ 32
    if x < 2 ^ 31 then some x else none

/-- The comparator after its event: a one-shot disarms, a periodic one takes the first target not passed; the second
part counts the periods skipped (R446). -/
def cmpNext (c : Cmp) (past : Nat) : Cmp × Nat :=
  if c.period = 0 then ({ c with armed := false }, 0)
  else
    let skipped := past / c.period
    let add := (skipped + 1) * c.period
    if c.mode then
      let t := c.sec * giga + c.at' + add
      ({ c with sec := t / giga % 2 ^ 32, at' := t % giga }, skipped)
    else ({ c with at' := (c.at' + add) % 2 ^ 32 }, skipped)

/-- A comparator whose target is reached sends its event to the lanes and converters, sets FIRED and requests its flag
(R445). The stamp of MODE 0 is the target itself. -/
def cmpFire (d : Dev) (k : Nat) : Dev :=
  let c := d.cmp k
  match c.armed, d.cmpPast c with
  | true, some past =>
    let n := cmpNext c past
    let stamp := if c.mode then d.time.short
      else if past ≤ d.time.short then d.time.short - past else c.at' % 2 ^ 32
    let d := (d.setCmp k n.1).incSat R.TIME_CMPSTAT_MISSED n.2
    let d := d.setB (R.TIME_CMP_CFG_EN k) n.1.armed
    ((d.setBit (fun _ => R.TIME_CMPSTAT_FIRED) k true).event 3 k stamp).request 13 (16 + k)
  | _, _ => d

/-- The tick of detection less 8 ns, as the time of a PPS_IN edge (R447). -/
def ppsEdge (d : Dev) : Dev :=
  let z := ((((d.time.sec : Int) * giga + d.time.ns - 8) % ((2 : Int) ^ 48 * giga))).toNat
  let d := (d.set R.TIME_PPSIN_SEC_SEC (z / giga)).set R.TIME_PPSIN_NS_NS (z % giga)
  let d := d.set R.TIME_PPSIN_SHORT_TIME (toBits 32 ((d.time.short : Int) - 8))
  (({ d with time := { d.time with ppsSeen := true } }).setCond 128 false).request 13 24

end Dev

/-- What the machine does on an empty queue: one tick of TIME (log entry 40). -/
def idle (s : State) : State := s.onDev Dev.tick

/-! ### Commands -/

/-- TIME_NS_READ (R440). -/
def execTimeNsRead (core : Fin 4) (s : State) : Host.Outcome State Fault Refusal :=
  .next <| s.coreDev core.val fun d => d.latchTime.answer core.val (.data (word d.time.ns))

/-- TIME_ADJUST_START: a write of ADJ_TICKS (R443). -/
def execTimeAdjustStart (k : BitVec 24) (s : State) : Host.Outcome State Fault Refusal :=
  .next <| s.onDev fun d => d.adjust k.toNat

/-- TIME_ADJUST_END: the last tick of an adjustment; INCR applies afterwards (R443). -/
def execTimeAdjustEnd (s : State) : Host.Outcome State Fault Refusal :=
  .next <| s.onDev fun d => if d.time.adj = 1 ∧ !d.isSet R.TIME_STATUS_BYP then d.tick else d

/-- TIME_STEP_REQUEST: a write of STEP_CTRL.GO = 1 puts the step of STEP_SEC and STEP_NS in wait for the next tick, in
place of one that waits (R444). -/
def execTimeStepRequest (s : State) : Host.Outcome State Fault Refusal :=
  .next <| s.onDev fun d =>
    let x : TimeStep := ⟨signed 16 (d.get R.TIME_STEP_SEC_SEC), signed 32 (d.get R.TIME_STEP_NS_NS)⟩
    ({ d with time := { d.time with step := some x } }).set R.TIME_STEP_CTRL_WAITING 1

/-- TIME_STEP: the tick that applies the waiting step (R444). -/
def execTimeStep (s : State) : Host.Outcome State Fault Refusal :=
  .next <| s.onDev fun d => if d.time.step.isSome then d.tick else d

/-- COMPARATOR_ARM: a write of CMPk_CFG with EN = 1 (R446). -/
def execComparatorArm (k : Fin 8) (mode : Bool) (s : State) : Host.Outcome State Fault Refusal :=
  .next <| s.onDev fun d => d.cmpWrite k.val true mode

/-- TIME_COMPARATOR_FIRE (R445). -/
def execTimeComparatorFire (k : Fin 8) (s : State) : Host.Outcome State Fault Refusal :=
  .next <| s.onDev fun d => d.cmpFire k.val

/-- SECOND_CARRY: the tick in which NS carries into SEC; PPS_OUT rises where it is enabled (R448). -/
def execSecondCarry (s : State) : Host.Outcome State Fault Refusal :=
  .next <| s.onDev fun d => if d.carries then d.tick else d

/-- PPS_OUT_END: WIDTH ms after its rise PPS_OUT goes low (R448). -/
def execPpsOutEnd (s : State) : Host.Outcome State Fault Refusal :=
  .next <| s.onDev fun d => { d with time := { d.time with ppsOut := false } }

/-- PPS_IN_EDGE (R447). -/
def execPpsInEdge (s : State) : Host.Outcome State Fault Refusal :=
  .next <| s.onDev fun d => d.ppsEdge

/-- TIME_PPS_LOSS: once an edge has been seen, a gap of more than 1.1 s begins the condition (R447). -/
def execTimePpsLoss (s : State) : Host.Outcome State Fault Refusal :=
  .next <| s.onDev fun d => if d.time.ppsSeen then d.beginCond 13 128 0 else d

end Sys2Proof.Machine
end

