-- ==== Sys2Proof/Machine/Ledger.lean ====
section
/-! DEFINITION. The Ledger (chapter 17): equivalent age, points, indicators and predictions, the DC-link measurement, and
the service run of BIST. -/

namespace Sys2Proof.Machine

open Dev (islGUARD)

/-! ### Arithmetic -/

/-- A finite binary32 word, subnormals included, in units of 2^-149. -/
def fp32Units (w : Word) : Option Int :=
  let e := bits w.toNat 23 8
  let m := bits w.toNat 0 23
  let x : Nat := if e = 0 then m else (2 ^ 23 + m) * 2 ^ (e - 1)
  if e = 255 then none else some (if w.toNat.testBit 31 then -x else x)

/-- A positive one. -/
def fp32Positive (w : Word) : Option Nat :=
  match fp32Units w with
  | some x => if 0 < x then some x.toNat else none
  | none => none

/-- A rational value. -/
def ratio (num den : Int) : Val := .fin (decide (num < 0) != decide (den < 0)) num.natAbs den.natAbs

/-- e^(num/den) with `p` fraction bits, for |num/den| below 80. -/
def expRatio (p : Nat) (num den : Int) : Nat :=
  let x := num * 2 ^ p / den
  let k := (x / ln2Fix p)
  let r := expSmall p (x - k * ln2Fix p)
  if k < 0 then (r / 2 ^ k.natAbs).toNat else (r * 2 ^ k.natAbs).toNat

/-- The least-squares sums of points (h, x), newest first: n, Σh, Σx, Σh², Σhx, Σx². -/
structure Fit where
  n : Int
  h : Int
  x : Int
  hh : Int
  hx : Int
  xx : Int
deriving DecidableEq, Repr

def fitOf (ps : List (Nat × Nat)) : Fit :=
  ps.foldl (fun f p =>
    ⟨f.n + 1, f.h + p.1, f.x + p.2, f.hh + p.1 * p.1, f.hx + p.1 * p.2, f.xx + p.2 * p.2⟩) ⟨0, 0, 0, 0, 0, 0⟩

/-- D = n Σh² − (Σh)², B = n Σhx − Σh Σx: the slope is B / D. -/
def Fit.d (f : Fit) : Int := f.n * f.hh - f.h * f.h
def Fit.b (f : Fit) : Int := f.n * f.hx - f.h * f.x
/-- E: the standard error of the slope is √(E / (n − 2)) / D. -/
def Fit.e (f : Fit) : Int := (f.n * f.xx - f.x * f.x) * f.d - f.b * f.b

/-- 1 − x_now over n D, with x in U4.12 and the fitted value at HOURS `h`. -/
def Fit.left (f : Fit) (h : Int) : Int := 4096 * f.n * f.d - f.x * f.d - f.b * (f.n * h - f.h)

/-- 730.5 h in the fit's units, times n. -/
def Fit.month (f : Fit) : Int := f.n * 187008

/-- MONTHS of a fit (R510). -/
def Fit.months (f : Fit) (h : Int) : Nat :=
  if f.left h ≤ 0 then 0
  else if f.b ≤ 0 then 0xFFFF
  else min (f.left h / (f.month * f.b)).toNat 0xFFFE

/-- Whether m months fit before end of life at the slope b + s · 1.645 s_b, s = 1 or −1: m · n · 187008 · (B ± t) ≤ left,
with t² = 1.645² E / (n − 2), decided without a root. -/
def Fit.fits (f : Fit) (h : Int) (plus : Bool) (m : Nat) : Bool :=
  let k := (m : Int) * f.month
  let r := f.left h - k * f.b
  let t2 := k * k * (1645 * 1645) * f.e
  let r2 := r * r * (1000000 * (f.n - 2))
  if plus then decide (0 ≤ r) && decide (t2 ≤ r2) else decide (0 ≤ r) || decide (r2 ≤ t2)

/-- The largest m in [lo, lo + 2^k) that satisfies a predicate which holds at lo and falls once. -/
def searchLast (p : Nat → Bool) : Nat → Nat → Nat
  | 0, lo => lo
  | k + 1, lo => if p (lo + 2 ^ k) then searchLast p k (lo + 2 ^ k) else searchLast p k lo

/-- LO (plus) or HI of the band (R510). -/
def Fit.band (f : Fit) (h : Int) (plus : Bool) : Nat :=
  let t2 := (1645 * 1645) * f.e
  let b2 := f.b * f.b * (1000000 * (f.n - 2))
  let positive := if plus then decide (0 < f.b) || decide (b2 < t2) else decide (0 < f.b) && decide (t2 < b2)
  if f.left h ≤ 0 then 0
  else if !positive then 0xFFFF
  else min (searchLast (f.fits h plus) 16 0) 0xFFFE

namespace Dev

/-! ### Indicators (R509) -/

/-- A quotient coded U4.12: exact, or one of the two codes around it, which the spec does not choose; outside the format a
free value (log entry 10). -/
def coded (d : Dev) (num den : Nat) : Nat × Dev :=
  let q := num * 4096 / den
  if num * 4096 % den = 0 ∧ q < 0x10000 then (q, d)
  else
    let f := d.freeWord
    if q + 1 < 0x10000 then (q + f.1.toNat % 2, f.2) else (f.1.toNat % 0x10000, f.2)

/-- A value that may lie below 0, where U4.12 has no code: a free value there. -/
def codedDiff (d : Dev) (a b den : Nat) : Nat × Dev :=
  if b ≤ a then d.coded (a - b) den else let f := d.freeWord; (f.1.toNat % 0x10000, f.2)

/-- Codes BASE and LAST of the gated inputs that hold both (R508). -/
def osvPairs (d : Dev) : List (Nat × Nat) :=
  ((List.range 24).filter fun k =>
      (d.get R.LEDGER_OSV_GATE_BITS).testBit k && d.led.osvBase.contains k && d.led.osvLast.contains k).map fun k =>
    (d.get (R.LEDGER_OSVB_BASE k), d.get (R.LEDGER_OSVB_LAST k))

/-- x of an indicator, where it has data (R509); a BASE of 0 gives no quotient, so x is then a free value (log entry 10). -/
def indicator (d : Dev) (k : Nat) : Option Nat × Dev :=
  let some' (r : Nat × Dev) : Option Nat × Dev := (some r.1, r.2)
  match k with
  | 0 => some' (d.coded (d.get R.LEDGER_AGE_EQ_H) (256 * 219000))
  | 1 => some' (d.coded ((List.range 14).foldl (fun m i => max m (d.get (R.LEDGER_RO_PPM i))) 0) 50000)
  | 2 =>
    if d.otp.marginF = 0 then (none, d)
    else some' (d.codedDiff d.otp.marginF (d.get R.LEDGER_MARGIN_STEP) d.otp.marginF)
  | 3 =>
    match fp32Positive (d.rdw 0x400030C0), fp32Positive (d.rdw 0x400030C8) with
    | some c, some c0 => some' (d.codedDiff (5 * c0) (5 * c) c0)
    | _, _ => (none, d)
  | 4 =>
    match fp32Positive (d.rdw 0x400030C4), fp32Positive (d.rdw 0x400030CC) with
    | some r, some r0 => some' (d.codedDiff r r0 r0)
    | _, _ => (none, d)
  | _ =>
    match d.osvPairs with
    | [] => (none, d)
    | p :: t =>
      if d.osvPairs.any fun q => q.1 == 0 then let f := d.freeWord; some' (f.1.toNat % 0x10000, f.2)
      else
        let m := t.foldl (fun (m : Nat × Nat) q => if m.2 * q.1 < q.2 * m.1 then q else m) p
        some' (d.codedDiff (5 * m.2) (5 * m.1) m.1)

/-! ### Points and predictions (R510) -/

/-- PT_HOURS and PT_X show the point and indicator that PT_SEL chooses (R519). -/
def pointPort (d : Dev) : Dev :=
  let p := Sparse.at' {} d.led.ring (d.get R.LEDGER_PT_SEL_POINT)
  let d := d.set R.LEDGER_PT_HOURS_H p.hours
  match Sparse.at' none p.x (d.get R.LEDGER_PT_SEL_IND) with
  | some x => (d.set R.LEDGER_PT_X_X x).set R.LEDGER_PT_X_VALID 1
  | none => (d.set R.LEDGER_PT_X_X 0).set R.LEDGER_PT_X_VALID 0

/-- The ring's points, newest first: those before the place of the next one, back around the ring. -/
def newest (d : Dev) : List LedPoint :=
  (List.range 64).filterMap fun i =>
    let p := Sparse.at' {} d.led.ring ((d.led.next + 63 - i) % 64)
    if p.x.isEmpty then none else some p

/-- The points of an indicator among the newest WIN. -/
def samples (d : Dev) (k : Nat) : List (Nat × Nat) :=
  (d.newest.take (d.get R.LEDGER_CTRL_WIN)).filterMap fun p => (Sparse.at' none p.x k).map fun x => (p.hours, x)

/-- The fit of an indicator with at least four points. -/
def fit (d : Dev) (k : Nat) : Option Fit :=
  let s := d.samples k
  if 4 ≤ s.length then some (fitOf s) else none

/-- MONTHS of an indicator; a fit through points of one HOURS has no slope, and gives a free value (log entry 10). -/
def predict (d : Dev) (k : Nat) : Dev :=
  match d.fit k with
  | none => d.set (R.LEDGER_IND_MONTHS k) 0xFFFF
  | some f =>
    if f.d = 0 then let w := d.freeWord; w.2.set (R.LEDGER_IND_MONTHS k) w.1.toNat
    else d.set (R.LEDGER_IND_MONTHS k) (f.months (d.get R.LEDGER_HOURS_H))

/-- EOL, its band and LEDGER_EOL (R510). -/
def eol (d : Dev) : Dev :=
  let m (k : Nat) : Nat := d.get (R.LEDGER_IND_MONTHS k)
  let best := [1, 2, 3, 4, 5].foldl (fun b k => if m k < m b then k else b) 0
  let months := m best
  let h : Int := d.get R.LEDGER_HOURS_H
  let d := (d.set R.LEDGER_EOL_MONTHS months).set R.LEDGER_EOL_IND best
  let d := match d.fit best with
    | some f => (d.set R.LEDGER_EOLB_LO (f.band h true)).set R.LEDGER_EOLB_HI (f.band h false)
    | none => (d.set R.LEDGER_EOLB_LO 0xFFFF).set R.LEDGER_EOLB_HI 0xFFFF
  if months < d.get R.LEDGER_CTRL_EOL_WARN then d.beginCond islGUARD 165 best else d.setCond 165 false

/-- Recomputes every prediction (R510, R511). -/
def predictions (d : Dev) : Dev := ((List.range 6).foldl predict d).eol

/-- A point: the die readings, every valid x, the ring, the predictions, STATUS.POINT and LEDGER_POINT (R505, R510). -/
def takePoint (d : Dev) (ro : List (BitVec 16)) (margin : BitVec 4) : Dev :=
  let d := (List.range 14).foldl (fun d i => match ro[i]? with
    | some v => d.set (R.LEDGER_RO_PPM i) v.toNat
    | none => d) d
  let d := d.set R.LEDGER_MARGIN_STEP margin.toNat
  let r := (List.range 6).foldl (fun (r : List (Nat × Option Nat) × Dev) k =>
    let x := r.2.indicator k
    (Sparse.put none r.1 k x.1, x.2.set (R.LEDGER_IND_X k) (x.1.getD 0))) ([], d)
  let d := r.2
  let i := d.led.next
  let p : LedPoint := ⟨d.get R.LEDGER_HOURS_H, r.1⟩
  let d := { d with led := { d.led with ring := Sparse.put {} d.led.ring i p, next := (i + 1) % 64 } }
  (((d.pointPort).predictions).note R.LEDGER_STATUS_POINT).raise islGUARD 164 i

/-- A write of PT_HOURS or PT_X with the Ledger stopped puts the port's words into the chosen point (R511, R519). The next
point goes behind the newest one. -/
def pointWrite (d : Dev) : Dev :=
  let i := d.get R.LEDGER_PT_SEL_POINT
  let p := Sparse.at' {} d.led.ring i
  let x := if d.isSet R.LEDGER_PT_X_VALID then some (d.get R.LEDGER_PT_X_X) else none
  let p : LedPoint := ⟨d.get R.LEDGER_PT_HOURS_H, Sparse.put none p.x (d.get R.LEDGER_PT_SEL_IND) x⟩
  let ring := Sparse.put {} d.led.ring i p
  let last := ring.foldl (fun (m : Option (Nat × LedPoint)) q =>
    match m with
    | some b => if b.2.hours ≤ q.2.hours then some q else m
    | none => some q) none
  { d with led := { d.led with ring := ring, next := match last with | some q => (q.1 + 1) % 64 | none => 0 } }

/-- Equivalent age of one second at the measured Tj (R504): A · 256 / 3600 units of 1/256 h. Tj is in 1/16 °C, so
1/(Tj + 273.15) is 320 / (20 T + 87408). -/
def ageTick (d : Dev) : Dev :=
  let t := signed 16 (d.get R.PWRB_TJ_T)
  let k := 20 * t + 87408
  if k ≤ 0 then d
  else
    let num := 81235 * (20 * k - 320 * 7563)
    let a := expRatio 64 num (10 * 7563 * k)
    let total := d.led.ageFrac + a * 256 / 3600
    { d with led := { d.led with ageFrac := total % 2 ^ 64 } }.incWrap R.LEDGER_AGE_EQ_H (total / 2 ^ 64)

/-! ### The DC-link measurement (R506, R507) -/

def measModes (d : Dev) : Bool := decide (5 ≤ d.mode) && decide (d.mode ≤ 7)

def measFail (d : Dev) (cause : Nat) : Dev :=
  { d with led := { d.led with meas := none } }.raise islGUARD 166 cause

/-- A measurement fails when the mode leaves M5 to M7 (R507). -/
def ledgerMode (d : Dev) : Dev := if d.led.meas.isSome && !d.measModes then d.measFail 3 else d

/-- VGAIN and IGAIN in one unit, where they give a quotient (R506). -/
def gains (d : Dev) : Option (Int × Int) :=
  match fp32Units (d.rdw 0x400030D4), fp32Units (d.rdw 0x400030D8) with
  | some v, some i => if i = 0 then none else some (v, i)
  | _, _ => none

/-- ESR in mΩ and CAP in µF, from V1 · conj I1 = re + j im, |I1|² = `norm` and a period of `ticks` PWM ticks of 5/64 ns, with
π to 200 fraction bits (R506, R519). -/
def esrValue (g : Int × Int) (re norm : Int) : Val := ratio (1000 * g.1 * re) (g.2 * norm)

def capValue (g : Int × Int) (im norm : Int) (ticks : Nat) : Val :=
  ratio (-(ticks * 5 * 10 ^ 6 * g.2 * norm * 2 ^ 200)) (64 * 10 ^ 9 * 2 * piFix 200 * (g.1 * im))

/-- The binary32 word of a value: the spec gives no rounding, so it is the word below or the word above (log entry 10). -/
def fp32Near (d : Dev) (v : Val) : Word × Dev :=
  let f := d.freeWord
  ((writeVal .fp32 (if f.1.getLsbD 0 then .ceil else .floor) .wrap v).1, f.2)

/-- A measurement that succeeds: CAP and ESR, and C0 and ESR0 where C0 is 0 (R506, R509). -/
def measStore (d : Dev) (cap esr : Word) : Dev :=
  let d := (d.wrw 0x400030C0 cap).wrw 0x400030C4 esr
  let d := if d.rdw 0x400030C8 = 0 then (d.wrw 0x400030C8 cap).wrw 0x400030CC esr else d
  { d with led := { d.led with meas := none } }.note R.LEDGER_STATUS_MEAS_DONE

/-- The judgement of the sign, and the result (R506, R507). Where the gains give no quotient, whether Im Z ≥ 0 and what a
success stores are free values (log entry 10). -/
def measDone (d : Dev) (re im norm : Int) : Dev :=
  match d.gains with
  | some g =>
    if 0 ≤ g.1 * g.2 * im then d.measFail 2
    else
      let e := d.fp32Near (esrValue g re norm)
      let c := e.2.fp32Near (capValue g im norm (d.livePeriod (d.get R.LEDGER_MCFG_LEG)))
      c.2.measStore c.1 e.1
  | none =>
    let f := d.freeWord
    let e := f.2.freeWord
    let c := e.2.freeWord
    if f.1.getLsbD 0 then f.2.measFail 2 else c.2.measStore c.1 e.1

end Dev

/-! ### Commands -/

/-- LEDGER_ENABLE: a write of CTRL.EN = 1 (R511). -/
def execLedgerEnable (s : State) : Host.Outcome State Fault Refusal :=
  .next <| s.onDev fun d =>
    if d.isSet R.LEDGER_CTRL_EN then d
    else ({ d with led := { d.led with hourAt := d.time.short } }.set R.LEDGER_CTRL_EN 1).predictions

/-- LEDGER_AGE_TICK: a second of powered time (R504). -/
def execLedgerAgeTick (s : State) : Host.Outcome State Fault Refusal :=
  .next <| s.onDev fun d => if d.isSet R.LEDGER_CTRL_EN then d.ageTick else d

/-- LEDGER_POINT: POINT_H hours have passed; `ro` are the slowdowns of the ring oscillators in ppm, `margin` the SRAM
margin (R505, R510). -/
def execLedgerPoint (ro : List (BitVec 16)) (margin : BitVec 4) (s : State) : Host.Outcome State Fault Refusal :=
  .next <| s.onDev fun d => if d.isSet R.LEDGER_CTRL_EN then d.takePoint ro margin else d

/-- LEDGER_POINT_NOW: a write of CTRL.POINT_NOW = 1 (R505, R510). -/
def execLedgerPointNow (ro : List (BitVec 16)) (margin : BitVec 4) (s : State) : Host.Outcome State Fault Refusal :=
  .next <| s.onDev fun d => if d.isSet R.LEDGER_CTRL_EN then d.takePoint ro margin else d

/-- LEDGER_MEAS_START: a write of MEAS.START = 1 (R506). -/
def execLedgerMeasStart (s : State) : Host.Outcome State Fault Refusal :=
  .next <| s.onDev fun d =>
    let c := d.get R.LEDGER_MCFG_CONV
    if !d.measModes || d.act (R.ADC_INJ_CFG_EN c 2) = 1 || d.act (R.ADC_INJ_CFG_EN c 3) = 1 then
      d.note R.LEDGER_STATUS_MEAS_REF
    else if d.led.meas.isSome then d
    else { d with led := { d.led with meas := some ⟨0⟩ } }

/-- LEDGER_MEAS_TRIGGER: the Ledger requests the voltage conversion of a pair, or 250 ns later its current conversion
(R506). -/
def execLedgerMeasTrigger (current : Bool) (s : State) : Host.Outcome State Fault Refusal :=
  .next <| s.onDev fun d =>
    match d.led.meas with
    | some m =>
      let c := d.get R.LEDGER_MCFG_CONV
      let d := { d with led := { d.led with meas := some ⟨m.requests + 1⟩ } }
      if current then d.injTake c 3 (d.get R.LEDGER_MCFG_IAIN) else d.injTake c 2 (d.get R.LEDGER_MCFG_VAIN)
    | none => d

/-- LEDGER_MEAS_COMPLETE: all pairs are taken. `survived` pairs were not dropped; V1 and I1 are the first harmonics that
the Ledger formed, in LSB (R506, R507). -/
def execLedgerMeasComplete (survived : Nat) (v1re v1im i1re i1im : Int) (s : State) :
    Host.Outcome State Fault Refusal :=
  .next <| s.onDev fun d =>
    match d.led.meas with
    | some m =>
      let n := 16 * d.get R.LEDGER_MCFG_NSWEEP
      let norm := i1re * i1re + i1im * i1im
      if m.requests < 2 * n then d
      else if survived * 4 < 3 * n then d.measFail 0
      else if norm < 1000000 then d.measFail 1
      else d.measDone (v1re * i1re + v1im * i1im) (v1im * i1re - v1re * i1im) norm
    | none => d

/-- REPAIR_RUN: a write of REPAIR.RUN = 1 (R516). -/
def execRepairRun (commit : Bool) (key : BitVec 16) (s : State) : Host.Outcome State Fault Refusal :=
  .next <| s.onDev fun d =>
    if d.mode = 11 then
      if key = 0xA5C3 then { d with sys := { d.sys with repairRun := some commit } } else d
    else d.note R.LEDGER_STATUS_WERR

/-- REPAIR_RUN_COMPLETE: the service BIST ends with the units found failing; with COMMIT the volatile bindings go into the
field region of the OTP (R514, R516). -/
def execRepairRunComplete (bad : List BadUnit) (s : State) : Host.Outcome State Fault Refusal :=
  .next <| s.onDev fun d =>
    match d.sys.repairRun with
    | some commit =>
      let d := ({ d with sys := { d.sys with repairRun := none } }.bist bad).1
      if commit then
        let vol := (d.repair.filter fun e => e.2).map (·.1)
        let room := 128 - d.otp.field.length
        let d : Dev := { d with
          otp := { d.otp with field := d.otp.field ++ vol.take room }
          repair := d.repair.map fun e => if (vol.take room).contains e.1 then (e.1, false) else e }
        if room < vol.length then d.raise Dev.islGUARD 170 (vol.length - room) else d
      else d
    | none => d

end Sys2Proof.Machine
end

