-- ==== Sys2Proof/Machine/Modes.lean ====
section
/-! DEFINITION. Operating modes, resets and start-up (chapter 02): mode changes and what they do to every block, mode
requests and commits, the safe-state sequence, resets and their release, the watchdog. -/

namespace Sys2Proof.Machine

open Dev (islGUARD)

namespace Dev

/-! ### Entering a mode -/

/-- FAULT_N is driven low (R356). -/
def faultN (d : Dev) : Bool :=
  (List.range 6).any (fun i => d.get (R.ACC_ACTIVE_SRC i) != 0) || d.mode == 10 || !d.sys.seen3

/-- Both lanes stop, with everything that LANE holds (R47, R335). -/
def lanesStop (d : Dev) : Dev :=
  (({ d with lc := {} }.set R.LANE_STATUS_HOLD 0).stopLane 0).stopLane 1

/-- Both lanes start: lane A ACTIVE, lane B SYNCED (R62 step 12, R322). -/
def lanesStart (d : Dev) : Dev :=
  ((((d.startLane 0).startLane 1).setLaneState 0 1).setLaneState 1 2).laneStatus

/-- M9 remembers the mode before it, and M7 whether its stay began with the change from M8 (R38, R47). -/
def modeMemory (d : Dev) (old m : Nat) : Sys :=
  { d.sys with
    before9 := if m = 9 then old else d.sys.before9
    from8 := if m = 7 then (if old = 9 then d.sys.from8 else old == 8) else m == 9 && d.sys.from8 }

/-- What a new load or check starts with; cores 1 to 3 stand in reset from M1 until M3 is entered from M2 (R47, R62, R85,
R417). -/
def modeStart (d : Dev) (old m : Nat) : Dev :=
  if m = 1 then
    let d := { d.lanesStop with sys := { d.lanesStop.sys with coresOut := false } }
    let d := (d.set R.SYSCTL_BOOT_SLOT (b2n (d.get R.SYSCTL_BOOT_PINS == 1))).set R.SYSCTL_BOOT_FAIL 0
    ((d.set R.CFG_STATUS_ERR 0).set R.CFG_STATUS_SECTION 0).set R.CFG_STATUS_NOSECT 0
  else if m = 2 then
    let d := d.lanesStop
    { d with sys := { d.sys with bistDone := false, startup := old == 1, calDone := [] } }
  else if m = 3 then
    let d := { d with sys := { d.sys with seen3 := true, coresOut := d.sys.coresOut || old == 2 } }
    if old = 2 then
      let d := d.clearTrips
      (List.range 4).foldl (fun d c => if d.adcOut c then d.raise (adcIsland c) 58 c else d) d.lanesStart
    else d
  else if m = 10 then
    { d.setCond 79 false with sys := { d.sys with safeDriven := true, safeHigh := none, safeAt := d.time.short } }
  else d

/-- A transition: MODE, its event flag, and what the new mode permits and forbids (R42, R47, R424). -/
def enterMode (d : Dev) (m cause : Nat) : Dev :=
  let old := d.mode
  let d := { d with sys := d.modeMemory old m }
  let d := ((d.set R.SYSCTL_MODE_CUR m).set R.SYSCTL_MODE_PREV old).set R.SYSCTL_MODE_CAUSE cause
  let d := if old = 10 then d.set R.ACC_STATUS_FIRST_VALID 0 else d
  let d := (d.modeStart old m).withdraw
  let d := d.legsMode.isoMode
  let d := if [1, 2, 11].contains m then d else d.sdModeLeave
  let d := d.ledgerMode
  ({ d with sys := { d.sys with profWait := [0, 1] } }).request 0 2

/-! ### The safe-state sequence (R358, R359) -/

/-- Steps 4 and 5: relays open, SAFE_N low. -/
def safeLines (d : Dev) : Dev :=
  let d := d.isoSafe.setCond 79 false
  { d with sys := { d.sys with safeDriven := true, safeHigh := none } }

/-- ACC decides SAFE for a source (R358, R359); the Archive takes it as a trigger over channel 0x50, stamped at the
decision (R16, R380). -/
def safeDecide (d : Dev) (src : Nat) : Dev :=
  let d := if d.isSet R.ACC_STATUS_FIRST_VALID then d
    else (d.set R.ACC_STATUS_FIRST_SAFE src).set R.ACC_STATUS_FIRST_VALID 1
  let d := (d.request islGUARD 1).send 0x50 islBUS (.safe d.time.short)
  let d := d.safeLines
  if d.mode < 3 then
    { d with acc := { d.acc with heldSafe := d.acc.heldSafe.or (some src) } }.set R.ACC_STATUS_SAFE_HELD 1
  else if d.mode = 10 then d
  else d.enterMode 10 (if src = 79 then 4 else if src = 78 then 9 else 3)

/-- A held decision is repeated on entry to M3 (R359). -/
def heldResolve (d : Dev) : Dev :=
  match d.acc.heldSafe with
  | some src => { d with acc := { d.acc with heldSafe := none } }.safeDecide src
  | none => d

/-- The device enters M10 by a failed load or BIST, which fulfils a held decision (R38, R359). -/
def failInto10 (d : Dev) (cause : Nat) : Dev :=
  { d with acc := { d.acc with heldSafe := none } }.enterMode 10 cause

/-! ### Mode requests (R37 to R46, R545) -/

/-- All relays read back open (R38, R66). -/
def relaysReadOpen (d : Dev) : Bool := d.get R.ISO_STATUS_RB_A == 0 && d.get R.ISO_STATUS_RB_B == 0

/-- No Severe source is active, and no source whose reaction was SAFE has its ACTIVE bit set (R362). -/
def accClear (d : Dev) : Bool :=
  (List.range 6).all (fun i => d.get (R.ACC_SEV_SRC i) == 0) && d.acc.safeSrcs.all fun s => !d.bit R.ACC_ACTIVE_SRC s

/-- SAFE_N is released and the pin has read high for 10 µs (R66). -/
def safeNHigh (d : Dev) : Bool :=
  !d.sys.safeDriven && match d.sys.safeHigh with
    | some t => decide (t + 10000 ≤ d.time.short)
    | none => false

/-- A Staged commit is pending in some block (R38). -/
def stagedPending (d : Dev) : Bool :=
  !d.cfg.pend.isEmpty || d.cfg.coef.isSome || (List.range 48).any fun n => (d.leg n).pend.isSome || (d.leg n).frozen.isSome

/-- The transitions to a control mode that a request can start (R37). -/
def requestable (cur target : Nat) : Bool :=
  [(3, 4), (3, 8), (5, 6), (6, 5), (5, 7), (6, 7), (7, 4)].contains (cur, target) ||
    (target == 3 && decide (4 ≤ cur) && decide (cur ≤ 9))

/-- The transitions that the sequencer carries out on request (R38). -/
def carriedOut (cur target : Nat) : Bool := [(3, 1), (10, 2), (11, 2), (3, 11)].contains (cur, target)

/-- REASON of a request that passes the key and busy tests; 0 accepts it (R545). -/
def requestReason (d : Dev) (target : Nat) : Nat :=
  let cur := d.mode
  if !requestable cur target && !carriedOut cur target then 2
  else if target = 8 ∧ !(d.get R.ISO_SEAL_LATCHED).testBit 7 then 4
  else if cur = 3 ∧ target = 1 ∧ d.stagedPending then 6
  else if cur = 3 ∧ target = 11 ∧ !d.relaysReadOpen then 6
  else if cur = 11 ∧ !d.relaysReadOpen then 6
  else if cur = 10 ∧ !(d.accClear && d.safeNHigh && d.relaysReadOpen) then 6
  else 0

def refuseReq (d : Dev) (reason : Nat) : Dev :=
  (d.set R.SYSCTL_MODE_STAT_REFUSED 1).set R.SYSCTL_MODE_STAT_REASON reason

/-- A request waits in the slot that the mode Strand reads (R37, R284). -/
def forward (d : Dev) (target : Nat) : Dev :=
  { d with sys := { d.sys with slot := some target, reqSeq := d.sys.reqSeq + 1, profWait := [0, 1] } }.set
    R.SYSCTL_MODE_STAT_BUSY 1

/-- The slot is emptied. -/
def unslot (d : Dev) : Dev :=
  { d with sys := { d.sys with slot := none, profWait := [0, 1] } }.set R.SYSCTL_MODE_STAT_BUSY 0

/-- A write of MODE_REQ (R37, R43, R545). `preempted`: a reset, an entry to M10 or a Weave transition acts in the same
cycle (R39). -/
def modeRequest (d : Dev) (key target : Nat) (preempted : Bool) : Dev :=
  let d := (d.set R.SYSCTL_MODE_STAT_REFUSED 0).set R.SYSCTL_MODE_STAT_REASON 0
  if key ≠ (if target = 11 then 0x5E11 else 0xA5C3) then d.refuseReq 1
  else if d.isSet R.SYSCTL_MODE_TRANSIT || d.isSet R.SYSCTL_MODE_STAT_BUSY then d.refuseReq 3
  else
    let r := d.requestReason target
    if r ≠ 0 then d.refuseReq r
    else if preempted then d.refuseReq 5
    else if carriedOut d.mode target then d.enterMode target 1
    else d.forward target

/-! ### Mode commits (R36, R38, R285) -/

/-- A transition that the Weave may commit (R36, R38). -/
def commitAllowed (d : Dev) (m : Nat) : Bool :=
  let cur := d.mode
  [(3, 4), (4, 5), (4, 6), (5, 6), (6, 5), (5, 7), (6, 7), (7, 4), (5, 9), (6, 9), (7, 9), (8, 7)].contains (cur, m) ||
    (cur == 3 && m == 8 && (d.get R.ISO_SEAL_LATCHED).testBit 7) ||
    (cur == 9 && m == d.sys.before9) || (d.control && m == 3)

/-- A committed mode reaches the sequencer (R36, R285). -/
def modeCommit (d : Dev) (v : Nat) : Dev :=
  let cur := d.mode
  let m := v % 16
  let cause := bits v 8 8
  if [0, 1, 2, 10, 11].contains cur || m == cur then d
  else if d.commitAllowed m then
    let d := d.enterMode m (if cause = 0 then 2 else cause)
    if d.sys.slot = some m then d.unslot else d
  else d.raise 0 77 (cur + 16 * m + 256 * cause)

/-! ### Resets (R50 to R53) -/

/-- Copies fields from one device state into another. -/
def keepFields (old new : Dev) (fs : List Fld) : Dev := fs.foldl (fun n f => n.set f (old.get f)) new

/-- What a warm reset keeps of the registers (R51). -/
def warmKept : List Fld := [
  R.SYSCTL_RST_CAUSE_POR, R.SYSCTL_RST_CAUSE_BROWNOUT, R.SYSCTL_RST_CAUSE_WARM_PIN, R.SYSCTL_RST_CAUSE_SW,
  R.SYSCTL_RST_CAUSE_WDOG, R.SYSCTL_RST_CAUSE_DEBUG, R.SYSCTL_RST_CAUSE_BOOT_RSV, R.SYSCTL_BOOT_PINS,
  R.ISO_SEAL_LATCHED, R.ISO_STATUS_WELD_FAIL, R.CLK_STAT_XTAL_OK, R.CLK_STAT_LOCKED, R.CLK_STAT_ON_BYP,
  R.CLK_PLL_BAND 0, R.CLK_PLL_BAND 1, R.CLK_PLL_BAND 2]

/-- TIME counts BYP periods while PLL_PWM's domains run on BYP. -/
def bypSync (d : Dev) : Dev := d.setB R.TIME_STATUS_BYP ((d.get R.CLK_STAT_ON_BYP).testBit 2)

/-- A power-on reset is asserted: everything returns to its reset value but the OTP and what stands outside the device.
RST_CAUSE holds its own cause alone (R53). -/
def powerOnReset (d : Dev) (brownout : Bool) : Dev :=
  let sys : Sys := { safeExt := d.sys.safeExt, ring := d.sys.ring }
  let iso : IsoS := { pins := d.iso.pins }
  let n : Dev := { otp := d.otp, free := d.free, sys := sys, iso := iso }
  if brownout then (n.set R.SYSCTL_RST_CAUSE_POR 0).set R.SYSCTL_RST_CAUSE_BROWNOUT 1 else n

/-- A warm reset is asserted, unless a power-on reset stands (R51, R53, R532). -/
def warmReset (d : Dev) (cause : Fld) : Dev :=
  if d.sys.held = .powerOn then d
  else
    let sys : Sys := { held := .warm, straps := d.sys.straps, debugHold := d.sys.debugHold, safeExt := d.sys.safeExt,
                       ring := d.sys.ring, vddioB := d.sys.vddioB }
    let iso : IsoS := { pins := d.iso.pins }
    let n : Dev :=
      { otp := d.otp, free := d.free, repair := d.repair, dead := d.dead, weak := d.weak, clk := d.clk,
        sys := sys, iso := iso }
    ((keepFields d n warmKept).set cause 1).bypSync.spareSync.mapSync

/-- Clocks locked (R38). -/
def clocksLocked (d : Dev) : Bool := d.get R.CLK_STAT_LOCKED == 7 && d.get R.CLK_STAT_ON_BYP == 0

/-- The repair map that the OTP holds (R513). -/
def otpMap (d : Dev) : List (Word × Bool) :=
  ((d.otp.factory.take 256 ++ d.otp.field.take 128).filter fun e => entryKind e != 0).map fun e => (e, false)

/-- What the device latches at the release of a power-on reset: the straps, BOOT[2:0], TESTMODE and the level of VDDIO_B;
from then on the logic drives the pads (R56, R57, R58, R62, R531, R532). -/
def latchPins (d : Dev) (straps : BitVec 8) (boot : BitVec 3) (pins : ReleasePins) : Dev :=
  let b := boot.toNat
  let d := { d with sys := { d.sys with
    straps := straps, debugHold := decide (4 ≤ b), testStuck := pins.testmode, vddioB := pins.vddioB, ring := .logic } }
  let d := (d.set R.ISO_SEAL_LATCHED straps.toNat).set R.ISO_SEAL_LIVE straps.toNat
  (d.set R.SYSCTL_BOOT_PINS b).setB R.SYSCTL_RST_CAUSE_BOOT_RSV (b == 4 || b == 5 || b == 6)

/-- The release of a reset, with the levels of the pins at that moment (R51, R56 to R58, R62, R63). The conditions of clocks
that are still lost stand (R497). -/
def release (d : Dev) (straps : BitVec 8) (boot : BitVec 3) (pins : ReleasePins) : Dev :=
  let safeHigh := if d.sys.safeExt then none else some 0
  match d.sys.held with
  | .none => d
  | .powerOn =>
    if d.sys.testStuck then d
    else
      let d := d.latchPins straps boot pins
      if pins.testmode then d
      else
        let d := { d with sys := { d.sys with held := .none, safeHigh := safeHigh }, repair := d.otpMap }
        let d := (d.set R.CLK_STAT_ON_BYP 7).bypSync.spareSync.mapSync.rbSync
        if d.sys.debugHold then d.enterMode 1 0 else d
  | .warm =>
    let d := { d with sys := { d.sys with held := .none, safeHigh := safeHigh } }
    let d := (d.clk.conds.foldl (fun d c => d.setCond c true) (d.set R.ISO_SEAL_LIVE straps.toNat)).rbSync
    if d.clocksLocked || d.sys.debugHold then d.enterMode 1 0 else d

/-- SAFE_N may be released (R65). -/
def safeNFree (d : Dev) : Bool :=
  d.mode == 10 && d.sys.safeDriven && decide (d.sys.safeAt + 200 ≤ d.time.short) && d.accClear &&
    d.hoop.all fun e => !(decide (0x30 ≤ e.ch) && decide (e.ch ≤ 0x3D))

end Dev

/-- The Pattern store is cleared by every reset (R51). -/
def clearPattern (m : Mem) : Mem := m.filter fun c => !(0x3C000000 ≤ c.1 && c.1 < 0x3C040000)

/-- A warm reset of the machine. -/
def State.warm (s : State) (cause : Fld) : State :=
  if s.d.sys.held = .powerOn then s else { s with d := s.d.warmReset cause, mem := clearPattern s.mem }

/-! ### Commands -/

/-- MODE_REQ_CONTROL: a write of MODE_REQ with target M4 + `target` (R37). -/
def execModeReqControl (key : BitVec 16) (target : Fin 6) (preempted : Bool) (s : State) :
    Host.Outcome State Fault Refusal :=
  .next <| s.onDev fun d => d.modeRequest key.toNat (4 + target.val) preempted

/-- MODE_REQ_STOP: target M3 (R37). -/
def execModeReqStop (key : BitVec 16) (preempted : Bool) (s : State) : Host.Outcome State Fault Refusal :=
  .next <| s.onDev fun d => d.modeRequest key.toNat 3 preempted

/-- MODE_REQ_RELOAD: target M1 (R38). -/
def execModeReqReload (key : BitVec 16) (preempted : Bool) (s : State) : Host.Outcome State Fault Refusal :=
  .next <| s.onDev fun d => d.modeRequest key.toNat 1 preempted

/-- MODE_REQ_CHECK: target M2 (R38, R66). -/
def execModeReqCheck (key : BitVec 16) (preempted : Bool) (s : State) : Host.Outcome State Fault Refusal :=
  .next <| s.onDev fun d => d.modeRequest key.toNat 2 preempted

/-- MODE_REQ_SERVICE: target M11 (R38, R43). -/
def execModeReqService (key : BitVec 16) (preempted : Bool) (s : State) : Host.Outcome State Fault Refusal :=
  .next <| s.onDev fun d => d.modeRequest key.toNat 11 preempted

/-- MODE_REQ_FORBIDDEN: a target that no request reaches from the current mode (R37). -/
def execModeReqForbidden (key : BitVec 16) (target : Fin 16) (s : State) : Host.Outcome State Fault Refusal :=
  .next <| s.onDev fun d => d.modeRequest key.toNat target.val false

/-- MODE_REQ_TIMEOUT: a forwarded request is not committed within 100 ms (R46). -/
def execModeReqTimeout (s : State) : Host.Outcome State Fault Refusal :=
  .next <| s.onDev fun d => if d.sys.slot.isSome then d.unslot.refuseReq 7 else d

/-- MODE_COMMIT: the sequencer takes a mode commit that LANE has passed on (R36, R39, R41). -/
def execModeCommit (s : State) : Host.Outcome State Fault Refusal :=
  .next <| s.onDev fun d =>
    match d.take 0x1C 0 with
    | some (.mode v, d) => d.holdRelease.modeCommit v.toNat
    | _ => d

/-- PROFILE_WINDOW_UPDATE: lanes that run no Loop Set 15 take REQ and CUR; a lane that starts such a run before has taken
them with its start (R284). -/
def execProfileWindowUpdate (s : State) : Host.Outcome State Fault Refusal :=
  .next ((s.takeProfile 0).takeProfile 1)

/-- POWER_ON_RESET: PORST_N low (R50, R52, R53). -/
def execPowerOnReset (s : State) : Host.Outcome State Fault Refusal :=
  .next { s with d := s.d.powerOnReset false, mem := clearPattern s.mem }

/-- VDDAON_BROWNOUT: a power-on reset with its own cause (R50, R53, R532). -/
def execVddaonBrownout (s : State) : Host.Outcome State Fault Refusal :=
  .next { s with d := s.d.powerOnReset true, mem := clearPattern s.mem }

/-- WARM_RESET_PIN: WARMRST_N low (R50). -/
def execWarmResetPin (s : State) : Host.Outcome State Fault Refusal := .next (s.warm R.SYSCTL_RST_CAUSE_WARM_PIN)

/-- RST_REQ_WARM: a write of RST_REQ with WARM = 1 (R54). -/
def execRstReqWarm (key : BitVec 16) (s : State) : Host.Outcome State Fault Refusal :=
  .next (if key = 0xA5C3 then s.warm R.SYSCTL_RST_CAUSE_SW else s)

/-- DEBUG_RESET: a Bexrax debug reset (R50). -/
def execDebugReset (s : State) : Host.Outcome State Fault Refusal := .next (s.warm R.SYSCTL_RST_CAUSE_DEBUG)

/-- RESET_RELEASE: straps, boot pins, TESTMODE and the level of VDDIO_B (3.3 V or not) as they stand at the release (R56
to R58, R62, R63, R531). -/
def execResetRelease (straps : BitVec 8) (boot : BitVec 3) (pins : ReleasePins) (s : State) :
    Host.Outcome State Fault Refusal :=
  .next <| s.onDev fun d => d.release straps boot pins

/-- WDOG_KICK: a write of WDOG_KICK; the key restarts the count (R55). -/
def execWdogKick (value : Word) (s : State) : Host.Outcome State Fault Refusal :=
  .next <| s.onDev fun d =>
    if value = 0xA5C3 then { d with sys := { d.sys with wdogAt := d.time.short } } else d

/-- WDOG_EXPIRE: the watchdog's count expires (R55). -/
def execWdogExpire (s : State) : Host.Outcome State Fault Refusal :=
  .next <| s.onDev fun d =>
    if d.isSet R.SYSCTL_WDOG_EN && !d.sys.wdogFired then
      { d with sys := { d.sys with wdogFired := true } }.raise 0 78 0
    else d

/-- WDOG_WARM_RESET: 1 ms after the expiry (R55). -/
def execWdogWarmReset (s : State) : Host.Outcome State Fault Refusal :=
  .next (if s.d.sys.wdogFired then s.warm R.SYSCTL_RST_CAUSE_WDOG else s)

/-- BIST_COMPLETE: BIST in M2 ends with the units found failing (R38, R514); the converters calibrate where M2 follows M1
(R62 step 10, R189). -/
def execBistComplete (bad : List BadUnit) (s : State) : Host.Outcome State Fault Refusal :=
  .next <| s.onDev fun d =>
    if d.mode ≠ 2 ∨ d.sys.bistDone then d
    else
      let r := d.bist bad
      if !r.2 then r.1.failInto10 6
      else
        let d := { r.1 with sys := { r.1.sys with bistDone := true } }
        if d.sys.startup then
          (List.range 4).foldl (fun d c => if d.adcOut c then d else d.set (R.ADC_STATUS_CAL_BUSY c) 1) d
        else d

/-- The words that the load initialised are equal in both lanes (R62 step 11). The Strand stores of both lanes are filled
from one list (R116), so that they are always equal. -/
def State.lanesEqual (s : State) : Bool :=
  s.d.pat.inits.all fun r => (List.range r.2).all fun i =>
    Mem.word s.mem (laneBase 0 + r.1 + 4 * i) == Mem.word s.mem (laneBase 1 + r.1 + 4 * i)

/-- STANDBY_ENTRY: BIST and, on the start-up path, calibration done and lane memory equal, both lanes formed and the
Colophons equal, the device enters M3; a held SAFE is repeated (R62 steps 10 to 12, R359, log entry 100). MODE.CAUSE keeps
what started the check. -/
def execStandbyEntry (s : State) : Host.Outcome State Fault Refusal :=
  .next <| s.onDev fun d =>
    let cal := !d.sys.startup || (s.lanesEqual && (List.range 4).all fun c => d.adcOut c || d.sys.calDone.contains c)
    if d.mode = 2 ∧ d.sys.bistDone ∧ cal ∧ !d.isSet R.CFG_STATUS_SPLIT then
      (d.enterMode 3 (d.get R.SYSCTL_MODE_CAUSE)).heldResolve
    else d

/-- EXT_SAFE: SAFE_N is held low from outside, outside M10, while the device does not drive it (R65): a condition, which
ends when the line is released or the device drives it (R347, log entry 95). -/
def execExtSafe (s : State) : Host.Outcome State Fault Refusal :=
  .next <| s.onDev fun d =>
    let d' := { d with sys := { d.sys with safeExt := true, safeHigh := none } }
    if d.mode ≠ 10 ∧ !d.sys.safeDriven ∧ d.sys.held = .none then d'.beginCond 0 79 0 else d'

/-- SAFE_N_RELEASE (R65). -/
def execSafeNRelease (s : State) : Host.Outcome State Fault Refusal :=
  .next <| s.onDev fun d =>
    if d.safeNFree then
      { d with sys := { d.sys with safeDriven := false, safeHigh := if d.sys.safeExt then none else some d.time.short } }
    else d

/-- SAFE_N_LINE_CHANGE: another unit or contact pulls the line low or releases it (R66). -/
def execSafeNLineChange (low : Bool) (s : State) : Host.Outcome State Fault Refusal :=
  .next <| s.onDev fun d =>
    let high := if low || d.sys.safeDriven then none else d.sys.safeHigh.or (some d.time.short)
    let d := if low then d else d.setCond 79 false
    { d with sys := { d.sys with safeExt := low, safeHigh := high } }

/-- POWER_DOWN: with VDDIO_A up, VDD or VDDAON falls, and the pad ring goes to its hold state without logic (R532). Where
it is there already a further rail falls; whether that is VDDIO_A, with which nothing holds a pad, is a free value (R533;
DESIGN CHOICE, log entry 104). -/
def execPowerDown (s : State) : Host.Outcome State Fault Refusal :=
  .next <| s.onDev fun d =>
    let ringTo (d : Dev) (r : PadRing) : Dev := { d with sys := { d.sys with ring := r } }
    match d.sys.ring with
    | .logic => ringTo d .hold
    | .hold => ringTo d.freeWord.2 (if d.freeWord.1.getLsbD 0 then .gone else .hold)
    | .gone => d

/-- CRYSTAL_NOT_QUALIFIED: 20 ms pass without a qualified crystal; the device stays in M0, or under debug hold enters M1 on
BYP (R64). -/
def execCrystalNotQualified (s : State) : Host.Outcome State Fault Refusal :=
  .next <| s.onDev fun d =>
    if d.mode = 0 ∧ d.sys.held = .none ∧ d.sys.debugHold ∧ !d.isSet R.CLK_STAT_XTAL_OK then d.enterMode 1 0 else d

end Sys2Proof.Machine
end

