-- ==== Sys2Proof/Machine/Acc.lean ====
section
/-! DEFINITION. Fault collection and the Accession Log (chapter 11): judgement of reports, promotion, reactions and
escalation, acknowledge and forcing, the staging slots, the log and its reads, and the commit of ACC. -/

namespace Sys2Proof.Machine

open Dev (islGUARD)

/-! ### Promotion windows (R349, R352) -/

/-- The largest n below `lo + 2^k` with `ok n`, for a monotone `ok` that holds at `lo`. -/
def bisect (ok : Nat → Bool) (lo : Nat) : Nat → Nat
  | 0 => lo
  | k + 1 => if ok (lo + 2 ^ k) then bisect ok (lo + 2 ^ k) k else bisect ok lo k

/-- W in nanoseconds of code c: the multiple of 10 ns nearest to 1 µs × 10^(c/40) (R349). -/
def windowNs (c : Nat) : Nat :=
  10 * bisect (fun n => (2 * n - 1) ^ 40 ≤ 2 ^ 40 * 10 ^ (80 + c)) 1 27

namespace Dev

def accWin (d : Dev) (s : Nat) : Option Win := Sparse.at' none d.acc.wins s
def setWin (d : Dev) (s : Nat) (w : Option Win) : Dev := { d with acc := { d.acc with wins := Sparse.put none d.acc.wins s w } }
def timer (d : Dev) (s : Nat) : Option Timer := Sparse.at' none d.acc.timers s

/-- The escalation timer of a source; GRACEi shows the running ones (R371). -/
def setTimer (d : Dev) (s : Nat) (t : Option Timer) : Dev :=
  let d := { d with acc := { d.acc with timers := Sparse.put none d.acc.timers s t } }
  d.setBit R.ACC_GRACE_SRC s (match t with | some t => t.running | none => false)

def srcClass (d : Dev) (s : Nat) : Nat := d.act (R.ACC_SRC_CFG_CLASS s)
def srcReaction (d : Dev) (s : Nat) : Nat := d.act (R.ACC_SRC_CFG_REACTION s)
def promoted (d : Dev) (s : Nat) : Bool := d.bit R.ACC_PROMO_SRC s

/-- A report counts for promotion (R352). In the promoted state no window is kept. -/
def promote (d : Dev) (s time : Nat) : Dev :=
  if d.promoted s then d
  else
    let count := match d.accWin s with
      | some w => if time < w.opened + windowNs (d.act (R.ACC_SRC_WIN_W s)) then w.count + 1 else 1
      | none => 1
    let opened := match d.accWin s with
      | some w => if count = 1 then time else w.opened
      | none => time
    if d.act (R.ACC_SRC_CFG_N s) < count then
      ((d.setWin s none).setBit R.ACC_PROMO_SRC s true).incSat (R.ACC_SRC_CNT_PROMOTED s)
    else d.setWin s (some ⟨opened, count⟩)

/-! ### Staging (R366 to R368) -/

def logLevel (d : Dev) : Dev := d.set R.ACC_LOGSTAT_LEVEL d.acc.fifo.length

def setFifo (d : Dev) (f : List LogEntry) : Dev := { d with acc := { d.acc with fifo := f } }.logLevel

/-- The newest entry of the FIFO is an OVERFLOW entry. -/
def tailOverflow (d : Dev) : Bool :=
  match d.acc.fifo.getLast? with
  | some e => e.src == 0xFF
  | none => false

/-- `k` reports more are lost behind an OVERFLOW entry at the tail. -/
def addLost (d : Dev) (k : Nat) : Dev :=
  d.setFifo (match d.acc.fifo.reverse with
    | e :: t => ({ e with ctx := word (satAdd 32 e.ctx.toNat k) } :: t).reverse
    | [] => [])

/-- A report finds its staging slot occupied by an entry it cannot merge with (R368). -/
def stageLost (d : Dev) (stamp : Word) : Dev :=
  let d := d.incSat R.ACC_LOGSTAT_LOST
  match d.acc.ovfNext with
  | some (t, n) => { d with acc := { d.acc with ovfNext := some (t, satAdd 32 n 1) } }
  | none =>
    if d.tailOverflow then d.addLost 1 else { d with acc := { d.acc with ovfNext := some (stamp, 1) } }

end Dev

/-- Staging slot of an entry: its source, and whether it is the slot of lane B (R366). -/
def LogEntry.slot (e : LogEntry) : Nat × Bool := (e.src, e.lane == 1)

/-- Distance of two stamps on the short count. -/
def stampDist (from' to' : Word) : Nat := (to' - from').toNat

/-- The report `r` merges into the entry `e` (R367). -/
def LogEntry.merges (e r : LogEntry) : Bool :=
  e.cls == r.cls && !e.closed && decide (e.rep < 0xFFFF) && decide (stampDist e.stamp r.stamp < 1000) &&
    !e.esc && !r.esc

def LogEntry.merge (e r : LogEntry) : LogEntry :=
  { e with rep := e.rep + 1, lastDt := stampDist e.stamp r.stamp }

/-- Replaces the last element that satisfies `p`. -/
def mapLast {α : Type} (p : α → Bool) (f : α → α) (l : List α) : List α :=
  let rec go : List α → List α
    | [] => []
    | x :: t => if p x then f x :: t else x :: go t
  (go l.reverse).reverse

namespace Dev

/-- A judged report is placed in its slot, or merged into the newest entry of its source and lane (R366, R367). -/
def stage (d : Dev) (r : LogEntry) : Dev :=
  let same (e : LogEntry) : Bool := e.src == r.src && e.lane == r.lane
  let lost := if d.acc.staged.any fun e => e.slot == r.slot then d.stageLost r.stamp
    else { d with acc := { d.acc with staged := d.acc.staged ++ [r] } }
  match d.acc.staged.find? same with
  | some e =>
    if e.merges r then { d with acc := { d.acc with staged := mapLast same (fun e => e.merge r) d.acc.staged } } else lost
  | none =>
    match d.acc.fifo.reverse.find? same with
    | some e => if e.merges r then d.setFifo (mapLast same (fun e => e.merge r) d.acc.fifo) else lost
    | none => lost

/-! ### Judgement (R351 to R355, R360, R364) -/

/-- The active lane, as R360 takes it. -/
def judgeLane (d : Dev) : Nat :=
  match d.lc.hold with
  | some h => h.active
  | none => d.get R.LANE_STATUS_ACTIVE

/-- A NOTIFY, GRACE or SAFE reaction: ACTIVE, STATUS.NOTIFY and event flag 0 (R355, R424). -/
def reactNotify (d : Dev) (s : Nat) : Dev :=
  ((d.setBit R.ACC_ACTIVE_SRC s true).set R.ACC_STATUS_NOTIFY 1).request islGUARD 0

/-- A Severe report sets ACTIVE and SEV (R355). -/
def severe (d : Dev) (s : Nat) : Dev := (d.setBit R.ACC_ACTIVE_SRC s true).setBit R.ACC_SEV_SRC s true

/-- ACC judges one report; the answer says whether its reaction is SAFE. -/
def judge (d : Dev) (r : Report) : Dev × Bool :=
  let s := r.src
  let standby := r.lane != 2 && r.lane != d.judgeLane
  let d := d.incSat (if standby then R.ACC_SRC_CNT_STANDBY s else R.ACC_SRC_CNT_EVENTS s)
  if d.act (R.ACC_SRC_CFG_EN s) = 0 then (d, false)
  else
    let entry (cls react : Nat) (promo : Bool) : LogEntry :=
      { src := s, cls := cls, react := react, lane := r.lane, promoted := promo, forced := r.forced, rep := 0,
        stamp := word r.time, ctx := r.ctx, esc := false, standby := standby, mode := 0, lastDt := 0, seq := 0,
        closed := false }
    if standby then (d.stage (entry (d.srcClass s) 0 false), false)
    else
      let d := d.promote s r.time
      let promo := d.promoted s
      let cls := if promo then 3 else d.srcClass s
      let react := if promo then max (d.srcReaction s) (d.act R.ACC_CTRL_PROMO_REACT) else d.srcReaction s
      let d := if cls = 3 then d.severe s else d
      let d := if react = 0 then d else d.reactNotify s
      let d := if react = 2 ∧ (d.timer s).isNone then
          d.setTimer s (some ⟨true, d.act (R.ACC_SRC_CFG_GRACE s), r.ctx, r.lane, promo⟩)
        else d
      let d := if react = 3 ∧ !d.acc.safeSrcs.contains s then
          { d with acc := { d.acc with safeSrcs := d.acc.safeSrcs ++ [s] } }
        else d
      (d.stage (entry cls react promo), react == 3)

/-- Judges the reports of one cycle; the first source in their order that decides SAFE is kept (R361). -/
def judgeAll : List Report → Dev → Dev × Option Nat
  | [], d => (d, none)
  | r :: t, d =>
    let x := d.judge r
    let y := judgeAll t x.1
    (y.1, if x.2 then some r.src else y.2)

end Dev

/-- The order of R366: ascending source, lane A before lane B before none. -/
def reportKey (r : Report) : Nat := r.src * 4 + r.lane

def insertReport (r : Report) : List Report → List Report
  | [] => [r]
  | x :: t => if reportKey r < reportKey x then r :: x :: t else x :: insertReport r t

/-- Takes the oldest report of each channel named. One that has not been acknowledged yet arrives with this, and signals
LANE where it is a lane fault (R109). -/
def Dev.takeReports (d : Dev) : List (Fin 14) → List Report × Dev
  | [] => ([], d)
  | c :: t =>
    match d.takeEntry (0x30 + c.val) islGUARD with
    | some ({ w := .report r, acked := acked, .. }, d') =>
      let x := (if acked then d' else d'.laneSignal r).takeReports t
      (insertReport r x.1, x.2)
    | _ => d.takeReports t

/-- FAULT_REPORT: the reports that reach ACC in one SYS cycle, one from each channel named, are judged (R355, R361). -/
def execFaultReport (chs : List (Fin 14)) (s : State) : Host.Outcome State Fault Refusal :=
  .next <| s.onDev fun d =>
    let t := d.takeReports chs
    let x := Dev.judgeAll t.1 t.2
    match x.2 with
    | some src => x.1.safeDecide src
    | none => x.1

namespace Dev

/-! ### Acknowledge and escalation (R357, R362) -/

/-- The effects of an acknowledge on one source. -/
def ackSource (d : Dev) (s : Nat) : Dev :=
  let d := ((d.setTimer s none).setBit R.ACC_PROMO_SRC s false).setWin s none
  if d.bit R.ACC_COND_SRC s then d.set R.ACC_STATUS_WERR 1
  else
    let d := (d.setBit R.ACC_ACTIVE_SRC s false).setBit R.ACC_SEV_SRC s false
    { d with acc := { d.acc with safeSrcs := d.acc.safeSrcs.filter fun x => x != s } }

/-- A write of ACC.ACK (R362). -/
def ackWrite (d : Dev) (key src : Nat) (all : Bool) : Dev :=
  if key ≠ 0xA5C3 ∨ 191 < src then d.set R.ACC_STATUS_WERR 1
  else if all then (List.range 192).foldl ackSource d
  else d.ackSource src

/-- A write of ACC.FORCE (R363). -/
def forceWrite (d : Dev) (key src : Nat) : Dev :=
  if key ≠ 0xA5C3 ∨ 191 < src then d.set R.ACC_STATUS_WERR 1
  else d.send 0x33 islGUARD (.report ⟨src, word (d.get R.ACC_FORCE_CTX_CTX), 2, d.time.short, true⟩)

/-- The escalation timer of `s`, which held `t`, expires (R357). `over`: it has expired and stays so. -/
def escalate (d : Dev) (s : Nat) (t : Timer) : Dev :=
  let d := d.setTimer s (some { t with running := false })
  let cls := if d.promoted s then 3 else d.srcClass s
  let d := d.setBit R.ACC_ACTIVE_SRC s true
  let d := if cls = 3 then d.setBit R.ACC_SEV_SRC s true else d
  let d := if d.acc.safeSrcs.contains s then d else { d with acc := { d.acc with safeSrcs := d.acc.safeSrcs ++ [s] } }
  let d := d.stage { src := s, cls := cls, react := 3, lane := t.lane, promoted := t.promoted, forced := false, rep := 0,
                     stamp := d.shortTime, ctx := t.ctx, esc := true, standby := false, mode := 0, lastDt := 0, seq := 0,
                     closed := false }
  d.safeDecide s

end Dev

/-- GRACE_EXPIRY: a running escalation timer expires. `ack`: an acknowledge of the source is taken in the same cycle; it
acts first, and the timer expires all the same (R357). -/
def execGraceExpiry (src : Fin 192) (ack : Bool) (s : State) : Host.Outcome State Fault Refusal :=
  .next <| s.onDev fun d =>
    match d.timer src.val with
    | some t =>
      if t.running then (if ack then d.ackSource src.val else d).escalate src.val t else d
    | none => d

/-- ACC_ACK: a write of ACK with ALL = 0 (R362). -/
def execAccAck (src : BitVec 8) (key : BitVec 16) (s : State) : Host.Outcome State Fault Refusal :=
  .next <| s.onDev fun d => d.ackWrite key.toNat src.toNat false

/-- ACC_ACK_ALL: a write of ACK with ALL = 1 and SRC 0 (R362). -/
def execAccAckAll (key : BitVec 16) (s : State) : Host.Outcome State Fault Refusal :=
  .next <| s.onDev fun d => d.ackWrite key.toNat 0 true

/-- ACC_FORCE: a write of FORCE (R363). -/
def execAccForce (src : BitVec 8) (key : BitVec 16) (s : State) : Host.Outcome State Fault Refusal :=
  .next <| s.onDev fun d => d.forceWrite key.toNat src.toNat

/-! ### The log (R365 to R369) -/

namespace Dev

/-- An entry enters the FIFO: it takes the next SEQ and the present mode (R366). -/
def logPush (d : Dev) (e : LogEntry) : Dev :=
  let d' := d.setFifo (d.acc.fifo ++ [{ e with seq := d.acc.seq, mode := d.mode }])
  { d' with acc := { d'.acc with seq := (d.acc.seq + 1) % 16384 } }

def overflowEntry (stamp : Word) (count : Nat) : LogEntry :=
  { src := 0xFF, cls := 0, react := 0, lane := 2, promoted := false, forced := false, rep := 0, stamp := stamp,
    ctx := word count, esc := false, standby := false, mode := 0, lastDt := 0, seq := 0, closed := false }

def logOverflow (d : Dev) (stamp : Word) (count : Nat) : Dev :=
  (d.logPush (overflowEntry stamp count)).set R.ACC_STATUS_OVF 1

/-- The log writer's next write (R366, R368). An entry that cannot be logged counts its merged reports too. -/
def logWrite (d : Dev) : Dev :=
  let free := 256 - d.acc.fifo.length
  match d.acc.ovfNext with
  | some (t, n) =>
    if free = 0 then d else { d with acc := { d.acc with ovfNext := none } }.logOverflow t n
  | none =>
    match d.acc.staged with
    | [] => d
    | e :: rest =>
      let d := { d with acc := { d.acc with staged := rest } }
      if 2 ≤ free then d.logPush e
      else
        let d := d.incSat R.ACC_LOGSTAT_LOST (1 + e.rep)
        if d.tailOverflow then d.addLost (1 + e.rep)
        else if free = 1 then d.logOverflow e.stamp (1 + e.rep)
        else d

end Dev

/-- The words of an entry (R365). -/
def LogEntry.w0 (e : LogEntry) : Word :=
  word (e.src + e.cls * 2 ^ 8 + e.react * 2 ^ 10 + e.lane * 2 ^ 12 + b2n e.promoted * 2 ^ 14 + b2n e.forced * 2 ^ 15 +
    e.rep * 2 ^ 16)

def LogEntry.w3 (e : LogEntry) : Word :=
  word (b2n e.esc + b2n e.standby * 2 + e.mode * 4 + e.lastDt * 2 ^ 8 + e.seq * 2 ^ 18)

namespace Dev

/-- The word of LOG_Wn that a read answers: W0 of the latched entry or of the head; the others of the latched entry. -/
def logWord (d : Dev) (n : Nat) : Word :=
  match n, d.acc.latch with
  | 0, none => match d.acc.fifo with | e :: _ => e.w0 | [] => 0
  | _, none => 0
  | 0, some e => e.w0
  | 1, some e => e.stamp
  | 2, some e => e.ctx
  | _, some e => e.w3

/-- A read of LOG_W0 latches and closes the head (R369). -/
def logLatch (d : Dev) : Dev :=
  match d.acc.latch, d.acc.fifo with
  | none, e :: t => { d with acc := { d.acc with latch := some e } }.setFifo ({ e with closed := true } :: t)
  | _, _ => d

/-- A read of LOG_W3 removes the latched entry (R369). -/
def logRemove (d : Dev) : Dev :=
  match d.acc.latch with
  | some _ => { d with acc := { d.acc with latch := none } }.setFifo d.acc.fifo.tail
  | none => d

end Dev

/-- LOG_WRITE: the log writer moves one entry into the FIFO (R366). -/
def execLogWrite (s : State) : Host.Outcome State Fault Refusal := .next (s.onDev Dev.logWrite)

/-- LOG_W0_READ: a core reads LOG_W0 (R369). -/
def execLogW0Read (core : Fin 4) (s : State) : Host.Outcome State Fault Refusal :=
  .next <| s.coreDev core.val fun d => d.logLatch.answer core.val (.data (d.logWord 0))

/-- LOG_W3_READ: a core reads LOG_W3 (R369). -/
def execLogW3Read (core : Fin 4) (s : State) : Host.Outcome State Fault Refusal :=
  .next <| s.coreDev core.val fun d => d.logRemove.answer core.val (.data (d.logWord 3))

/-! ### The commit of ACC (R92, R354) -/

/-- ACC_COMMIT: a write of ACC.COMMIT captures the shadow; it acts in the next SYS cycle (R90, R92). -/
def execAccCommit (s : State) : Host.Outcome State Fault Refusal :=
  .next <| s.onDev fun d =>
    d.commit 0x40030000 0x40031000 (some 0x40030004) (some R.ACC_STATUS_INCOMPLETE) (fun _ => false) true

/-- ACC_COMMIT_APPLY: the captured settings act; a new N or W closes the window of its source (R354). -/
def execAccCommitApply (s : State) : Host.Outcome State Fault Refusal :=
  .next <| s.onDev fun d =>
    let d' := d.applyPend (Dev.inBlock 0x40030000 0x40031000)
    (List.range 192).foldl (fun x s =>
      if d.act (R.ACC_SRC_CFG_N s) = d'.act (R.ACC_SRC_CFG_N s) ∧ d.act (R.ACC_SRC_WIN_W s) = d'.act (R.ACC_SRC_WIN_W s)
      then x else x.setWin s none) d'

end Sys2Proof.Machine
end

