-- ==== Sys2Proof/Machine/Cache.lean ====
section
/-! DEFINITION. What a core access meets on its way: the memory map, ECC, the caches, and reservations (R19 to R22, R114,
R115, R411 to R415). -/

namespace Sys2Proof.Machine

/-! ### The memory map (R19) -/

/-- A place of the memory map. `own`: a core's own TCM; `tcm`: a TCM through its global window; `lane n`: slot and
coefficient memory. -/
inductive Place where
  | rom | own | tcm | sram | lane (n : Nat) | arch | msgCan | msgEth | pattern | regs | flash
deriving DecidableEq, Repr

/-- Where an address leads, and the address under which the model's memory holds it: a TCM is held under its global
window. Agents are the cores 0 to 3 and the debug port 4, which has no own TCM. -/
def route (agent a : Nat) : Option (Place × Nat) :=
  let within (lo hi : Nat) : Bool := decide (lo ≤ a) && decide (a < hi)
  if within 0 0x10000 then some (.rom, a)
  else if within 0x08000000 0x08010000 then
    if agent < 4 then some (.own, 0x08100000 + agent * 0x10000 + (a - 0x08000000)) else none
  else if within 0x08100000 0x08140000 then some (.tcm, a)
  else if within 0x10000000 0x10200000 then some (.sram, a)
  else if within 0x20000000 0x20100000 then some (.lane 0, a)
  else if within 0x20100000 0x20200000 then some (.lane 1, a)
  else if within 0x30000000 0x30180000 then some (.arch, a)
  else if within 0x38000000 0x38010000 then some (.msgCan, a)
  else if within 0x38010000 0x38040000 then some (.msgEth, a)
  else if within 0x3C000000 0x3C040000 then some (.pattern, a)
  else if within 0x40000000 0x40100000 then some (.regs, a)
  else if within 0x60000000 0x70000000 then some (.flash, a)
  else none

/-- Bytes of an access. -/
def accessBytes : Size → Nat
  | .byte => 1
  | .half => 2
  | .word => 4

namespace Place

/-- Memory with SECDED ECC over each word (R21). -/
def hasEcc : Place → Bool
  | .rom | .regs | .flash => false
  | _ => true

/-- Regions that the caches serve (R412). -/
def cached : Place → Bool
  | .rom | .sram | .flash => true
  | _ => false

/-- The address that the core used for a place held at `a` (R19, R415). -/
def coreAddr (p : Place) (a : Nat) : Nat := if p = .own then 0x08000000 + a % 0x10000 else a

/-- LR, SC and the AMO operations act here (R414). -/
def atomic : Place → Bool
  | .own | .tcm | .sram => true
  | _ => false

end Place

namespace Dev

/-- An aligned access of a kind and size that the Core access column and R114 permit to memory (R19, R20). -/
def permits (d : Dev) (p : Place) (kind : Access) (size : Size) (a : Nat) : Bool :=
  a % accessBytes size == 0 &&
  match p, kind with
  | .rom, .store => false
  | .flash, .store => false
  | .tcm, .fetch => false
  | .lane _, .load => size == .word
  | .lane n, .store => size == .word && d.get (R.WV_STATUS_RUN n) == 0
  | .lane _, .fetch => false
  | .arch, .load => true
  | .arch, .store => !d.isSet R.ARCH_CTRL_EN
  | .arch, .fetch => false
  | .msgCan, .fetch => false
  | .msgEth, .fetch => false
  | .pattern, .load => true
  | .pattern, .store => d.mode == 1
  | .pattern, .fetch => false
  | .regs, _ => false
  | _, _ => true

/-- A row that is out of use holds no data until a spare replaces it (R514). -/
def rowGone (d : Dev) (a : Nat) : Bool := d.withdrawn.any fun b => decide (b ≤ a) && decide (a < b + 512)

/-! ### ECC (R21, R22, R115) -/

/-- The lane whose memory holds an address. -/
def laneOf : Place → Option Nat
  | .lane n => some n
  | _ => none

/-- A corrected single-bit error is counted. -/
def eccSingle (d : Dev) (p : Place) (mac : Nat) : Dev :=
  match laneOf p with
  | some n => d.incSat (R.WV_ECC_CORR n)
  | none => (d.incSat R.SYSCTL_ECC_CORR_COUNT).set R.SYSCTL_ECC_CORR_MACRO mac

/-- A double-bit error raises the source of the memory concerned, in the island that holds it, with the byte address of the
word (R11, R345); in lane memory it is counted and is a lane fault. -/
def eccDouble (d : Dev) (p : Place) (a : Nat) : Dev :=
  match p with
  | .lane n => (d.incSat (R.WV_ECC_DED n)).raiseLane n 66 (a % 0x100000 / 4 * 4)
  | .own => d.raise islCORE (dedSource a) (a / 4 * 4)
  | .tcm => d.raise islCORE (dedSource a) (a / 4 * 4)
  | _ => d.raise islBUS (dedSource a) (a / 4 * 4)

/-! ### Caches (R412, R413, R415) -/

def cacheKey (core : Nat) (instr : Bool) : Nat := core * 2 + b2n instr

def lines (d : Dev) (key : Nat) : List CacheLine := Sparse.at' [] d.caches key

def setLines (d : Dev) (key : Nat) (l : List CacheLine) : Dev := { d with caches := Sparse.put [] d.caches key l }

def lineBase (a : Nat) : Nat := a / 32 * 32

/-- The set of a line: 256 sets of four ways. -/
def lineSet (a : Nat) : Nat := a / 32 % 256

def lineOf (d : Dev) (key a : Nat) : Option CacheLine := (d.lines key).find? fun l => l.base == lineBase a

def dropLine (d : Dev) (key a : Nat) : Dev := d.setLines key ((d.lines key).filter fun l => l.base != lineBase a)

/-- A line is filled from memory into a way of its set, in place of what the way held. -/
def fill (d : Dev) (m : Mem) (key a way : Nat) : Dev :=
  let b := lineBase a
  let l : CacheLine := ⟨way, b, (List.range 8).map fun i => Mem.word m (b + 4 * i)⟩
  let rest := (d.lines key).filter fun x => !(lineSet x.base == lineSet a && x.way == way) && x.base != b
  d.setLines key (rest ++ [l])

/-- A parity error found on a line: the line is invalidated and CORE_CACHE_PAR raised (R21, R415). -/
def parityCheck (d : Dev) (core : Nat) (instr parity : Bool) (a : Nat) : Dev :=
  let key := cacheKey core instr
  if parity && (d.lineOf key a).isSome then (d.dropLine key a).raise islCORE 126 (core + b2n instr * 4) else d

/-- Memory changed under a core's write: the core's own line takes the new word, and the other cores' data caches drop
theirs where the write is to core SRAM (R412, R413). -/
def snoop (d : Dev) (m : Mem) (core : Nat) (p : Place) (a : Nat) : Dev :=
  let key := cacheKey core false
  let d := if (d.lineOf key a).isNone then d
    else d.setLines key ((d.lines key).map fun l =>
      if l.base == lineBase a then { l with words := l.words.set (a % 32 / 4) (Mem.word m (a / 4 * 4)) } else l)
  if p = .sram then (List.range 4).foldl (fun d c => if c == core then d else d.dropLine (cacheKey c false) a) d else d

/-- A write of MCINVAL (R413). -/
def invalidate (d : Dev) (core : Nat) (v : Nat) : Dev :=
  if v = 0xFFFFFFFF then (d.setLines (cacheKey core false) []).setLines (cacheKey core true) []
  else d.dropLine (cacheKey core (bitAt v 0)) v

/-! ### Reservations (R414) -/

/-- The aligned 32-byte granule that holds an address, as a nonzero number. -/
def granule (a : Nat) : Nat := a / 32 + 1

def setResv (d : Dev) (core g : Nat) : Dev := { d with resv := Sparse.put 0 d.resv core g }

def holdsResv (d : Dev) (core a : Nat) : Bool := Sparse.at' 0 d.resv core == granule a

/-- A write by any core clears the reservations of its granule. -/
def clearResv (d : Dev) (a : Nat) : Dev :=
  (List.range 4).foldl (fun d c => if d.holdsResv c a then d.setResv c 0 else d) d

end Dev

end Sys2Proof.Machine
end

