-- ==== Sys2Proof/Machine/Circ.lean ====
section
/-! DEFINITION. The Circulation Desk (chapter 14): slots, TAKE and GIVE, dispatch and preemption, event flags, the Holds
Shelf and its monitors. -/

namespace Sys2Proof.Machine

open Dev (islCORE)

namespace Dev

/-! ### Slots and cores (R418) -/

def slot (d : Dev) (s : Nat) : CircSlot := Sparse.at' {} d.circ.slots s
def setSlot (d : Dev) (s : Nat) (x : CircSlot) : Dev :=
  { d with circ := { d.circ with slots := Sparse.put {} d.circ.slots s x } }
def ccore (d : Dev) (c : Nat) : CircCore := Sparse.at' {} d.circ.cores c

def slotState (d : Dev) (s : Nat) : Nat := d.get (R.CIRC_SLOT_STAT_STATE s)
def slotPrio (d : Dev) (s : Nat) : Nat := d.get (R.CIRC_SLOT_CFG_PRIO s)
def slotAff (d : Dev) (s c : Nat) : Bool := (d.get (R.CIRC_SLOT_CFG_AFF s)).testBit c

/-- A core's part of the Desk; STATUS, PREEMPT and CURn follow (R432, R433). -/
def setCore (d : Dev) (c : Nat) (x : CircCore) : Dev :=
  let d := { d with circ := { d.circ with cores := Sparse.put {} d.circ.cores c x } }
  let d := d.setBit (fun _ => R.CIRC_STATUS_WAITING) c x.waiting
  let d := d.setBit (fun _ => R.CIRC_STATUS_RUNNING) c x.cur.isSome
  let d := d.setBit (fun _ => R.CIRC_PREEMPT_CORES) c x.req.isSome
  d.set (R.CIRC_CUR_TCB c) (match x.cur with | some s => d.get (R.CIRC_SLOT_TCB_PTR s) | none => 0)

/-- Preemption requests of a slot are withdrawn: it is no longer READY (R423). -/
def withdrawReq (d : Dev) (s : Nat) : Dev :=
  (List.range 4).foldl (fun d c =>
    if (d.ccore c).req = some s then d.setCore c { d.ccore c with req := none } else d) d

/-- A slot becomes READY with a wake reason, at the tail of its queue or at its head (R418, R421). -/
def makeReady (d : Dev) (s wake : Nat) (head : Bool := false) : Dev :=
  let d := d.setSlot s { d.slot s with wake := wake, wait := none, expiry := none, starved := false }
  let q := d.circ.ready.filter fun x => x != s
  { d with circ := { d.circ with ready := if head then s :: q else q ++ [s] } }.set (R.CIRC_SLOT_STAT_STATE s) 1

/-- A slot takes a state other than READY and RUNNING; its wait and its Shelf entry are discarded. -/
def park (d : Dev) (s st : Nat) : Dev :=
  let d := d.setSlot s { d.slot s with wait := none, expiry := none }
  let d := { d with circ := { d.circ with ready := d.circ.ready.filter fun x => x != s } }
  (d.set (R.CIRC_SLOT_STAT_STATE s) st).withdrawReq s

/-! ### Dispatch (R422) and preemption (R423) -/

/-- A READY slot is given to a core that waits in TAKE. -/
def give (d : Dev) (s c : Nat) : Dev :=
  let x := d.slot s
  let d := { d with circ := { d.circ with ready := d.circ.ready.filter fun y => y != s } }.withdrawReq s
  let d := ((d.set (R.CIRC_SLOT_STAT_STATE s) 2).set (R.CIRC_SLOT_STAT_LASTCORE s) c).incWrap (R.CIRC_SLOT_STAT_RUNS s)
  let d := d.setSlot s { x with runLong := false }
  (d.setCore c { d.ccore c with cur := some s, waiting := false }).answer c
    (.data (word (s + x.wake * 2 ^ 8 + b2n x.preempted * 2 ^ 11 + 2 ^ 31)))

/-- READY slots of a priority, in queue order. -/
def queue (d : Dev) (p : Nat) : List Nat := d.circ.ready.filter fun s => d.slotPrio s == p

/-- The slot left core `c`, which ran it last, within the affinity window. -/
def fits (d : Dev) (c s : Nat) : Bool :=
  d.slotAff s c && d.get (R.CIRC_SLOT_STAT_LASTCORE s) == c &&
    match (d.slot s).left with
    | some t => decide (d.time.short - t < d.get R.CIRC_CTRL_AFFWIN * 1000)
    | none => false

/-- The affinity pass and the general pass of one priority. -/
def dispatchPrio (d : Dev) (p : Nat) : Dev :=
  let d := (List.range 4).foldl (fun d c =>
    if (d.ccore c).waiting then
      match (d.queue p).find? (d.fits c) with
      | some s => d.give s c
      | none => d
    else d) d
  (d.queue p).foldl (fun d s =>
    match (List.range 4).find? fun c => (d.ccore c).waiting && d.slotAff s c with
    | some c => d.give s c
    | none => d) d

/-- Core `c` runs a slot of lower priority than `p`: that priority. -/
def runsBelow (d : Dev) (p c : Nat) : Option Nat :=
  match (d.ccore c).cur with
  | some s => if d.slotPrio s < p then some (d.slotPrio s) else none
  | none => none

/-- The core that runs the lowest priority among candidates, the lowest-numbered on a tie. -/
def lowestOf (d : Dev) (p : Nat) (cs : List Nat) : Option Nat :=
  (cs.foldl (fun (best : Option (Nat × Nat)) c =>
    match d.runsBelow p c, best with
    | some q, none => some (q, c)
    | some q, some b => if q < b.1 then some (q, c) else best
    | none, _ => best) none).map (·.2)

/-- A READY slot asks for a core without a request, else for one whose request a slot of lower priority holds. -/
def preempt (d : Dev) (s : Nat) : Dev :=
  if (List.range 4).any fun c => (d.ccore c).req == some s then d
  else
    let p := d.slotPrio s
    let mine := (List.range 4).filter fun c => d.slotAff s c
    let free := mine.filter fun c => (d.ccore c).req.isNone
    let held := mine.filter fun c => match (d.ccore c).req with | some u => decide (d.slotPrio u < p) | none => false
    match (d.lowestOf p free).or (d.lowestOf p held) with
    | some c => d.setCore c { d.ccore c with req := some s }
    | none => d

/-- Priorities, highest first. -/
def prios : List Nat := (List.range 32).reverse

/-- The Desk gives READY slots to waiting cores, then requests preemption. -/
def dispatch (d : Dev) : Dev :=
  if d.isSet R.CIRC_CTRL_EN then
    let d := prios.foldl dispatchPrio d
    (prios.flatMap d.queue).foldl preempt d
  else d

/-! ### TAKE (R420) -/

/-- Core `c` reads TAKE of core `n`. -/
def takeRead (d : Dev) (c n : Nat) : Dev :=
  if c ≠ n ∨ !d.isSet R.CIRC_CTRL_EN ∨ (d.ccore n).cur.isSome then d.answer c (.data 0)
  else ((d.setCore n { d.ccore n with waiting := true }).answer n .none).dispatch

/-! ### Flags (R424 to R426) -/

def flagGroup (d : Dev) (g : Nat) : Nat := d.get (R.CIRC_FLAG_BITS g)

/-- The condition of a wait holds. -/
def waitMet (d : Dev) (w : FlagWait) : Bool :=
  let x := d.flagGroup w.group &&& w.mask
  if w.all then x == w.mask else x != 0

/-- The flags of a wait that wakes its slot are consumed (R425). -/
def consume (d : Dev) (w : FlagWait) : Dev :=
  let f := d.flagGroup w.group
  d.set (R.CIRC_FLAG_BITS w.group) (f - (f &&& w.mask &&& d.get (R.CIRC_FLAGCONS_BITS w.group)))

/-- WAITING slots in the order of R425: highest priority first, then lowest number. -/
def waiters (d : Dev) : List Nat :=
  let ws := d.circ.slots.map (·.1) |>.filter fun s => (d.slot s).wait.isSome
  prios.flatMap fun p => ws.filter fun s => d.slotPrio s == p

/-- Wakes the slots whose conditions hold. -/
def wakeFlags (d : Dev) : Dev :=
  d.waiters.foldl (fun d s =>
    match (d.slot s).wait with
    | some w => if d.waitMet w then (d.consume w).makeReady s 2 else d
    | none => d) d

/-- One flag is set; a set of a set flag is an overrun (R426). -/
def setFlag (d : Dev) (f : Nat) : Dev :=
  if (d.flagGroup (f / 32)).testBit (f % 32) then
    let d := d.incSat R.CIRC_FLAGOVR_COUNT
    if (d.get (R.CIRC_FLAGREP_BITS (f / 32))).testBit (f % 32) then d.raise islCORE 124 f else d
  else d.setBit R.CIRC_FLAG_BITS f true

/-- Flags of a group named by a mask. -/
def maskFlags (g m : Nat) : List Nat := ((List.range 32).filter fun i => m.testBit i).map fun i => 32 * g + i

/-- The hardware requests of islands, one each: their flags (R424). -/
def takeFlags (d : Dev) : List (Fin 14) → List Nat × Dev
  | [] => ([], d)
  | i :: t =>
    match d.take (0x40 + i.val) islCORE with
    | some (.flag f, d) => let x := d.takeFlags t; (f :: x.1, x.2)
    | _ => d.takeFlags t

/-- The flags of one cycle: clears, then sets, which win (R426); then wakes. -/
def flagCycle (d : Dev) (clear sets : List Nat) : Dev :=
  let d := (clear.filter fun f => !sets.contains f).foldl (fun d f => d.setBit R.CIRC_FLAG_BITS f false) d
  (sets.foldl setFlag d).wakeFlags

/-! ### GIVE (R421, R428) -/

/-- A refused GIVE or CMD: STATUS.WERR and CIRC_CMD_ERR (R419, R421). -/
def circErr (d : Dev) (s c : Nat) (isGive : Bool) : Dev :=
  (d.set R.CIRC_STATUS_WERR 1).raise islCORE 123 (s + c * 2 ^ 8 + b2n isGive * 2 ^ 10)

/-- The RUNNING slot leaves core `c`; every GIVE withdraws the core's preemption request. -/
def leaveCore (d : Dev) (s c : Nat) (preempted : Bool) : Dev :=
  let d := d.setSlot s { d.slot s with left := some d.time.short, preempted := preempted }
  d.setCore c { d.ccore c with cur := none, req := none }

/-- UNTIL: ticks from now to the target, none where it is taken as passed (R428). -/
def untilTicks (d : Dev) (u : Nat) : Option Nat :=
  let x := (u + 2 ^ 24 - d.get R.CIRC_TICKCNT_COUNT % 2 ^ 24) % 2 ^ 24
  if 1 ≤ x ∧ x ≤ 2 ^ 23 then some x else none

/-- The effect of a GIVE on the slot `s` that has left its core. -/
def giveOp (d : Dev) (c s op : Nat) (all : Bool) (group ticks : Nat) (head : Bool) : Dev :=
  let shelve (st : Nat) (k : Nat) : Dev :=
    (d.set (R.CIRC_SLOT_STAT_STATE s) st).setSlot s { d.slot s with expiry := some (d.circ.ticks + k) }
  match op with
  | 0 => d.makeReady s 1 head
  | 1 =>
    let w : FlagWait := ⟨group, d.get (R.CIRC_WAITMASK_MASK c), all⟩
    if d.waitMet w then (d.consume w).makeReady s 2
    else
      let e := if ticks = 0 then none else some (d.circ.ticks + ticks)
      (d.set (R.CIRC_SLOT_STAT_STATE s) 3).setSlot s { d.slot s with wait := some w, expiry := e }
  | 2 => shelve 4 ticks
  | 3 =>
    match d.untilTicks ticks with
    | some k => shelve 4 k
    | none => ((d.makeReady s 4).set (R.CIRC_SLOT_STAT_LATE s) 1).raise islCORE 122 s
  | 4 => d.park s 0
  | _ => d.park s 5

/-- A write of GIVE of core `c`. A pending STOP or SUSPEND takes the place of its operation (R419). -/
def giveWrite (d : Dev) (c op : Nat) (all : Bool) (group ticks : Nat) : Dev :=
  match (d.ccore c).cur with
  | none => d.circErr 0 c true
  | some s =>
    if 5 < op ∨ (op = 2 ∧ ticks = 0) ∨ (op = 1 ∧ d.get (R.CIRC_WAITMASK_MASK c) = 0) then d.circErr s c true
    else
      let stop := d.isSet (R.CIRC_SLOT_STAT_PEND_STOP s)
      let susp := d.isSet (R.CIRC_SLOT_STAT_PEND_SUSP s)
      let head := (d.ccore c).req.isSome
      let d := d.leaveCore s c (head && op == 0 && !stop && !susp)
      let d := (d.set (R.CIRC_SLOT_STAT_PEND_STOP s) 0).set (R.CIRC_SLOT_STAT_PEND_SUSP s) 0
      (if stop then d.park s 0 else if susp then d.park s 5 else d.giveOp c s op all group ticks head).dispatch

/-! ### CMD (R419) -/

/-- A write of CIRC.CMD by core `c`. -/
def cmdWrite (d : Dev) (c s op : Nat) : Dev :=
  match op, d.slotState s with
  | 0, 0 => (d.makeReady s 0).dispatch
  | 1, 1 => (d.park s 5).dispatch
  | 1, 2 => d.set (R.CIRC_SLOT_STAT_PEND_SUSP s) 1
  | 1, 3 => d.park s 5
  | 1, 4 => d.park s 5
  | 2, 5 => (d.makeReady s 5).dispatch
  | 3, 0 => d.circErr s c false
  | 3, 2 => d.set (R.CIRC_SLOT_STAT_PEND_STOP s) 1
  | 3, _ => (d.park s 0).dispatch
  | _, _ => d.circErr s c false

/-- A write of SLOTs_CFG: AFF 0 is ignored; a READY slot whose PRIO changes moves to the tail of its new queue
(R418, R435). -/
def slotCfgWrite (d : Dev) (s : Nat) (v : Word) : Dev :=
  if bits v.toNat 8 4 = 0 then d.set R.CIRC_STATUS_WERR 1
  else
    let moved := d.slotState s == 1 && d.slotPrio s != v.toNat % 32
    let mask := (2 ^ 5 - 1) + (2 ^ 4 - 1) * 2 ^ 8 + (2 ^ 20 - 1) * 2 ^ 12
    let d := d.wrw (0x40040100 + 4 * s) (word (v.toNat &&& mask))
    let d := if moved then { d with circ := { d.circ with ready := (d.circ.ready.filter fun x => x != s) ++ [s] } } else d
    d.dispatch

/-! ### The Shelf (R427 to R429) -/

/-- The slots that expire at a tick, in the order in which they join their queues. -/
def expired (d : Dev) : List Nat :=
  let xs := d.circ.slots.map (·.1) |>.filter fun s => (d.slot s).expiry == some d.circ.ticks
  prios.flatMap fun p => xs.filter fun s => d.slotPrio s == p

/-- A Shelf tick that is due. Flags set in the same tick act first (R426). -/
def shelfTick (d : Dev) (sets : List Nat) : Dev :=
  let d := { d with time := { d.time with shelf := d.time.shelf - 1 } }
  if d.isSet R.CIRC_CTRL_EN then
    let d := { d with circ := { d.circ with ticks := d.circ.ticks + 1 } }.incWrap R.CIRC_TICKCNT_COUNT
    let d := d.flagCycle [] sets
    (d.expired.foldl (fun d s => d.makeReady s (if d.slotState s = 3 then 3 else 4)) d).dispatch
  else (d.flagCycle [] sets).dispatch

end Dev

/-! ### Commands -/

/-- TAKE: core `core` reads TAKE of `target` (R420). -/
def execTake (core target : Fin 4) (s : State) : Host.Outcome State Fault Refusal :=
  .next <| s.coreDev core.val fun d => d.takeRead core.val target.val

/-- GIVE_YIELD (R421). -/
def execGiveYield (core : Fin 4) (s : State) : Host.Outcome State Fault Refusal :=
  .next <| s.coreDev core.val fun d => d.giveWrite core.val 0 false 0 0

/-- GIVE_WAIT (R421). -/
def execGiveWait (core : Fin 4) (all : Bool) (group : Fin 4) (ticks : BitVec 24) (s : State) :
    Host.Outcome State Fault Refusal :=
  .next <| s.coreDev core.val fun d => d.giveWrite core.val 1 all group.val ticks.toNat

/-- GIVE_DELAY (R421, R428). -/
def execGiveDelay (core : Fin 4) (ticks : BitVec 24) (s : State) : Host.Outcome State Fault Refusal :=
  .next <| s.coreDev core.val fun d => d.giveWrite core.val 2 false 0 ticks.toNat

/-- GIVE_UNTIL (R421, R428). -/
def execGiveUntil (core : Fin 4) (ticks : BitVec 24) (s : State) : Host.Outcome State Fault Refusal :=
  .next <| s.coreDev core.val fun d => d.giveWrite core.val 3 false 0 ticks.toNat

/-- GIVE_EXIT (R421). -/
def execGiveExit (core : Fin 4) (s : State) : Host.Outcome State Fault Refusal :=
  .next <| s.coreDev core.val fun d => d.giveWrite core.val 4 false 0 0

/-- GIVE_SUSPEND (R421). -/
def execGiveSuspend (core : Fin 4) (s : State) : Host.Outcome State Fault Refusal :=
  .next <| s.coreDev core.val fun d => d.giveWrite core.val 5 false 0 0

/-- CMD_START (R419). -/
def execCmdStart (core : Fin 4) (slot : Fin 256) (s : State) : Host.Outcome State Fault Refusal :=
  .next <| s.coreDev core.val fun d => d.cmdWrite core.val slot.val 0

/-- CMD_SUSPEND (R419). -/
def execCmdSuspend (core : Fin 4) (slot : Fin 256) (s : State) : Host.Outcome State Fault Refusal :=
  .next <| s.coreDev core.val fun d => d.cmdWrite core.val slot.val 1

/-- CMD_RESUME (R419). -/
def execCmdResume (core : Fin 4) (slot : Fin 256) (s : State) : Host.Outcome State Fault Refusal :=
  .next <| s.coreDev core.val fun d => d.cmdWrite core.val slot.val 2

/-- CMD_STOP (R419). -/
def execCmdStop (core : Fin 4) (slot : Fin 256) (s : State) : Host.Outcome State Fault Refusal :=
  .next <| s.coreDev core.val fun d => d.cmdWrite core.val slot.val 3

/-- FLAG_SET: a write of FLAGSETg (R424). -/
def execFlagSet (group : Fin 4) (bits : Word) (s : State) : Host.Outcome State Fault Refusal :=
  .next <| s.onDev fun d => (d.flagCycle [] (Dev.maskFlags group.val bits.toNat)).dispatch

/-- FLAG_CLEAR: a write of FLAGCLRg; hardware requests of the islands named arrive in the same cycle, and their sets win
(R424, R426). -/
def execFlagClear (group : Fin 4) (bits : Word) (isls : List (Fin 14)) (s : State) :
    Host.Outcome State Fault Refusal :=
  .next <| s.onDev fun d =>
    let t := d.takeFlags isls
    (t.2.flagCycle (Dev.maskFlags group.val bits.toNat) t.1).dispatch

/-- FLAG_REQUEST: a hardware request of an island reaches the Desk (R424). -/
def execFlagRequest (isl : Fin 14) (s : State) : Host.Outcome State Fault Refusal :=
  .next <| s.onDev fun d =>
    let t := d.takeFlags [isl]
    (t.2.flagCycle [] t.1).dispatch

/-- SHELF_TICK: a Shelf tick that TIME has made due; hardware requests of the islands named arrive in the same cycle (R426
to R429). -/
def execShelfTick (isls : List (Fin 14)) (s : State) : Host.Outcome State Fault Refusal :=
  .next <| s.onDev fun d =>
    if d.time.shelf = 0 then d
    else
      let t := d.takeFlags isls
      t.2.shelfTick t.1

/-- CIRC_STARVE: a slot has stayed READY longer than STARVE; raised once for a stay (R430). -/
def execCircStarve (slot : Fin 256) (s : State) : Host.Outcome State Fault Refusal :=
  .next <| s.onDev fun d =>
    let x := d.slot slot.val
    if d.slotState slot.val = 1 ∧ d.get (R.CIRC_SLOT_CFG_STARVE slot.val) ≠ 0 ∧ !x.starved then
      (d.setSlot slot.val { x with starved := true }).raise islCORE 120 slot.val
    else d

/-- CIRC_RUN_LONG: a slot has stayed RUNNING longer than RUNMAX; raised once for a turn (R430). -/
def execCircRunLong (slot : Fin 256) (s : State) : Host.Outcome State Fault Refusal :=
  .next <| s.onDev fun d =>
    let x := d.slot slot.val
    if d.slotState slot.val = 2 ∧ d.get (R.CIRC_SLOT_CFG_RUNMAX slot.val) ≠ 0 ∧ !x.runLong then
      (d.setSlot slot.val { x with runLong := true }).raise islCORE 121
        (slot.val + d.get (R.CIRC_SLOT_STAT_LASTCORE slot.val) * 2 ^ 8)
    else d

/-- CORE_DEBUG_HALT: a blocked TAKE returns with VALID = 0; the source is raised in M4 to M9 (R417, R420). -/
def execCoreDebugHalt (core : Fin 4) (s : State) : Host.Outcome State Fault Refusal :=
  .next <| s.onDev fun d =>
    let c := core.val
    let d := if (d.ccore c).waiting then (d.setCore c { d.ccore c with waiting := false }).answer c (.data 0) else d
    if d.control then d.raise islCORE 127 c else d

end Sys2Proof.Machine
end

