-- ==== Sys2Proof/Machine/Pads.lean ====
section
/-! DEFINITION. The pads and what stands at the balls (chapter 18): function, pull and drive of the multiplexed pads, and the
levels that the logic, or the pad ring without it, puts on the balls. -/

namespace Sys2Proof.Machine

/-- What the device puts on a ball: a driven level; high impedance; a pull to VSS through 40 kΩ; nothing, its rail gone
(R532, R533). -/
inductive Level where
  | low | high | hiZ | pulledLow | unpowered
deriving DecidableEq, Repr

/-- A driven level. -/
def Level.drive (b : Bool) : Level := if b then .high else .low

/-- An open-drain ball. -/
def Level.openDrain (low : Bool) : Level := if low then .low else .hiZ

namespace Dev

/-! ### Multiplexed pads (R78, R528) -/

/-- The record of a pad; without one its reset function, no pull and 4 mA. The last record of a pad counts. -/
def padRecord (d : Dev) (p : Nat) : PadMux := (d.pat.pads.reverse.find? fun r => r.pad == p).getD ⟨p, 0, 4⟩

/-- The pull of a pad: 0 none, 1 down, 2 up. -/
def padPull (d : Dev) (p : Nat) : Nat := (d.padRecord p).elec % 4

/-- The drive of a pad in mA. -/
def padDrive (d : Dev) (p : Nat) : Nat :=
  match (d.padRecord p).elec / 4 % 4 with
  | 0 => 2
  | 1 => 4
  | 2 => 8
  | _ => 12

/-- The pad drives a SOFTOFF line. -/
def padSoftoff (d : Dev) (p : Nat) : Bool := decide (p < 24) && (d.padRecord p).fn == 1

/-- The pad is Off: no input buffer, and its output in high impedance. -/
def padOff (d : Dev) (p : Nat) : Bool := decide (32 ≤ p) && (d.padRecord p).fn == 1

/-! ### Levels (R52, R250, R260, R282, R391, R402, R532, R533) -/

/-- The balls under the pad ring's control where the logic drives them with `l`; `rest`: what the ring puts there without
logic. -/
def ring (d : Dev) (rest l : Level) : Level :=
  match d.sys.ring with
  | .logic => l
  | .hold => rest
  | .gone => .unpowered

/-- Whether PWMnH and PWMnL of a leg are on: nothing outside RUN, the frozen levels while a soft-off delay runs, else as
the interlock lets them follow the period (R250, R256, R267). -/
def legOn (d : Dev) (leg : Nat) : Bool × Bool :=
  let l := d.leg leg
  if d.legState leg ≠ 1 then (false, false)
  else
    let k := if l.softoff.isSome then l.lock else (d.legRun leg (d.legPos leg + 1)).k
    (k.h, k.l)

/-- PWMnH, or with `low` PWMnL: on is the level opposite its INACTIVE bit (R250, R260, R263). -/
def pwmBall (d : Dev) (leg : Nat) (low : Bool) : Level :=
  let on := if low then (d.legOn leg).2 else (d.legOn leg).1
  d.ring .hiZ (if d.legState leg = 2 then .hiZ
    else .drive (on != (d.get (R.PWM_LEG_MAP_INACTIVE leg)).testBit (b2n low)))

/-- SOFTOFF_EN (R282). -/
def softoffEnBall (d : Dev) : Level :=
  d.ring .hiZ (if d.mode < 3 then .hiZ else .drive (d.isSet R.GSUP_CTRL_SOFTOFF_EN))

/-- A GPIO pad: a SOFTOFF line that the PWM island drives (R282), or in its reset function, an input (R52); what the GPIO
block drives in that function later, the spec does not say (none). -/
def gpioBall (d : Dev) (p : Nat) : Option Level :=
  if d.sys.ring = .logic ∧ !d.padSoftoff p ∧ d.sys.held = .none then none
  else some (d.ring .hiZ (if d.padSoftoff p then .drive (d.gsup.softoff.contains p) else .hiZ))

/-- RLYx0 and RLYx1 of a chain (R391). -/
def rlyBall (d : Dev) (chain : Nat) : Level := d.ring .pulledLow (.drive (d.energised chain))

/-- TPS0 and TPS1 (R402). -/
def tpsBall (d : Dev) (supply : Nat) : Level :=
  d.ring .pulledLow (.drive (d.isSet R.ISO_CTRL_EN && !d.iso.pulses.contains supply))

/-- SAFE_N, FAULT_N, TRIGIO and ARMIO as the logic drives them (R65, R356, R384, R386). -/
def safeNBall (d : Dev) : Level := .openDrain d.sys.safeDriven
def faultNBall (d : Dev) : Level := .openDrain d.faultN
def trigioBall (d : Dev) : Level := .openDrain d.arch.trigio
def armioBall (d : Dev) : Level := .openDrain d.arch.armio

/-- SDCk as the logic drives it (R212), and PPS_OUT (R448). -/
def sdcBall (d : Dev) (k : Nat) : Level := .drive (d.sdcPin k)
def ppsOutBall (d : Dev) : Level := .drive d.time.ppsOut

end Dev

end Sys2Proof.Machine
end

