-- ==== Sys2Proof/Machine/Can.lean ====
section
/-! DEFINITION. The CAN FD controllers (chapter 16): message RAM, acceptance gating, inboxes, requests and aborts, error
counters and bus-off. -/

namespace Sys2Proof.Machine

/-- Island CAN, and the base of its part of message RAM (R464). -/
def islCAN : Nat := 12
def canBase : Nat := 0x38000000

/-- Data bytes of a DLC in the FD format (ISO 11898-1). -/
def dlcLen (dlc : Nat) : Nat := [0, 1, 2, 3, 4, 5, 6, 7, 8, 12, 16, 20, 24, 32, 48, 64].getD dlc 64

/-- Data bytes of an element of a SIZE code (R465). -/
def sizeBytes (code : Nat) : Nat := [8, 12, 16, 20, 24, 32, 48, 64].getD code 64

/-- Data length of a frame. -/
def frameLen (f : CanFrame) : Nat :=
  if f.rtr then 0 else if f.fdf then dlcLen f.dlc.val else min f.dlc.val 8

/-- W0 of an element (R465). -/
def frameW0 (f : CanFrame) : Nat :=
  b2n f.xtd + 2 * b2n f.rtr + 4 * b2n f.esi + (if f.xtd then f.id % 2 ^ 29 * 8 else f.id % 2 ^ 11 * 2 ^ 21)

/-- Identifiers compare as they do on the bus: a base identifier by the leading eleven bits (DEDUCED, log entry 172). -/
def frameRank (f : CanFrame) : Nat := if f.xtd then f.id else f.id * 2 ^ 18

namespace Dev

def can (d : Dev) (n : Nat) : CanC := Sparse.at' {} d.cans n
def setCan (d : Dev) (n : Nat) (c : CanC) : Dev := { d with cans := Sparse.put {} d.cans n c }

/-! ### Layout (R464) -/

/-- The regions of a controller: offset and size in bytes. -/
def canRegions (d : Dev) (n : Nat) : List (Nat × Nat) :=
  [(d.get (R.CAN_LAY_GB_OFF n), 4 * d.get (R.CAN_LAY_GB_COUNT n)),
   (d.get (R.CAN_LAY_GX_OFF n), 8 * d.get (R.CAN_LAY_GX_COUNT n)),
   (d.get (R.CAN_LAY_IN_OFF n 0), d.get (R.CAN_LAY_IN_COUNT n 0) * (12 + sizeBytes (d.get (R.CAN_LAY_IN_SIZE n 0)))),
   (d.get (R.CAN_LAY_IN_OFF n 1), d.get (R.CAN_LAY_IN_COUNT n 1) * (12 + sizeBytes (d.get (R.CAN_LAY_IN_SIZE n 1)))),
   (d.get (R.CAN_LAY_OUT_OFF n), d.get (R.CAN_LAY_OUT_COUNT n) * (12 + sizeBytes (d.get (R.CAN_LAY_OUT_SIZE n)))),
   (d.get (R.CAN_LAY_RCPT_OFF n), 12 * d.get (R.CAN_LAY_RCPT_COUNT n))]

end Dev

/-- No two regions overlap; an empty region overlaps none. -/
def apart : List (Nat × Nat) → Bool
  | [] => true
  | r :: t => t.all (fun x => x.2 == 0 || r.2 == 0 || decide (x.1 + x.2 ≤ r.1) || decide (r.1 + r.2 ≤ x.1)) && apart t

namespace Dev

/-- The regions of all enabled controllers with controller `n` lie inside the 64 KiB, apart from one another. -/
def canLayout (d : Dev) (n : Nat) : Bool :=
  let on := (List.range 4).filter fun k => k == n || d.isSet (R.CAN_CTRL_EN k)
  let rs := on.flatMap d.canRegions
  rs.all (fun r => decide (r.1 + r.2 ≤ 0x10000)) && apart rs

/-- A write of CTRL.EN = 1 (R464). -/
def canEnable (d : Dev) (n : Nat) : Dev :=
  if d.isSet (R.CAN_CTRL_EN n) then d
  else if d.mode < 3 then d.note (R.CAN_STATUS_WERR n)
  else if d.canLayout n then
    (d.set (R.CAN_CTRL_EN n) 1).setCan n { d.can n with tx := none, off := (d.get R.CLK_STAT_ON_BYP).testBit 0 }
  else (d.note (R.CAN_STATUS_WERR n)).raise islCAN 146 n

/-! ### Requests and their ends (R469, R470) -/

/-- A write of OUT_GO: slots that the outbox has become pending. -/
def outGo (d : Dev) (n : Nat) (slots : Word) : Dev :=
  let m := slots.toNat % 2 ^ min 32 (d.get (R.CAN_LAY_OUT_COUNT n))
  d.set (R.CAN_OUT_WAIT_SLOTS n) (d.get (R.CAN_OUT_WAIT_SLOTS n) ||| m)

/-- A request of slot `b` ends: `sent`, or aborted or refused. -/
def outEnd (d : Dev) (n b : Nat) (sent : Bool) : Dev :=
  let d := d.setBit (fun _ => R.CAN_OUT_WAIT_SLOTS n) b false
  let d := d.setCan n { d.can n with prepared := (d.can n).prepared.filter fun x => x != b }
  if sent then (d.setBit (fun _ => R.CAN_OUT_SENT_SLOTS n) b true).note (R.CAN_STATUS_SENT n)
  else d.setBit (fun _ => R.CAN_OUT_ABORTED_SLOTS n) b true

/-- The heartbeat on the wire is done with; one that fell due meanwhile is pending (R483). -/
def beatEnd (d : Dev) : Dev :=
  { d with dpl := { d.dpl with hb := if d.dpl.hbNext then some none else none, hbNext := false } }

/-- The attempt of a slot has failed: it is retried, unless an abort waits for it (R469, R470). -/
def txFail (d : Dev) (n : Nat) (x : CanTx) : Dev :=
  let d := d.setCan n { d.can n with tx := none }
  if !x.abort then d else if x.slot = 32 then d.beatEnd else d.outEnd n x.slot false

/-- The controller abandons its attempt. -/
def txAbandon (d : Dev) (n : Nat) : Dev :=
  match (d.can n).tx with
  | some x => d.txFail n x
  | none => d

/-- A write of CTRL.EN = 0: the controller leaves the bus. -/
def canDisable (d : Dev) (n : Nat) : Dev := (d.set (R.CAN_CTRL_EN n) 0).txAbandon n

/-- The controller takes part on the bus. -/
def canOn (d : Dev) (n : Nat) : Bool :=
  d.isSet (R.CAN_CTRL_EN n) && !d.isSet (R.CAN_STATUS_BUSOFF n) && !(d.can n).off

/-- PLL_SYS's domains go to BYP: every controller leaves the bus and abandons its frame, which stays pending (R463). -/
def canClock (d : Dev) : Dev :=
  if (d.get R.CLK_STAT_ON_BYP).testBit 0 then
    (List.range 4).foldl (fun d n =>
      let t := d.txAbandon n
      t.setCan n { t.can n with off := true }) d
  else d

/-! ### Error counters (R471 to R473) -/

/-- TEC and REC take values; WARNING, PASSIVE, RXPASSIVE and bus-off follow. -/
def canErr (d : Dev) (n tec rec' : Nat) : Dev :=
  let d := ((d.set (R.CAN_ERRCNT_TEC n) tec).set (R.CAN_ERRCNT_REC n) rec').setB (R.CAN_ERRCNT_RXPASSIVE n) (decide (128 ≤ rec'))
  let d := d.setB (R.CAN_STATUS_WARNING n) (decide (96 ≤ tec) || decide (96 ≤ rec'))
  let was := d.isSet (R.CAN_STATUS_PASSIVE n)
  let now := decide (128 ≤ tec) || decide (128 ≤ rec')
  let d := d.setB (R.CAN_STATUS_PASSIVE n) now
  let d := if now && !was then d.raise islCAN 144 n else d
  if 255 < tec ∧ !d.isSet (R.CAN_STATUS_BUSOFF n) then
    ((d.set (R.CAN_STATUS_BUSOFF n) 1).setCan n { d.can n with tx := none }).beginCond islCAN (136 + n) 0
  else d

def tec (d : Dev) (n : Nat) : Nat := d.get (R.CAN_ERRCNT_TEC n)

/-- TEC after further steps of 8; it stands once the controller is off the bus (R471, R473). -/
def tecUp (t : Nat) : Nat → Nat
  | 0 => t
  | k + 1 => if 255 < t then t else tecUp (t + 8) k
def rec' (d : Dev) (n : Nat) : Nat := d.get (R.CAN_ERRCNT_REC n)

/-- ACKRUN returns to 0, and ALONE ends (R472). -/
def ackHeard (d : Dev) (n : Nat) : Dev :=
  ((d.set (R.CAN_ACKRUN_RUN n) 0).set (R.CAN_STATUS_ALONE n) 0).setCond (140 + n) false

/-- One more ack error in a row (R472). -/
def ackMissed (d : Dev) (n : Nat) : Dev :=
  let d := d.incSat (R.CAN_ACKRUN_RUN n)
  if 16 ≤ d.get (R.CAN_ACKRUN_RUN n) then (d.set (R.CAN_STATUS_ALONE n) 1).beginCond islCAN (140 + n) 0 else d

/-- A frame has been received without error: REC falls by one; from above 127 it takes a value from 119 to 127, which
ISO 11898-1 leaves free. -/
def recGood (d : Dev) (n : Nat) : Dev :=
  let r := d.rec' n
  if 127 < r then
    let x := d.freeWord
    x.2.canErr n (d.tec n) (119 + x.1.toNat % 9)
  else d.canErr n (d.tec n) (r - 1)

end Dev

/-! ### Inboxes (R465, R467, R468) -/

/-- Stores a received frame in inbox `k`, or loses it. `gate`: index of the deciding element; `dpl`: passed by the
assist; `sof`: the short time of its SOF. -/
def State.canStore (s : State) (n k : Nat) (f : CanFrame) (sof : Word) (gate : Option Nat) (dpl : Bool) : State :=
  let d := s.d
  let level := d.get (R.CAN_IN_STAT_LEVEL n k)
  let count := d.get (R.CAN_LAY_IN_COUNT n k)
  if count ≤ level then
    let d := (d.incSat (R.CAN_IN_STAT_LOST n k)).note (R.CAN_STATUS_LOST n)
    let c := d.can n
    if c.lost.contains k then { s with d := d }
    else { s with d := (d.setCan n { c with lost := c.lost ++ [k] }).raise islCAN 145 (n + 4 * k) }
  else
    let size := sizeBytes (d.get (R.CAN_LAY_IN_SIZE n k))
    let a := canBase + d.get (R.CAN_LAY_IN_OFF n k) / 4 * 4 + (d.get (R.CAN_IN_STAT_TAKE n k) + level) % count * (12 + size)
    let w1 := f.dlc.val + 16 * b2n f.fdf + 32 * b2n f.brs + 64 * b2n (decide (size < frameLen f)) + 128 * b2n dpl +
      gate.getD 0 * 2 ^ 8 + b2n gate.isNone * 2 ^ 15
    let data := ((f.data.take (frameLen f)).take size).map fun b => b.toNat
    let mem := Mem.wrBytes (Mem.wrWords s.mem a [word (frameW0 f), word w1, sof]) (a + 12) data
    let d := (d.set (R.CAN_IN_STAT_LEVEL n k) (level + 1)).setB (R.CAN_IN_STAT_FULL n k) (decide (count ≤ level + 1))
    { s with mem := mem, d := d.note (if k = 0 then R.CAN_STATUS_IN0 n else R.CAN_STATUS_IN1 n) }

/-- A gate element: LOW, HIGH, HOW, TO. -/
structure Gate where
  low : Nat
  high : Nat
  how : Nat
  to' : Nat
deriving DecidableEq, Repr

/-- An element that is not off matches an identifier (R467). -/
def Gate.matches (g : Gate) (id : Nat) : Bool :=
  decide (1 ≤ g.to') && decide (g.to' ≤ 3) &&
    match g.how with
    | 0 => decide (g.low ≤ id) && decide (id ≤ g.high)
    | 1 => id == g.low || id == g.high
    | 2 => (id ^^^ g.low) &&& g.high == 0
    | _ => false

/-- The gate list that a frame is tested against. -/
def State.gates (s : State) (n : Nat) (xtd : Bool) : List Gate :=
  if xtd then
    let a := canBase + s.d.get (R.CAN_LAY_GX_OFF n) / 4 * 4
    (List.range (s.d.get (R.CAN_LAY_GX_COUNT n))).map fun i =>
      let w0 := (Mem.word s.mem (a + 8 * i)).toNat
      let w1 := (Mem.word s.mem (a + 8 * i + 4)).toNat
      ⟨bits w0 0 29, bits w1 0 29, bits w1 29 2, bits w0 29 3⟩
  else
    let a := canBase + s.d.get (R.CAN_LAY_GB_OFF n) / 4 * 4
    (List.range (s.d.get (R.CAN_LAY_GB_COUNT n))).map fun i =>
      let w := (Mem.word s.mem (a + 4 * i)).toNat
      ⟨bits w 0 11, bits w 11 11, bits w 22 2, bits w 24 3⟩

/-- A received frame is gated into an inbox or dropped (R467). -/
def State.canGate (s : State) (n : Nat) (f : CanFrame) (sof : Word) : State :=
  let drop := if f.xtd then R.CAN_NOMATCH_RTR_DROP_X n else R.CAN_NOMATCH_RTR_DROP_B n
  if f.rtr && s.d.isSet drop then s
  else
    let gs := s.gates n f.xtd
    match gs.findIdx? fun g => g.matches f.id with
    | some i =>
      match (gs.map (·.to')).getD i 3 with
      | 1 => s.canStore n 0 f sof (some i) false
      | 2 => s.canStore n 1 f sof (some i) false
      | _ => s
    | none =>
      match s.d.get (if f.xtd then R.CAN_NOMATCH_EXT_TO n else R.CAN_NOMATCH_BASE_TO n) with
      | 0 => s.canStore n 0 f sof none false
      | 1 => s.canStore n 1 f sof none false
      | _ => s

namespace Dev

/-- A write of INk_DONE frees the element named and every older one; an element that the inbox does not hold frees
none. -/
def inboxDone (d : Dev) (n k idx : Nat) : Dev :=
  let count := d.get (R.CAN_LAY_IN_COUNT n k)
  let level := d.get (R.CAN_IN_STAT_LEVEL n k)
  let take := d.get (R.CAN_IN_STAT_TAKE n k)
  let freed := (idx + count - take) % max 1 count + 1
  if count ≤ idx ∨ level < freed then d
  else
    let d := (d.set (R.CAN_IN_STAT_TAKE n k) ((idx + 1) % count)).set (R.CAN_IN_STAT_LEVEL n k) (level - freed)
    let c := d.can n
    (d.set (R.CAN_IN_STAT_FULL n k) 0).setCan n { c with lost := c.lost.filter fun x => x != k }

/-- A write of RCPT_DONE. -/
def receiptDone (d : Dev) (n idx : Nat) : Dev :=
  let count := d.get (R.CAN_LAY_RCPT_COUNT n)
  let level := d.get (R.CAN_RCPT_STAT_LEVEL n)
  let take := d.get (R.CAN_RCPT_STAT_TAKE n)
  let freed := (idx + count - take) % max 1 count + 1
  if count ≤ idx ∨ level < freed then d
  else (d.set (R.CAN_RCPT_STAT_TAKE n) ((idx + 1) % count)).set (R.CAN_RCPT_STAT_LEVEL n) (level - freed)

/-! ### Aborts and recovery (R470, R473) -/

/-- A write of OUT_ABORT: at once, or at the end of the attempt for the slot in transmission. -/
def outAbort (d : Dev) (n : Nat) (slots : Word) : Dev :=
  (List.range 32).foldl (fun d b =>
    if slots.toNat.testBit b && (d.get (R.CAN_OUT_WAIT_SLOTS n)).testBit b then
      match (d.can n).tx with
      | some x => if x.slot = b then d.setCan n { d.can n with tx := some { x with abort := true } } else d.outEnd n b false
      | none => d.outEnd n b false
    else d) d

/-- A write of CTRL.RECOVER = 1 (R473). -/
def canRecover (d : Dev) (n key : Nat) : Dev :=
  if key ≠ 0xA5C3 then d
  else if d.isSet (R.CAN_STATUS_BUSOFF n) then d.setCan n { d.can n with recovering := true }
  else d.note (R.CAN_STATUS_WERR n)

end Dev

/-- Address of an outbox element. -/
def Dev.outAddr (d : Dev) (n b : Nat) : Nat :=
  canBase + d.get (R.CAN_LAY_OUT_OFF n) / 4 * 4 + b * (12 + sizeBytes (d.get (R.CAN_LAY_OUT_SIZE n)))

/-- The frame of an outbox element (R465). FDF counts with FD_EN = 1, BRS in an FD frame with BRS_EN = 1, and RTR in a
classical frame (R461, R488; DESIGN CHOICE, log entry 171). -/
def State.outFrame (s : State) (n b : Nat) : CanFrame :=
  let a := s.d.outAddr n b
  let w0 := (Mem.word s.mem a).toNat
  let w1 := (Mem.word s.mem (a + 4)).toNat
  let xtd := w0.testBit 0
  let fdf := w1.testBit 4 && s.d.isSet (R.CAN_CTRL_FD_EN n)
  let f : CanFrame := {
    xtd := xtd
    rtr := w0.testBit 1 && !fdf
    esi := w0.testBit 2 && fdf
    fdf := fdf
    brs := w1.testBit 5 && fdf && s.d.isSet (R.CAN_CTRL_BRS_EN n)
    id := if xtd then bits w0 3 29 else bits w0 21 11
    dlc := Fin.ofNat 16 w1
    data := [] }
  { f with data := (Mem.bytes s.mem (a + 12) (frameLen f)).map fun x => BitVec.ofNat 8 x }

/-- The receipt of a frame sent (R465, R470). -/
def State.receipt (s : State) (n b : Nat) (sof : Word) : State :=
  let d := s.d
  let a := d.outAddr n b
  let w1 := (Mem.word s.mem (a + 4)).toNat
  if !w1.testBit 6 then s
  else
    let level := d.get (R.CAN_RCPT_STAT_LEVEL n)
    let count := d.get (R.CAN_LAY_RCPT_COUNT n)
    if count ≤ level then { s with d := d.incSat (R.CAN_RCPT_STAT_LOST n) }
    else
      let r := canBase + d.get (R.CAN_LAY_RCPT_OFF n) / 4 * 4 + 12 * ((d.get (R.CAN_RCPT_STAT_TAKE n) + level) % count)
      let w := word (bits w1 0 6 + bits w1 8 8 * 2 ^ 8 + b * 2 ^ 16)
      { s with
        mem := Mem.wrWords s.mem r [Mem.word s.mem a, w, sof]
        d := d.set (R.CAN_RCPT_STAT_LEVEL n) (level + 1) }

/-! ### Commands -/

/-- CAN_ENABLE: a write of CANn.CTRL.EN = 1 (R464). -/
def execCanEnable (bus : Fin 4) (s : State) : Host.Outcome State Fault Refusal :=
  .next <| s.onDev fun d => d.canEnable bus.val

/-- CAN_TX_REQUEST: a write of OUT_GO (R469). -/
def execCanTxRequest (bus : Fin 4) (slots : Word) (s : State) : Host.Outcome State Fault Refusal :=
  .next <| s.onDev fun d => d.outGo bus.val slots

/-- CAN_TX_ABORT: a write of OUT_ABORT (R470). -/
def execCanTxAbort (bus : Fin 4) (slots : Word) (s : State) : Host.Outcome State Fault Refusal :=
  .next <| s.onDev fun d => d.outAbort bus.val slots

/-- CAN_RX_ERROR: a frame being received ends in an error; REC rises by 1, and by 8 for each dominant bit or run of bits
about the error flag that ISO 11898-1 counts so (R471). -/
def execCanRxError (bus : Fin 4) (code : Fin 8) (eights : Nat) (s : State) : Host.Outcome State Fault Refusal :=
  .next <| s.onDev fun d =>
    let n := bus.val
    if d.canOn n then
      (d.set (R.CAN_STATUS_LASTERR n) code.val).canErr n (d.tec n) (min 255 (d.rec' n + 1 + 8 * eights))
    else d

/-- CAN_RECOVER: a write of CTRL.RECOVER = 1 (R473). -/
def execCanRecover (bus : Fin 4) (key : BitVec 16) (s : State) : Host.Outcome State Fault Refusal :=
  .next <| s.onDev fun d => d.canRecover bus.val key.toNat

/-- CAN_RECOVERY_COMPLETE: 128 occurrences of 11 recessive bits (R473). -/
def execCanRecoveryComplete (bus : Fin 4) (s : State) : Host.Outcome State Fault Refusal :=
  .next <| s.onDev fun d =>
    let n := bus.val
    if (d.can n).recovering then
      let d := (d.setCan n { d.can n with recovering := false }).canErr n 0 0
      (d.set (R.CAN_STATUS_BUSOFF n) 0).setCond (136 + n) false
    else d

/-- CAN_REJOIN: 11 recessive bits after PLL_SYS has locked again (R463). -/
def execCanRejoin (bus : Fin 4) (s : State) : Host.Outcome State Fault Refusal :=
  .next <| s.onDev fun d =>
    if (d.get R.CLK_STAT_ON_BYP).testBit 0 then d else d.setCan bus.val { d.can bus.val with off := false }

/-- INBOX_DONE: a write of INk_DONE (R468). -/
def execInboxDone (bus : Fin 4) (inbox : Fin 2) (idx : BitVec 6) (s : State) : Host.Outcome State Fault Refusal :=
  .next <| s.onDev fun d => d.inboxDone bus.val inbox.val idx.toNat

/-- RECEIPT_DONE: a write of RCPT_DONE (R489). -/
def execReceiptDone (bus : Fin 4) (idx : BitVec 5) (s : State) : Host.Outcome State Fault Refusal :=
  .next <| s.onDev fun d => d.receiptDone bus.val idx.toNat

end Sys2Proof.Machine
end

