-- ==== Sys2Proof/Machine/Eth.lean ====
section
/-! DEFINITION. The Ethernet MACs (chapter 15): link, descriptor rings, stamps, one-step operation, time-based launch,
reception and MDIO. -/

namespace Sys2Proof.Machine

/-- Island NET. -/
def islNET : Nat := 11

/-- Base of the descriptors and buffers in message RAM, and their size (R451). -/
def ethBase : Nat := 0x38010000
def ethSize : Nat := 0x30000

namespace Dev

def eth (d : Dev) (m : Nat) : EthMac := Sparse.at' {} d.eths m
def setEth (d : Dev) (m : Nat) (e : EthMac) : Dev := { d with eths := Sparse.put {} d.eths m e }
def ethQ (d : Dev) (m q : Nat) : EthQ := Sparse.at' {} (d.eth m).qs q
def setEthQ (d : Dev) (m q : Nat) (x : EthQ) : Dev :=
  d.setEth m { d.eth m with qs := Sparse.put {} (d.eth m).qs q x }

/-! ### Link (R452, R34) -/

/-- The link state of a MAC; a loss begins its condition, the return of the link ends it. -/
def linkSync (d : Dev) (m : Nat) : Dev :=
  let up := !(d.get R.CLK_STAT_ON_BYP).testBit 0 &&
    (if d.isSet (R.ETH_CTRL_INBAND m) then (d.eth m).inband else d.isSet (R.ETH_CTRL_LINK m))
  let was := d.isSet (R.ETH_STATUS_LINK m)
  let d := d.setB (R.ETH_STATUS_LINK m) up
  if was && !up then d.beginCond islNET (130 + m) 0 else if up then d.setCond (130 + m) false else d

/-- PLL_SYS's domains leave or return to the PLL: on BYP both MACs stop transmitting and report link down (R34). -/
def ethClock (d : Dev) : Dev :=
  let stop := (d.get R.CLK_STAT_ON_BYP).testBit 0
  [0, 1].foldl (fun d m => (if stop then d.setEth m { d.eth m with tx := none } else d).linkSync m) d

/-! ### Stamps (R453) -/

/-- A stamp taken now, corrected by signed ns: short time, seconds and nanoseconds. -/
def ethStamp (d : Dev) (corr : Int) : Nat × Nat × Nat :=
  let z := (((d.time.sec : Int) * 1000000000 + d.time.ns + corr) % ((2 : Int) ^ 48 * 1000000000)).toNat
  (toBits 32 ((d.time.short : Int) + corr), z / 1000000000, z % 1000000000)

end Dev

/-! ### PTP frames (R454, R455; the message format is that of IEEE 1588-2019, log entry 60) -/

def be16 (f : List Nat) (i : Nat) : Nat := f.getD i 0 * 256 + f.getD (i + 1) 0

/-- Place of the EtherType, behind at most one 802.1Q tag. -/
def etherAt (f : List Nat) : Nat := if be16 f 12 = 0x8100 then 16 else 12

/-- Place of the UDP header of an IPv4 frame to port 319 or 320. -/
def udpAt (f : List Nat) : Option Nat :=
  let ip := etherAt f + 2
  let udp := ip + 4 * (f.getD ip 0 % 16)
  if be16 f (etherAt f) = 0x0800 ∧ f.getD (ip + 9) 0 = 17 ∧ (be16 f (udp + 2) = 319 ∨ be16 f (udp + 2) = 320) then some udp
  else none

/-- Place of the PTP message of a frame. -/
def ptpAt (f : List Nat) : Option Nat :=
  if be16 f (etherAt f) = 0x88F7 then some (etherAt f + 2) else (udpAt f).map fun u => u + 8

/-- Replaces bytes of a frame from place `i`. -/
def patch (f : List Nat) (i : Nat) (bs : List Nat) : List Nat := f.take i ++ bs ++ f.drop (i + bs.length)

/-- A one-step Sync with its originTimestamp and its UDP checksum; any other frame unchanged (R455). -/
def oneStep (f : List Nat) (sec ns : Nat) : List Nat :=
  match ptpAt f with
  | none => f
  | some p =>
    if f.getD p 0 % 16 = 0 ∧ f.getD (p + 1) 0 % 16 = 2 ∧ f.getD (p + 6) 0 / 2 % 2 = 0 then
      let f := patch f (p + 34) (Crypto.beBytes 6 sec ++ Crypto.beBytes 4 ns)
      match udpAt f with
      | some u => patch f (u + 6) [0, 0]
      | none => f
    else f

/-! ### Transmission (R451, R456, R457) -/

namespace Dev

/-- Address of descriptor `i` of transmit ring `q`. -/
def txDesc (d : Dev) (m q i : Nat) : Nat := ethBase + d.get (R.ETH_TXQ_BASE_OFF m q) / 32 * 32 + 32 * i

def txHead (d : Dev) (m q : Nat) : Nat := d.txDesc m q (d.get (R.ETH_TXQ_HEAD_IDX m q))

/-- Advances the head of a transmit ring. -/
def txAdvance (d : Dev) (m q : Nat) : Dev :=
  let i := d.get (R.ETH_TXQ_HEAD_IDX m q) + 1
  (d.set (R.ETH_TXQ_HEAD_IDX m q) (if d.get (R.ETH_TXQ_LEN_N m q) ≤ i then 0 else i)).setEthQ m q
    { d.ethQ m q with head := none }

/-- An unusable descriptor: the ring's processing ends (R451). `ring`: 0 to 7, 8 the receive ring. -/
def descErr (d : Dev) (m ring : Nat) : Dev :=
  (d.note (R.ETH_STATUS_DESC_ERR m)).raise islNET 134 (ring + 16 * m)

end Dev

/-- A buffer lies inside the Ethernet part of message RAM. -/
def bufferIn (off len : Nat) : Bool := decide (off + len ≤ ethSize)

/-- The MAC examines the head of a ring: a dropped late descriptor uncovers the next one (R456). `fuel` bounds the
descriptors examined by the ring's length. -/
def State.txExamine (s : State) (m q : Nat) : Nat → State
  | 0 => s
  | fuel + 1 =>
    let d := s.d
    let x := d.ethQ m q
    let n := d.get (R.ETH_TXQ_LEN_N m q)
    if !d.isSet (R.ETH_CTRL_EN m) || n == 0 || x.stopped || x.head.isSome then s
    else
      let a := d.txHead m q
      let w1 := (Mem.word s.mem (a + 4)).toNat
      if !w1.testBit 31 then { s with d := d.setEthQ m q { x with stopped := true } }
      else if !bufferIn (Mem.word s.mem a).toNat (w1 % 0x10000) || !bufferIn (a - ethBase) 32 then
        { s with d := (d.setEthQ m q { x with stopped := true }).descErr m q }
      else if w1.testBit 18 then
        let dist := (Mem.word s.mem (a + 8) - d.shortTime).toNat
        if dist < 2 ^ 31 then { s with d := d.setEthQ m q { x with head := some ⟨dist == 0, false⟩ } }
        else
          let d := d.raise islNET 132 (q + 8 * m)
          if d.isSet (R.ETH_TXQ_CFG_LATE_POL m q) then
            let mem := Mem.wrWord (Mem.wrWord s.mem (a + 4) (word (w1 - 2 ^ 31))) (a + 28) 2
            State.txExamine { s with mem := mem, d := (d.txAdvance m q).note (R.ETH_STATUS_TXF m) } m q fuel
          else { s with d := d.setEthQ m q { x with head := some ⟨true, true⟩ } }
      else { s with d := d.setEthQ m q { x with head := some ⟨true, false⟩ } }

/-- The launch time of the head of a ring is the present one or passed (R456). -/
def State.launchReached (s : State) (m q : Nat) : Bool :=
  let dist := (Mem.word s.mem (s.d.txHead m q + 8) - s.d.shortTime).toNat
  dist == 0 || decide (2 ^ 31 ≤ dist)

/-- An awaited head whose launch time is reached may start (R456). -/
def State.txWake (s : State) (m q : Nat) : State :=
  match (s.d.ethQ m q).head with
  | some h =>
    if !h.ready && s.launchReached m q then
      s.onDev fun d => d.setEthQ m q { d.ethQ m q with head := some { h with ready := true } }
    else s
  | none => s

/-- The MAC examines a ring that is not stopped, and its head. -/
def State.txLook (s : State) (m q : Nat) : State :=
  (s.txExamine m q (s.d.get (R.ETH_TXQ_LEN_N m q) + 1)).txWake m q

/-- The MAC examines its rings. -/
def State.txExamineAll (s : State) (m : Nat) : State := (List.range 8).foldl (fun s q => s.txLook m q) s

/-- Nanoseconds that a frame of `n` bytes occupies the wire, preamble and interframe gap included (R457). -/
def Dev.wireNs (d : Dev) (m n : Nat) : Nat :=
  (8 + n + 12) * (match d.get (R.ETH_CTRL_SPEED m) with | 0 => 800 | 1 => 80 | _ => 8)

/-- The queue whose head starts: the highest that may start and would leave the wire before the launch time of every
awaited head in a higher queue (R457). -/
def State.txChoose (s : State) (m : Nat) : Option Nat :=
  let d := s.d
  let rec go (limit : Option Nat) : List Nat → Option Nat
    | [] => none
    | q :: t =>
      match (d.ethQ m q).head with
      | none => go limit t
      | some h =>
        let a := d.txHead m q
        if h.ready then
          let n := (Mem.word s.mem (a + 4)).toNat % 0x10000
          if limit.all fun l => d.wireNs m n ≤ l then some q else go limit t
        else
          let dist := (Mem.word s.mem (a + 8) - d.shortTime).toNat
          go (some (match limit with | some l => min l dist | none => dist)) t
  go none [7, 6, 5, 4, 3, 2, 1, 0]

/-- The chosen frame goes on the wire; its stamp is that of its start-of-frame delimiter (R453, R455). -/
def State.txStart (s : State) (m q : Nat) : State :=
  let d := s.d
  let a := d.txHead m q
  let w1 := (Mem.word s.mem (a + 4)).toNat
  let frame := Mem.bytes s.mem (ethBase + (Mem.word s.mem a).toNat) (w1 % 0x10000)
  let t := d.ethStamp (signed 16 (d.get (R.ETH_PTPLAT_TX m)))
  let frame := if w1.testBit 16 then oneStep frame t.2.1 t.2.2 else frame
  let late := match (d.ethQ m q).head with | some h => h.late | none => false
  { s with d := d.setEth m { d.eth m with tx := some ⟨q, frame, t.1, t.2.1, t.2.2, late⟩ } }

/-- The write-back of a frame sent (R451). -/
def State.txDone (s : State) (m : Nat) (x : EthTx) : State :=
  let d := s.d
  let a := d.txHead m x.q
  let w1 := (Mem.word s.mem (a + 4)).toNat
  let mem := if w1.testBit 16 || w1.testBit 17 then
      Mem.wrWords s.mem (a + 12) [word x.short, word x.ns, word x.sec, word (x.sec / 2 ^ 32)]
    else s.mem
  let mem := Mem.wrWord (Mem.wrWord mem (a + 28) (word (4 + b2n x.late))) (a + 4) (word (w1 % 2 ^ 31))
  let d := ((d.setEth m { d.eth m with tx := none }).txAdvance m x.q).note (R.ETH_STATUS_TXF m)
  State.txExamine { s with d := d, mem := mem } m x.q (d.get (R.ETH_TXQ_LEN_N m x.q) + 1)

/-- A write of CTRL.EN = 1 to a MAC: its rings are examined. -/
def State.ethEnable (s : State) (m : Nat) : State :=
  (s.onDev fun d =>
    if d.isSet (R.ETH_CTRL_EN m) then d
    else (d.set (R.ETH_CTRL_EN m) 1).setEth m { d.eth m with qs := [], tx := none, rxStopped := false }).txExamineAll m

/-- A write of CTRL.EN = 0: the MAC stops. -/
def Dev.ethDisable (d : Dev) (m : Nat) : Dev := (d.set (R.ETH_CTRL_EN m) 0).setEth m { d.eth m with tx := none }

/-- A write of KICK (R460). -/
def State.ethKick (s : State) (m q : Nat) : State :=
  (s.onDev fun d => d.setEthQ m q { d.ethQ m q with stopped := false }).txExamine m q
    (s.d.get (R.ETH_TXQ_LEN_N m q) + 1)

/-! ### Reception (R449, R451, R453) -/

/-- A frame is dropped for want of a descriptor (R451). -/
def Dev.rxLost (d : Dev) (m : Nat) : Dev := (d.incSat (R.ETH_RXLOST_COUNT m)).raise islNET 133 m

/-- A received frame is stamped and stored. A frame longer than its buffer keeps what fits, with ERR. -/
def State.rxFrame (s : State) (m : Nat) (frame : List Nat) (bad : Bool) : State :=
  let d := s.d
  if 2000 < frame.length then { s with d := d.incSat (R.ETH_RXLOST_COUNT m) }
  else
    let i := d.get (R.ETH_RXQ_HEAD_IDX m)
    let n := d.get (R.ETH_RXQ_LEN_N m)
    let a := ethBase + d.get (R.ETH_RXQ_BASE_OFF m) / 32 * 32 + 32 * i
    let w1 := (Mem.word s.mem (a + 4)).toNat
    let off := (Mem.word s.mem a).toNat
    let size := w1 % 0x10000
    if n = 0 ∨ (d.eth m).rxStopped ∨ !w1.testBit 31 then { s with d := d.rxLost m }
    else if !bufferIn off size || !bufferIn (a - ethBase) 32 then
      { s with d := ((d.setEth m { d.eth m with rxStopped := true }).descErr m 8).rxLost m }
    else
      let t := d.ethStamp (signed 16 (d.get (R.ETH_PTPLAT_RX m)))
      let err := bad || decide (size < frame.length)
      let w1' := word (frame.length + b2n (ptpAt frame).isSome * 2 ^ 16 + b2n err * 2 ^ 17)
      let mem := Mem.wrBytes s.mem (ethBase + off) (frame.take size)
      let mem := Mem.wrWords mem (a + 12) [word t.1, word t.2.2, word t.2.1, word (t.2.1 / 2 ^ 32)]
      let d := d.set (R.ETH_RXQ_HEAD_IDX m) (if n ≤ i + 1 then 0 else i + 1)
      { s with mem := Mem.wrWord mem (a + 4) w1', d := d.note (R.ETH_STATUS_RXF m) }

/-! ### MDIO (R450) -/

/-- A write of ETH0.MDIO with GO = 1: the fields are written (R6), and a transaction with them starts unless one runs. -/
def Dev.mdioGo (d : Dev) (data reg phy op : Nat) : Dev :=
  let t := (d.set (R.ETH_MDIO_DATA 0) data).set (R.ETH_MDIO_REG 0) reg
  let t := (t.set (R.ETH_MDIO_PHY 0) phy).set (R.ETH_MDIO_OP 0) op
  if d.isSet (R.ETH_MDIO_BUSY 0) then t
  else (t.setEth 0 { t.eth 0 with mdio := (op, phy) }).set (R.ETH_MDIO_BUSY 0) 1

/-! ### Commands -/

/-- ETH_FRAME_RECEIVED: a frame, without its FCS, arrives at an enabled MAC whose link is up. -/
def execEthFrameReceived (mac : Fin 2) (frame : List Byte) (fcsBad : Bool) (s : State) :
    Host.Outcome State Fault Refusal :=
  .next <|
    if s.d.isSet (R.ETH_CTRL_EN mac.val) && s.d.isSet (R.ETH_STATUS_LINK mac.val) then
      s.rxFrame mac.val (frame.map fun b => b.toNat) fcsBad
    else s

/-- ETH_TX_START: an idle MAC with its link up starts a frame (R452, R457). -/
def execEthTxStart (mac : Fin 2) (s : State) : Host.Outcome State Fault Refusal :=
  .next <|
    let m := mac.val
    let s := s.txExamineAll m
    if s.d.isSet (R.ETH_CTRL_EN m) && s.d.isSet (R.ETH_STATUS_LINK m) && (s.d.eth m).tx.isNone then
      match s.txChoose m with
      | some q => s.txStart m q
      | none => s
    else s

/-- ETH_LAUNCH_TIME: the launch time of an awaited head is reached; it may start (R456). -/
def execEthLaunchTime (mac : Fin 2) (q : Fin 8) (s : State) : Host.Outcome State Fault Refusal :=
  .next (s.txLook mac.val q.val)

/-- ETH_TX_COMPLETE: the frame on the wire ends and its descriptor is written back (R451). -/
def execEthTxComplete (mac : Fin 2) (s : State) : Host.Outcome State Fault Refusal :=
  .next <|
    match (s.d.eth mac.val).tx with
    | some x => s.txDone mac.val x
    | none => s

/-- ETH_TX_KICK (R460). -/
def execEthTxKick (mac : Fin 2) (q : Fin 8) (s : State) : Host.Outcome State Fault Refusal :=
  .next (s.ethKick mac.val q.val)

/-- MDIO_GO (R450). -/
def execMdioGo (data : BitVec 16) (reg phy : Fin 32) (op : Fin 4) (s : State) : Host.Outcome State Fault Refusal :=
  .next <| s.onDev fun d => d.mdioGo data.toNat reg.val phy.val op.val

/-- MDIO_COMPLETE: the transaction ends; `read` is the word of a read (R450). -/
def execMdioComplete (read : Option (BitVec 16)) (s : State) : Host.Outcome State Fault Refusal :=
  .next <| s.onDev fun d =>
    if d.isSet (R.ETH_MDIO_BUSY 0) then
      let d := d.set (R.ETH_MDIO_BUSY 0) 0
      match (d.eth 0).mdio.1, read with
      | 1, some x => d.set (R.ETH_MDIO_DATA 0) x.toNat
      | 3, some x => d.set (R.ETH_MDIO_DATA 0) x.toNat
      | _, _ => d
    else d

/-- ETH_MDIO_TIMEOUT (R450). -/
def execEthMdioTimeout (s : State) : Host.Outcome State Fault Refusal :=
  .next <| s.onDev fun d =>
    if d.isSet (R.ETH_MDIO_BUSY 0) then
      ((d.set (R.ETH_MDIO_BUSY 0) 0).set (R.ETH_MDIO_TIMEOUT 0) 1).raise islNET 135 (d.eth 0).mdio.2
    else d

/-- ETH_LINK_CHANGE: the RGMII in-band status of a MAC changes (R452). -/
def execEthLinkChange (mac : Fin 2) (up : Bool) (s : State) : Host.Outcome State Fault Refusal :=
  .next <| s.onDev fun d => (d.setEth mac.val { d.eth mac.val with inband := up }).linkSync mac.val

end Sys2Proof.Machine
end

