-- ==== Sys2Proof/Machine/Clk.lean ====
section
/-! DEFINITION. Clocks and the power budget (chapter 17): the crystal and the PLLs, losses and returns, spread spectrum,
clock gates, and the epochs of PWRB. -/

namespace Sys2Proof.Machine

open Dev (islGUARD)

namespace Dev

/-! ### Crystal and PLLs (R492 to R497) -/

def pllBit (d : Dev) (f : Fld) (p : Nat) : Bool := (d.get f).testBit p

/-- The loss source of a PLL: SYS, WEAVE, PWM (R34). -/
def lossSource (p : Nat) : Nat := match p with | 0 => 84 | 1 => 82 | _ => 83

def setTrying (d : Dev) (p : Nat) (on : Bool) : Dev :=
  let t := d.clk.trying.filter fun x => x != p
  { d with clk := { d.clk with trying := if on then t ++ [p] else t } }

/-- Domains have moved to BYP or back: TIME, the MACs and the CAN controllers follow (R34). -/
def clockSync (d : Dev) : Dev := d.bypSync.ethClock.canClock

/-- A condition of the clocks begins; while a reset holds the device, ACC takes no report, and the condition stands from the
release (R497). -/
def clockCond (d : Dev) (src : Nat) : Dev :=
  let t := { d with clk := { d.clk with conds := d.clk.conds.filter (· != src) ++ [src] } }
  if d.sys.held = .none then t.beginCond 0 src 0 else t

/-- It ends. -/
def clockClear (d : Dev) (src : Nat) : Dev :=
  { d with clk := { d.clk with conds := d.clk.conds.filter (· != src) } }.setCond src false

/-- A PLL leaves its lock and its domains move to BYP. -/
def dropPll (d : Dev) (p : Nat) : Dev :=
  let d := if d.pllBit R.CLK_STAT_LOCKED p then
      { d with clk := { d.clk with lost := d.clk.lost.filter (· != p) ++ [p] } }.incSat (R.CLK_PLL_LOSSES p)
    else d
  ((d.setBit (fun _ => R.CLK_STAT_LOCKED) p false).setBit (fun _ => R.CLK_STAT_ON_BYP) p true)

/-- A PLL declares lock and its domains return to it; after a loss that is a CLK_RETURN, which ACC takes unless a reset
holds the device (R494, R497). -/
def pllLock (d : Dev) (p band : Nat) : Dev :=
  let lost := d.clk.lost.contains p
  let d := { d with clk := { d.clk with lost := d.clk.lost.filter (· != p) } }
  let d := (d.setTrying p false).setBit (fun _ => R.CLK_STAT_LOCKED) p true
  let d := d.setBit (fun _ => R.CLK_STAT_ON_BYP) p false
  let d := (((d.incWrap (R.CLK_PLL_LOCKS p)).set (R.CLK_PLL_BAND p) band).clockSync).clockClear (lossSource p)
  let d := if d.get R.CLK_STAT_ON_BYP = 0 then d.clockClear 81 else d
  let d := if lost && d.sys.held == .none then d.raise 0 161 p else d
  if d.mode = 0 ∧ d.sys.held = .none ∧ d.clocksLocked then d.enterMode 1 0 else d

/-! ### Clock gates (R499) -/

/-- Blocks of GATE whose own enable is 1: [0] NET, [1] CAN. The others have no registers in the spec. -/
def gateBusy (d : Dev) : Nat :=
  b2n (d.isSet (R.ETH_CTRL_EN 0) || d.isSet (R.ETH_CTRL_EN 1)) +
    2 * b2n (d.isSet R.DPL_CFG_EN || (List.range 4).any fun n => d.isSet (R.CAN_CTRL_EN n))

/-- A write of CLK.GATE: one that would stop the clock of an enabled block is ignored. -/
def gateWrite (d : Dev) (blocks : Nat) : Dev :=
  if blocks &&& d.gateBusy ≠ 0 then d.note R.CLK_STAT_WERR else d.set R.CLK_GATE_BLOCKS blocks

/-- A write of SSC.EN: ignored in M4 to M9 (R498). -/
def sscWrite (d : Dev) (en : Bool) : Dev := if d.control then d.note R.CLK_STAT_WERR else d.setB R.CLK_SSC_EN en

/-! ### Power budget (R500 to R503) -/

/-- The Archive's throttle level at a stage (R501). -/
def stageThrottle (s : Nat) : Nat := if s ≤ 2 then 0 else if s ≤ 4 then 1 else if s = 5 then 2 else 3

/-- A new stage, and the level t that it grants the Archive (R383, R501). -/
def setStage (d : Dev) (s : Nat) : Dev :=
  let t := stageThrottle s
  let d := (d.set R.PWRB_STATUS_STAGE s).set R.ARCH_STATUS_THROTTLE t
  if d.get R.ARCH_STATUS_STATE = 1 ∧ t ≠ 0 then { d with arch := { d.arch with throttled := true } } else d

/-- The estimates of an epoch. -/
def epochEstimates (d : Dev) (p t : Nat) : Dev :=
  let d := d.set R.PWRB_EST_P p
  let d := if d.get R.PWRB_EST_PMAX < p then d.set R.PWRB_EST_PMAX p else d
  let d := d.set R.PWRB_TJ_T t
  if signed 16 (d.get R.PWRB_TJ_TMAX) < signed 16 t then d.set R.PWRB_TJ_TMAX t else d

/-- The conditions PWRB_OVER and PWRB_TJ_HIGH (R502). -/
def epochConds (d : Dev) (t : Nat) : Dev :=
  let d := if 100 ≤ d.pwr.above then (d.beginCond islGUARD 162 0).set R.PWRB_STATUS_OVER 1
    else if 100 ≤ d.pwr.under then (d.setCond 162 false).set R.PWRB_STATUS_OVER 0 else d
  let lim : Int := 16 * d.get R.PWRB_CTRL_TJLIM
  if lim < signed 16 t then d.beginCond islGUARD 163 (toBits 32 (signed 16 t / 16))
  else if signed 16 t ≤ lim - 32 then d.setCond 163 false else d

/-- The end of a 10 µs epoch with P_est `p` in mW and Tj `t` in 1/16 °C. -/
def epoch (d : Dev) (p t : Nat) : Dev :=
  let budget := 100 * d.get R.PWRB_CTRL_BUDGET
  let s := d.get R.PWRB_STATUS_STAGE
  let d := if s = 0 then d else d.incSat R.PWRB_THR_EPOCHS
  let d := d.epochEstimates p t
  let low := if p < budget - 100 * d.get R.PWRB_CTRL_HYST then d.pwr.low + 1 else 0
  let above := if budget < p ∧ s = 7 then d.pwr.above + 1 else 0
  let under := if p ≤ budget then d.pwr.under + 1 else 0
  let d := { d with pwr := ⟨if low = 100 then 0 else low, min above 100, min under 100⟩ }
  let d := if budget < p ∧ s < 7 then (d.setStage (s + 1)).note R.PWRB_STATUS_UP
    else if low = 100 ∧ 0 < s then d.setStage (s - 1) else d
  d.epochConds t

end Dev

/-! ### Commands -/

/-- XTAL_QUALIFIED: the crystal is qualified; the PLLs that are not locked start to lock (R492). -/
def execXtalQualified (s : State) : Host.Outcome State Fault Refusal :=
  .next <| s.onDev fun d =>
    if d.sys.held = .powerOn then d
    else
      let d := d.set R.CLK_STAT_XTAL_OK 1
      (List.range 3).foldl (fun d p => if d.pllBit R.CLK_STAT_LOCKED p then d else d.setTrying p true) d

/-- PLL_LOCK: a lock attempt succeeds (R494). -/
def execPllLock (pll : Fin 3) (band : BitVec 4) (s : State) : Host.Outcome State Fault Refusal :=
  .next <| s.onDev fun d => if d.clk.trying.contains pll.val then d.pllLock pll.val band.toNat else d

/-- PLL_LOCK_FAIL: an attempt has not locked at 150 µs (R494). -/
def execPllLockFail (pll : Fin 3) (s : State) : Host.Outcome State Fault Refusal :=
  .next <| s.onDev fun d =>
    if d.clk.trying.contains pll.val then
      let d := (d.setTrying pll.val false).note R.CLK_STAT_FAIL (d.get R.CLK_STAT_FAIL ||| 2 ^ pll.val)
      if 3 ≤ d.mode then d.raise 0 160 pll.val else d
    else d

/-- PLL_RETRY: the retry interval expires; a PLL tries again where the crystal is qualified (R64, R497). -/
def execPllRetry (pll : Fin 3) (s : State) : Host.Outcome State Fault Refusal :=
  .next <| s.onDev fun d =>
    if d.isSet R.CLK_STAT_XTAL_OK && !d.pllBit R.CLK_STAT_LOCKED pll.val then d.setTrying pll.val true else d

/-- REFERENCE_LOSS: every PLL loses its reference (R495, R496). -/
def execReferenceLoss (s : State) : Host.Outcome State Fault Refusal :=
  .next <| s.onDev fun d =>
    if d.isSet R.CLK_STAT_XTAL_OK then
      let d := { d.set R.CLK_STAT_XTAL_OK 0 with clk := { d.clk with trying := [] } }
      (((List.range 3).foldl Dev.dropPll d).clockSync).clockCond 81
    else d

/-- LOSS_OF_LOCK: a PLL loses its lock and tries again (R495 to R497). -/
def execLossOfLock (pll : Fin 3) (s : State) : Host.Outcome State Fault Refusal :=
  .next <| s.onDev fun d =>
    let p := pll.val
    if d.pllBit R.CLK_STAT_LOCKED p then
      (((d.dropPll p).setTrying p true).clockSync).clockCond (Dev.lossSource p)
    else d

/-- SSC_ENABLE: a write of SSC.EN (R498). -/
def execSscEnable (en : Bool) (s : State) : Host.Outcome State Fault Refusal := .next <| s.onDev fun d => d.sscWrite en

/-- CLOCK_GATE_WRITE: a write of CLK.GATE (R499). -/
def execClockGateWrite (blocks : BitVec 10) (s : State) : Host.Outcome State Fault Refusal :=
  .next <| s.onDev fun d => d.gateWrite blocks.toNat

/-- PWRB_EPOCH: the estimates of an epoch (R500 to R502). -/
def execPwrbEpoch (power tj : BitVec 16) (s : State) : Host.Outcome State Fault Refusal :=
  .next <| s.onDev fun d => if d.sys.held = .none then d.epoch power.toNat tj.toNat else d

end Sys2Proof.Machine
end

