-- ==== Sys2Proof/Machine/Dpl.lean ====
section
/-! DEFINITION. The Drestosin Peer Link (chapter 16): frames and tags, reception checks, the peer table, sending and
heartbeats; and the commands of the controllers that the assist takes part in. -/

namespace Sys2Proof.Machine

/-! ### Frames and tags (R474 to R476) -/

def dplType (id : Nat) : Nat := bits id 24 5
def dplSrc (id : Nat) : Nat := bits id 16 8
def dplDst (id : Nat) : Nat := bits id 8 8

/-- The version from which a type is defined, and its least and greatest data length in a frame of a version (R477);
none for an undefined type. -/
def dplKind (type version : Nat) : Option (Nat × Nat × Nat) :=
  if type = 2 then some (1, 24, 24)
  else if type = 4 then some (1, 32, 32)
  else if type = 8 then (if version = 3 then some (1, 48, 48) else some (1, 32, 32))
  else if type = 0x0C ∨ type = 0x0D then some (2, 16, 64)
  else if 0x10 ≤ type then some (1, 16, 64)
  else none

namespace Dev

/-- The sixteen bytes of a key: word 0 holds the first, each word its least significant byte first (log entry 61). -/
def dplKey (d : Dev) (j : Nat) : List Nat :=
  (List.range 4).flatMap fun i => le4 (d.get (R.DPL_KEY_W_KEY j i))

/-- TAG of a frame: the first eight bytes of the CMAC (R476). -/
def dplTag (d : Dev) (j id dlc : Nat) (body : List Nat) : List Nat :=
  (Crypto.cmac (d.dplKey j) (Crypto.beBytes 4 id ++ [dlc] ++ body)).take 8

/-! ### The peer table (R484, R485) -/

def peer (d : Dev) (k : Nat) : DplPeer := Sparse.at' {} d.dpl.peers k
def setPeer (d : Dev) (k : Nat) (p : DplPeer) : Dev :=
  { d with dpl := { d.dpl with peers := Sparse.put {} d.dpl.peers k p } }

def peerState (d : Dev) (k : Nat) : Nat := d.get (R.DPL_PEER_STAT_STATE k)

/-- The entry of a node. -/
def peerOf (d : Dev) (node : Nat) : Option Nat :=
  (List.range 32).find? fun k => d.peerState k != 0 && d.get (R.DPL_PEER_CTRL_NODE k) == node

def upPeers (d : Dev) : List Nat := (List.range 32).filter fun k => d.peerState k == 1

/-- The group version: the lowest agreed version among UP peers, or VMAX (R484). -/
def groupVersion (d : Dev) : Nat :=
  match d.upPeers.map fun k => d.get (R.DPL_PEER_STAT_VER k) with
  | [] => d.get R.DPL_VER_VMAX
  | v :: t => t.foldl min v

/-- STATUS and the Colophon comparison follow the table. -/
def dplSync (d : Dev) : Dev :=
  ((d.set R.DPL_STATUS_GVER d.groupVersion).set R.DPL_STATUS_UPCOUNT d.upPeers.length).coloPeers

/-- A new entry for the source of a first heartbeat; its bucket starts full. -/
def newPeer (d : Dev) (k node : Nat) : Dev :=
  let d := (d.set (R.DPL_PEER_CTRL_NODE k) node).set (R.DPL_PEER_CTRL_LOCK k) 0
  let d := (d.set (R.DPL_PEER_CTRL_RATE k) (d.get R.DPL_CFG2_DEF_RATE)).set (R.DPL_PEER_CTRL_BURST k)
    (d.get R.DPL_CFG2_DEF_BURST)
  (d.set (R.DPL_PEER_STAT_STATE k) 2).setPeer k { tokens := d.get R.DPL_CFG2_DEF_BURST }

/-- A write of PEERk_CTRL.FREE (R485). -/
def freePeer (d : Dev) (k : Nat) : Dev :=
  let d := (d.wrw (0x40060904 + 16 * k) 0).wrw (0x40060908 + 16 * k) 0
  ((d.wrw (0x4006090C + 16 * k) 0).setPeer k {}).dplSync

/-- A write of the fields of PEERk_CTRL other than FREE: NODE and LOCK of an entry that is not FREE stay, with WERR;
LOCK = 1 creates an entry in state LOST (R485, R491). RATE and BURST codes of 0 and the nodes 0 and 255 are reserved (R5,
R474, log entry 44). -/
def peerWrite (d : Dev) (k : Nat) (v : Nat) : Dev :=
  let node := bits v 0 8
  let lock := bits v 24 1
  let rate := bits v 8 8
  let burst := bits v 16 8
  let d := if rate = 0 then d.note R.DPL_STATUS_WERR else d.set (R.DPL_PEER_CTRL_RATE k) rate
  let d := if burst = 0 then d.note R.DPL_STATUS_WERR else d.set (R.DPL_PEER_CTRL_BURST k) burst
  if d.peerState k = 0 then
    let d := if node = 0 ∨ node = 255 then d.note R.DPL_STATUS_WERR else d.set (R.DPL_PEER_CTRL_NODE k) node
    let d := d.set (R.DPL_PEER_CTRL_LOCK k) lock
    if lock = 1 then
      ((d.set (R.DPL_PEER_STAT_STATE k) 2).setPeer k { tokens := d.get (R.DPL_PEER_CTRL_BURST k) }).dplSync
    else d
  else if node ≠ d.get (R.DPL_PEER_CTRL_NODE k) ∨ lock ≠ d.get (R.DPL_PEER_CTRL_LOCK k) then d.note R.DPL_STATUS_WERR
  else d

/-! ### Reception checks (R479) -/

def malformed (d : Dev) (id : Nat) : Dev :=
  (d.incSat R.DPL_CNT2_MALFORMED).raise islCAN 154 (dplSrc id + dplType id * 2 ^ 8)

/-- The entry that a frame belongs to under check 4, and the state with a new entry where the frame is a first
heartbeat. -/
def checkPeer (d : Dev) (id : Nat) : Option (Nat × Dev) :=
  let beat := dplType id == 8
  let strict := d.isSet R.DPL_CFG_ALLOWLIST
  match d.peerOf (dplSrc id) with
  | some k => if beat && strict && !d.isSet (R.DPL_PEER_CTRL_LOCK k) then none else some (k, d)
  | none =>
    if beat && !strict then
      match (List.range 32).find? fun k => d.peerState k == 0 with
      | some k => some (k, d.newPeer k (dplSrc id))
      | none => none
    else none

end Dev

namespace Dev

/-- SEC of a heartbeat lies within 2 s of the unit's own, modulo 2^32. -/
def timeNear (d : Dev) (sec : Nat) : Bool :=
  let x := (sec + 2 ^ 32 - d.time.sec % 2 ^ 32) % 2 ^ 32
  decide (x ≤ 2) || decide (2 ^ 32 - 2 ≤ x)

/-- An accepted heartbeat: what the peer says of itself, its agreed version and its state (R478, R484). -/
def heartbeat (d : Dev) (k : Nat) (f : List Nat) : Dev :=
  let was := d.peerState k
  let vmin := f.getD 16 0
  let vmax := f.getD 17 0
  let ver := min (d.get R.DPL_VER_VMAX) vmax
  let bad := decide (ver < max (d.get R.DPL_VER_VMIN) vmin)
  let d := (d.set (R.DPL_PEER_STAT_MODE k) (f.getD 14 0)).set (R.DPL_PEER_STAT_PSTATE k) (f.getD 15 0)
  let d := (d.set (R.DPL_PEER_COLO_HI_VAL k) (beAt f 6 4)).set (R.DPL_PEER_COLO_LO_VAL k) (beAt f 10 4)
  let d := (d.set (R.DPL_PEER_STAT_VER k) ver).set (R.DPL_PEER_STAT_STATE k) (if bad then 3 else 1)
  let d := d.setPeer k { d.peer k with period := beAt f 22 2 }
  let d := if bad && was != 3 then d.raise islCAN 151 (d.get (R.DPL_PEER_CTRL_NODE k)) else d
  d.dplSync

end Dev

/-- What the assist does with an accepted frame (R477). -/
def State.dplAccept (s : State) (k : Nat) (fr : CanFrame) (f : List Nat) (sof : Word) : State :=
  let s := s.onDev fun d => d.setPeer k { d.peer k with rated := false }
  let bus := s.d.get R.DPL_CFG_BUS
  let box := s.d.get R.DPL_CFG_INBOX
  match dplType fr.id with
  | 2 =>
    if s.d.isSet R.DPL_CFG_ARM_EN then
      s.dplArm (beAt f 6 2) (s.d.time.sec / 2 ^ 32 * 2 ^ 32 + beAt f 8 4) (beAt f 12 4)
    else s
  | 8 =>
    let s := s.onDev fun d => d.heartbeat k f
    if s.d.isSet R.DPL_CFG_HB_COPY then s.canStore bus box fr sof none true else s
  | _ => s.canStore bus box fr sof none true

/-- Checks 6 and 7 (R479). -/
def State.dplRate (s : State) (k : Nat) (fr : CanFrame) (f : List Nat) (sof : Word) : State :=
  let d := s.d
  let p := d.peer k
  if p.tokens = 0 then
    let d := d.incSat R.DPL_CNT_RATED
    if p.rated then { s with d := d }
    else { s with d := (d.setPeer k { p with rated := true }).raise islCAN 149 (dplSrc fr.id) }
  else
    let d := d.setPeer k { p with tokens := p.tokens - 1 }
    let type := dplType fr.id
    let from' := match dplKind type 1 with | some x => x.1 | none => 4
    let fit := d.peerState k == 1 && decide (from' ≤ d.get (R.DPL_PEER_STAT_VER k))
    if type != 8 && !fit then { s with d := d.malformed fr.id } else State.dplAccept { s with d := d } k fr f sof

/-- The checks of R479, in order. -/
def State.dplCheck (s : State) (fr : CanFrame) (sof : Word) : State :=
  let d := s.d
  let f := fr.data.map fun b => b.toNat
  let len := frameLen fr
  let type := dplType fr.id
  let src := dplSrc fr.id
  let own := d.get R.DPL_NODE_ID
  let ver := f.getD 0 0
  let ksel := f.getD 1 0 % 2
  let formed := decide (16 ≤ len) && decide (1 ≤ ver) && decide (ver ≤ 3) && f.getD 1 0 / 2 == 0 &&
    match dplKind type ver with
    | some x => decide (x.2.1 ≤ len) && decide (len ≤ x.2.2)
    | none => false
  if dplDst fr.id ≠ own ∧ dplDst fr.id ≠ 0xFF then { s with d := d.incSat R.DPL_CNT_NOT_MINE }
  else if !formed then { s with d := d.malformed fr.id }
  else if !(d.get R.DPL_KEYSTAT_VALID).testBit ksel ||
      d.dplTag ksel fr.id fr.dlc.val (f.take (len - 8)) != (f.drop (len - 8)).take 8 then
    { s with d := (d.incSat R.DPL_CNT_TAGFAIL).raise islCAN 147 (src + type * 2 ^ 8) }
  else if src = own then { s with d := d.raise islCAN 156 own }
  else
    match d.checkPeer fr.id with
    | none =>
      if type = 8 then { s with d := d.raise islCAN 153 src } else { s with d := d.incSat R.DPL_CNT2_UNKNOWN }
    | some (k, d') =>
      let fresh := beAt f 2 4
      let replay (why : Nat) : State := { s with d := (d.incSat R.DPL_CNT_REPLAY).raise islCAN 148 (src + why * 2 ^ 8) }
      if (match (d'.peer k).fresh with | some x => decide (fresh ≤ x) | none => false) then replay 0
      else if type == 8 && d.isSet R.DPL_CFG_TIMECHK && !d.timeNear (beAt f 18 4) then replay 1
      else State.dplRate { s with d := d'.setPeer k { d'.peer k with fresh := some fresh } } k fr f sof

/-- The assist takes a frame of its controller (R479). -/
def Dev.dplTakes (d : Dev) (n : Nat) (f : CanFrame) : Bool :=
  d.isSet R.DPL_CFG_EN && d.get R.DPL_CFG_BUS == n && f.fdf && f.xtd && f.id % 256 == 0xD5

/-- A frame goes to the assist or to the gate lists (R467, R479). -/
def State.canDeliver (s : State) (n : Nat) (f : CanFrame) (sof : Word) : State :=
  if s.d.dplTakes n f then s.dplCheck f sof else s.canGate n f sof

/-- A controller hears the bus: it takes part on it, not in internal loopback, and its CANn_RXD pad is not Off (R488, R528;
DESIGN CHOICE, log entry 171). -/
def Dev.canHears (d : Dev) (n : Nat) : Bool := d.canOn n && d.get (R.CAN_CTRL_MODE n) != 2 && !d.padOff (53 + 2 * n)

/-- A controller receives a frame without error. An FD frame is taken only with FD_EN = 1. -/
def State.canReceive (s : State) (n : Nat) (f : CanFrame) (sof : Word) : State :=
  if !s.d.canHears n || (f.fdf && !s.d.isSet (R.CAN_CTRL_FD_EN n)) then s
  else (s.onDev fun d => (d.recGood n).ackHeard n).canDeliver n f sof

/-! ### Sending (R481 to R483) -/

namespace Dev

/-- The version of a frame to a destination: the agreed version of an UP peer, the group version for every node; none
where the destination is not UP. -/
def sendVersion (d : Dev) (dest : Nat) : Option Nat :=
  if dest = 0xFF then some d.groupVersion
  else
    match d.peerOf dest with
    | some k => if d.peerState k = 1 then some (d.get (R.DPL_PEER_STAT_VER k)) else none
    | none => none

/-- The version under which the request of a DPL element may be sent (R481, R482). -/
def sendAs (d : Dev) (n dest : Nat) (f : CanFrame) : Option Nat :=
  if !d.isSet R.DPL_CFG_EN || d.get R.DPL_CFG_BUS != n then none
  else
    match d.sendVersion dest with
    | none => none
    | some v =>
      match dplKind (dplType f.id) v with
      | some x => if x.1 ≤ v ∧ x.2.1 ≤ frameLen f then some v else none
      | none => none

/-- The bytes of a frame with VERSION, KSEL, FRESH and TAG. -/
def dplFill (d : Dev) (ver id dlc : Nat) (f : List Nat) : List Nat :=
  let key := d.get R.DPL_CFG_TXKEY
  let body := [ver, key] ++ Crypto.beBytes 4 (d.get R.DPL_TXFRESH_CNT) ++ (f.take (f.length - 8)).drop 6
  body ++ d.dplTag key id dlc body

/-- STATE of a heartbeat (R478). -/
def beatState (d : Dev) : Nat :=
  d.get R.LANE_STATUS_SIMPLEX + 2 * d.get R.SYSCTL_MODE_DEGRADED + 4 * d.get R.CFG_STATUS_SPLIT + 8 * b2n d.faultN

/-- The heartbeat as it first enters arbitration (R478, R483). -/
def beatFrame (d : Dev) : CanFrame :=
  let v3 := d.groupVersion == 3
  let body := Crypto.beBytes 8 d.coloActive.toNat ++ [d.mode, d.beatState, d.get R.DPL_VER_VMIN, d.get R.DPL_VER_VMAX] ++
    Crypto.beBytes 4 d.time.sec ++ Crypto.beBytes 2 (d.get R.DPL_HB_PERIOD)
  let tail := if v3 then
      Crypto.beBytes 4 (d.get R.CFG_COLO0_HI) ++ Crypto.beBytes 4 (d.get R.CFG_COLO0_LO) ++
        Crypto.beBytes 4 d.deviceId.toNat ++ [0, 0, 0, 0]
    else []
  let dlc := if v3 then 14 else 13
  let id := 8 * 2 ^ 24 + d.get R.DPL_NODE_ID * 2 ^ 16 + 0xFFD5
  let bytes := d.dplFill (if v3 then 3 else d.groupVersion) id dlc
    (List.replicate 6 0 ++ body ++ tail ++ List.replicate 8 0)
  { xtd := true, rtr := false, esi := false, fdf := true, brs := d.isSet (R.CAN_CTRL_BRS_EN (d.get R.DPL_CFG_BUS)),
    id := id, dlc := Fin.ofNat 16 dlc, data := bytes.map fun b => BitVec.ofNat 8 b }

/-- A heartbeat falls due; one that is still pending is replaced, at the end of its attempt where it is on the wire
(R483). -/
def beatDue (d : Dev) : Dev :=
  if !d.isSet R.DPL_CFG_EN then d
  else
    let n := d.get R.DPL_CFG_BUS
    match d.dpl.hb with
    | none => { d with dpl := { d.dpl with hb := some none } }
    | some _ =>
      let d := d.incSat R.DPL_HB_REPL
      match (d.can n).tx with
      | some x =>
        if x.slot = 32 then
          { d.setCan n { d.can n with tx := some { x with abort := true } } with dpl := { d.dpl with hbNext := true } }
        else { d with dpl := { d.dpl with hb := some none } }
      | none => { d with dpl := { d.dpl with hb := some none } }

/-- A write of DPL.CFG.EN = 1: the first heartbeat falls due (R483). -/
def dplEnable (d : Dev) : Dev :=
  if d.isSet R.DPL_CFG_EN then d
  else
    (({ d with dpl := { d.dpl with hb := none, hbNext := false } }).set R.DPL_CFG_EN 1).dplSync.beatDue

/-- A write of DPL.CFG.EN = 0. -/
def dplDisable (d : Dev) : Dev := { d with dpl := { d.dpl with hb := none, hbNext := false } }.set R.DPL_CFG_EN 0

/-- A write of a key word (R476, R490). -/
def keyWrite (d : Dev) (j i : Nat) (v : Word) : Dev :=
  if d.get R.DPL_CFG_TXKEY = j then d.note R.DPL_STATUS_WERR
  else
    let ks := if d.dpl.keys.contains (4 * j + i) then d.dpl.keys else d.dpl.keys ++ [4 * j + i]
    let d := { d with dpl := { d.dpl with keys := ks } }.set (R.DPL_KEY_W_KEY j i) v.toNat
    if (List.range 4).all fun w => ks.contains (4 * j + w) then d.setBit (fun _ => R.DPL_KEYSTAT_VALID) j true else d

/-- The heartbeat's identifier, for arbitration. -/
def beatRank (d : Dev) : Nat := 8 * 2 ^ 24 + d.get R.DPL_NODE_ID * 2 ^ 16 + 0xFFD5

end Dev

/-- The heartbeat takes part in a controller's arbitration; it is an FD frame (R469, R483, R488). -/
def Dev.beatWaits (d : Dev) (n : Nat) : Bool :=
  d.isSet R.DPL_CFG_EN && d.get R.DPL_CFG_BUS == n && d.dpl.hb.isSome && d.isSet (R.CAN_CTRL_FD_EN n)

/-- The pending slot with the lowest identifier, the lower slot on a tie; 32 is the heartbeat (R469). -/
def State.nextSlot (s : State) (n : Nat) : Option Nat :=
  let d := s.d
  let own := ((List.range 32).filter fun b => (d.get (R.CAN_OUT_WAIT_SLOTS n)).testBit b).map fun b =>
    (frameRank (s.outFrame n b), b)
  let beat := if d.beatWaits n then [(d.beatRank, 32)] else []
  ((own ++ beat).foldl (fun (best : Option (Nat × Nat)) x =>
    match best with
    | some b => if x.1 < b.1 then some x else best
    | none => some x) none).map (·.2)

/-- A slot enters arbitration with a frame. -/
def Dev.txEnter (d : Dev) (n b : Nat) (f : CanFrame) : Dev :=
  d.setCan n { d.can n with tx := some ⟨b, false, d.shortTime, f⟩ }

/-- The first entry of a DPL element into arbitration: filled, or refused (R481, R482). -/
def State.dplPrepare (s : State) (n b : Nat) : State :=
  let d := s.d
  let a := d.outAddr n b
  let f := s.outFrame n b
  let dest := bits (Mem.word s.mem (a + 8)).toNat 8 8
  match d.sendAs n dest f with
  | none => { s with d := ((d.outEnd n b false).incSat R.DPL_CNT2_TXREF).raise islCAN 155 b }
  | some v =>
    let id := dplType f.id * 2 ^ 24 + d.get R.DPL_NODE_ID * 2 ^ 16 + dplDst f.id * 2 ^ 8 + 0xD5
    let bytes := d.dplFill v id f.dlc.val (f.data.map fun x => x.toNat)
    let f' : CanFrame := { f with id := id, data := bytes.map fun x => BitVec.ofNat 8 x }
    let d := d.incWrap R.DPL_TXFRESH_CNT
    let d := d.setCan n { d.can n with prepared := (d.can n).prepared ++ [b] }
    { s with mem := Mem.wrBytes (Mem.wrWord s.mem a (word (frameW0 f'))) (a + 12) bytes, d := d.txEnter n b f' }

/-- The next attempt of a controller (R469). -/
def State.arbitrate (s : State) (n : Nat) : State :=
  let d := s.d
  if !d.canOn n || d.get (R.CAN_CTRL_MODE n) == 1 || (d.can n).tx.isSome then s
  else
    match s.nextSlot n with
    | none => s
    | some b =>
      if b = 32 then
        match d.dpl.hb with
        | some (some f) => { s with d := d.txEnter n 32 f }
        | _ =>
          let f := d.beatFrame
          let d := { d with dpl := { d.dpl with hb := some (some f) } }.incWrap R.DPL_TXFRESH_CNT
          { s with d := d.txEnter n 32 f }
      else if (Mem.word s.mem (d.outAddr n b + 8)).toNat.testBit 0 && !(d.can n).prepared.contains b then s.dplPrepare n b
      else { s with d := d.txEnter n b (s.outFrame n b) }

/-- The attempt of a slot has succeeded (R470, R477); in internal loopback the controller receives its frame (R488). -/
def State.txSuccess (s : State) (n : Nat) (x : CanTx) : State :=
  let s := s.onDev fun d => ((d.setCan n { d.can n with tx := none }).canErr n (d.tec n - 1) (d.rec' n)).ackHeard n
  let s := if s.d.get (R.CAN_CTRL_MODE n) = 2 then s.canDeliver n x.frame x.sof else s
  if x.slot = 32 then s.onDev Dev.beatEnd
  else
    let s := s.receipt n x.slot x.sof
    let own := (s.d.can n).prepared.contains x.slot && dplType x.frame.id == 2 && s.d.isSet R.DPL_CFG_ARM_SELF
    let s := s.onDev fun d => d.outEnd n x.slot true
    let f := x.frame.data.map fun b => b.toNat
    if own then s.dplArm (beAt f 6 2) (s.d.time.sec / 2 ^ 32 * 2 ^ 32 + beAt f 8 4) (beAt f 12 4) else s

/-- The end of an attempt (R470 to R472; counters after ISO 11898-1). -/
def State.txEnd (s : State) (n : Nat) (x : CanTx) (res : TxEnd) : State :=
  match res with
  | .success => s.txSuccess n x
  | .lostArb => s.onDev fun d => d.txFail n x
  | .ackErr dom eights => s.onDev fun d =>
    let first := if d.isSet (R.CAN_STATUS_PASSIVE n) && !dom then 0 else 1
    (((d.txFail n x).set (R.CAN_STATUS_LASTERR n) 1).ackMissed n).canErr n (Dev.tecUp (d.tec n) (first + eights)) (d.rec' n)
  | .err code exempt eights => s.onDev fun d =>
    ((d.txFail n x).set (R.CAN_STATUS_LASTERR n) code.val).canErr n
      (Dev.tecUp (d.tec n) ((if exempt then 0 else 1) + eights)) (d.rec' n)

/-! ### Commands -/

/-- CAN_FRAME_RECEIVED: a controller receives a frame without error, with the short time of its SOF (R465, R467,
R479). -/
def execCanFrameReceived (bus : Fin 4) (f : RxFrame) (s : State) : Host.Outcome State Fault Refusal :=
  .next (s.canReceive bus.val f.frame f.sof)

/-- DPL_FRAME_RECEIVED: the DPL controller receives a frame (R479). -/
def execDplFrameReceived (f : RxFrame) (s : State) : Host.Outcome State Fault Refusal :=
  .next (s.canReceive (s.d.get R.DPL_CFG_BUS) f.frame f.sof)

/-- CAN_ARBITRATION_ENTRY (R469, R481). -/
def execCanArbitrationEntry (bus : Fin 4) (s : State) : Host.Outcome State Fault Refusal := .next (s.arbitrate bus.val)

/-- CAN_TX_ATTEMPT_END (R470 to R473). -/
def execCanTxAttemptEnd (bus : Fin 4) (res : TxEnd) (s : State) : Host.Outcome State Fault Refusal :=
  .next <|
    match (s.d.can bus.val).tx with
    | some x => s.txEnd bus.val x res
    | none => s

/-- DPL_ENABLE: a write of DPL.CFG.EN = 1 (R483). -/
def execDplEnable (s : State) : Host.Outcome State Fault Refusal := .next (s.onDev Dev.dplEnable)

/-- DPL_HEARTBEAT_DUE: HB.PERIOD has passed, or MODE.CUR has changed (R483). -/
def execDplHeartbeatDue (s : State) : Host.Outcome State Fault Refusal := .next (s.onDev Dev.beatDue)

/-- DPL_PEER_TIMEOUT: PEER_TO periods without an accepted heartbeat (R485). -/
def execDplPeerTimeout (k : Fin 32) (s : State) : Host.Outcome State Fault Refusal :=
  .next <| s.onDev fun d =>
    if d.peerState k.val = 1 then
      ((d.set (R.DPL_PEER_STAT_STATE k.val) 2).raise islCAN 150 (d.get (R.DPL_PEER_CTRL_NODE k.val) + k.val * 2 ^ 8)).dplSync
    else d

/-- DPL_TOKEN_REFILL: every 100 ms each bucket gains RATE tokens, up to BURST (R479). -/
def execDplTokenRefill (s : State) : Host.Outcome State Fault Refusal :=
  .next <| s.onDev fun d => (List.range 32).foldl (fun d k =>
    if d.peerState k = 0 then d
    else
      let p := d.peer k
      d.setPeer k { p with
        tokens := min (d.get (R.DPL_PEER_CTRL_BURST k)) (p.tokens + d.get (R.DPL_PEER_CTRL_RATE k)) }) d

/-- DPL_PEER_FREE: a write of PEERk_CTRL.FREE (R485). -/
def execDplPeerFree (k : Fin 32) (s : State) : Host.Outcome State Fault Refusal :=
  .next <| s.onDev fun d => d.freePeer k.val

/-- DPL_KEY_WRITE (R476). -/
def execDplKeyWrite (key : Fin 2) (i : Fin 4) (value : Word) (s : State) : Host.Outcome State Fault Refusal :=
  .next <| s.onDev fun d => d.keyWrite key.val i.val value

end Sys2Proof.Machine
end

