-- ==== Sys2Proof/Machine/PatternLoad.lean ====
section
/-! DEFINITION. Loading a Pattern (chapters 02 and 03): the boot directory, the checks of R84 in their order, the
application of the sections, and the firmware signature. An image is a list of bytes. -/

namespace Sys2Proof.Machine

/-- Why a Pattern is refused: the code of CFG.STATUS.ERR, and the number of the section in which the error lies, if it lies
in a single one (R84, R547). -/
structure LoadErr where
  err : Nat
  sec : Option Nat
deriving DecidableEq, Repr

/-- A section of an image: its number, its header's TYPE and INDEX, the offset of its header, and its payload (R68, R70). -/
structure Section where
  num : Nat
  type : Nat
  index : Nat
  off : Nat
  body : List Nat
deriving DecidableEq, Repr

/-- A little-endian number of `n` bytes at an offset. -/
def leAt (l : List Nat) (off n : Nat) : Nat := ((l.drop off).take n).foldr (fun x r => x + 256 * r) 0

/-- Whole records of `k` bytes. -/
def records (k : Nat) (l : List Nat) : List (List Nat) := Crypto.chunks k (l.length / k + 1) l

def allZero (l : List Nat) : Bool := l.all (· == 0)

def hasDup : List Nat → Bool
  | [] => false
  | x :: t => t.contains x || hasDup t

/-- An image length that R68 allows; a header takes 64 bytes. -/
def lengthOk (n : Nat) : Bool := decide (64 ≤ n) && decide (n ≤ 262144) && n % 8 == 0

/-! ### Checks 5 to 7 -/

/-- The sections of the bytes after the header (check 5): each inside the image, its padding zero. -/
def sectionsOf : Nat → List Nat → Nat → Nat → Except LoadErr (List Section)
  | 0, _, _, _ => .ok []
  | k + 1, l, num, off =>
    if l.isEmpty then .ok []
    else
      let len := leAt l 4 4
      let padded := (len + 7) / 8 * 8
      let body := l.drop 8
      if l.length < 8 ∨ body.length < padded ∨ !allZero ((body.take padded).drop len) then .error ⟨5, some num⟩
      else
        match sectionsOf k (body.drop padded) (num + 1) (off + 8 + padded) with
        | .ok t => .ok (⟨num, leAt l 0 2, leAt l 2 2, off, body.take len⟩ :: t)
        | .error e => .error e

/-- TYPE, highest INDEX and the least number of sections of each type (R70). -/
def sectionTypes : List (Nat × Nat × Nat) := [
  (1, 0, 1), (2, 1023, 1), (3, 255, 0), (4, 15, 1), (5, 3, 4), (6, 0, 1), (7, 0, 1), (8, 0, 1), (9, 0, 1), (10, 0, 0),
  (11, 15, 16), (0xFF, 0, 1)]

/-- Check 6: known types, in strictly ascending order of (TYPE, INDEX). -/
def orderErr : Option Nat → List Section → Option LoadErr
  | _, [] => none
  | prev, s :: t =>
    let key := s.type * 65536 + s.index
    let ascends := match prev with
      | some p => decide (p < key)
      | none => true
    if sectionTypes.any (fun r => r.1 == s.type) && ascends then orderErr (some key) t else some ⟨6, some s.num⟩

/-- Check 7: INDEX ranges, then missing sections; no type occurs too often where check 6 and the ranges hold. -/
def countErr (secs : List Section) : Option LoadErr :=
  match secs.find? fun s => !sectionTypes.any fun r => r.1 == s.type && decide (s.index ≤ r.2.1) with
  | some s => some ⟨7, some s.num⟩
  | none =>
    if sectionTypes.any fun r => decide ((secs.filter fun s => s.type == r.1).length < r.2.2) then some ⟨7, none⟩ else none

/-! ### Check 8 -/

/-- The payload of a section, empty where the image has none. -/
def bodyOf (secs : List Section) (type index : Nat) : List Nat :=
  match secs.find? fun s => s.type == type && s.index == index with
  | some s => s.body
  | none => []

def byteAt (l : List Nat) (i : Nat) : Nat := l.getD i 0

/-- Highest TRIG_UNIT of a TRIG_KIND (R74). -/
def unitsOf (kind : Nat) : Nat := [3, 23, 47, 7].getD kind 0

/-- Records of an ADC_MAP payload (R75). -/
def adcRecords (l : List Nat) : List AdcChan := (records 4 ((l.drop 8).take (4 * byteAt l 3))).map fun r => ⟨byteAt r 0, byteAt r 1, leAt r 2 2⟩

def adcSeq (l : List Nat) : List Nat := l.drop (8 + 4 * byteAt l 3)

def routeOf (r : List Nat) : Route := ⟨byteAt r 0, byteAt r 1, byteAt r 2, byteAt r 3, byteAt r 4, byteAt r 5⟩

/-- One record of WEAVE_ROUTE (R71, R123, R184). -/
def routeOk (secs : List Section) (r : List Nat) : Bool :=
  let t := routeOf r
  let src := match t.kind with
    | 1 => decide (t.srcUnit ≤ 3) && adcReaches t.srcUnit t.srcItem &&
        !(adcRecords (bodyOf secs 5 t.srcUnit)).any fun c => c.ain == t.srcItem && c.cls == 1
    | 2 => decide (t.srcUnit ≤ 23) && t.srcItem == 0
    | 3 | 0x10 | 0x11 | 0x12 => decide (t.srcUnit ≤ 31) && decide (t.srcItem ≤ 7)
    | _ => false
  let dst := match t.kind with
    | 0x10 => decide (t.dstUnit ≤ 47) && byteAt (bodyOf secs 7 0) (8 * t.dstUnit) == 1
    | 0x11 => decide (t.dstUnit ≤ 1)
    | _ => t.dstUnit == 0
  let port := if t.kind ≤ 3 then decide (t.dstStake ≤ 31) && decide (t.dstPort ≤ 7) else t.dstStake == 0 && t.dstPort == 0
  src && dst && port && allZero (r.drop 6)

/-- WEAVE_ROUTE: its records, and one route an input port, an output port and a target (R123). -/
def routesOk (secs : List Section) (l : List Nat) : Bool :=
  let rs := (records 8 l).map routeOf
  l.length % 8 == 0 && (records 8 l).all (routeOk secs) &&
    !hasDup ((rs.filter fun t => t.kind ≤ 3).map fun t => t.dstStake * 8 + t.dstPort) &&
    !hasDup ((rs.filter fun t => 3 ≤ t.kind).map fun t => t.srcUnit * 8 + t.srcItem) &&
    !hasDup ((rs.filter fun t => 0x10 ≤ t.kind).map fun t => t.kind * 64 + t.dstUnit)

def strandOps (l : List Nat) : List (BitVec 64) := (records 8 (l.drop 8)).map fun r => BitVec.ofNat 64 (leAt r 0 8)

/-- STRAND (R72, R148), with the operations of its Stake up to this section. -/
def strandOk (secs : List Section) (s : Section) : Bool :=
  let l := s.body
  let mine := secs.filter fun t => t.type == 2 && byteAt t.body 0 == byteAt l 0 && decide (t.num ≤ s.num)
  decide (byteAt l 0 ≤ 31) && allZero ((l.drop 1).take 3) && decide (8 ≤ l.length) && l.length == 8 + 8 * leAt l 4 4 &&
    (strandOps l).all (fun w => (opWord w).ok) && decide ((mine.map fun t => leAt t.body 4 4).sum ≤ 2048)

/-- Blocks of a SLOT_INIT payload: offset, FLAGS, words (R73). -/
def slotBlocks : Nat → List Nat → List (Nat × Nat × List Word)
  | 0, _ => []
  | k + 1, l =>
    if l.isEmpty then []
    else
      let n := leAt l 4 2
      (leAt l 0 4, leAt l 6 2, (records 4 ((l.drop 8).take (4 * n))).map fun r => word (leAt r 0 4)) ::
        slotBlocks k (l.drop (8 + 4 * n))

/-- Every block of a SLOT_INIT payload is whole and inside the lane memory, clear of the profile window (R73). -/
def slotsOk (prof : Nat) : Nat → List Nat → Bool
  | 0, _ => true
  | k + 1, l =>
    let off := leAt l 0 4
    let n := leAt l 4 2
    decide (8 + 4 * n ≤ l.length) && off % 4 == 0 && decide (1 ≤ n) && decide (n ≤ 16384) && decide (leAt l 6 2 ≤ 1) &&
      decide (off + 4 * n ≤ 0x100000) && (decide (off + 4 * n ≤ prof) || decide (prof + 0x100 ≤ off)) &&
      ((l.drop (8 + 4 * n)).isEmpty || slotsOk prof k (l.drop (8 + 4 * n)))

/-- LOOPSET, and the Strands that it names (R74). -/
def loopsetOk (secs : List Section) (l : List Nat) : Bool :=
  let first := leAt l 10 2
  let count := leAt l 12 2
  l.length == 16 && decide (byteAt l 0 ≤ 3) && decide (byteAt l 1 ≤ unitsOf (byteAt l 0)) && decide (byteAt l 2 ≤ 15) && decide (byteAt l 3 ≤ 1) &&
    allZero (l.drop 14) && decide (1 ≤ count) && decide (count ≤ 1024) &&
    (List.range (min count 1024)).all fun i => secs.any fun s => s.type == 2 && s.index == first + i

/-- ADC_MAP of converter `c`, beside its partner's (R75, R169, R184). -/
def adcMapOk (secs : List Section) (c : Nat) (l : List Nat) : Bool :=
  let rs := adcRecords l
  let other := adcRecords (bodyOf secs 5 (partner c))
  decide (1 ≤ byteAt l 0) && decide (byteAt l 0 ≤ 32) && decide (byteAt l 1 ≤ 3) && decide (byteAt l 2 ≤ unitsOf (byteAt l 1)) && decide (byteAt l 3 ≤ 40) &&
    decide (8 ≤ l.length) && allZero ((l.drop 4).take 4) && l.length == 8 + 4 * byteAt l 3 + byteAt l 0 &&
    (adcSeq l).all (adcReaches c) &&
    rs.all (fun r => adcReaches c r.ain && decide (r.cls ≤ 3) && (decide (2 ≤ r.cls) || r.window == 0) &&
      (r.cls != 3 || r.ain == (if c < 2 then 38 else 39)) &&
      (r.cls == 0 || other.any fun o => o.ain == r.ain && o.cls == r.cls && o.window == r.window)) &&
    decide ((rs.filter fun r => r.cls == 1).length ≤ 4) && decide ((rs.filter fun r => r.cls == 2).length ≤ 4)

/-- SDF_MAP (R76, R212, R220). -/
def sdfMapOk (l : List Nat) : Bool :=
  l.length == 120 &&
    (records 4 (l.take 24)).all (fun r => [0, 50, 100, 125, 200, 250].contains (leAt r 0 2) && allZero (r.drop 2)) &&
    (records 4 (l.drop 24)).all fun r => decide (byteAt r 0 < 8) && decide (byteAt r 1 ≤ 5) && decide (byteAt r 2 ≤ 3) && decide (byteAt r 3 ≤ 64)

/-- PWM_MAP (R77). -/
def pwmMapOk (l : List Nat) : Bool :=
  l.length == 384 && (records 8 l).all fun r =>
    decide (byteAt r 0 ≤ 2) && decide (byteAt r 1 ≤ 15) && decide (byteAt r 2 ≤ 3) && decide (byteAt r 3 ≤ 1) && decide (leAt r 4 2 ≤ 4095) &&
      decide (4 ≤ byteAt r 6) && decide (byteAt r 6 ≤ 64) && decide (byteAt r 7 ≤ 3)

/-- FAULT_TABLE (R77, R349). -/
def faultsOk (l : List Nat) : Bool :=
  l.length == 1536 && (records 8 l).all fun r =>
    decide (byteAt r 0 < 32) && decide (1 ≤ byteAt r 1) && decide (byteAt r 2 ≤ 240) && byteAt r 3 == 0 && decide (1 ≤ leAt r 4 2) &&
      decide (leAt r 4 2 ≤ 1000) && allZero (r.drop 6)

/-- PIN_MUX (R78, and the pad functions of the chapter on balls). -/
def pinMuxOk (l : List Nat) : Bool :=
  l.length % 4 == 0 && (records 4 l).all fun r =>
    let pad := leAt r 0 2
    decide (pad ≤ 59) && (byteAt r 2 == 0 || (byteAt r 2 == 1 && !(decide (24 ≤ pad) && decide (pad ≤ 31)))) &&
      byteAt r 3 % 4 != 3 && decide (byteAt r 3 < 16)

/-- MIRROR_LIST (R79). -/
def mirrorOk (l : List Nat) : Bool :=
  l.length % 8 == 0 && (records 8 l).all (fun r =>
    leAt r 0 4 % 4 == 0 && leAt r 4 2 % 4 == 0 && decide (byteAt r 6 ≤ 15) && byteAt r 7 == 0 &&
      decide (leAt r 0 4 + leAt r 4 2 ≤ 0x100000)) &&
    (List.range 16).all fun ls =>
      decide ((((records 8 l).filter fun r => byteAt r 6 == ls).map fun r => leAt r 4 2).sum ≤ 4096)

/-- An FP32 word is a number, not below `lo` and not above `hi`, both positive FP32 words (or `lo` 0). -/
def fpIn (w lo hi : Nat) : Bool := (w == 0x80000000 && lo == 0) || (decide (lo ≤ w) && decide (w ≤ hi))

def fpFinite (w : Nat) : Bool := bits w 23 8 != 255

/-- Times of a ride-through list before the first 0xFFFF (R80, R306). -/
def timesOk : List Nat → Bool
  | x :: y :: t => decide (x ≤ y) && (match t with
      | z :: _ => !(x == y && y == z)
      | [] => true) && timesOk (y :: t)
  | _ => true

/-- PROFILE; the bounds of FP32 fields are the FP32 values nearest to the decimal bounds of the table (R80). -/
def profileOk (l : List Nat) : Bool :=
  let times (o : Nat) := ((records 4 ((l.drop o).take 64)).map fun r => leAt r 0 2).takeWhile (· != 0xFFFF)
  l.length == 224 && [0x42480000, 0x42700000].contains (leAt l 8 4) &&
    (records 2 ((l.drop 0x10).take 16)).all (fun r => decide (leAt r 0 2 ≤ 0x8000)) &&
    fpIn (leAt l 0x20 4) 0x3F8CCCCD 0x40000000 && decide (leAt l 0x24 4 ≤ 300000) &&
    fpIn (leAt l 0x28 4) 0 0x40000000 && fpIn (leAt l 0x2C 4) 0 0x3D4CCCCD &&
    decide (10 ≤ leAt l 0x34 4) && decide (leAt l 0x34 4 ≤ 5000) &&
    fpIn (leAt l 0xC0 4) 0 0x3DCCCCCD && fpIn (leAt l 0xC4 4) 0 0x3DCCCCCD && fpIn (leAt l 0xC8 4) 0x3DCCCCCD 0x41A00000 &&
    [0x00, 0x04, 0x0C, 0xCC].all (fun o => fpFinite (leAt l o 4)) && allZero (l.drop 0xD0) &&
    timesOk (times 0x40) && timesOk (times 0x80)

/-- Check 8 of one section. A SIGNATURE payload of another length, or with reserved bytes that are not zero, fails here
too (DESIGN CHOICE, log entry 150). -/
def sectionOk (secs : List Section) (prof : Nat) (s : Section) : Bool :=
  match s.type with
  | 1 => routesOk secs s.body
  | 2 => strandOk secs s
  | 3 => slotsOk prof (s.body.length / 8 + 1) s.body
  | 4 => loopsetOk secs s.body
  | 5 => adcMapOk secs s.index s.body
  | 6 => sdfMapOk s.body
  | 7 => pwmMapOk s.body
  | 8 => faultsOk s.body
  | 9 => pinMuxOk s.body
  | 10 => mirrorOk s.body
  | 11 => profileOk s.body
  | _ => s.body.length == 136 && allZero ((s.body.drop 1).take 7)

/-! ### Signatures and the load Colophon -/

/-- Qx and Qy of a SIGNATURE payload (R82). -/
def pubKey (sig : List Nat) : Nat × Nat := (beAt sig 8 32, beAt sig 40 32)

/-- A signature, r then s, of a message under a public key (R60, R82). -/
def signed' (key : Nat × Nat) (sig msg : List Nat) : Bool :=
  Crypto.ecdsaVerify key.1 key.2 (beAt sig 0 32) (beAt sig 32 32) (Crypto.sha256 msg)

/-- C0 of the bytes before the SIGNATURE section header (R97). -/
def loadColophon (bytes : List Nat) : BitVec 64 := Crypto.h64 (bytes.take 16 ++ List.replicate 8 0 ++ bytes.drop 24)

namespace Dev

/-- Check 9: the OTP key slot holds the hash of the key and is not revoked (R82); a KEY_SLOT above 3 names no slot and
fails here (DESIGN CHOICE, log entry 150). -/
def keyOk (d : Dev) (sig : List Nat) : Bool :=
  match Sparse.at' none d.otp.keys (byteAt sig 0) with
  | some k => decide (byteAt sig 0 ≤ 3) && !k.revoked && k.hash == Crypto.sha256 ((sig.drop 8).take 64)
  | none => false

/-- Checks 1 to 4 of the header (R69, R84). -/
def headerErr (img : List Nat) (len : Nat) : Option LoadErr :=
  if img.take 4 ≠ [0x44, 0x52, 0x53, 0x50] then some ⟨1, none⟩
  else if leAt img 4 2 ≠ 1 ∨ leAt img 6 2 ≠ 64 ∨ leAt img 0xE 2 ≠ 0 ∨ byteAt img 0x1B ≠ 0 then some ⟨2, none⟩
  else if !lengthOk (leAt img 8 4) ∨ leAt img 8 4 ≠ len then some ⟨3, none⟩
  else if leAt img 0x18 2 ≠ 0x9640 ∨ stepCode < byteAt img 0x1A then some ⟨4, none⟩
  else none

/-- Checks 5 to 11 of the sections. A SECTIONS value above 1024 counts as a mismatch of check 5 (DESIGN CHOICE, log
entry 150). -/
def sectionsErr (d : Dev) (img : List Nat) (secs : List Section) : Option LoadErr :=
  if secs.length ≠ leAt img 0xC 2 ∨ 1024 < secs.length then some ⟨5, none⟩
  else
    let prof := leAt img 0x1C 4
    let sig := bodyOf secs 0xFF 0
    let last := secs.length - 1
    let cut := match secs.getLast? with
      | some s => img.take s.off
      | none => []
    (orderErr none secs) <|> (countErr secs) <|>
      (if prof % 256 ≠ 0 ∨ prof < 0x20000 ∨ 0xFFF00 < prof then some ⟨8, none⟩ else none) <|>
      ((secs.find? fun s => !sectionOk secs prof s).map fun s => ⟨8, some s.num⟩) <|>
      (if d.keyOk sig then none else some ⟨9, some last⟩) <|>
      (if signed' (pubKey sig) (sig.drop 72) cut then none else some ⟨10, some last⟩) <|>
      (if loadColophon cut = BitVec.ofNat 64 (beAt img 0x10 8) then none else some ⟨11, none⟩)

/-- Checks 1 to 11 of an image for which the directory or the host gives a length: its sections, or the first failure. -/
def checkImage (d : Dev) (img : List Nat) (len : Nat) : Except LoadErr (List Section) :=
  match headerErr img len with
  | some e => .error e
  | none =>
    match sectionsOf (len / 8) (img.drop 64) 0 64 with
    | .error e => .error e
    | .ok secs =>
      match d.sectionsErr img secs with
      | some e => .error e
      | none => .ok secs

/-! ### Application (R73 to R81, R85) -/

/-- A field takes its Pattern value: it reads so and, where it is Staged, acts so (R90). -/
def loadFld (d : Dev) (f : Fld) (v : Nat) : Dev :=
  let d := d.set f v
  let d := if stagedMask f.addr = 0 then d else d.wrAct f.addr (setBits (d.actw f.addr) f.lo f.w v)
  { d with cfg := { d.cfg with
    pend := d.cfg.pend.filter fun p => p.1 != f.addr
    fresh := d.cfg.fresh.filter fun p => p.1 != f.addr
    taken := d.cfg.taken.filter fun p => p.1 != f.addr } }

/-- A LOOPSET payload (R74) as the lanes hold it and LS_CFG and LS_PERIOD show it (R145). -/
def loadLoopset (d : Dev) (ls : Nat) (l : List Nat) : Dev :=
  let x : LoopSet := ⟨ls, byteAt l 0, byteAt l 1, byteAt l 2, byteAt l 3 % 2 == 1, leAt l 4 4, leAt l 10 2, leAt l 12 2⟩
  let d := { d with pat := { d.pat with loopsets := d.pat.loopsets ++ [x] } }
  [0, 1].foldl (fun d n =>
    (d.wrw (R.WV_LS_CFG_KIND n ls).addr
      (word (x.kind + x.unit * 2 ^ 8 + x.prio * 2 ^ 16 + b2n x.run * 2 ^ 20 + 2 ^ 21))).wrw
      (R.WV_LS_PERIOD_NS n ls).addr (word x.period)) d

def loadAdc (d : Dev) (c : Nat) (l : List Nat) : Dev :=
  let m : AdcMap := ⟨adcSeq l, byteAt l 1, byteAt l 2, adcRecords l⟩
  ({ d with pat := { d.pat with adc := Sparse.put {} d.pat.adc c m } }.set (R.ADC_CTRL_EN c) 1).adcSync c

def loadSdf (d : Dev) (l : List Nat) : Dev :=
  let d := (List.range 6).foldl (fun d k => d.loadFld (R.SDF_CLK_FREQ k) (leAt l (4 * k) 2)) d
  let d := (List.range 24).foldl (fun d n =>
    let r := l.drop (24 + 4 * n)
    let d := (d.loadFld (R.SDF_CH_CFG_EN n) (byteAt r 0)).loadFld (R.SDF_CH_CFG_EDGE n) (byteAt r 0 / 2)
    let d := (d.loadFld (R.SDF_CH_CFG_SDC n) (byteAt r 1)).loadFld (R.SDF_CH_FILT_DCB_EN n) (byteAt r 0 / 4)
    (d.loadFld (R.SDF_CH_FILT_PRESET n) (byteAt r 2)).loadFld (R.SDF_CH_FILT_CORNER n) (byteAt r 3)) d
  d.sdfEnable true

def loadPwm (d : Dev) (l : List Nat) : Dev :=
  let d := (List.range 48).foldl (fun d n =>
    let r := l.drop (8 * n)
    d.wrw (R.PWM_LEG_MAP_OWNER n).addr (word (byteAt r 0 + byteAt r 1 * 2 ^ 2 + byteAt r 2 * 2 ^ 6 + byteAt r 3 * 2 ^ 8 +
      byteAt r 7 % 2 * 2 ^ 9 + byteAt r 7 / 2 * 2 ^ 10 + byteAt r 6 * 2 ^ 11 + leAt r 4 2 * 2 ^ 18))) d
  d.pwmEnable.set R.GSUP_CTRL_EN 1

/-- A FAULT_TABLE record; a fixed source keeps ENABLE, Severe and SAFE, and a record that differs is noted (R78, R350). -/
def loadFault (d : Dev) (src : Nat) (r : List Nat) : Dev :=
  let b0 := if isFixed src then 0x1F else byteAt r 0
  let d := if b0 = byteAt r 0 then d else d.set R.CFG_STATUS_FIXED_OVR 1
  let d := (d.loadFld (R.ACC_SRC_CFG_EN src) b0).loadFld (R.ACC_SRC_CFG_CLASS src) (b0 / 2)
  let d := (d.loadFld (R.ACC_SRC_CFG_REACTION src) (b0 / 8)).loadFld (R.ACC_SRC_CFG_N src) (byteAt r 1)
  (d.loadFld (R.ACC_SRC_CFG_GRACE src) (leAt r 4 2)).loadFld (R.ACC_SRC_WIN_W src) (byteAt r 2)

/-- ISO watches the first converter that has a sealed channel, on its Tally T0 (DEDUCED, log entry 43). -/
def loadIso (d : Dev) : Dev :=
  let d := match [0, 1, 2, 3].find? fun c => (d.adcMap c).chans.any fun r => r.cls == 1 with
    | some c => (d.loadFld R.ISO_CFG_VCONV c).loadFld R.ISO_CFG_VTJ 0
    | none => d
  (d.set R.ISO_CTRL_EN 1).set R.LANE_CTRL_CMP_EN 1

/-- A section is applied to its block; SLOT_INIT enters its coefficient regions here. -/
def loadSection (d : Dev) (s : Section) : Dev :=
  let l := s.body
  match s.type with
  | 1 => { d with pat := { d.pat with routes := (records 8 l).map routeOf } }
  | 2 => { d with pat := { d.pat with strands := d.pat.strands ++ [⟨s.index, byteAt l 0, strandOps l⟩] } }
  | 3 =>
    let bs := (slotBlocks (l.length / 8 + 1) l).filter fun x => x.2.1 == 1
    let act := bs.foldl (fun a x =>
      (List.range x.2.2.length).foldl (fun a i => Sparse.put 0 a (x.1 + 4 * i) (x.2.2.getD i 0)) a) d.cfg.coefAct
    let inits := (slotBlocks (l.length / 8 + 1) l).map fun x => (x.1, x.2.2.length)
    { d with
      pat := { d.pat with coefs := d.pat.coefs ++ bs.map (fun x => (x.1, x.2.2.length)), inits := d.pat.inits ++ inits }
      cfg := { d.cfg with coefAct := act } }
  | 4 => d.loadLoopset s.index l
  | 5 => d.loadAdc s.index l
  | 6 => d.loadSdf l
  | 7 => d.loadPwm l
  | 8 => (List.range 192).foldl (fun d n => d.loadFault n (l.drop (8 * n))) d
  | 9 => { d with pat := { d.pat with pads := (records 4 l).map fun r => ⟨leAt r 0 2, byteAt r 2, byteAt r 3⟩ } }
  | 10 => { d with pat := { d.pat with mirror := (records 8 l).map fun r => ⟨leAt r 0 4, leAt r 4 2, byteAt r 6⟩ } }
  | _ => d

/-- The accumulators take every change that is still on its way to them (R13). -/
def drainColophon (d : Dev) : Dev :=
  let mine := fun (e : HEntry) => e.ch == 0x13 || e.ch == 0x1B
  (d.hoop.filter mine).foldl (fun d e => match e.w with
    | .colophon delta => d.takeColophon (b2n (e.ch == 0x1B)) delta
    | _ => d) { d with hoop := d.hoop.filter fun e => !mine e }

/-- The accumulators have taken what earlier changes sent them (R13, log entry 57); then the three Colophons start at C0,
and CFG shows the load (R98, R102, R103). -/
def loadDone (d : Dev) (c0 : BitVec 64) (slot : Nat) : Dev :=
  let d := d.drainColophon
  let d := (List.range 3).foldl (fun d k =>
    (d.wrw (coloLo k) (word c0.toNat)).wrw (coloLo k + 4) (word (c0.toNat / 2 ^ 32))) d
  ((d.set R.CFG_STATUS_LOADED 1).set R.CFG_STATUS_KEY_SLOT slot).syncSplit

/-- Sections in image order, on a device that drops what an earlier Pattern gave it (R85). -/
def applyPattern (d : Dev) (img : List Nat) (secs : List Section) : Dev :=
  let d := { d with
    pat := { profOff := leAt img 0x1C 4, inits := [(leAt img 0x1C 4, 64)] }, cfg := { d.cfg with coefAct := [], coef := none }
    sys := { d.sys with profWait := [0, 1] } }
  let d := (d.set R.CFG_STATUS_FIXED_OVR 0).set R.CFG_COEF_CTRL_PENDING 0
  let clear (d : Dev) (ls : Nat) : Dev :=
    [0, 1].foldl (fun d n => (d.wrw (R.WV_LS_CFG_KIND n ls).addr 0).wrw (R.WV_LS_PERIOD_NS n ls).addr 0) d
  let d := (List.range 16).foldl clear d
  let d := (secs.foldl loadSection d).loadIso
  d.loadDone (BitVec.ofNat 64 (beAt img 0x10 8)) (byteAt (bodyOf secs 0xFF 0) 0)

/-! ### Failures (R56, R57, R61, R85, R546) -/

/-- CFG.STATUS keeps the first failure of the load. -/
def recordErr (d : Dev) (e : LoadErr) : Dev :=
  if d.get R.CFG_STATUS_ERR ≠ 0 then d
  else ((d.set R.CFG_STATUS_ERR e.err).set R.CFG_STATUS_SECTION (e.sec.getD 0)).setB R.CFG_STATUS_NOSECT e.sec.isNone

/-- A directory slot fails with a code of BOOT.FAIL: the secondary slot follows, or the load ends in M10. -/
def slotFail (d : Dev) (code : Nat) : Dev :=
  let d := if d.get R.SYSCTL_BOOT_FAIL = 0 then d.set R.SYSCTL_BOOT_FAIL code else d
  if d.get R.SYSCTL_BOOT_PINS = 0 ∧ d.get R.SYSCTL_BOOT_SLOT = 0 then d.set R.SYSCTL_BOOT_SLOT 1 else d.failInto10 5

/-- A check of R84 fails. -/
def checkFail (d : Dev) (e : LoadErr) : Dev :=
  (d.recordErr e).slotFail (if e.err = 3 then 5 else if e.err = 12 then 4 else 3)

/-- A load may run: M1, every PLL locked, and a source that BOOT[2:0] selects; in debug hold, where Bexrax starts it, the
load is one from flash (R57, R62, R64, log entry 59). -/
def loads (d : Dev) (pins : List Nat) : Bool :=
  d.mode == 1 && d.clocksLocked &&
    (pins.contains (d.get R.SYSCTL_BOOT_PINS) || (d.sys.debugHold && pins.contains 0))

end Dev

/-- Lane-memory contents of the sections, the profile that SEAL[3:0] selects, and the seal word (R73, R81). -/
def loadLaneMem (m : Mem) (secs : List Section) (prof : Nat) (straps : Nat) (lane : Nat) : Mem :=
  let base := laneBase lane
  let m := (secs.filter fun s => s.type == 3).foldl (fun m s =>
    (slotBlocks (s.body.length / 8 + 1) s.body).foldl (fun m x => Mem.wrWords m (base + x.1) x.2.2) m) m
  let m := Mem.wrWord (Mem.wrBytes m (base + prof) (bodyOf secs 11 (straps % 16))) (base + prof + 0xE0) (word (straps % 256))
  Mem.wrBytes m (base + prof + 0xEC) (List.replicate 20 0)

/-- Pattern and firmware of a slot or of the host are checked, applied and verified in the order of R84; success enters
M2. The image stands in the Pattern store whether or not it passes. -/
def State.loadImage (s : State) (img : List Nat) (len : Nat) (fw sig : List Nat) (entry : Word) : State :=
  let mem := Mem.wrBytes s.mem 0x3C000000 (img.take 262144)
  match s.d.checkImage img len with
  | .error e => { s with mem := mem, d := s.d.checkFail e }
  | .ok secs =>
    let prof := leAt img 0x1C 4
    let straps := s.d.get R.ISO_SEAL_LATCHED
    let mem := [0, 1].foldl (fun m n => loadLaneMem m secs prof straps n) mem
    let d := s.d.applyPattern img secs
    if signed' (pubKey (bodyOf secs 0xFF 0)) sig fw then
      { s with mem := mem, d := { d with sys := { d.sys with entry := entry } }.enterMode 2 (d.get R.SYSCTL_MODE_CAUSE) }
    else { s with mem := mem, d := d.checkFail ⟨12, none⟩ }

/-- The code of BOOT.FAIL for a directory, if it is bad (R59, R546). -/
def directoryFail (dir : List Nat) : Option Nat :=
  let pOff := leAt dir 8 4
  let pLen := leAt dir 0xC 4
  let fOff := leAt dir 0x10 4
  let fLen := leAt dir 0x14 4
  let entry := leAt dir 0x18 4
  if dir.take 4 ≠ [0x44, 0x52, 0x53, 0x42] ∨ leAt dir 4 4 ≠ 1 ∨ leAt dir 0x1C 4 ≠ 0 ∨ pOff % 4096 ≠ 0 ∨ fOff % 4096 ≠ 0 ∨
      entry < 0x60000000 ∨ 0x6FFFFFFF < entry ∨ entry % 2 ≠ 0 then some 2
  else if pLen = 0 ∨ 262144 < pLen ∨ pLen % 8 ≠ 0 ∨ fLen = 0 ∨ fLen % 4 ≠ 0 ∨ 0x10000000 < pOff + pLen ∨
      0x10000000 < fOff + fLen + 64 then some 5
  else none

/-- PATTERN_LOAD: the Boot ROM judges the directory slot of SYSCTL.BOOT.SLOT, which stands in the flash window, with its
Pattern and its firmware (R59 to R61, R84, R85). -/
def execPatternLoad (s : State) : Host.Outcome State Fault Refusal :=
  .next <|
    if !s.d.loads [0, 1] then s
    else
      let flash := 0x60000000
      let dir := Mem.bytes s.mem (flash + 0x1000 * s.d.get R.SYSCTL_BOOT_SLOT) 32
      match directoryFail dir with
      | some code => s.onDev fun d => d.slotFail code
      | none =>
        let len := leAt dir 0xC 4
        let fLen := leAt dir 0x14 4
        let fw := flash + leAt dir 0x10 4
        s.loadImage (Mem.bytes s.mem (flash + leAt dir 8 4) len) len (Mem.bytes s.mem fw fLen)
          (Mem.bytes s.mem (fw + fLen) 64) (word (leAt dir 0x18 4))

/-- FLASH_NO_RESPONSE: no data strobe for the directory of the present slot (R546). -/
def execFlashNoResponse (s : State) : Host.Outcome State Fault Refusal :=
  .next <| s.onDev fun d => if d.loads [0, 1] then d.slotFail 1 else d

/-- HOST_BOOT_IMAGE: the host's Pattern length, Pattern, firmware length, entry address, firmware and signature. The
firmware is placed at 0x1000_0000 (R86, R546). -/
def execHostBootImage (patLen : Word) (pattern : List Byte) (fwLen entry : Word) (firmware signature : List Byte)
    (s : State) : Host.Outcome State Fault Refusal :=
  .next <|
    let n := fwLen.toNat
    let e := entry.toNat
    if !s.d.loads [2, 3] then s
    else if n = 0 ∨ n % 4 ≠ 0 ∨ 0x200000 < n then s.onDev fun d => d.slotFail 5
    else if e < 0x10000000 ∨ 0x10000000 + n ≤ e then s.onDev fun d => d.slotFail 2
    else
      let fw := firmware.map fun (x : Byte) => x.toNat
      { s with mem := Mem.wrBytes s.mem 0x10000000 fw }.loadImage (pattern.map fun (x : Byte) => x.toNat) patLen.toNat fw
        (signature.map fun (x : Byte) => x.toNat) entry

end Sys2Proof.Machine
end

