-- ==== Sys2Proof/Machine/RegWrite.lean ====
section
/-! DEFINITION. Writes of registers over the bus: access codes, commit classes, reserved codes and refused Static writes
(R5, R6, R88, R90), and block by block the writes that do more. A write whose effect is a command of its own is that
command. -/

namespace Sys2Proof.Machine

/-- The state that a command leaves (log entry 70). -/
def after (o : Host.Outcome State Fault Refusal) (s : State) : State :=
  match o with
  | .next t => t
  | _ => s

namespace Dev

/-! ### Enables that own Static fields (R88) -/

/-- A write of a Static field of the register at `a` is accepted: in M1, or, but in M0 and M2, while the owning enable is 0
(R47, R88, log entry 151). -/
def staticOpen (d : Dev) (a : Nat) : Bool :=
  let off := a % 0x1000
  d.mode == 1 || d.mode != 0 && d.mode != 2 &&
  match a / 0x1000 with
  | 0x40001 => !d.isSet R.CLK_SSC_EN
  | 0x40003 => !d.isSet R.LEDGER_CTRL_EN
  | 0x4000A => !d.isSet R.LANE_CTRL_CMP_EN
  | 0x40014 => if off < 0x100 then !d.isSet R.SDF_CTRL_EN else !d.isSet (R.SDF_CH_CFG_EN ((off - 0x100) / 0x40))
  | 0x40020 => d.legState ((a - 0x40020000) / 0x100) != 1
  | 0x40021 => d.legState ((a - 0x40020000) / 0x100) != 1
  | 0x40022 => d.legState ((a - 0x40020000) / 0x100) != 1
  | 0x40024 =>
    if off < 0x400 then !d.isSet (R.GSUP_OSV_CFG_EN ((off - 0x100) / 0x20))
    else !d.isSet (R.GSUP_DRV_CFG_EN ((off - 0x400) / 4))
  | 0x40031 => !d.isSet R.ISO_CTRL_EN
  | 0x40032 => !d.isSet R.ARCH_CTRL_EN
  | 0x40051 => !d.isSet (R.ETH_CTRL_EN 0)
  | 0x40052 => !d.isSet (R.ETH_CTRL_EN 1)
  | 0x40060 => if 0x800 ≤ off then !d.isSet R.DPL_CFG_EN else !d.isSet (R.CAN_CTRL_EN 0)
  | 0x40061 => !d.isSet (R.CAN_CTRL_EN 1)
  | 0x40062 => !d.isSet (R.CAN_CTRL_EN 2)
  | 0x40063 => !d.isSet (R.CAN_CTRL_EN 3)
  | _ => true

/-! ### Reserved codes (R5). A code outside the range that a field's meaning states counts as reserved (DEDUCED, log entry
44). -/

/-- An AIN code that INJk_CFG and WCk_CFG do not take: an input that the converter cannot reach, or a sealed one (R187,
R209). -/
def ainReserved (d : Dev) (c ain : Nat) : Bool := !adcReaches c ain || d.adcClass c ain == 1

/-- Tally channel `j` of a converter serves a class 1 input (R200, R409). -/
def tallyServed (d : Dev) (c j : Nat) : Bool := (d.adcMap c).chans.any fun r => d.tallyOf c r.ain == some j

/-- Whether code `x` is reserved for the field at bit `lo` of register `a` written with word `v`, by a rule that looks
at more than the field. -/
def dynReserved (d : Dev) (a lo : Nat) (v : Word) (x : Nat) : Bool :=
  let off := a % 0x1000
  let n := v.toNat
  match a / 0x1000 with
  | 0x40001 => a == 0x40001020 && lo == 2 && (x == 0 || decide ((if bitAt n 1 then 4 else 8) < x))
  | 0x40014 =>
    let sdc := if bits n 2 3 < 6 then bits n 2 3 else d.get (R.SDF_CH_CFG_SDC ((off - 0x100) / 0x40))
    let f := d.get (R.SDF_CLK_FREQ sdc)
    decide (0x100 ≤ off) && off % 0x40 == 0 && lo == 5 && f != 0 && decide (1000 / f ≤ x)
  | 0x40024 =>
    lo == 1 && ((decide (0x100 ≤ off) && decide (off < 0x400) && off % 0x20 == 0 &&
        (decide (48 ≤ x) || (decide ((off - 0x100) / 0x20 < 12) != decide (x < 24)))) ||
      (decide (0x400 ≤ off) && (decide (48 ≤ x) || (decide ((off - 0x400) / 4 < 12) != decide (x < 24)))))
  | 0x40031 => a == 0x4003100C && lo == 2 && !d.tallyServed (bits n 0 2) x
  | 0x40060 => a == 0x4006080C && lo == 2 && decide (x < bits n 0 2)
  | p =>
    decide (0x40010 ≤ p) && decide (p < 0x40014) && lo == 0 && d.ainReserved (p - 0x40010) x &&
      ((decide (0x20 ≤ off) && decide (off < 0x30)) || (decide (0x40 ≤ off) && decide (off < 0x80) && off % 8 == 0))

/-- Whether a code written into a field is reserved. -/
def reserved (d : Dev) (a : Nat) (f : FieldSpec) (v : Word) : Bool :=
  let x := bits v.toNat f.lo f.w
  (!f.ok.isEmpty && !f.ok.any fun r => decide (r.1 ≤ x) && decide (x ≤ r.2)) || d.dynReserved a f.lo v x

/-! ### One register (R6, R88, R90) -/

/-- One field takes the written word; `static` says whether Static fields do. -/
def writeField (static : Bool) (a : Nat) (v : Word) (d : Dev) (f : FieldSpec) : Dev :=
  let x := bits v.toNat f.lo f.w
  let old := bits (d.rdw a).toNat f.lo f.w
  match f.acc with
  | .w1c => d.set ⟨a, f.lo, f.w⟩ (old - (old &&& x))
  | .rw =>
    if f.cls = .static ∧ !static then d
    else if d.reserved a f v then d.werr a
    else
      let d := d.set ⟨a, f.lo, f.w⟩ x
      if f.cls = .staged ∧ inPair a f.lo then
        { d with cfg := { d.cfg with fresh := (a, f.lo) :: d.cfg.fresh.filter fun g => g != (a, f.lo) } }
      else d
  | _ => d

/-- The write would change a Static field: a reserved code changes none (R5). -/
def changesStatic (d : Dev) (a : Nat) (v : Word) (fs : List FieldSpec) : Bool :=
  fs.any fun f => f.acc == .rw && f.cls == .static && !d.reserved a f v &&
    bits v.toNat f.lo f.w != bits (d.rdw a).toNat f.lo f.w

/-- A refused Static write is flagged, recorded and raised (R88). -/
def refuseStatic (d : Dev) (a : Nat) : Dev := ((d.werr a).recordWerr a 1).raise islBUS 86 a

/-- The fields of a register take a word. An offset that no table lists ignores it. -/
def writeFields (d : Dev) (a : Nat) (v : Word) : Dev :=
  match regSpec? a with
  | none => d
  | some r =>
    if d.staticOpen a || !d.changesStatic a v r.fields then
      d.covered a fun d => r.fields.foldl (writeField true a v) d
    else (r.fields.foldl (writeField false a v) d).refuseStatic a

/-- The written word with a field as it stands, for a field whose write has an effect of its own. -/
def keep (d : Dev) (f : Fld) (v : Word) : Word := setBits v f.lo f.w (d.get f)

/-- A register whose enable `f` has an effect of its own: the other fields, then the enable. -/
def writeEn (d : Dev) (f : Fld) (v : Word) (eff : Bool → Dev → Dev) : Dev :=
  eff (bitAt v.toNat f.lo) (d.writeFields f.addr (d.keep f v))

/-- An enable that cannot be cleared in M4 to M9. -/
def guardedEn (f : Fld) (on : Dev → Dev) (off : Dev → Dev) (en : Bool) (d : Dev) : Dev :=
  if en then on d else if d.control then d.werr f.addr else off d

/-! ### SYSCTL, CLK, PWRB, LEDGER -/

/-- WDOG (R55): TIMEOUT only while EN = 0; EN can only be set. -/
def wdogWrite (d : Dev) (v : Word) : Dev :=
  if d.isSet R.SYSCTL_WDOG_EN then d
  else
    let d := d.set R.SYSCTL_WDOG_TIMEOUT (bits v.toNat 0 16)
    if bitAt v.toNat 16 then { d with sys := { d.sys with wdogAt := d.time.short } }.set R.SYSCTL_WDOG_EN 1 else d

/-- Fourteen free slowdowns for a point that a plain register write takes (log entry 10). -/
def freeReadings : Nat → Dev → List (BitVec 16) × Dev
  | 0, d => ([], d)
  | n + 1, d =>
    let w := d.freeWord
    let r := freeReadings n w.2
    (BitVec.ofNat 16 w.1.toNat :: r.1, r.2)

/-- CTRL.POINT_NOW over a plain register write: the die readings are free (R505, R510). -/
def pointNow (d : Dev) : Dev :=
  if !d.isSet R.LEDGER_CTRL_EN then d
  else
    let r := freeReadings 14 d
    let m := r.2.freeWord
    m.2.takePoint r.1 (BitVec.ofNat 4 (m.1.toNat % 9))

/-- LEDGER.CTRL.EN (R511). -/
def ledgerEn (en : Bool) (d : Dev) : Dev :=
  if !en then d.set R.LEDGER_CTRL_EN 0
  else if d.isSet R.LEDGER_CTRL_EN then d
  else ({ d with led := { d.led with hourAt := d.time.short } }.set R.LEDGER_CTRL_EN 1).predictions

/-- Registers that firmware restores while the Ledger is stopped (R511). -/
def ledgerStored (a : Nat) : Bool :=
  [0x40003010, 0x40003014, 0x400030C8, 0x400030CC, 0x400030F4, 0x400030F8].contains a ||
    (decide (0x40003100 ≤ a) && decide (a < 0x40003160))

end Dev

/-- Writes of SYSCTL. -/
def State.writeSysctl (s : State) (a : Nat) (v : Word) : State :=
  match a % 0x1000 with
  | 0x14 => s.onDev fun d => d.modeRequest (bits v.toNat 16 16) (bits v.toNat 0 4) false
  | 0x24 => if bitAt v.toNat 0 then after (execRstReqWarm (BitVec.ofNat 16 (v.toNat / 0x10000)) s) s else s
  | 0x30 => s.onDev fun d => d.wdogWrite v
  | 0x34 => after (execWdogKick v s) s
  | _ => s.onDev fun d => d.writeFields a v

/-- Writes of CLK. -/
def Dev.writeClk (d : Dev) (a : Nat) (v : Word) : Dev :=
  match a % 0x1000 with
  | 0x20 => d.writeEn R.CLK_SSC_EN v fun en d => d.sscWrite en
  | 0x24 => d.gateWrite (bits v.toNat 0 10)
  | _ => d.writeFields a v

/-- Writes of LEDGER. -/
def State.writeLedger (s : State) (a : Nat) (v : Word) : State :=
  if Dev.ledgerStored a then s.onDev fun d =>
    if d.isSet R.LEDGER_CTRL_EN then d.werr a
    else
      let d := d.writeFields a v
      if a = 0x400030F4 ∨ a = 0x400030F8 then d.pointWrite
      else if 0x40003100 ≤ a then d.osvWritten ((a - 0x40003100) / 4)
      else d
  else
    match a % 0x1000 with
    | 0x0 => s.onDev fun d =>
      let d := d.writeEn R.LEDGER_CTRL_EN v Dev.ledgerEn
      if bitAt v.toNat 1 then d.pointNow else d
    | 0xDC => if bitAt v.toNat 0 then after (execLedgerMeasStart s) s else s
    | 0xF0 => s.onDev fun d => (d.writeFields a v).pointPort
    | 0x200 =>
      if bitAt v.toNat 0 then after (execRepairRun (bitAt v.toNat 1) (BitVec.ofNat 16 (v.toNat / 0x10000)) s) s else s
    | _ => s.onDev fun d => d.writeFields a v

/-! ### CFG, LANE -/

/-- Writes of CFG (R106). -/
def State.writeCfg (s : State) (a : Nat) (v : Word) : State :=
  let off := a % 0x1000
  if off = 0x44 ∧ bitAt v.toNat 16 then
    after (execCoefCommit (BitVec.ofNat 7 v.toNat) (Fin.ofNat 16 (bits v.toNat 8 4)) s) s
  else if 0x100 ≤ off ∧ off < 0x200 ∧ s.d.cfg.coef.isSome then s.onDev fun d => d.recordWerr a 3
  else s.onDev fun d => d.writeFields a v

/-- Writes of LANE (R340): CMP_EN, then SWAP, then RESTART, which need the key. With CMP_EN = 0 nothing waits for a partner. -/
def State.writeLane (s : State) (a : Nat) (v : Word) : State :=
  if a % 0x1000 = 0 then
    let key := BitVec.ofNat 16 (v.toNat / 0x10000)
    let s := s.onDev fun d => Dev.guardedEn R.LANE_CTRL_CMP_EN (fun d => d.set R.LANE_CTRL_CMP_EN 1)
      (fun d => (d.set R.LANE_CTRL_CMP_EN 0).dropTable) (bitAt v.toNat 0) d
    let s := if bitAt v.toNat 1 then after (execLaneSwap key s) s else s
    if bitAt v.toNat 2 then after (execLaneRestart (bitAt v.toNat 3) key s) s else s
  else s.onDev fun d => d.writeFields a v

/-! ### Converters and sigma-delta -/

/-- Writes of ADCc (R205 to R211). -/
def State.writeAdc (s : State) (c a : Nat) (v : Word) : State :=
  let cf : Fin 4 := Fin.ofNat 4 c
  match a % 0x1000 with
  | 0x0 => s.onDev fun d => Dev.guardedEn (R.ADC_CTRL_EN c) (fun d => (d.set (R.ADC_CTRL_EN c) 1).adcSync c)
      (fun d => (d.set (R.ADC_CTRL_EN c) 0).adcSync c) (bitAt v.toNat 0) d
  | 0x8 => if bitAt v.toNat 0 then after (execAdcCommit cf s) s else s
  | 0xC =>
    let s := s.onDev fun d => d.writeFields a v
    if bitAt v.toNat 0 then after (execCalStart cf s) s else s
  | 0x1C => after (execInjSwRequest cf (BitVec.ofNat 4 v.toNat) s) s
  | _ => s.onDev fun d => d.writeFields a v

namespace Dev

/-- A sigma-delta channel that a route names, or that triggers a Loop Set or a sequence (R235). -/
def sdUsed (d : Dev) (n : Nat) : Bool :=
  (d.pat.routes.any fun r => r.kind == 2 && r.srcUnit == n) || (d.pat.loopsets.any fun l => l.kind == 1 && l.unit == n) ||
    (List.range 4).any fun c => !(d.adcMap c).seq.isEmpty && (d.adcMap c).trigKind == 1 && (d.adcMap c).trigUnit == n

/-- CHn_CFG.EN (R235): a channel that starts has no bits yet. -/
def sdChannelEn (n : Nat) (en : Bool) (d : Dev) : Dev :=
  let f := R.SDF_CH_CFG_EN n
  if en then
    if d.isSet f then d else (d.set f 1).sdStart n
  else if d.control && d.sdUsed n then d.werr f.addr
  else d.set f 0

end Dev

/-- Writes of SDF (R240 to R242). -/
def State.writeSdf (s : State) (a : Nat) (v : Word) : State :=
  let off := a % 0x1000
  let n := (off - 0x100) / 0x40
  if off < 0x100 then
    match off with
    | 0x0 => s.onDev fun d => d.sdfEnable (bitAt v.toNat 0)
    | 0x8 => if bitAt v.toNat 0 then after (execSdfCommit s) s else s
    | _ => s.onDev fun d => d.writeFields a v
  else if 24 ≤ n then s
  else s.onDev fun d =>
    match off % 0x40 with
    | 0x0 => d.writeEn (R.SDF_CH_CFG_EN n) v (Dev.sdChannelEn n)
    | 0xC => d.estWrite n v
    | 0x14 => d.rsWrite n v
    | _ => d.writeFields a v

/-! ### Legs and gate supervision -/

namespace Dev

/-- A bus write of a leg's shadow: ignored and recorded where the bus does not own the leg (R30, R278). -/
def legBusField (d : Dev) (n code : Nat) (v : Word) : Dev :=
  match d.legOwner n with
  | 2 => d.legField n code v.toNat
  | 1 => d.legWriteErr n 0
  | _ => d.legWriteErr n 3

/-- A write of LEGn_CTRL (R261, R262, R30). -/
def legCtrlWrite (d : Dev) (n : Nat) (v : Word) : Dev :=
  let en := bitAt v.toNat 0
  match d.legOwner n with
  | 2 => d.legRequest n en
  | o => if en || !bitAt v.toNat 1 then d.legWriteErr n (if o = 1 then 0 else 3) else d

end Dev

/-- CLR_FAULT over a plain register write: whether the inputs of the leg are inactive is free (log entry 10). -/
def State.clrFault (s : State) (n : Nat) : State :=
  let w := s.d.freeWord
  let t := { s with d := w.2 }
  after (execLegClrFault (Fin.ofNat 48 n) (bitAt w.1.toNat 0) t) t

/-- Writes of PWM (R274 to R278). -/
def State.writePwm (s : State) (a : Nat) (v : Word) : State :=
  if a < 0x40023000 then
    let n := (a - 0x40020000) / 0x100
    match a % 0x100 with
    | 0x04 =>
      let s := s.onDev fun d => d.legCtrlWrite n v
      if bitAt v.toNat 1 then s.clrFault n else s
    | 0x08 => s.onDev fun d => d.legBusField n 2 v
    | 0x0C => s.onDev fun d => d.legBusField n 0 v
    | 0x10 => s.onDev fun d => d.legBusField n 1 v
    | 0x14 => s.onDev fun d => d.legBusField n 3 v
    | 0x18 => s.onDev fun d => d.legBusField n 4 v
    | 0x1C => if bitAt v.toNat 0 || s.d.legOwner n != 2 then after (execLegCommit (Fin.ofNat 48 n) s) s else s
    | 0x20 => s.onDev fun d => d.writeFields a (word (v.toNat / 32 * 32))
    | _ => s.onDev fun d => d.writeFields a v
  else
    match a % 0x1000 with
    | 0x0 =>
      if bitAt v.toNat 0 then after (execPwmBlockEnable s) s
      else s.onDev fun d =>
        if [1, 2, 11].contains d.mode then (List.range 48).foldl Dev.legSync (d.set R.PWM_CTRL_EN 0)
        else d.note R.PWM_STATUS_WERR
    | 0xC => after (execPwmResync (BitVec.ofNat 16 v.toNat) s) s
    | _ => s.onDev fun d => d.writeFields a v

/-- EN of a supervision input (R271): in M4 to M9 it cannot be cleared while the assigned leg is enabled. An input that is
not enabled raises no condition (R347). -/
def Dev.gsupEn (f : Fld) (leg src : Nat) (en : Bool) (d : Dev) : Dev :=
  if en then d.set f 1
  else if d.control && d.legState leg == 1 then d.note R.GSUP_STATUS_WERR
  else (d.set f 0).setCond src false

/-- A write of OSVk_CFG or DRVk_CFG, with the source of the input; the leg that R271 asks about is the one assigned before
the write. -/
def Dev.gsupCfg (d : Dev) (f leg : Fld) (src : Nat) (v : Word) : Dev :=
  let n := d.get leg
  d.writeEn f v (Dev.gsupEn f n src)

/-- Writes of GSUP (R279 to R281). -/
def State.writeGsup (s : State) (a : Nat) (v : Word) : State :=
  let off := a % 0x1000
  if off = 0 then s.onDev fun d => Dev.guardedEn R.GSUP_CTRL_EN (fun d => d.set R.GSUP_CTRL_EN 1)
    (fun d => (List.range 48).foldl (fun d k => d.setCond k false) (d.set R.GSUP_CTRL_EN 0)) (bitAt v.toNat 0) d
  else if off = 8 then (if bitAt v.toNat 0 then after (execGsupCommit s) s else s)
  else if 0x100 ≤ off ∧ off < 0x400 then
    let k := (off - 0x100) / 0x20
    match off % 0x20 with
    | 0x0 => s.onDev fun d => d.gsupCfg (R.GSUP_OSV_CFG_EN k) (R.GSUP_OSV_CFG_LEG k) k v
    | 0x10 =>
      let s := s.onDev fun d => if bitAt v.toNat 1 then d.set (R.GSUP_OSV_SWEEP_REFUSED k) 0 else d
      if bitAt v.toNat 0 then
        after (execOsvSweepStart (Fin.ofNat 24 k) (BitVec.ofNat 8 (bits v.toNat 8 8)) (BitVec.ofNat 8 (bits v.toNat 16 8)) s) s
      else s.onDev fun d => d.writeFields a v
    | _ => s.onDev fun d => d.writeFields a v
  else if 0x400 ≤ off ∧ off < 0x460 then
    let k := (off - 0x400) / 4
    s.onDev fun d => d.gsupCfg (R.GSUP_DRV_CFG_EN k) (R.GSUP_DRV_CFG_LEG k) (24 + k) v
  else s.onDev fun d => d.writeFields a v

/-! ### ACC, ISO, ARCH -/

/-- A write of SRCs_CFG of a fixed source keeps EN, CLASS and REACTION; one that would change them is flagged (R350). -/
def Dev.fixedCfg (d : Dev) (a : Nat) (v : Word) : Dev :=
  let w := setBits v 0 5 0x1F
  let d := d.writeFields a w
  if v.toNat % 32 = 0x1F then d else d.note R.ACC_STATUS_WERR

/-- Writes of ACC (R370, R371). -/
def State.writeAcc (s : State) (a : Nat) (v : Word) : State :=
  let off := a % 0x1000
  match off with
  | 0x4 => if bitAt v.toNat 0 then after (execAccCommit s) s else s
  | 0xC => s.onDev fun d => d.forceWrite (bits v.toNat 16 16) (bits v.toNat 0 8)
  | 0x14 => s.onDev fun d => d.ackWrite (bits v.toNat 16 16) (bits v.toNat 0 8) (bitAt v.toNat 8)
  | _ => s.onDev fun d =>
    if 0x400 ≤ off ∧ off < 0x700 ∧ isFixed ((off - 0x400) / 4) then d.fixedCfg a v else d.writeFields a v

/-- Writes of ISO (R408 to R410). -/
def State.writeIso (s : State) (a : Nat) (v : Word) : State :=
  match a % 0x1000 with
  | 0x0 =>
    let key := BitVec.ofNat 16 (v.toNat / 0x10000)
    let s := s.onDev fun d => Dev.guardedEn R.ISO_CTRL_EN (fun d => d.set R.ISO_CTRL_EN 1)
      (fun d => d.set R.ISO_CTRL_EN 0) (bitAt v.toNat 0) d
    let s := if bitAt v.toNat 1 then after (execClrWeld key s) s else s
    if bitAt v.toNat 2 then after (execSetWeld key s) s else s
  | 0x8 => if bitAt v.toNat 0 then after (execIsoCommit s) s else s
  | 0xC => s.onDev fun d => (d.writeFields a v).rbSync
  | _ => s.onDev fun d =>
    let d := d.writeFields a v
    if 0x40 ≤ a % 0x1000 ∧ a % 0x1000 < 0x60 then d.sinOpenEnd else d

/-- Writes of ARCH (R388). -/
def State.writeArch (s : State) (a : Nat) (v : Word) : State :=
  match a % 0x1000 with
  | 0x0 => s.onDev fun d => d.writeEn R.ARCH_CTRL_EN v fun en d => if en then d.archEnable else d.archDisable
  | 0x8 => if bitAt v.toNat 0 then after (execArchCommit s) s else s
  | 0xC =>
    let s := if bitAt v.toNat 0 then s.armWrite else s
    let s := if bitAt v.toNat 1 then s.onDev Dev.archDisarm else s
    if bitAt v.toNat 2 then s.onDev fun d => d.archTrigger 2 d.time.short else s
  | 0x14 => s.releaseWrite (bits v.toNat 0 4)
  | _ => s.onDev fun d => d.writeFields a v

/-! ### CIRC, TIME -/

/-- Writes of CIRC by an agent (R432 to R435). The Desk names the core that wrote; the debug port counts as core 0. -/
def Dev.writeCirc (d : Dev) (agent a : Nat) (v : Word) : Dev :=
  let core := if agent < 4 then agent else 0
  let off := a % 0x1000
  let n := v.toNat
  if off = 0 then
    let d := d.writeFields a v
    if d.isSet R.CIRC_CTRL_EN then d.dispatch else { d with time := { d.time with shelf := 0 } }
  else if off = 0xC then d.cmdWrite core (bits n 0 8) (bits n 8 3)
  else if 0x20 ≤ off ∧ off < 0x60 ∧ off % 0x10 = 8 then
    d.giveWrite ((off - 0x20) / 0x10) (bits n 0 3) (bitAt n 3) (bits n 4 2) (bits n 8 24)
  else if 0x90 ≤ off ∧ off < 0xA0 then (d.flagCycle [] (Dev.maskFlags ((off - 0x90) / 4) n)).dispatch
  else if 0xA0 ≤ off ∧ off < 0xB0 then (d.flagCycle (Dev.maskFlags ((off - 0xA0) / 4) n) []).dispatch
  else if 0x100 ≤ off ∧ off < 0x500 then d.slotCfgWrite ((off - 0x100) / 4) v
  else if 0x500 ≤ off ∧ off < 0x900 then
    let d := d.writeFields a v
    (List.range 4).foldl (fun d c => d.setCore c (d.ccore c)) d
  else d.writeFields a v

/-- Writes of TIME (R442 to R448). -/
def State.writeTime (s : State) (a : Nat) (v : Word) : State :=
  let off := a % 0x1000
  if off = 0x18 then s.onDev fun d => d.adjust (bits v.toNat 0 24)
  else if off = 0x24 then (if bitAt v.toNat 0 then after (execTimeStepRequest s) s else s)
  else if 0x80 ≤ off ∧ off < 0x100 ∧ off % 0x10 = 0 then
    s.onDev fun d => d.cmpWrite ((off - 0x80) / 0x10) (bitAt v.toNat 0) (bitAt v.toNat 1)
  else s.onDev fun d => d.writeFields a v

/-! ### ETH, CAN, DPL -/

/-- Writes of ETHm (R449, R460). -/
def State.writeEth (s : State) (m a : Nat) (v : Word) : State :=
  let off := a % 0x1000
  let n := v.toNat
  if off = 0 then
    let en := bitAt n 0
    let s := s.onDev fun d => d.writeFields a (d.keep (R.ETH_CTRL_EN m) v)
    let s := if en then s.ethEnable m else s.onDev fun d => d.ethDisable m
    s.onDev fun d => d.linkSync m
  else if off = 0x20 then s.onDev fun d =>
    if m = 1 then d
    else
      let d := if bitAt n 30 then d.set (R.ETH_MDIO_TIMEOUT 0) 0 else d
      if bitAt n 28 then d.mdioGo (bits n 0 16) (bits n 16 5) (bits n 21 5) (bits n 26 2) else d.writeFields a v
  else if off = 0x24 ∧ m = 1 then s
  else if 0x100 ≤ off ∧ off < 0x180 ∧ off % 0x10 = 0xC then
    let s := s.onDev fun d => d.writeFields a v
    if bitAt n 1 then s.ethKick m ((off - 0x100) / 0x10) else s
  else s.onDev fun d => d.writeFields a v

/-- Writes of CANn (R464, R468 to R473, R489). -/
def Dev.writeCan (d : Dev) (n a : Nat) (v : Word) : Dev :=
  let x := v.toNat
  match a % 0x1000 with
  | 0x0 =>
    let d := d.writeEn (R.CAN_CTRL_EN n) v fun en d => if en then d.canEnable n else d.canDisable n
    if bitAt x 5 then d.canRecover n (x / 0x10000) else d
  | 0x48 => d.inboxDone n 0 (bits x 0 6)
  | 0x4C => d.inboxDone n 1 (bits x 0 6)
  | 0x54 => d.receiptDone n (bits x 0 5)
  | 0x60 => d.outGo n v
  | 0x68 => d.outAbort n v
  | _ => d.writeFields a v

/-- Writes of DPL (R476, R485, R490, R491). -/
def Dev.writeDpl (d : Dev) (a : Nat) (v : Word) : Dev :=
  let off := a % 0x1000
  if off = 0x800 then
    (d.writeEn R.DPL_CFG_EN v fun en d => if en then d.dplEnable else d.dplDisable).dplSync
  else if 0x820 ≤ off ∧ off < 0x840 then d.keyWrite ((off - 0x820) / 0x10) (off % 0x10 / 4) v
  else if 0x900 ≤ off ∧ off < 0xB00 ∧ off % 0x10 = 0 then
    let k := (off - 0x900) / 0x10
    if bitAt v.toNat 25 then (d.peerWrite k v.toNat).freePeer k else d.peerWrite k v.toNat
  else
    let d := d.writeFields a v
    if off = 0x80C then d.dplSync else d

/-! ### A register write -/

/-- An agent's write of an aligned word to a register of a listed block. -/
def State.regWrite (s : State) (agent a : Nat) (v : Word) : State :=
  match a / 0x1000 with
  | 0x40000 => s.writeSysctl a v
  | 0x40001 => s.onDev fun d => d.writeClk a v
  | 0x40003 => s.writeLedger a v
  | 0x40004 => s.writeCfg a v
  | 0x4000A => s.writeLane a v
  | 0x40010 => s.writeAdc 0 a v
  | 0x40011 => s.writeAdc 1 a v
  | 0x40012 => s.writeAdc 2 a v
  | 0x40013 => s.writeAdc 3 a v
  | 0x40014 => s.writeSdf a v
  | 0x40020 => s.writePwm a v
  | 0x40021 => s.writePwm a v
  | 0x40022 => s.writePwm a v
  | 0x40023 => s.writePwm a v
  | 0x40024 => s.writeGsup a v
  | 0x40030 => s.writeAcc a v
  | 0x40031 => s.writeIso a v
  | 0x40032 => s.writeArch a v
  | 0x40040 => s.onDev fun d => d.writeCirc agent a v
  | 0x40050 => s.writeTime a v
  | 0x40051 => s.writeEth 0 a v
  | 0x40052 => s.writeEth 1 a v
  | 0x40060 => s.onDev fun d => if 0x800 ≤ a % 0x1000 ∧ a % 0x1000 < 0xC00 then d.writeDpl a v else d.writeCan 0 a v
  | 0x40061 => s.onDev fun d => d.writeCan 1 a v
  | 0x40062 => s.onDev fun d => d.writeCan 2 a v
  | 0x40063 => s.onDev fun d => d.writeCan 3 a v
  | _ => s.onDev fun d => d.writeFields a v

end Sys2Proof.Machine
end

