-- ==== Sys2Proof/Machine/Bus.lean ====
section
/-! DEFINITION. The bus: reads of registers, core accesses to memory and registers, atomic accesses, the debug port, the
scrubber, and the channels' handshakes (R6, R7, R13, R15 to R22, R411 to R415). -/

namespace Sys2Proof.Machine

open Dev (islCORE islBUS islGUARD)

/-! ### Which blocks an access reaches (R17, R23, R499) -/

/-- Blocks whose base the spec gives and whose registers it does not describe: SEC, GPIO, UART, SPI, I2C, OSPI. -/
def bareBlock (a : Nat) : Bool :=
  let p := a / 0x1000
  p == 0x40070 || p == 0x40080 || (decide (0x40090 ≤ p) && decide (p ≤ 0x40098))

namespace Dev

/-- The bit of CLK.GATE over a block (R499). -/
def gateBit (a : Nat) : Option Nat :=
  let p := a / 0x1000
  if p = 0x40051 ∨ p = 0x40052 then some 0
  else if 0x40060 ≤ p ∧ p ≤ 0x40063 then some 1
  else if 0x40090 ≤ p ∧ p ≤ 0x40097 then some (p - 0x40090 + 2)
  else none

/-- The block at an address stands with its clock stopped. -/
def gated (d : Dev) (a : Nat) : Bool :=
  match gateBit a with
  | some b => (d.get R.CLK_GATE_BLOCKS).testBit b
  | none => false

/-- An access to the peripheral space ends in a bus error: not an aligned word, no block, or a gated block. -/
def regError (d : Dev) (size : Size) (a : Nat) : Bool :=
  size != .word || a % 4 != 0 || ((blockOf a).isEmpty && !bareBlock a) || d.gated a

/-! ### Register reads (R5, R6) -/

/-- The word of a register as a read returns it: a write-only field reads as zero, an offset no table lists as zero, and
the stepping is the silicon's (R2, R5, R6). ETH1 has no MDIO (R450). -/
def regWord (d : Dev) (a : Nat) : Word :=
  if a = 0x40052020 ∨ a = 0x40052024 then 0
  else if a = 0x40000000 then d.deviceId
  else
    match regSpec? a with
    | none => 0
    | some r => word ((d.rdw a).toNat &&& fieldMask (fun f => f.acc != .wo) r.fields)

/-- A core's read clears the register's RC fields to their reset value (R6). -/
def clearRc (d : Dev) (a : Nat) : Dev :=
  match regSpec? a with
  | none => d
  | some r => r.fields.foldl (fun d f =>
      if f.acc == .rc then d.set ⟨a, f.lo, f.w⟩ (bits (resetWord a).toNat f.lo f.w) else d) d

/-- A core reads a register, with the side effects that the read has. -/
def coreRead (d : Dev) (core a : Nat) : Dev :=
  let off := a % 0x1000
  if a = 0x40050000 then d.latchTime.answer core (.data (word d.time.ns))
  else if a = 0x40004010 ∨ a = 0x40004018 ∨ a = 0x40004020 then d.readColoLo core ((a - 0x40004010) / 8)
  else if a = 0x40004014 ∨ a = 0x4000401C ∨ a = 0x40004024 then
    d.answer core (.data (d.coloHi core ((a - 0x40004014) / 8)))
  else if a = R.ACC_LOG_W0_WORD.addr then d.logLatch.answer core (.data (d.logWord 0))
  else if a = R.ACC_LOG_W1_WORD.addr then d.answer core (.data (d.logWord 1))
  else if a = R.ACC_LOG_W2_WORD.addr then d.answer core (.data (d.logWord 2))
  else if a = R.ACC_LOG_W3_WORD.addr then d.logRemove.answer core (.data (d.logWord 3))
  else if 0x40010000 ≤ a ∧ a < 0x40014000 ∧ off = (R.ADC_QTIME_STAMP 0).addr % 0x1000 then
    d.qtimeRead core ((a - 0x40010000) / 0x1000)
  else if 0x40014100 ≤ a ∧ a < 0x40014700 ∧ off % 0x40 = 0x1C then d.sdRead core ((off - 0x100) / 0x40)
  else if 0x40040020 ≤ a ∧ a < 0x40040060 ∧ off % 0x10 = 0 then d.takeRead core ((off - 0x20) / 0x10)
  else (d.clearRc a).answer core (.data (d.regWord a))

end Dev

/-! ### Core accesses (R4, R19 to R21, R415) -/

/-- A core's access ends in a bus error: the answer, and CORE_BUS_ERR with the address (R415). -/
def Dev.busFail (d : Dev) (core a : Nat) : Dev := (d.answer core .busError).raise islCORE 125 a

/-- A core's access to the peripheral space. `w` is the word of a store. -/
def State.regAccess (s : State) (core : Nat) (size : Size) (a : Nat) (w : Option Word) :
    Host.Outcome State Fault Refusal :=
  if s.d.regError size a then .next (s.onDev fun d => d.busFail core a)
  else if bareBlock a then .refused (.noLayout a)
  else
    match w with
    | none => .next (s.onDev fun d => d.coreRead core a)
    | some v => .next ((s.onDev fun d => d.answer core .none).regWrite core a v)

/-- The core's access meets memory at `a` with this outcome of the ECC check: none where it ends in a bus error. -/
def Dev.memCheck (d : Dev) (core : Nat) (p : Place) (a : Nat) (ecc : Ecc) (mac : Nat) : Option Dev × Dev :=
  if d.rowGone a then (none, (d.eccDouble p a).busFail core (p.coreAddr a))
  else if !p.hasEcc then (some d, d)
  else
    match ecc with
    | .none => (some d, d)
    | .single => (some (d.eccSingle p mac), d)
    | .double => (none, (d.eccDouble p a).busFail core (p.coreAddr a))

/-- The word that holds an address in a line, shifted to the access. -/
def CacheLine.num (l : CacheLine) (a n : Nat) : Nat :=
  (l.words.getD (a % 32 / 4) 0).toNat / 2 ^ (8 * (a % 4)) % 2 ^ (8 * n)

/-- A read of lane memory that waits: a Stake requests its bank (R114, R134). -/
def Dev.bankWaits (d : Dev) (p : Place) (a : Nat) : Bool :=
  match Dev.laneOf p with
  | some n => decide (0x20000 ≤ a % 0x100000) && d.bankBusy n [a / 4 % 8]
  | none => false

/-- A permitted load or fetch. A line that holds the word answers; a miss in a region that the caches serve fills one. -/
def State.coreLoad (s : State) (core : Nat) (instr : Bool) (p : Place) (a n : Nat) (ecc : Ecc) (mac : Nat) (parity : Bool)
    (way : Nat) : State :=
  let key := Dev.cacheKey core instr
  let d := s.d.parityCheck core instr parity a
  match d.lineOf key a with
  | some l => { s with d := d.answer core (.data (word (l.num a n))) }
  | none =>
    match d.memCheck core p a ecc mac with
    | (none, d) => { s with d := d }
    | (some d, _) =>
      let d := if p.cached then d.fill s.mem key a way else d
      { s with d := d.answer core (.data (word (Mem.num s.mem a n))) }

/-- A word, half or byte goes into memory; reservations and caches follow. -/
def State.coreWrite (s : State) (core : Nat) (p : Place) (a n v : Nat) : State :=
  let m := Mem.wrNum s.mem a n v
  { s with mem := m, d := (s.d.clearResv a).snoop m core p a }

/-- A permitted store. One shorter than a word checks the word that it merges into. -/
def State.coreStore (s : State) (core : Nat) (p : Place) (a n v : Nat) (ecc : Ecc) (mac : Nat) : State :=
  match s.d.memCheck core p a (if n = 4 then .none else ecc) mac with
  | (none, d) => { s with d := d }
  | (some d, _) => { s with d := d.answer core .none }.coreWrite core p a n v

/-- The address lies in an outbox element of a pending slot (R466). -/
def Dev.outPending (d : Dev) (a : Nat) : Bool :=
  (List.range 4).any fun n => (List.range 32).any fun b =>
    (d.get (R.CAN_OUT_WAIT_SLOTS n)).testBit b && decide (b < d.get (R.CAN_LAY_OUT_COUNT n)) &&
      decide (d.outAddr n b ≤ a) && decide (a < d.outAddr n (b + 1))

/-- CORE_MEMORY_ACCESS: a load, store or fetch by a core. `ecc` is what the check of the word finds, in macro `mac`;
`parity` a parity error of the line that holds the word; `way` the way that a miss fills (R19, R20, R21, R412, R415). A
load of lane memory is taken only when no Stake requests its bank (R134). -/
def execCoreMemoryAccess (core : Fin 4) (kind : Access) (size : Size) (addr data : Word) (ecc : Ecc) (mac : Fin 100)
    (parity : Bool) (way : Fin 4) (s : State) : Host.Outcome State Fault Refusal :=
  s.byCore core.val fun s =>
  match route core.val addr.toNat with
  | none => .next (s.onDev fun d => d.busFail core.val addr.toNat)
  | some (.regs, a) =>
    match kind with
    | .fetch => .next (s.onDev fun d => d.busFail core.val a)
    | .load => s.regAccess core.val size a none
    | .store => s.regAccess core.val size a (some data)
  | some (p, a) =>
    let n := accessBytes size
    .next <|
      if !s.d.permits p kind size a || (kind == .store && p == .msgCan && s.d.outPending a) then
        s.onDev fun d => d.busFail core.val addr.toNat
      else
        if kind = .load ∧ s.d.bankWaits p a then s
        else match kind with
        | .store => s.coreStore core.val p a n (data.toNat % 2 ^ (8 * n)) ecc mac.val
        | .load => s.coreLoad core.val false p a n ecc mac.val parity way.val
        | .fetch => s.coreLoad core.val true p a n ecc mac.val parity way.val

/-- REGISTER_WRITE: a core's write of an aligned word to the peripheral space; any other address is no register (R4, R6). -/
def execRegisterWrite (core : Fin 4) (addr data : Word) (s : State) : Host.Outcome State Fault Refusal :=
  s.byCore core.val fun s =>
  if 0x40000000 ≤ addr.toNat ∧ addr.toNat < 0x40100000 then s.regAccess core.val .word addr.toNat (some data)
  else .next s

/-- READ_TO_CLEAR: a core's read of a register with an RC field (R6); a register without one is only read. -/
def execReadToClear (core : Fin 4) (addr : Word) (s : State) : Host.Outcome State Fault Refusal :=
  s.byCore core.val fun s =>
  if 0x40000000 ≤ addr.toNat ∧ addr.toNat < 0x40100000 then s.regAccess core.val .word addr.toNat none
  else .next s

/-! ### Atomic accesses (R414) -/

/-- The word that an AMO stores, from the old word and the operand. -/
def amoWord (op : Amo) (old x : Word) : Word :=
  match op with
  | .add => old + x
  | .xor => old ^^^ x
  | .and => old &&& x
  | .or => old ||| x
  | .min => if signed 32 old.toNat ≤ signed 32 x.toNat then old else x
  | .max => if signed 32 old.toNat ≤ signed 32 x.toNat then x else old
  | .minu => if old.toNat ≤ x.toNat then old else x
  | .maxu => if old.toNat ≤ x.toNat then x else old
  | _ => x

/-- An atomic access to memory that the check has passed. A store-conditional answers 0 where it stores and 1 where it
does not, and gives up the reservation either way (PRESUMED of RISC-V, log entry 71). -/
def State.amo (s : State) (core : Nat) (op : Amo) (p : Place) (a : Nat) (x : Word) : State :=
  let old := Mem.word s.mem a
  match op with
  | .lr => s.onDev fun d => (d.setResv core (Dev.granule a)).answer core (.data old)
  | .sc =>
    if s.d.holdsResv core a then
      ((s.coreWrite core p a 4 x.toNat).onDev fun d => (d.setResv core 0).answer core (.data 0))
    else s.onDev fun d => (d.setResv core 0).answer core (.data 1)
  | _ => (s.coreWrite core p a 4 (amoWord op old x).toNat).onDev fun d => d.answer core (.data old)

/-- AMO_ACCESS: an LR, SC or AMO instruction acts on the memory word itself, in core SRAM or a TCM; at any other address,
or misaligned, it is an access fault and has no effect (R414). -/
def execAmoAccess (core : Fin 4) (op : Amo) (addr data : Word) (ecc : Ecc) (mac : Fin 100) (parity : Bool) (s : State) :
    Host.Outcome State Fault Refusal :=
  s.byCore core.val fun s => .next <|
    match route core.val addr.toNat with
    | none => s.onDev fun d => d.answer core.val .accessFault
    | some (p, a) =>
      if !p.atomic || a % 4 != 0 then s.onDev fun d => d.answer core.val .accessFault
      else
        match (s.d.parityCheck core.val false parity a).memCheck core.val p a ecc mac.val with
        | (none, d) => { s with d := d }
        | (some d, _) => { s with d := d }.amo core.val op p a data

/-- MCINVAL: a write of CSR 0x7C0 (R413). -/
def execMcinval (core : Fin 4) (value : Word) (s : State) : Host.Outcome State Fault Refusal :=
  .next <| s.coreDev core.val fun d => d.invalidate core.val value.toNat

/-- The address of a TAKEn register, whose read a bus timeout never ends (R420). -/
def isTake (a : Nat) : Bool := decide (0x40040020 ≤ a) && decide (a < 0x40040060) && a % 0x10 == 0

/-- BUS_ACCESS_TIMEOUT: no acknowledge within 1024 SYS cycles: a bus error and no effect (R17); a core's access to TAKEn
never times out (R420). -/
def execBusAccessTimeout (agent : Fin 5) (addr : Word) (s : State) : Host.Outcome State Fault Refusal :=
  .next <| s.coreDev agent.val fun d =>
    if agent.val = 4 then d.answer 4 .busError else if isTake addr.toNat then d else d.busFail agent.val addr.toNat

/-! ### The debug port (R7, R114, R413) -/

namespace Dev

/-- Keeps words for later debug reads of registers. -/
def dbgLatch (d : Dev) (l : List (Nat × Word)) : Dev :=
  { d with dbg := l ++ d.dbg.filter fun p => !l.any fun q => q.1 == p.1 }

/-- The debug copy of a register, or what a core would read. -/
def dbgWord (d : Dev) (a : Nat) (w : Word) : Word :=
  match d.dbg.find? fun p => p.1 == a with
  | some p => p.2
  | none => w

/-- A debug read of a register: nothing that the cores see changes (R7). -/
def debugRead (d : Dev) (a : Nat) : Dev :=
  let off := a % 0x1000
  let ans (d : Dev) (w : Word) : Dev := d.answer 4 (.data w)
  if a = 0x40050000 then
    ans (d.dbgLatch [(R.TIME_SEC_LO_SEC.addr, word d.time.sec), (R.TIME_SEC_HI_SEC.addr, word (d.time.sec / 2 ^ 32)),
      (R.TIME_SHORT_TIME.addr, d.shortTime)]) (word d.time.ns)
  else if a = 0x40004010 ∨ a = 0x40004018 ∨ a = 0x40004020 then d.readColoLo 4 ((a - 0x40004010) / 8)
  else if a = 0x40004014 ∨ a = 0x4000401C ∨ a = 0x40004024 then ans d (d.coloHi 4 ((a - 0x40004014) / 8))
  else if a = R.ACC_LOG_W0_WORD.addr then
    match d.acc.latch, d.acc.fifo with
    | some e, _ => ans (d.dbgLatch (logCopy e)) e.w0
    | none, e :: _ => ans (d.dbgLatch (logCopy e)) e.w0
    | none, [] => ans d 0
  else if a = R.ACC_LOG_W1_WORD.addr then ans d (d.dbgWord a (d.logWord 1))
  else if a = R.ACC_LOG_W2_WORD.addr then ans d (d.dbgWord a (d.logWord 2))
  else if a = R.ACC_LOG_W3_WORD.addr then ans d (d.dbgWord a (d.logWord 3))
  else if 0x40010000 ≤ a ∧ a < 0x40014000 ∧ off = (R.ADC_QTIME_STAMP 0).addr % 0x1000 then
    ans d (match (d.adc ((a - 0x40010000) / 0x1000)).queue with | e :: _ => e.2 | [] => 0)
  else if 0x40014100 ≤ a ∧ a < 0x40014700 ∧ off % 0x40 = 0x1C then
    let n := (off - 0x100) / 0x40
    ans (d.dbgLatch [((R.SDF_CH_STAMP_TIME n).addr, (d.sd n).stamp)]) (d.regWord a)
  else ans d (d.dbgWord a (d.regWord a))
where
  /-- LOG_W1 to LOG_W3 of an entry. -/
  logCopy (e : LogEntry) : List (Nat × Word) :=
    [(R.ACC_LOG_W1_WORD.addr, e.stamp), (R.ACC_LOG_W2_WORD.addr, e.ctx), (R.ACC_LOG_W3_WORD.addr, e.w3)]

end Dev

/-- The operation words in the Strand store of a physical Stake: the Strands of the logical Stake bound to it, in the order
of their sections; a Stake that is bound to none has been filled with nothing (R116, log entry 153). -/
def Dev.strandStore (d : Dev) (lane phys : Nat) : List (BitVec 64) :=
  match (List.range 32).find? fun k => d.servedBy lane k == phys with
  | some k => (d.pat.strands.filter fun s => s.stake == k).flatMap fun s => s.ops
  | none => []

/-- The debug port reads half an operation word of a Strand store (R116). A word that the loader has not filled is a free
value (log entries 10 and 153). -/
def Dev.strandRead (d : Dev) (c : StrandCell) : Dev :=
  match (d.strandStore c.lane.val c.phys.val)[c.idx.val]? with
  | some w => d.answer 4 (.data (word (w.toNat / 2 ^ (32 * b2n c.hi))))
  | none => d.freeWord.2.answer 4 (.data d.freeWord.1)

/-- A debug read of the memory map: memory or a register (R7, R20). The port has no cache; a double-bit error, or a row out
of use, is answered with a bus error and raises nothing (R7). -/
def State.debugLoad (s : State) (size : Size) (addr : Nat) (ecc : Ecc) : Host.Outcome State Fault Refusal :=
  match route 4 addr with
  | none => .next (s.onDev fun d => d.answer 4 .busError)
  | some (.regs, a) =>
    if s.d.regError size a then .next (s.onDev fun d => d.answer 4 .busError)
    else if bareBlock a then .refused (.noLayout a)
    else .next (s.onDev fun d => d.debugRead a)
  | some (p, a) =>
    .next <| s.onDev fun d =>
      if !d.permits p .load size a || d.rowGone a || (p.hasEcc && ecc == .double) then d.answer 4 .busError
      else if d.bankWaits p a then d
      else d.answer 4 (.data (word (Mem.num s.mem a (accessBytes size))))

/-- DEBUG_READ: of the memory map (R7), or of a Strand store (R116). -/
def execDebugRead (size : Size) (addr : DebugPlace) (ecc : Ecc) (s : State) : Host.Outcome State Fault Refusal :=
  match addr with
  | .strand c => .next (s.onDev fun d => d.strandRead c)
  | .mem a => s.debugLoad size a.toNat ecc

/-- DEBUG_WRITE: a debug-port write under the access rules; no cache watches it (R114, R413). A store shorter than a word
makes no ECC check of the word that it merges into (DESIGN CHOICE, log entry 138: R21 speaks of the data returned); a row out of use raises the source of its
memory (R514). -/
def execDebugWrite (size : Size) (addr data : Word) (s : State) : Host.Outcome State Fault Refusal :=
  match route 4 addr.toNat with
  | none => .next (s.onDev fun d => d.answer 4 .busError)
  | some (.regs, a) =>
    if s.d.regError size a then .next (s.onDev fun d => d.answer 4 .busError)
    else if bareBlock a then .refused (.noLayout a)
    else .next ((s.onDev fun d => d.answer 4 .none).regWrite 4 a data)
  | some (p, a) =>
    .next <|
      if !s.d.permits p .store size a then s.onDev fun d => d.answer 4 .busError
      else if s.d.rowGone a then s.onDev fun d => (d.eccDouble p a).answer 4 .busError
      else
        let n := accessBytes size
        { s with mem := Mem.wrNum s.mem a n (data.toNat % 2 ^ (8 * n)), d := s.d.answer 4 .none }

/-! ### Scrubbing (R21, R505) -/

/-- The SRAM that the scrubber visits: the 6 MiB of R21. -/
def scrubbed : Place → Bool
  | .sram | .lane _ | .arch | .msgCan | .msgEth | .pattern => true
  | _ => false

/-- A corrected error found in a row; the fourth marks the row weak and raises SRAM_ROW_WEAK (R505). -/
def Dev.rowHit (d : Dev) (a : Nat) (mac : Fin 100) (row : Fin 128) : Dev :=
  let k := mac.val * 128 + row.val
  let n := Sparse.at' 0 d.rowHits k + 1
  let d := { d with rowHits := Sparse.put 0 d.rowHits k n }
  if n = 4 then
    { d with weak := d.weak ++ [BadUnit.row mac row (word (a / 512 * 512))] }.raise islGUARD 167 (mac.val + row.val * 128)
  else d

/-- SCRUB_WORD: the scrubber reads a word, in a macro and row (R21, R505). -/
def execScrubWord (addr : Word) (ecc : Ecc) (mac : Fin 100) (row : Fin 128) (s : State) :
    Host.Outcome State Fault Refusal :=
  .next <|
    match route 4 addr.toNat with
    | none => s
    | some (p, a) => s.onDev fun d =>
      if !scrubbed p || d.rowGone a then d
      else
        match ecc with
        | .none => d
        | .single => (d.eccSingle p mac.val).rowHit a mac row
        | .double => d.eccDouble p a

/-! ### Handshakes on the channels (R13, R15, R16) -/

/-- The island that sends on a channel (R16). -/
def channelSender (ch : Nat) : Nat :=
  if ch < 2 then 8
  else if ch < 4 then 9
  else if ch = 4 then 10
  else if ch = 5 then 6
  else if ch = 6 then 7
  else if ch = 7 then 13
  else if 0x10 ≤ ch ∧ ch ≤ 0x12 then 4
  else if ch = 0x13 ∨ ch = 0x1B then 2
  else if 0x18 ≤ ch ∧ ch ≤ 0x1A then 5
  else if ch = 0x1C then 3
  else if ch = 0x20 ∨ ch = 0x21 ∨ ch = 0x28 then 8
  else if ch = 0x22 ∨ ch = 0x23 ∨ ch = 0x29 then 9
  else if ch = 0x2A then 10
  else if 0x30 ≤ ch ∧ ch ≤ 0x3D then ch - 0x30
  else if 0x40 ≤ ch ∧ ch ≤ 0x4D then ch - 0x40
  else 3

/-- The oldest word of a channel for a receiver that has not been acknowledged, changed by `f`. -/
def onHandshake (ch recv : Nat) (f : HEntry → HEntry) : List HEntry → List HEntry
  | [] => []
  | e :: t => if e.ch == ch && e.recv == recv && !e.acked then f e :: t else e :: onHandshake ch recv f t

namespace Dev

def handshake (d : Dev) (ch recv : Nat) : Option HEntry := d.hoop.find? fun e => e.ch == ch && e.recv == recv && !e.acked

/-- What a receiver without a command of its own does with a word that it takes: Colophon changes, events at the
converters and SDF, window comparator states, and SAFE decisions at the Archive; the others wait, acknowledged, for the
command that consumes them, and a lane fault's report is signalled to LANE as it arrives (R109, R380). -/
def deliverWord (d : Dev) (ch recv : Nat) (w : HWord) : Dev :=
  let rest : Dev := match takeFirst (fun e => e.ch == ch && e.recv == recv && e.acked && e.w == w) d.hoop with
    | some x => { d with hoop := x.2 }
    | none => d
  match w with
  | .colophon delta => rest.takeColophon (if ch = 0x13 then 0 else 1) delta
  | .event kind unit time =>
    if recv = 8 ∨ recv = 9 then rest.adcEvent recv kind unit time
    else if recv = 10 then rest.sdPeriod unit
    else d
  | .wcState conv wc out =>
    let k := (recv - 6) * 32 + conv * 8 + wc
    { rest with gsup := { rest.gsup with wc := Sparse.put false rest.gsup.wc k out } }
  | .report r => d.laneSignal r
  | .safe t => rest.archTrigger 4 t
  | _ => d

end Dev

/-- HOOP_STALL: a handshake not completed within 100 ns of REQ; raised once for it, the word stays held (R15). -/
def execHoopStall (ch : Fin 256) (recv : Fin 14) (s : State) : Host.Outcome State Fault Refusal :=
  .next <| s.onDev fun d =>
    match d.handshake ch.val recv.val with
    | some e =>
      if e.stalled then d
      else
        let d := { d with hoop := onHandshake ch.val recv.val (fun e => { e with stalled := true }) d.hoop }
        d.raise (channelSender ch.val) 85 (ch.val + recv.val * 256)
    | none => d

/-- HOOP_HANDSHAKE_COMPLETE: the receiver acknowledges the oldest word (R13). -/
def execHoopHandshakeComplete (ch : Fin 256) (recv : Fin 14) (s : State) : Host.Outcome State Fault Refusal :=
  .next <| s.onDev fun d =>
    match d.handshake ch.val recv.val with
    | some e =>
      { d with hoop := onHandshake ch.val recv.val (fun e => { e with acked := true }) d.hoop }.deliverWord
        ch.val recv.val e.w
    | none => d

end Sys2Proof.Machine
end

