-- ==== Sys2Proof/Machine/Stake.lean ====
section
/-! DEFINITION. The 96 operations of a Stake (chapter 05): one meaning each, which is the issue of that operation with its
effect. What an operation computes stands in StakeOps.lean; its results reach its slots when it completes. -/

namespace Sys2Proof.Machine

/-- The effect of an operation that computes `f`: its results for its destination slots, its flags, and SAT_EXPIRE where a
saturation timer crosses its expiry (R161, R167, R168). -/
def computeEffect (n stake : Nat) (f : OpWord → OpIn → OpOut) (q : Issued) (d : Dev) : Dev × Effect :=
  let r := f q.word q.x
  let d := if r.expire then d.raiseLane n 69 (q.word.dst + 2 ^ 10 * stake + 2 ^ 16 * q.run.ls) else d
  (d, { outs := (q.word.writes q.info).zip [r.v, r.v'], flags := r.flags })

/-- The issue of a computing operation. -/
def State.issueOp (s : State) (opc : Nat) (i : Issue) (f : OpWord → OpIn → OpOut) : State :=
  s.issue opc i (computeEffect i.lane.val i.stake.val f)

/-- The word that a port read returns, and the FIFO it empties: a channel port's oldest word, a sample port's word in the
run's snapshot, 0 on an unrouted port (R117). -/
def portRead (n stake : Nat) (q : Issued) (d : Dev) : Dev × Effect :=
  let key := stake * 8 + q.word.imm
  let l := d.lane n
  if d.pat.routes.any fun t => t.kind == 3 && t.dstStake == stake && t.dstPort == q.word.imm then
    match Sparse.at' [] l.fifos key with
    | v :: t => (d.setLane n { l with fifos := Sparse.put [] l.fifos key t }, { outs := [(q.word.dst, v)] })
    | [] => (d, {})
  else (d, { outs := [(q.word.dst, Sparse.at' 0 q.run.snap key)] })

/-- The flag word of the Loop Set on the Stake, which the read clears (R158). -/
def flagRead (n stake : Nat) (q : Issued) (d : Dev) : Dev × Effect :=
  let l := d.lane n
  let key := stake * 16 + q.run.ls
  (d.setLane n { l with flags := Sparse.put {} l.flags key {} },
    { outs := [(q.word.dst, (Sparse.at' {} l.flags key).toWord)] })

/-- NOP (None, 0): No effect; takes an issue cycle and no tag (R161). -/
def execOpNop (i : Issue) (s : State) : Host.Outcome State Fault Refusal :=
  .next (s.issue 0x00 i fun _ d => (d, {}))

/-- PRD (Port, 1): Input port i (R117, R118) (R161). -/
def execOpPrd (i : Issue) (s : State) : Host.Outcome State Fault Refusal :=
  .next (s.issue 0x01 i (portRead i.lane.val i.stake.val))

/-- PWR (Port, 1): Sends a to output port DST; field code i[3:0], END i[4] (R121, R122) (R161). -/
def execOpPwr (i : Issue) (s : State) : Host.Outcome State Fault Refusal :=
  .next (s.issue 0x02 i (portWrite i.lane.val i.stake.val))

/-- RTIME (Port, 1): Short time of the run's trigger, as stamped at its source (R161). -/
def execOpRtime (i : Issue) (s : State) : Host.Outcome State Fault Refusal :=
  .next (s.issueOp 0x03 i (fun _ => Op.rtime))

/-- LD (Memory, 4): Word at offset a + 4·i (R113) (R161). -/
def execOpLd (i : Issue) (s : State) : Host.Outcome State Fault Refusal :=
  .next (s.issue 0x04 i (loadEffect i.lane.val i.stake.val 1))

/-- ST (Memory, 4): Stores b at offset a + 4·i (R113) (R161). -/
def execOpSt (i : Issue) (s : State) : Host.Outcome State Fault Refusal :=
  .next (s.issue 0x05 i fun q => storeEffect i.lane.val i.stake.val [q.x.b] q)

/-- LDP (Memory, 4): DST ← word at a + 4·i; DST + 1 ← next word (R161). -/
def execOpLdp (i : Issue) (s : State) : Host.Outcome State Fault Refusal :=
  .next (s.issue 0x06 i (loadEffect i.lane.val i.stake.val 2))

/-- STP (Memory, 4): Stores b and b′ at a + 4·i and the next word (R161). -/
def execOpStp (i : Issue) (s : State) : Host.Outcome State Fault Refusal :=
  .next (s.issue 0x07 i fun q => storeEffect i.lane.val i.stake.val [q.x.b, q.x.b'] q)

/-- RAISE (Port, 1): Raises STRAND_RAISE with context i (R161). -/
def execOpRaise (i : Issue) (s : State) : Host.Outcome State Fault Refusal :=
  .next (s.issue 0x08 i fun q d => (d.raiseLane i.lane.val 70 q.word.imm, {}))

/-- MOV (Add, 2): a, bit for bit (R161). -/
def execOpMov (i : Issue) (s : State) : Host.Outcome State Fault Refusal :=
  .next (s.issueOp 0x10 i (fun _ => Op.mov))

/-- LDI (Add, 2): i sign-extended to 32 bits (R161). -/
def execOpLdi (i : Issue) (s : State) : Host.Outcome State Fault Refusal :=
  .next (s.issueOp 0x11 i (fun w _ => Op.ldi w))

/-- LDIH (Add, 2): (i << 16) OR a[15:0] (R161). -/
def execOpLdih (i : Issue) (s : State) : Host.Outcome State Fault Refusal :=
  .next (s.issueOp 0x12 i Op.ldih)

/-- GETF (Add, 2): Flag word, then cleared (R158) (R161). -/
def execOpGetf (i : Issue) (s : State) : Host.Outcome State Fault Refusal :=
  .next (s.issue 0x13 i (flagRead i.lane.val i.stake.val))

/-- ADD (Add, 2): a + b (R161). -/
def execOpAdd (i : Issue) (s : State) : Host.Outcome State Fault Refusal :=
  .next (s.issueOp 0x14 i Op.add)

/-- SUB (Add, 2): a − b (R161). -/
def execOpSub (i : Issue) (s : State) : Host.Outcome State Fault Refusal :=
  .next (s.issueOp 0x15 i Op.sub)

/-- ADDI (Add, 2): a + x(i) (R154) (R161). -/
def execOpAddi (i : Issue) (s : State) : Host.Outcome State Fault Refusal :=
  .next (s.issueOp 0x16 i Op.addi)

/-- NEG (Add, 2): −a (R161). -/
def execOpNeg (i : Issue) (s : State) : Host.Outcome State Fault Refusal :=
  .next (s.issueOp 0x17 i Op.neg)

/-- ABS (Add, 2): abs(a) (R161). -/
def execOpAbs (i : Issue) (s : State) : Host.Outcome State Fault Refusal :=
  .next (s.issueOp 0x18 i Op.abs)

/-- ABSD (Add, 2): abs(a − b) (R161). -/
def execOpAbsd (i : Issue) (s : State) : Host.Outcome State Fault Refusal :=
  .next (s.issueOp 0x19 i Op.absd)

/-- CPYS (Add, 2): abs(a) with the sign of b (R161). -/
def execOpCpys (i : Issue) (s : State) : Host.Outcome State Fault Refusal :=
  .next (s.issueOp 0x1A i Op.cpys)

/-- MIN (Add, 2): min(a, b); a NaN operand yields the other (R161). -/
def execOpMin (i : Issue) (s : State) : Host.Outcome State Fault Refusal :=
  .next (s.issueOp 0x1B i Op.min)

/-- MAX (Add, 2): max(a, b); a NaN operand yields the other (R161). -/
def execOpMax (i : Issue) (s : State) : Host.Outcome State Fault Refusal :=
  .next (s.issueOp 0x1C i Op.max)

/-- MID3 (Add, 2): Median of a, b, c (R161). -/
def execOpMid3 (i : Issue) (s : State) : Host.Outcome State Fault Refusal :=
  .next (s.issueOp 0x1D i Op.mid3)

/-- CLAMP (Add, 2): max(c, min(c′, a)) (R161). -/
def execOpClamp (i : Issue) (s : State) : Host.Outcome State Fault Refusal :=
  .next (s.issueOp 0x1E i Op.clamp)

/-- SEL (Add, 2): c ≠ 0 ? a : b, bit for bit (R161). -/
def execOpSel (i : Issue) (s : State) : Host.Outcome State Fault Refusal :=
  .next (s.issueOp 0x1F i (fun _ => Op.sel))

/-- CMPLT (Add, 2): a < b (R161). -/
def execOpCmplt (i : Issue) (s : State) : Host.Outcome State Fault Refusal :=
  .next (s.issueOp 0x20 i Op.cmplt)

/-- CMPLE (Add, 2): a ≤ b (R161). -/
def execOpCmple (i : Issue) (s : State) : Host.Outcome State Fault Refusal :=
  .next (s.issueOp 0x21 i Op.cmple)

/-- CMPEQ (Add, 2): a = b (R161). -/
def execOpCmpeq (i : Issue) (s : State) : Host.Outcome State Fault Refusal :=
  .next (s.issueOp 0x22 i Op.cmpeq)

/-- CMPNE (Add, 2): a ≠ b; true when either operand is NaN (R161). -/
def execOpCmpne (i : Issue) (s : State) : Host.Outcome State Fault Refusal :=
  .next (s.issueOp 0x23 i Op.cmpne)

/-- HYST (Add, 2): 1 if a > c′; 0 if a < c; otherwise d (R161). -/
def execOpHyst (i : Issue) (s : State) : Host.Outcome State Fault Refusal :=
  .next (s.issueOp 0x24 i Op.hyst)

/-- ISAT (Add, 2): a ≤ c or a ≥ c′ (R161). -/
def execOpIsat (i : Issue) (s : State) : Host.Outcome State Fault Refusal :=
  .next (s.issueOp 0x25 i Op.isat)

/-- SGN (Add, 2): −1, 0 or +1 by the sign of a; +1 is 0x7FFF_FFFF in Q1.31 (R161). -/
def execOpSgn (i : Issue) (s : State) : Host.Outcome State Fault Refusal :=
  .next (s.issueOp 0x26 i Op.sgn)

/-- AVG (Add, 2): (a + b) / 2 (R161). -/
def execOpAvg (i : Issue) (s : State) : Host.Outcome State Fault Refusal :=
  .next (s.issueOp 0x27 i Op.avg)

/-- DZONE (Add, 2): 0 if abs(a) ≤ abs(b); otherwise a − abs(b)·sign(a) (R161). -/
def execOpDzone (i : Issue) (s : State) : Host.Outcome State Fault Refusal :=
  .next (s.issueOp 0x28 i Op.dzone)

/-- RLIM (Add, 2): d + max(−abs(b), min(abs(b), a − d)) (R161). -/
def execOpRlim (i : Issue) (s : State) : Host.Outcome State Fault Refusal :=
  .next (s.issueOp 0x29 i Op.rlim)

/-- ANGADD (Add, 2): a + b wrapped (R155) (R161). -/
def execOpAngadd (i : Issue) (s : State) : Host.Outcome State Fault Refusal :=
  .next (s.issueOp 0x2A i Op.angadd)

/-- ANGDIFF (Add, 2): a − b wrapped (R155) (R161). -/
def execOpAngdiff (i : Issue) (s : State) : Host.Outcome State Fault Refusal :=
  .next (s.issueOp 0x2B i Op.angdiff)

/-- WRAPA (Add, 2): a wrapped by at most one 2π step (R155) (R161). -/
def execOpWrapa (i : Issue) (s : State) : Host.Outcome State Fault Refusal :=
  .next (s.issueOp 0x2C i Op.wrapa)

/-- LDEXP (Add, 2): a · 2^k (R161). -/
def execOpLdexp (i : Issue) (s : State) : Host.Outcome State Fault Refusal :=
  .next (s.issueOp 0x2D i Op.ldexp)

/-- RINT (Add, 2): a rounded by RND to an integral value (R161). -/
def execOpRint (i : Issue) (s : State) : Host.Outcome State Fault Refusal :=
  .next (s.issueOp 0x2E i Op.rint)

/-- FRAC (Add, 2): a − floor(a) (R161). -/
def execOpFrac (i : Issue) (s : State) : Host.Outcome State Fault Refusal :=
  .next (s.issueOp 0x2F i Op.frac)

/-- CVT (Add, 2): a read in format i[2:0], written in FMT (R161). -/
def execOpCvt (i : Issue) (s : State) : Host.Outcome State Fault Refusal :=
  .next (s.issueOp 0x30 i Op.cvt)

/-- TOI (Add, 2): Signed integer of a · 2^k; NaN gives 0 (R161). -/
def execOpToi (i : Issue) (s : State) : Host.Outcome State Fault Refusal :=
  .next (s.issueOp 0x31 i Op.toi)

/-- TOU (Add, 2): Unsigned integer of a · 2^k; NaN gives 0 (R161). -/
def execOpTou (i : Issue) (s : State) : Host.Outcome State Fault Refusal :=
  .next (s.issueOp 0x32 i Op.tou)

/-- ITO (Add, 2): a read as a signed integer, times 2^−k, in FMT (R161). -/
def execOpIto (i : Issue) (s : State) : Host.Outcome State Fault Refusal :=
  .next (s.issueOp 0x33 i Op.ito)

/-- UTO (Add, 2): a read as an unsigned integer, times 2^−k, in FMT (R161). -/
def execOpUto (i : Issue) (s : State) : Host.Outcome State Fault Refusal :=
  .next (s.issueOp 0x34 i Op.uto)

/-- IPRE (Add, 2): max(c, min(c′, a − b)) (R161). -/
def execOpIpre (i : Issue) (s : State) : Host.Outcome State Fault Refusal :=
  .next (s.issueOp 0x35 i Op.ipre)

/-- SATT (Add, 2): Saturation timer, reset on exit (R161). -/
def execOpSatt (i : Issue) (s : State) : Host.Outcome State Fault Refusal :=
  .next (s.issueOp 0x36 i Op.satt)

/-- SATTL (Add, 2): Saturation timer, leaky (R161). -/
def execOpSattl (i : Issue) (s : State) : Host.Outcome State Fault Refusal :=
  .next (s.issueOp 0x37 i Op.sattl)

/-- IADD (Add, 2): a + b, signed 32-bit (R161). -/
def execOpIadd (i : Issue) (s : State) : Host.Outcome State Fault Refusal :=
  .next (s.issueOp 0x40 i Op.iadd)

/-- ISUB (Add, 2): a − b, signed 32-bit (R161). -/
def execOpIsub (i : Issue) (s : State) : Host.Outcome State Fault Refusal :=
  .next (s.issueOp 0x41 i Op.isub)

/-- IADDI (Add, 2): a + i sign-extended (R161). -/
def execOpIaddi (i : Issue) (s : State) : Host.Outcome State Fault Refusal :=
  .next (s.issueOp 0x42 i Op.iaddi)

/-- IABS (Add, 2): abs(a), signed (R161). -/
def execOpIabs (i : Issue) (s : State) : Host.Outcome State Fault Refusal :=
  .next (s.issueOp 0x43 i Op.iabs)

/-- IMIN (Add, 2): min(a, b), signed (R161). -/
def execOpImin (i : Issue) (s : State) : Host.Outcome State Fault Refusal :=
  .next (s.issueOp 0x44 i (fun _ => Op.imin))

/-- IMAX (Add, 2): max(a, b), signed (R161). -/
def execOpImax (i : Issue) (s : State) : Host.Outcome State Fault Refusal :=
  .next (s.issueOp 0x45 i (fun _ => Op.imax))

/-- AND (Add, 2): a AND b (R161). -/
def execOpAnd (i : Issue) (s : State) : Host.Outcome State Fault Refusal :=
  .next (s.issueOp 0x46 i (fun _ => Op.land))

/-- OR (Add, 2): a OR b (R161). -/
def execOpOr (i : Issue) (s : State) : Host.Outcome State Fault Refusal :=
  .next (s.issueOp 0x47 i (fun _ => Op.lor))

/-- XOR (Add, 2): a XOR b (R161). -/
def execOpXor (i : Issue) (s : State) : Host.Outcome State Fault Refusal :=
  .next (s.issueOp 0x48 i (fun _ => Op.lxor))

/-- ANDN (Add, 2): a AND NOT b (R161). -/
def execOpAndn (i : Issue) (s : State) : Host.Outcome State Fault Refusal :=
  .next (s.issueOp 0x49 i (fun _ => Op.andn))

/-- SHL (Add, 2): a << i[4:0] (R161). -/
def execOpShl (i : Issue) (s : State) : Host.Outcome State Fault Refusal :=
  .next (s.issueOp 0x4A i Op.shl)

/-- SHR (Add, 2): a >> i[4:0], zero fill (R161). -/
def execOpShr (i : Issue) (s : State) : Host.Outcome State Fault Refusal :=
  .next (s.issueOp 0x4B i Op.shr)

/-- SAR (Add, 2): a >> i[4:0], sign fill (R161). -/
def execOpSar (i : Issue) (s : State) : Host.Outcome State Fault Refusal :=
  .next (s.issueOp 0x4C i Op.sar)

/-- ROR (Add, 2): a rotated right by i[4:0] (R161). -/
def execOpRor (i : Issue) (s : State) : Host.Outcome State Fault Refusal :=
  .next (s.issueOp 0x4D i Op.ror)

/-- BFX (Add, 2): (a >> pos) with bits at len and above cleared (R161). -/
def execOpBfx (i : Issue) (s : State) : Host.Outcome State Fault Refusal :=
  .next (s.issueOp 0x4E i Op.bfx)

/-- BFI (Add, 2): d with bits [pos + len − 1 : pos] replaced by a[len − 1:0] (R161). -/
def execOpBfi (i : Issue) (s : State) : Host.Outcome State Fault Refusal :=
  .next (s.issueOp 0x4F i Op.bfi)

/-- ICMPLT (Add, 2): a < b, signed (R161). -/
def execOpIcmplt (i : Issue) (s : State) : Host.Outcome State Fault Refusal :=
  .next (s.issueOp 0x50 i (fun _ => Op.icmplt))

/-- ICMPLTU (Add, 2): a < b, unsigned (R161). -/
def execOpIcmpltu (i : Issue) (s : State) : Host.Outcome State Fault Refusal :=
  .next (s.issueOp 0x51 i (fun _ => Op.icmpltu))

/-- ICMPEQ (Add, 2): a = b (R161). -/
def execOpIcmpeq (i : Issue) (s : State) : Host.Outcome State Fault Refusal :=
  .next (s.issueOp 0x52 i (fun _ => Op.icmpeq))

/-- CLZ (Add, 2): Leading zeros of a, 0 to 32 (R161). -/
def execOpClz (i : Issue) (s : State) : Host.Outcome State Fault Refusal :=
  .next (s.issueOp 0x53 i (fun _ => Op.clz))

/-- POPC (Add, 2): Number of ones in a (R161). -/
def execOpPopc (i : Issue) (s : State) : Host.Outcome State Fault Refusal :=
  .next (s.issueOp 0x54 i (fun _ => Op.popc))

/-- MUL (MAC, 4): a · b (R161). -/
def execOpMul (i : Issue) (s : State) : Host.Outcome State Fault Refusal :=
  .next (s.issueOp 0x58 i Op.mul)

/-- MAC (MAC, 4): a · b + c (R161). -/
def execOpMac (i : Issue) (s : State) : Host.Outcome State Fault Refusal :=
  .next (s.issueOp 0x59 i Op.mac)

/-- MSUB (MAC, 4): c − a · b (R161). -/
def execOpMsub (i : Issue) (s : State) : Host.Outcome State Fault Refusal :=
  .next (s.issueOp 0x5A i Op.msub)

/-- MSBR (MAC, 4): a · b − c (R161). -/
def execOpMsbr (i : Issue) (s : State) : Host.Outcome State Fault Refusal :=
  .next (s.issueOp 0x5B i Op.msbr)

/-- MULI (MAC, 4): a · x(i) (R154) (R161). -/
def execOpMuli (i : Issue) (s : State) : Host.Outcome State Fault Refusal :=
  .next (s.issueOp 0x5C i Op.muli)

/-- SQR (MAC, 4): a · a (R161). -/
def execOpSqr (i : Issue) (s : State) : Host.Outcome State Fault Refusal :=
  .next (s.issueOp 0x5D i Op.sqr)

/-- LPF1 (MAC, 4): d + a · (b − d) (R161). -/
def execOpLpf1 (i : Issue) (s : State) : Host.Outcome State Fault Refusal :=
  .next (s.issueOp 0x5E i Op.lpf1)

/-- INTG (MAC, 4): max(c, min(c′, d + a · b)) (R161). -/
def execOpIntg (i : Issue) (s : State) : Host.Outcome State Fault Refusal :=
  .next (s.issueOp 0x5F i Op.intg)

/-- IMUL (MAC, 4): Low 32 bits of the signed product a · b (R161). -/
def execOpImul (i : Issue) (s : State) : Host.Outcome State Fault Refusal :=
  .next (s.issueOp 0x60 i Op.imul)

/-- IMULH (MAC, 4): High 32 bits of the signed 64-bit product a · b (R161). -/
def execOpImulh (i : Issue) (s : State) : Host.Outcome State Fault Refusal :=
  .next (s.issueOp 0x61 i (fun _ => Op.imulh))

/-- IMAC (MAC, 4): Low 32 bits of a · b + c, signed (R161). -/
def execOpImac (i : Issue) (s : State) : Host.Outcome State Fault Refusal :=
  .next (s.issueOp 0x62 i Op.imac)

/-- SINCOS (CORDIC, 10): DST ← sin a; DST + 1 ← cos a (R161). -/
def execOpSincos (i : Issue) (s : State) : Host.Outcome State Fault Refusal :=
  .next (s.issueOp 0x68 i Op.sincos)

/-- SIN (CORDIC, 10): sin a (R161). -/
def execOpSin (i : Issue) (s : State) : Host.Outcome State Fault Refusal :=
  .next (s.issueOp 0x69 i Op.sin)

/-- COS (CORDIC, 10): cos a (R161). -/
def execOpCos (i : Issue) (s : State) : Host.Outcome State Fault Refusal :=
  .next (s.issueOp 0x6A i Op.cos)

/-- ROT (CORDIC, 10): DST ← a·cos c − b·sin c; DST + 1 ← a·sin c + b·cos c (R161). -/
def execOpRot (i : Issue) (s : State) : Host.Outcome State Fault Refusal :=
  .next (s.issueOp 0x6B i Op.rot)

/-- ATAN2 (CORDIC, 10): atan2(a, b), a the ordinate; atan2(0, 0) = 0 (R161). -/
def execOpAtan2 (i : Issue) (s : State) : Host.Outcome State Fault Refusal :=
  .next (s.issueOp 0x6C i Op.atan2)

/-- HYPOT (CORDIC, 10): √(a² + b²) (R161). -/
def execOpHypot (i : Issue) (s : State) : Host.Outcome State Fault Refusal :=
  .next (s.issueOp 0x6D i Op.hypot)

/-- VEC (CORDIC, 10): DST ← √(a² + b²); DST + 1 ← atan2(a, b) (R161). -/
def execOpVec (i : Issue) (s : State) : Host.Outcome State Fault Refusal :=
  .next (s.issueOp 0x6E i Op.vec)

/-- EXP (CORDIC, 10): e^a (R161). -/
def execOpExp (i : Issue) (s : State) : Host.Outcome State Fault Refusal :=
  .next (s.issueOp 0x6F i Op.exp)

/-- LN (CORDIC, 10): ln a (R161). -/
def execOpLn (i : Issue) (s : State) : Host.Outcome State Fault Refusal :=
  .next (s.issueOp 0x70 i Op.ln)

/-- DIV (Divide, 12): a / b (R161). -/
def execOpDiv (i : Issue) (s : State) : Host.Outcome State Fault Refusal :=
  .next (s.issueOp 0x78 i Op.div)

/-- RECIP (Divide, 12): 1 / a (R161). -/
def execOpRecip (i : Issue) (s : State) : Host.Outcome State Fault Refusal :=
  .next (s.issueOp 0x79 i Op.recip)

/-- SQRT (Divide, 12): √a (R161). -/
def execOpSqrt (i : Issue) (s : State) : Host.Outcome State Fault Refusal :=
  .next (s.issueOp 0x7A i Op.sqrt)

/-- RSQRT (Divide, 12): 1 / √a (R161). -/
def execOpRsqrt (i : Issue) (s : State) : Host.Outcome State Fault Refusal :=
  .next (s.issueOp 0x7B i Op.rsqrt)

/-- IDIV (Divide, 12): a / b, signed, truncated toward zero (R161). -/
def execOpIdiv (i : Issue) (s : State) : Host.Outcome State Fault Refusal :=
  .next (s.issueOp 0x7C i Op.idiv)

/-- IDIVU (Divide, 12): a / b, unsigned, truncated (R161). -/
def execOpIdivu (i : Issue) (s : State) : Host.Outcome State Fault Refusal :=
  .next (s.issueOp 0x7D i (fun _ => Op.idivu))

end Sys2Proof.Machine
end

