-- ==== Sys2Proof/Machine/Dispatch.lean ====
section
/-! DEFINITION. The meaning of every command: one arm per constructor of Instr, each one direct call of the meaning that
stands in a file of Sys2Proof/Machine. -/

namespace Sys2Proof.Machine

def exec (i : Instr) (s : State) : Host.Outcome State Fault Refusal :=
  match i with
  | .registerWrite core addr data => Sys2Proof.Machine.execRegisterWrite core addr data s
  | .coreMemoryAccess core kind size addr data ecc mac parity way => Sys2Proof.Machine.execCoreMemoryAccess core kind size addr data ecc mac parity way s
  | .amoAccess core op addr data ecc mac parity => Sys2Proof.Machine.execAmoAccess core op addr data ecc mac parity s
  | .mcinval core value => Sys2Proof.Machine.execMcinval core value s
  | .busAccessTimeout agent addr => Sys2Proof.Machine.execBusAccessTimeout agent addr s
  | .debugRead size addr ecc => Sys2Proof.Machine.execDebugRead size addr ecc s
  | .scrubWord addr ecc mac row => Sys2Proof.Machine.execScrubWord addr ecc mac row s
  | .hoopStall ch recv => Sys2Proof.Machine.execHoopStall ch recv s
  | .hoopHandshakeComplete ch recv => Sys2Proof.Machine.execHoopHandshakeComplete ch recv s
  | .forkWord ch => Sys2Proof.Machine.execForkWord ch s
  | .samplePortWord lane ch => Sys2Proof.Machine.execSamplePortWord lane ch s
  | .modeReqControl key target preempted => Sys2Proof.Machine.execModeReqControl key target preempted s
  | .modeReqStop key preempted => Sys2Proof.Machine.execModeReqStop key preempted s
  | .modeReqReload key preempted => Sys2Proof.Machine.execModeReqReload key preempted s
  | .modeReqCheck key preempted => Sys2Proof.Machine.execModeReqCheck key preempted s
  | .modeReqService key preempted => Sys2Proof.Machine.execModeReqService key preempted s
  | .modeReqForbidden key target => Sys2Proof.Machine.execModeReqForbidden key target s
  | .modeReqTimeout => Sys2Proof.Machine.execModeReqTimeout s
  | .modeCommit => Sys2Proof.Machine.execModeCommit s
  | .profileWindowUpdate => Sys2Proof.Machine.execProfileWindowUpdate s
  | .powerOnReset => Sys2Proof.Machine.execPowerOnReset s
  | .vddaonBrownout => Sys2Proof.Machine.execVddaonBrownout s
  | .warmResetPin => Sys2Proof.Machine.execWarmResetPin s
  | .rstReqWarm key => Sys2Proof.Machine.execRstReqWarm key s
  | .debugReset => Sys2Proof.Machine.execDebugReset s
  | .resetRelease straps boot pins => Sys2Proof.Machine.execResetRelease straps boot pins s
  | .wdogKick value => Sys2Proof.Machine.execWdogKick value s
  | .wdogExpire => Sys2Proof.Machine.execWdogExpire s
  | .wdogWarmReset => Sys2Proof.Machine.execWdogWarmReset s
  | .xtalQualified => Sys2Proof.Machine.execXtalQualified s
  | .pllLock pll band => Sys2Proof.Machine.execPllLock pll band s
  | .pllLockFail pll => Sys2Proof.Machine.execPllLockFail pll s
  | .pllRetry pll => Sys2Proof.Machine.execPllRetry pll s
  | .referenceLoss => Sys2Proof.Machine.execReferenceLoss s
  | .lossOfLock pll => Sys2Proof.Machine.execLossOfLock pll s
  | .patternLoad => Sys2Proof.Machine.execPatternLoad s
  | .flashNoResponse => Sys2Proof.Machine.execFlashNoResponse s
  | .hostBootImage patLen pattern fwLen entry firmware signature => Sys2Proof.Machine.execHostBootImage patLen pattern fwLen entry firmware signature s
  | .bistComplete bad => Sys2Proof.Machine.execBistComplete bad s
  | .standbyEntry => Sys2Proof.Machine.execStandbyEntry s
  | .extSafe => Sys2Proof.Machine.execExtSafe s
  | .safeNRelease => Sys2Proof.Machine.execSafeNRelease s
  | .colophonSplit => Sys2Proof.Machine.execColophonSplit s
  | .colophonLoRead core which => Sys2Proof.Machine.execColophonLoRead core which s
  | .coefCommit count ls => Sys2Proof.Machine.execCoefCommit count ls s
  | .legCommit leg => Sys2Proof.Machine.execLegCommit leg s
  | .gsupCommit => Sys2Proof.Machine.execGsupCommit s
  | .adcCommit c => Sys2Proof.Machine.execAdcCommit c s
  | .sdfCommit => Sys2Proof.Machine.execSdfCommit s
  | .accCommit => Sys2Proof.Machine.execAccCommit s
  | .accCommitApply => Sys2Proof.Machine.execAccCommitApply s
  | .isoCommit => Sys2Proof.Machine.execIsoCommit s
  | .archCommit => Sys2Proof.Machine.execArchCommit s
  | .loopsetTrigger lane ch => Sys2Proof.Machine.execLoopsetTrigger lane ch s
  | .loopsetRunComplete lane ls cycles => Sys2Proof.Machine.execLoopsetRunComplete lane ls cycles s
  | .loopsetHung lane ls => Sys2Proof.Machine.execLoopsetHung lane ls s
  | .windowFull lane ls => Sys2Proof.Machine.execWindowFull lane ls s
  | .operationComplete lane tag residueFails => Sys2Proof.Machine.execOperationComplete lane tag residueFails s
  | .portWriteComplete lane tag => Sys2Proof.Machine.execPortWriteComplete lane tag s
  | .memoryGrant lane tag ecc => Sys2Proof.Machine.execMemoryGrant lane tag ecc s
  | .opNop x => Sys2Proof.Machine.execOpNop x s
  | .opPrd x => Sys2Proof.Machine.execOpPrd x s
  | .opPwr x => Sys2Proof.Machine.execOpPwr x s
  | .opRtime x => Sys2Proof.Machine.execOpRtime x s
  | .opLd x => Sys2Proof.Machine.execOpLd x s
  | .opSt x => Sys2Proof.Machine.execOpSt x s
  | .opLdp x => Sys2Proof.Machine.execOpLdp x s
  | .opStp x => Sys2Proof.Machine.execOpStp x s
  | .opRaise x => Sys2Proof.Machine.execOpRaise x s
  | .opMov x => Sys2Proof.Machine.execOpMov x s
  | .opLdi x => Sys2Proof.Machine.execOpLdi x s
  | .opLdih x => Sys2Proof.Machine.execOpLdih x s
  | .opGetf x => Sys2Proof.Machine.execOpGetf x s
  | .opAdd x => Sys2Proof.Machine.execOpAdd x s
  | .opSub x => Sys2Proof.Machine.execOpSub x s
  | .opAddi x => Sys2Proof.Machine.execOpAddi x s
  | .opNeg x => Sys2Proof.Machine.execOpNeg x s
  | .opAbs x => Sys2Proof.Machine.execOpAbs x s
  | .opAbsd x => Sys2Proof.Machine.execOpAbsd x s
  | .opCpys x => Sys2Proof.Machine.execOpCpys x s
  | .opMin x => Sys2Proof.Machine.execOpMin x s
  | .opMax x => Sys2Proof.Machine.execOpMax x s
  | .opMid3 x => Sys2Proof.Machine.execOpMid3 x s
  | .opClamp x => Sys2Proof.Machine.execOpClamp x s
  | .opSel x => Sys2Proof.Machine.execOpSel x s
  | .opCmplt x => Sys2Proof.Machine.execOpCmplt x s
  | .opCmple x => Sys2Proof.Machine.execOpCmple x s
  | .opCmpeq x => Sys2Proof.Machine.execOpCmpeq x s
  | .opCmpne x => Sys2Proof.Machine.execOpCmpne x s
  | .opHyst x => Sys2Proof.Machine.execOpHyst x s
  | .opIsat x => Sys2Proof.Machine.execOpIsat x s
  | .opSgn x => Sys2Proof.Machine.execOpSgn x s
  | .opAvg x => Sys2Proof.Machine.execOpAvg x s
  | .opDzone x => Sys2Proof.Machine.execOpDzone x s
  | .opRlim x => Sys2Proof.Machine.execOpRlim x s
  | .opAngadd x => Sys2Proof.Machine.execOpAngadd x s
  | .opAngdiff x => Sys2Proof.Machine.execOpAngdiff x s
  | .opWrapa x => Sys2Proof.Machine.execOpWrapa x s
  | .opLdexp x => Sys2Proof.Machine.execOpLdexp x s
  | .opRint x => Sys2Proof.Machine.execOpRint x s
  | .opFrac x => Sys2Proof.Machine.execOpFrac x s
  | .opCvt x => Sys2Proof.Machine.execOpCvt x s
  | .opToi x => Sys2Proof.Machine.execOpToi x s
  | .opTou x => Sys2Proof.Machine.execOpTou x s
  | .opIto x => Sys2Proof.Machine.execOpIto x s
  | .opUto x => Sys2Proof.Machine.execOpUto x s
  | .opIpre x => Sys2Proof.Machine.execOpIpre x s
  | .opSatt x => Sys2Proof.Machine.execOpSatt x s
  | .opSattl x => Sys2Proof.Machine.execOpSattl x s
  | .opIadd x => Sys2Proof.Machine.execOpIadd x s
  | .opIsub x => Sys2Proof.Machine.execOpIsub x s
  | .opIaddi x => Sys2Proof.Machine.execOpIaddi x s
  | .opIabs x => Sys2Proof.Machine.execOpIabs x s
  | .opImin x => Sys2Proof.Machine.execOpImin x s
  | .opImax x => Sys2Proof.Machine.execOpImax x s
  | .opAnd x => Sys2Proof.Machine.execOpAnd x s
  | .opOr x => Sys2Proof.Machine.execOpOr x s
  | .opXor x => Sys2Proof.Machine.execOpXor x s
  | .opAndn x => Sys2Proof.Machine.execOpAndn x s
  | .opShl x => Sys2Proof.Machine.execOpShl x s
  | .opShr x => Sys2Proof.Machine.execOpShr x s
  | .opSar x => Sys2Proof.Machine.execOpSar x s
  | .opRor x => Sys2Proof.Machine.execOpRor x s
  | .opBfx x => Sys2Proof.Machine.execOpBfx x s
  | .opBfi x => Sys2Proof.Machine.execOpBfi x s
  | .opIcmplt x => Sys2Proof.Machine.execOpIcmplt x s
  | .opIcmpltu x => Sys2Proof.Machine.execOpIcmpltu x s
  | .opIcmpeq x => Sys2Proof.Machine.execOpIcmpeq x s
  | .opClz x => Sys2Proof.Machine.execOpClz x s
  | .opPopc x => Sys2Proof.Machine.execOpPopc x s
  | .opMul x => Sys2Proof.Machine.execOpMul x s
  | .opMac x => Sys2Proof.Machine.execOpMac x s
  | .opMsub x => Sys2Proof.Machine.execOpMsub x s
  | .opMsbr x => Sys2Proof.Machine.execOpMsbr x s
  | .opMuli x => Sys2Proof.Machine.execOpMuli x s
  | .opSqr x => Sys2Proof.Machine.execOpSqr x s
  | .opLpf1 x => Sys2Proof.Machine.execOpLpf1 x s
  | .opIntg x => Sys2Proof.Machine.execOpIntg x s
  | .opImul x => Sys2Proof.Machine.execOpImul x s
  | .opImulh x => Sys2Proof.Machine.execOpImulh x s
  | .opImac x => Sys2Proof.Machine.execOpImac x s
  | .opSincos x => Sys2Proof.Machine.execOpSincos x s
  | .opSin x => Sys2Proof.Machine.execOpSin x s
  | .opCos x => Sys2Proof.Machine.execOpCos x s
  | .opRot x => Sys2Proof.Machine.execOpRot x s
  | .opAtan2 x => Sys2Proof.Machine.execOpAtan2 x s
  | .opHypot x => Sys2Proof.Machine.execOpHypot x s
  | .opVec x => Sys2Proof.Machine.execOpVec x s
  | .opExp x => Sys2Proof.Machine.execOpExp x s
  | .opLn x => Sys2Proof.Machine.execOpLn x s
  | .opDiv x => Sys2Proof.Machine.execOpDiv x s
  | .opRecip x => Sys2Proof.Machine.execOpRecip x s
  | .opSqrt x => Sys2Proof.Machine.execOpSqrt x s
  | .opRsqrt x => Sys2Proof.Machine.execOpRsqrt x s
  | .opIdiv x => Sys2Proof.Machine.execOpIdiv x s
  | .opIdivu x => Sys2Proof.Machine.execOpIdivu x s
  | .adcSeqTrigger c => Sys2Proof.Machine.execAdcSeqTrigger c s
  | .adcSlotGrant pair => Sys2Proof.Machine.execAdcSlotGrant pair s
  | .conversionComplete c x y => Sys2Proof.Machine.execConversionComplete c x y s
  | .injSwRequest c req => Sys2Proof.Machine.execInjSwRequest c req s
  | .injectedTrigger c k => Sys2Proof.Machine.execInjectedTrigger c k s
  | .calStart c => Sys2Proof.Machine.execCalStart c s
  | .calComplete c trims => Sys2Proof.Machine.execCalComplete c trims s
  | .trimBlockEnd c estimates spare => Sys2Proof.Machine.execTrimBlockEnd c estimates spare s
  | .tallyWindowClose c j => Sys2Proof.Machine.execTallyWindowClose c j s
  | .tallyLimit c j => Sys2Proof.Machine.execTallyLimit c j s
  | .qtimeRead core c => Sys2Proof.Machine.execQtimeRead core c s
  | .sdfEnable => Sys2Proof.Machine.execSdfEnable s
  | .sdOutputWord high mid low => Sys2Proof.Machine.execSdOutputWord high mid low s
  | .s1WindowTrunc group k => Sys2Proof.Machine.execS1WindowTrunc group k s
  | .sdStuck n => Sys2Proof.Machine.execSdStuck n s
  | .resamplerEnable n value => Sys2Proof.Machine.execResamplerEnable n value s
  | .resamplerOutput n => Sys2Proof.Machine.execResamplerOutput n s
  | .dcbEstWrite n value => Sys2Proof.Machine.execDcbEstWrite n value s
  | .sdDataRead core n => Sys2Proof.Machine.execSdDataRead core n s
  | .pwmBlockEnable => Sys2Proof.Machine.execPwmBlockEnable s
  | .pwmResync groups => Sys2Proof.Machine.execPwmResync groups s
  | .periodEvent leg => Sys2Proof.Machine.execPeriodEvent leg s
  | .guardWindowOpen leg => Sys2Proof.Machine.execGuardWindowOpen leg s
  | .pwmReload leg misplacedEdge => Sys2Proof.Machine.execPwmReload leg misplacedEdge s
  | .commitWordCmpa lane hi => Sys2Proof.Machine.execCommitWordCmpa lane hi s
  | .commitWordCmpb lane hi => Sys2Proof.Machine.execCommitWordCmpb lane hi s
  | .commitWordPeriod lane hi => Sys2Proof.Machine.execCommitWordPeriod lane hi s
  | .commitWordDt lane hi => Sys2Proof.Machine.execCommitWordDt lane hi s
  | .commitWordEvt lane hi => Sys2Proof.Machine.execCommitWordEvt lane hi s
  | .commitWordEnable lane hi => Sys2Proof.Machine.execCommitWordEnable lane hi s
  | .commitWordReserved lane hi => Sys2Proof.Machine.execCommitWordReserved lane hi s
  | .legEnableRequest leg en => Sys2Proof.Machine.execLegEnableRequest leg en s
  | .legClrFault leg inputsInactive => Sys2Proof.Machine.execLegClrFault leg inputsInactive s
  | .tapDrift leg tap => Sys2Proof.Machine.execTapDrift leg tap s
  | .desatConfirm k => Sys2Proof.Machine.execDesatConfirm k s
  | .guardTrip k => Sys2Proof.Machine.execGuardTrip k s
  | .softoffDelayEnd leg => Sys2Proof.Machine.execSoftoffDelayEnd leg s
  | .drvfltConfirm k => Sys2Proof.Machine.execDrvfltConfirm k s
  | .osvSweepStart k every sample => Sys2Proof.Machine.execOsvSweepStart k every sample s
  | .osvSweepSample k active => Sys2Proof.Machine.execOsvSweepSample k active s
  | .laneCommitWord lane => Sys2Proof.Machine.execLaneCommitWord lane s
  | .partnerMissing lane => Sys2Proof.Machine.execPartnerMissing lane s
  | .laneFault lane => Sys2Proof.Machine.execLaneFault lane s
  | .holdDrainComplete => Sys2Proof.Machine.execHoldDrainComplete s
  | .holdDrainTimeout => Sys2Proof.Machine.execHoldDrainTimeout s
  | .checkVectorComplete failA failB => Sys2Proof.Machine.execCheckVectorComplete failA failB s
  | .mirrorCaptureComplete ls => Sys2Proof.Machine.execMirrorCaptureComplete ls s
  | .mirrorWriteStart ls => Sys2Proof.Machine.execMirrorWriteStart ls s
  | .mirrorWriteComplete ls => Sys2Proof.Machine.execMirrorWriteComplete ls s
  | .laneRestart test key => Sys2Proof.Machine.execLaneRestart test key s
  | .restartCheckComplete fails bad => Sys2Proof.Machine.execRestartCheckComplete fails bad s
  | .restartCopyComplete => Sys2Proof.Machine.execRestartCopyComplete s
  | .laneRestartFail => Sys2Proof.Machine.execLaneRestartFail s
  | .laneSwap key => Sys2Proof.Machine.execLaneSwap key s
  | .faultReport chs => Sys2Proof.Machine.execFaultReport chs s
  | .graceExpiry src ack => Sys2Proof.Machine.execGraceExpiry src ack s
  | .accAck src key => Sys2Proof.Machine.execAccAck src key s
  | .accAckAll key => Sys2Proof.Machine.execAccAckAll key s
  | .accForce src key => Sys2Proof.Machine.execAccForce src key s
  | .logWrite => Sys2Proof.Machine.execLogWrite s
  | .logW0Read core => Sys2Proof.Machine.execLogW0Read core s
  | .logW3Read core => Sys2Proof.Machine.execLogW3Read core s
  | .archEnable => Sys2Proof.Machine.execArchEnable s
  | .archSample ch => Sys2Proof.Machine.execArchSample ch s
  | .archSlotRead ch => Sys2Proof.Machine.execArchSlotRead ch s
  | .archRecordTimeout => Sys2Proof.Machine.execArchRecordTimeout s
  | .archHeaderWritten => Sys2Proof.Machine.execArchHeaderWritten s
  | .archArm => Sys2Proof.Machine.execArchArm s
  | .archDisarm => Sys2Proof.Machine.execArchDisarm s
  | .archSwtrig => Sys2Proof.Machine.execArchSwtrig s
  | .archRelease banks => Sys2Proof.Machine.execArchRelease banks s
  | .armioEdge => Sys2Proof.Machine.execArmioEdge s
  | .dplArmTime => Sys2Proof.Machine.execDplArmTime s
  | .trigioEdge => Sys2Proof.Machine.execTrigioEdge s
  | .archTrigioStuck => Sys2Proof.Machine.execArchTrigioStuck s
  | .trigioPulseEnd => Sys2Proof.Machine.execTrigioPulseEnd s
  | .armioPulseEnd => Sys2Proof.Machine.execArmioPulseEnd s
  | .relayCommand => Sys2Proof.Machine.execRelayCommand s
  | .relaySettle chain => Sys2Proof.Machine.execRelaySettle chain s
  | .relayReadbackChange relay level => Sys2Proof.Machine.execRelayReadbackChange relay level s
  | .weldStepTimeout => Sys2Proof.Machine.execWeldStepTimeout s
  | .isoWeldDue => Sys2Proof.Machine.execIsoWeldDue s
  | .isoWeldOverdue => Sys2Proof.Machine.execIsoWeldOverdue s
  | .clrWeld key => Sys2Proof.Machine.execClrWeld key s
  | .setWeld key => Sys2Proof.Machine.execSetWeld key s
  | .testPulseStart supply => Sys2Proof.Machine.execTestPulseStart supply s
  | .testPulseEnd supply => Sys2Proof.Machine.execTestPulseEnd supply s
  | .sinPreSample levels => Sys2Proof.Machine.execSinPreSample levels s
  | .sinInSample supply levels => Sys2Proof.Machine.execSinInSample supply levels s
  | .sealSample levels => Sys2Proof.Machine.execSealSample levels s
  | .take core target => Sys2Proof.Machine.execTake core target s
  | .giveYield core => Sys2Proof.Machine.execGiveYield core s
  | .giveWait core all group ticks => Sys2Proof.Machine.execGiveWait core all group ticks s
  | .giveDelay core ticks => Sys2Proof.Machine.execGiveDelay core ticks s
  | .giveUntil core ticks => Sys2Proof.Machine.execGiveUntil core ticks s
  | .giveExit core => Sys2Proof.Machine.execGiveExit core s
  | .giveSuspend core => Sys2Proof.Machine.execGiveSuspend core s
  | .cmdStart core slot => Sys2Proof.Machine.execCmdStart core slot s
  | .cmdSuspend core slot => Sys2Proof.Machine.execCmdSuspend core slot s
  | .cmdResume core slot => Sys2Proof.Machine.execCmdResume core slot s
  | .cmdStop core slot => Sys2Proof.Machine.execCmdStop core slot s
  | .flagSet group bits => Sys2Proof.Machine.execFlagSet group bits s
  | .flagClear group bits isls => Sys2Proof.Machine.execFlagClear group bits isls s
  | .flagRequest isl => Sys2Proof.Machine.execFlagRequest isl s
  | .shelfTick isls => Sys2Proof.Machine.execShelfTick isls s
  | .circStarve slot => Sys2Proof.Machine.execCircStarve slot s
  | .circRunLong slot => Sys2Proof.Machine.execCircRunLong slot s
  | .coreDebugHalt core => Sys2Proof.Machine.execCoreDebugHalt core s
  | .timeNsRead core => Sys2Proof.Machine.execTimeNsRead core s
  | .timeAdjustStart k => Sys2Proof.Machine.execTimeAdjustStart k s
  | .timeAdjustEnd => Sys2Proof.Machine.execTimeAdjustEnd s
  | .timeStepRequest => Sys2Proof.Machine.execTimeStepRequest s
  | .timeStep => Sys2Proof.Machine.execTimeStep s
  | .comparatorArm k mode => Sys2Proof.Machine.execComparatorArm k mode s
  | .timeComparatorFire k => Sys2Proof.Machine.execTimeComparatorFire k s
  | .secondCarry => Sys2Proof.Machine.execSecondCarry s
  | .ppsOutEnd => Sys2Proof.Machine.execPpsOutEnd s
  | .ppsInEdge => Sys2Proof.Machine.execPpsInEdge s
  | .timePpsLoss => Sys2Proof.Machine.execTimePpsLoss s
  | .ethFrameReceived mac frame fcsBad => Sys2Proof.Machine.execEthFrameReceived mac frame fcsBad s
  | .ethTxStart mac => Sys2Proof.Machine.execEthTxStart mac s
  | .ethLaunchTime mac q => Sys2Proof.Machine.execEthLaunchTime mac q s
  | .ethTxComplete mac => Sys2Proof.Machine.execEthTxComplete mac s
  | .ethTxKick mac q => Sys2Proof.Machine.execEthTxKick mac q s
  | .mdioGo data reg phy op => Sys2Proof.Machine.execMdioGo data reg phy op s
  | .mdioComplete read => Sys2Proof.Machine.execMdioComplete read s
  | .ethMdioTimeout => Sys2Proof.Machine.execEthMdioTimeout s
  | .ethLinkChange mac up => Sys2Proof.Machine.execEthLinkChange mac up s
  | .canEnable bus => Sys2Proof.Machine.execCanEnable bus s
  | .canFrameReceived bus f => Sys2Proof.Machine.execCanFrameReceived bus f s
  | .dplFrameReceived f => Sys2Proof.Machine.execDplFrameReceived f s
  | .canTxRequest bus slots => Sys2Proof.Machine.execCanTxRequest bus slots s
  | .canTxAbort bus slots => Sys2Proof.Machine.execCanTxAbort bus slots s
  | .canArbitrationEntry bus => Sys2Proof.Machine.execCanArbitrationEntry bus s
  | .canTxAttemptEnd bus res => Sys2Proof.Machine.execCanTxAttemptEnd bus res s
  | .canRecover bus key => Sys2Proof.Machine.execCanRecover bus key s
  | .canRecoveryComplete bus => Sys2Proof.Machine.execCanRecoveryComplete bus s
  | .canRejoin bus => Sys2Proof.Machine.execCanRejoin bus s
  | .inboxDone bus inbox idx => Sys2Proof.Machine.execInboxDone bus inbox idx s
  | .receiptDone bus idx => Sys2Proof.Machine.execReceiptDone bus idx s
  | .dplEnable => Sys2Proof.Machine.execDplEnable s
  | .dplHeartbeatDue => Sys2Proof.Machine.execDplHeartbeatDue s
  | .dplPeerTimeout k => Sys2Proof.Machine.execDplPeerTimeout k s
  | .dplTokenRefill => Sys2Proof.Machine.execDplTokenRefill s
  | .dplPeerFree k => Sys2Proof.Machine.execDplPeerFree k s
  | .dplKeyWrite key x value => Sys2Proof.Machine.execDplKeyWrite key x value s
  | .sscEnable en => Sys2Proof.Machine.execSscEnable en s
  | .clockGateWrite blocks => Sys2Proof.Machine.execClockGateWrite blocks s
  | .pwrbEpoch power tj => Sys2Proof.Machine.execPwrbEpoch power tj s
  | .ledgerEnable => Sys2Proof.Machine.execLedgerEnable s
  | .ledgerAgeTick => Sys2Proof.Machine.execLedgerAgeTick s
  | .ledgerPoint ro margin => Sys2Proof.Machine.execLedgerPoint ro margin s
  | .ledgerPointNow ro margin => Sys2Proof.Machine.execLedgerPointNow ro margin s
  | .ledgerMeasStart => Sys2Proof.Machine.execLedgerMeasStart s
  | .ledgerMeasTrigger current => Sys2Proof.Machine.execLedgerMeasTrigger current s
  | .ledgerMeasComplete survived v1re v1im i1re i1im => Sys2Proof.Machine.execLedgerMeasComplete survived v1re v1im i1re i1im s
  | .repairRun commit key => Sys2Proof.Machine.execRepairRun commit key s
  | .repairRunComplete bad => Sys2Proof.Machine.execRepairRunComplete bad s
  | .readToClear core addr => Sys2Proof.Machine.execReadToClear core addr s
  | .debugWrite size addr data => Sys2Proof.Machine.execDebugWrite size addr data s
  | .crystalNotQualified => Sys2Proof.Machine.execCrystalNotQualified s
  | .trigioReadsHigh => Sys2Proof.Machine.execTrigioReadsHigh s
  | .safeNLineChange low => Sys2Proof.Machine.execSafeNLineChange low s
  | .powerDown => Sys2Proof.Machine.execPowerDown s
  | .canRxError bus code eights => Sys2Proof.Machine.execCanRxError bus code eights s

end Sys2Proof.Machine
end

