-- ==== Sys2Proof/Safety.lean ====
section
/-! DEFINITION. What the statements speak of: a command that completes, the registers that it leaves alone, the words it
puts on the channels, and the canonical form of a state. -/

namespace Sys2Proof.Machine

/-- The command answers a next state, and `P` holds of it. -/
def Gives (c : Instr) (s : State) (P : State → Prop) : Prop := ∃ t, exec c s = .next t ∧ P t

/-- The command answers exactly this next state. -/
def Leads (c : Instr) (s t : State) : Prop := exec c s = .next t

/-- Every bit of every register reads in `e` as in `d`, but for the bits of the listed fields. -/
def RegsBut (fs : List Fld) (d e : Dev) : Prop :=
  ∀ a j, (∀ f ∈ fs, ¬(f.addr = a ∧ f.lo ≤ j ∧ j < f.lo + f.w)) →
    (e.rdw a).toNat.testBit j = (d.rdw a).toNat.testBit j

/-- The word by which island `isl` reports source `src` with a context, lane code 2 (none), at the short time of `d`
(R346). -/
def reportOf (d : Dev) (isl src ctx : Nat) (lane : Nat := 2) : HEntry :=
  ⟨0x30 + isl, 3, .report ⟨src, word ctx, lane, d.time.short, false⟩, false, false⟩

/-- The word by which island `isl` asks for event flag `n` (R424). -/
def flagOf (isl n : Nat) : HEntry := ⟨0x40 + isl, 1, .flag n, false, false⟩

/-- The channels hold what they held, and these words after it. -/
def Sends (s t : State) (l : List HEntry) : Prop := t.d.hoop = s.d.hoop ++ l

/-- Registers that a write changes by its fields alone. The others are those of the commands and requests, the enables
with an effect of their own, the commits, keys and ports, and the tables that an engine follows at once. -/
def plainWrite (a : Nat) : Bool :=
  let off := a % 0x1000
  let within (lo hi : Nat) : Bool := decide (lo ≤ off) && decide (off < hi)
  let but (l : List Nat) : Bool := !l.contains off
  let can : List Nat := [0x0, 0x48, 0x4C, 0x54, 0x60, 0x68]
  match a / 0x1000 with
  | 0x40000 => but [0x14, 0x24, 0x30, 0x34]
  | 0x40001 => but [0x20, 0x24]
  | 0x40002 => true
  | 0x40003 => !Dev.ledgerStored a && but [0x0, 0xDC, 0xF0, 0x200]
  | 0x40004 => but [0x44] && !within 0x100 0x200
  | 0x40008 => true
  | 0x40009 => true
  | 0x4000A => but [0x0]
  | 0x40010 => but [0x0, 0x8, 0xC, 0x1C]
  | 0x40011 => but [0x0, 0x8, 0xC, 0x1C]
  | 0x40012 => but [0x0, 0x8, 0xC, 0x1C]
  | 0x40013 => but [0x0, 0x8, 0xC, 0x1C]
  | 0x40014 => if off < 0x100 then but [0x0, 0x8] else within 0x100 0x700 && !([0x0, 0xC, 0x14] : List Nat).contains (off % 0x40)
  | 0x40020 => legPlain off
  | 0x40021 => legPlain off
  | 0x40022 => legPlain off
  | 0x40023 => but [0x0, 0xC]
  | 0x40024 => but [0x0, 0x8] && !(within 0x100 0x400 && off % 0x10 == 0) && !within 0x400 0x460
  | 0x40030 => but [0x4, 0xC, 0x14] && !(within 0x400 0x700 && isFixed ((off - 0x400) / 4))
  | 0x40031 => but [0x0, 0x8, 0xC] && !within 0x40 0x60
  | 0x40032 => but [0x0, 0x8, 0xC, 0x14]
  | 0x40040 => but [0x0, 0xC] && !(within 0x20 0x60 && off % 0x10 == 8) && !within 0x90 0xB0 && !within 0x100 0x900
  | 0x40050 => but [0x18, 0x24] && !(within 0x80 0x100 && off % 0x10 == 0)
  | 0x40051 => but [0x0, 0x20, 0x24] && !(within 0x100 0x180 && off % 0x10 == 0xC)
  | 0x40052 => but [0x0, 0x20, 0x24] && !(within 0x100 0x180 && off % 0x10 == 0xC)
  | 0x40060 =>
    if off < 0x800 then !can.contains off
    else but [0x800, 0x80C] && !within 0x820 0x840 && !(within 0x900 0xB00 && off % 0x10 == 0)
  | 0x40061 => !can.contains off
  | 0x40062 => !can.contains off
  | 0x40063 => !can.contains off
  | _ => false
where
  /-- Registers of a leg's page that are no shadow word, no control, no commit and no live state. -/
  legPlain (off : Nat) : Bool := !([0x4, 0x8, 0xC, 0x10, 0x14, 0x18, 0x1C, 0x20] : List Nat).contains (off % 0x100)

/-- The command that a write of a word to an address is, for the registers whose write is one (chapter titles as in R23). -/
def writeCommand (a : Nat) (v : Word) : Option Instr :=
  let go (i : Instr) : Option Instr := if v.toNat.testBit 0 then some i else none
  match a with
  | 0x40000024 => go (.rstReqWarm (BitVec.ofNat 16 (v.toNat / 0x10000)))
  | 0x40000034 => some (.wdogKick v)
  | 0x400030DC => go .ledgerMeasStart
  | 0x40004044 =>
    if v.toNat.testBit 16 then some (.coefCommit (BitVec.ofNat 7 v.toNat) (Fin.ofNat 16 (bits v.toNat 8 4))) else none
  | 0x40010008 => go (.adcCommit 0)
  | 0x40011008 => go (.adcCommit 1)
  | 0x40012008 => go (.adcCommit 2)
  | 0x40013008 => go (.adcCommit 3)
  | 0x4001001C => some (.injSwRequest 0 (BitVec.ofNat 4 v.toNat))
  | 0x4001101C => some (.injSwRequest 1 (BitVec.ofNat 4 v.toNat))
  | 0x4001201C => some (.injSwRequest 2 (BitVec.ofNat 4 v.toNat))
  | 0x4001301C => some (.injSwRequest 3 (BitVec.ofNat 4 v.toNat))
  | 0x40014008 => go .sdfCommit
  | 0x40023000 => go .pwmBlockEnable
  | 0x4002300C => some (.pwmResync (BitVec.ofNat 16 v.toNat))
  | 0x40024008 => go .gsupCommit
  | 0x40030004 => go .accCommit
  | 0x40031008 => go .isoCommit
  | 0x40032008 => go .archCommit
  | 0x40050024 => go .timeStepRequest
  | _ => none

/-! ### Stake operations in flight -/

/-- The operation code and the issue that a command of the Stake operations names (R161). -/
def opIssue : Instr → Option (Nat × Issue)
  | .opNop i => some (0x00, i)
  | .opPrd i => some (0x01, i)
  | .opPwr i => some (0x02, i)
  | .opRtime i => some (0x03, i)
  | .opLd i => some (0x04, i)
  | .opSt i => some (0x05, i)
  | .opLdp i => some (0x06, i)
  | .opStp i => some (0x07, i)
  | .opRaise i => some (0x08, i)
  | .opMov i => some (0x10, i)
  | .opLdi i => some (0x11, i)
  | .opLdih i => some (0x12, i)
  | .opGetf i => some (0x13, i)
  | .opAdd i => some (0x14, i)
  | .opSub i => some (0x15, i)
  | .opAddi i => some (0x16, i)
  | .opNeg i => some (0x17, i)
  | .opAbs i => some (0x18, i)
  | .opAbsd i => some (0x19, i)
  | .opCpys i => some (0x1A, i)
  | .opMin i => some (0x1B, i)
  | .opMax i => some (0x1C, i)
  | .opMid3 i => some (0x1D, i)
  | .opClamp i => some (0x1E, i)
  | .opSel i => some (0x1F, i)
  | .opCmplt i => some (0x20, i)
  | .opCmple i => some (0x21, i)
  | .opCmpeq i => some (0x22, i)
  | .opCmpne i => some (0x23, i)
  | .opHyst i => some (0x24, i)
  | .opIsat i => some (0x25, i)
  | .opSgn i => some (0x26, i)
  | .opAvg i => some (0x27, i)
  | .opDzone i => some (0x28, i)
  | .opRlim i => some (0x29, i)
  | .opAngadd i => some (0x2A, i)
  | .opAngdiff i => some (0x2B, i)
  | .opWrapa i => some (0x2C, i)
  | .opLdexp i => some (0x2D, i)
  | .opRint i => some (0x2E, i)
  | .opFrac i => some (0x2F, i)
  | .opCvt i => some (0x30, i)
  | .opToi i => some (0x31, i)
  | .opTou i => some (0x32, i)
  | .opIto i => some (0x33, i)
  | .opUto i => some (0x34, i)
  | .opIpre i => some (0x35, i)
  | .opSatt i => some (0x36, i)
  | .opSattl i => some (0x37, i)
  | .opIadd i => some (0x40, i)
  | .opIsub i => some (0x41, i)
  | .opIaddi i => some (0x42, i)
  | .opIabs i => some (0x43, i)
  | .opImin i => some (0x44, i)
  | .opImax i => some (0x45, i)
  | .opAnd i => some (0x46, i)
  | .opOr i => some (0x47, i)
  | .opXor i => some (0x48, i)
  | .opAndn i => some (0x49, i)
  | .opShl i => some (0x4A, i)
  | .opShr i => some (0x4B, i)
  | .opSar i => some (0x4C, i)
  | .opRor i => some (0x4D, i)
  | .opBfx i => some (0x4E, i)
  | .opBfi i => some (0x4F, i)
  | .opIcmplt i => some (0x50, i)
  | .opIcmpltu i => some (0x51, i)
  | .opIcmpeq i => some (0x52, i)
  | .opClz i => some (0x53, i)
  | .opPopc i => some (0x54, i)
  | .opMul i => some (0x58, i)
  | .opMac i => some (0x59, i)
  | .opMsub i => some (0x5A, i)
  | .opMsbr i => some (0x5B, i)
  | .opMuli i => some (0x5C, i)
  | .opSqr i => some (0x5D, i)
  | .opLpf1 i => some (0x5E, i)
  | .opIntg i => some (0x5F, i)
  | .opImul i => some (0x60, i)
  | .opImulh i => some (0x61, i)
  | .opImac i => some (0x62, i)
  | .opSincos i => some (0x68, i)
  | .opSin i => some (0x69, i)
  | .opCos i => some (0x6A, i)
  | .opRot i => some (0x6B, i)
  | .opAtan2 i => some (0x6C, i)
  | .opHypot i => some (0x6D, i)
  | .opVec i => some (0x6E, i)
  | .opExp i => some (0x6F, i)
  | .opLn i => some (0x70, i)
  | .opDiv i => some (0x78, i)
  | .opRecip i => some (0x79, i)
  | .opSqrt i => some (0x7A, i)
  | .opRsqrt i => some (0x7B, i)
  | .opIdiv i => some (0x7C, i)
  | .opIdivu i => some (0x7D, i)
  | _ => none

/-- Operation `q` of issue `i` issues with its operation code and takes a tag (R129 to R137), is enabled by its predicate
and meets no ECC event (R115, R159). -/
def Clear (s : State) (opc : Nat) (i : Issue) (q : Issued) : Prop :=
  (∃ lss, s.turn opc i = .take q lss) ∧ q.enabled = true ∧ i.upset = .none

/-- The registers of a lane that an issue may change: CHAIN.MISS, STALL, TAGS_FREE, MIN_FREE, LS_RUN. -/
def laneFields (n : Nat) : List Fld :=
  [R.WV_CHAIN_MISS n, R.WV_STALL_CYCLES n, R.WV_STATUS_TAGS_FREE n, R.WV_WINDOW_MIN_FREE n, R.WV_LS_RUN_RUNNING n,
    R.WV_LS_RUN_PENDING n]

/-- The operation has left its stream in lane `n`, and every other stream and run of the lane stands as it did. -/
def LeftStream (s t : State) (i : Issue) (q : Issued) : Prop :=
  (t.d.lane i.lane.val).runs.map Run.ls = (s.d.lane i.lane.val).runs.map Run.ls ∧
  ∀ r ∈ (t.d.lane i.lane.val).runs, ∃ r₀ ∈ (s.d.lane i.lane.val).runs, r.ls = r₀.ls ∧ r.no = r₀.no ∧ r.snap = r₀.snap ∧
    ∀ k, Sparse.at' [] r.streams k =
      if r.ls = q.run.ls ∧ k = i.stake.val then (Sparse.at' [] r₀.streams k).filter fun o => o.1 != q.idx
      else Sparse.at' [] r₀.streams k

/-- The issue has put one more entry in flight in its lane, with a tag that was free, which will write the words `outs`
(slot, word) and OR the flags `fl` when it completes, and waits for `act`; it has sent the words `sent`, and the rest of
the lane is that of `l`, but for what it keeps of its cycles: the Stake's last issue and the issue queues. Nothing is
written yet: memory, the other lane, and every register but the lane's own counters stay. -/
def Flies (s t : State) (i : Issue) (q : Issued) (outs : List (Nat × Word)) (fl : Flags) (act : OpAct := .none)
    (sent : List HEntry := []) (l : Lane := s.d.lane i.lane.val) : Prop :=
  let n := i.lane.val
  let u := t.d.lane n
  (∃ f, u = { l with
      flight := l.flight ++ [f], runs := u.runs, issued := u.issued, cycle := i.cycle, fetched := u.fetched
      stalled := u.stalled } ∧
    f.tag = s.d.newTag n ∧
    (∀ g ∈ l.flight, g.tag ≠ f.tag) ∧ f.ls = q.run.ls ∧ f.stake = i.stake.val ∧ f.idx = q.idx ∧
    f.writes = q.word.writes q.info ∧ f.outs = outs ∧ f.flags = fl ∧ f.act = act ∧ f.waiting = (act != .none) ∧
    f.cycle = i.cycle) ∧
  (∃ p, Sparse.at' none u.issued i.stake.val = some p ∧ p.cycle = i.cycle ∧ p.ls = q.run.ls ∧ p.idx = q.idx) ∧
  LeftStream s t i q ∧ RegsBut (laneFields n) s.d t.d ∧ (∀ m, m ≠ n → t.d.lane m = s.d.lane m) ∧ Sends s t sent ∧
  t = { s with d := { s.d with regs := t.d.regs, hoop := t.d.hoop, lanes := t.d.lanes } }

/-- An integer result: kept in 32 bits, or saturated with flag S, or wrapped with flag V (R152). -/
def intWord (sat : Bool) (z : Int) : Word × Flags :=
  if -(2 ^ 31) ≤ z ∧ z < 2 ^ 31 then (BitVec.ofInt 32 z, {})
  else if sat then (if z < 0 then 0x80000000 else 0x7FFFFFFF, { s := true })
  else (BitVec.ofInt 32 z, { v := true })

/-! ### Values as rational numbers -/

/-- The rational number that a finite value is. -/
def Val.rat : Val → ℚ
  | .fin s n d => if s then -((n : ℚ) / d) else (n : ℚ) / d
  | _ => 0

def Val.finite : Val → Bool
  | .fin _ _ _ => true
  | _ => false

/-- The value is finite and equals the rational number. -/
def Val.Is (v : Val) (x : ℚ) : Prop := (∃ s n d, v = .fin s n d ∧ 0 < d) ∧ v.rat = x

/-- The place of a value that is not NaN among the numbers and the two infinities. -/
def Val.place : Val → WithBot (WithTop ℚ)
  | .inf s => if s then ⊥ else ((⊤ : WithTop ℚ) : WithBot (WithTop ℚ))
  | v => ((v.rat : WithTop ℚ) : WithBot (WithTop ℚ))

/-- A rational number rounded to an integer in each of the four directions (R151). -/
def rndInt (r : Rnd) (x : ℚ) : Int :=
  match r with
  | .zero => if x < 0 then ⌈x⌉ else ⌊x⌋
  | .floor => ⌊x⌋
  | .ceil => ⌈x⌉
  | .even => if x - ⌊x⌋ < 1 / 2 then ⌊x⌋ else if 1 / 2 < x - ⌊x⌋ then ⌊x⌋ + 1 else if ⌊x⌋ % 2 = 0 then ⌊x⌋ else ⌊x⌋ + 1

/-- n is the square root of x rounded to an integer, said by squares. -/
def rootInt (r : Rnd) (x : ℚ) (n : Nat) : Prop :=
  match r with
  | .even => (2 * (n : ℚ) - 1) ^ 2 ≤ 4 * x ∧ 4 * x ≤ (2 * (n : ℚ) + 1) ^ 2 ∧
      (4 * x = (2 * (n : ℚ) - 1) ^ 2 ∨ 4 * x = (2 * (n : ℚ) + 1) ^ 2 → n % 2 = 0)
  | .ceil => 0 < n ∧ ((n : ℚ) - 1) ^ 2 < x ∧ x ≤ (n : ℚ) ^ 2
  | _ => (n : ℚ) ^ 2 ≤ x ∧ x < ((n : ℚ) + 1) ^ 2

/-- The word and flags are the square root of x > 0 rounded once to a format: in a Q format limited or wrapped by `sat`,
in FP32 where it lies inside the normal range or below it. -/
def rootWord (f : Fmt) (r : Rnd) (sat : Bool) (x : ℚ) (o : Word × Flags) : Prop :=
  match f with
  | .fp32 => ∀ e : Int, (4 : ℚ) ^ e ≤ x → x < (4 : ℚ) ^ (e + 1) →
      (-126 ≤ e → e < 127 → ∃ n, rootInt r (x * (4 : ℚ) ^ (23 - e)) n ∧ o.2 = {} ∧
        (readFmt .fp32 o.1).Is (n * (2 : ℚ) ^ (e - 23))) ∧
      (e < -126 → o = (0, {}))
  | _ => ∃ n, rootInt r (x * (4 : ℚ) ^ f.frac) n ∧ o = intWord sat n

/-- The integer `z` is the real number `x` rounded in a direction (R151). -/
def rndReal (r : Rnd) (x : ℝ) (z : Int) : Prop :=
  match r with
  | .zero => (0 ≤ x → (z : ℝ) ≤ x ∧ x < z + 1) ∧ (x < 0 → (z : ℝ) - 1 < x ∧ x ≤ z)
  | .floor => (z : ℝ) ≤ x ∧ x < z + 1
  | .ceil => (z : ℝ) - 1 < x ∧ x ≤ z
  | .even => |x - z| ≤ 1 / 2 ∧ (|x - z| = 1 / 2 → z % 2 = 0)

/-- The word and flags are the real number `x` rounded once to a format, and limited or wrapped where the rounded value
lies outside its range (R151 to R153). -/
def realWord (f : Fmt) (r : Rnd) (o : Ovf) (x : ℝ) (p : Word × Flags) : Prop :=
  match f with
  | .fp32 =>
    (x = 0 → p.1 &&& 0x7FFFFFFF = 0 ∧ p.2 = {}) ∧
    ∀ e : Int, (2 : ℝ) ^ e ≤ |x| → |x| < (2 : ℝ) ^ (e + 1) →
      (e < -126 → p = (if x < 0 then 0x80000000 else 0, {})) ∧
      (-126 ≤ e → ∃ z : Int, rndReal r (x * (2 : ℝ) ^ (23 - e)) z ∧
        let y : ℚ := z * (2 : ℚ) ^ (e - 23)
        if |y| < (2 : ℚ) ^ (128 : Int) then (readFmt .fp32 p.1).Is y ∧ p.2 = {}
        else p = if o = .sat then (if x < 0 then 0xFF7FFFFF else 0x7F7FFFFF, { s := true })
          else (if x < 0 then 0xFF800000 else 0x7F800000, { v := true }))
  | _ => ∃ z : Int, rndReal r (x * (2 : ℝ) ^ f.frac) z ∧
      p = match o with
        | .wrap => intWord false z
        | .angle => (BitVec.ofInt 32 z, {})
        | _ => intWord true z

/-- Memory and the register file stand in their canonical form. -/
def State.canonical (s : State) : Prop := Mem.wf s.mem = true ∧ Sparse.wf resetWord s.d.regs = true

end Sys2Proof.Machine
end

