-- ==== Sys2Proof/Certificates/Slice0/Obligations.lean ====
section
/-! DEFINITION. The statements for the provers, chapter by chapter. `Gives c s P`: command `c` answers a next state with
`P`; `Leads c s t`: it answers exactly `t`; `RegsBut fs`: every bit of every register outside the fields `fs` stays. -/

open Sys2Proof Sys2Proof.Machine

/-- For every state and every command c at the front of its queue, step is exec of c on the state with the queue's rest;
put in front by push, c is what the next step runs; on an empty queue a step is one tick of TIME (log entry 40: the
model's choice). (R6, R436) -/
def Obligations.StepRunsTheFrontCommand : Prop :=
  (∀ (s : State) (c : Instr) (rest : List Instr), s.pending = c :: rest → step s = exec c { s with pending := rest }) ∧
  (∀ (s : State) (c : Instr), step (s.push c) = exec c s) ∧
  (∀ s : State, s.pending = [] → step s = .next (s.onDev Dev.tick))

/-- For every command and state, where exec answers a next state its queue is the queue it was given: so a step takes
exactly the front command off the queue. The queue is the model's own frame of the commands (the spec names the
commands and no queue). (01_architecture_and_signal_path.md) -/
def Obligations.CommandsLeaveTheQueueAlone : Prop :=
  (∀ (c : Instr) (s t : State), exec c s = .next t → t.pending = s.pending) ∧
  (∀ s t : State, step s = .next t → t.pending = s.pending.tail)

/-- From every state whose memory stands in canonical form (addresses strictly rising, no byte listed that reads as an
unlisted byte does), every step that answers a next state gives one whose memory does too. So two memories that read
the same are the same data, whichever commands ran: loads and stores of cores, the debug port, Stake operations, the
Archive, the message RAM engines, the mirror and the loader. (01_architecture_and_signal_path.md, R19, R20) -/
def Obligations.EveryStepKeepsMemoryCanonical : Prop :=
  ∀ s t : State, Mem.wf s.mem = true → step s = .next t → Mem.wf t.mem = true

/-- From every state whose register file stands in canonical form (addresses strictly rising, no register listed that
holds its reset word), every step that answers a next state gives one whose register file does too. So two register
files that read the same are the same data, whichever commands ran: writes of cores, commits, events, faults, resets
and ticks. (01_architecture_and_signal_path.md, R6, R23) -/
def Obligations.EveryStepKeepsTheRegisterFileCanonical : Prop :=
  ∀ s t : State, Sparse.wf resetWord s.d.regs = true → step s = .next t → Sparse.wf resetWord t.d.regs = true

/-- State.reset has MODE.CUR 0 with the power-on reset still asserted, RST_CAUSE with POR alone, DEVID.FAMILY 0xD5 and
PART 0x9640, WDOG.TIMEOUT 0xFFFF with EN 0 (R55), TIME's counters zero and no lane running (R52) while STATUS shows
the lanes as R340 resets them, and memory and register file in canonical form; no fault active and no word on any
channel are the model's choice (log entry 16). (R2, R52, R53, R55, R340) -/
def Obligations.ResetLeavesTheSpecsValues : Prop :=
  let d := State.reset.d
  d.mode = 0 ∧ d.sys.held = .powerOn ∧ d.rdw 0x40000020 = 1 ∧
  d.get R.SYSCTL_DEVID_FAMILY = 0xD5 ∧ d.get R.SYSCTL_DEVID_PART = 0x9640 ∧
  d.get R.SYSCTL_WDOG_TIMEOUT = 0xFFFF ∧ d.get R.SYSCTL_WDOG_EN = 0 ∧
  d.time.sec = 0 ∧ d.time.ns = 0 ∧ d.shortTime = 0 ∧
  (∀ n, n < 2 → d.get (R.WV_STATUS_RUN n) = 0) ∧ d.laneState 0 = 1 ∧ d.laneState 1 = 2 ∧ (∀ i, i < 6 → d.get (R.ACC_ACTIVE_SRC i) = 0) ∧
  d.hoop = [] ∧ State.reset.pending = [] ∧ State.reset.canonical

/-- A core's permitted load or fetch with no ECC or parity error answers the word, half or byte of memory at the address;
where the region is cached it fills the line, and where a line of the core's cache holds the address the line answers.
Nothing else changes: no byte of memory, no register. A load of lane memory whose bank a Stake requests waits: nothing
changes (R134). A core that stands in reset makes no access (log entry 149: DEDUCED). (R19, R134, R412) -/
def Obligations.LoadsAndFetchesAnswerTheWord : Prop :=
  ∀ (core : Fin 4) (instr : Bool) (size : Size) (addr data : Word) (mac : Fin 100) (way : Fin 4) (s : State) (p : Place)
    (a : Nat),
    let c := Instr.coreMemoryAccess core (if instr then .fetch else .load) size addr data .none mac false way
    let key := Dev.cacheKey core.val instr
    let n := accessBytes size
    s.d.coreHeld core.val = false → route core.val addr.toNat = some (p, a) → p ≠ .regs →
    s.d.permits p (if instr then .fetch else .load) size a = true →
    (s.d.bankWaits p a = true → Leads c s s) ∧
    (s.d.bankWaits p a = false → ∀ l, s.d.lineOf key a = some l →
      Leads c s { s with d := s.d.answer core.val (.data (word (l.num a n))) }) ∧
    (s.d.bankWaits p a = false → s.d.lineOf key a = none → s.d.rowGone a = false →
      Gives c s fun t =>
        t.d.resp = (s.d.answer core.val (.data (word (Mem.num s.mem a n)))).resp ∧
        t = { s with d := { s.d with resp := t.d.resp, caches := t.d.caches } } ∧
        (p.cached = false → t.d.caches = s.d.caches) ∧
        (p.cached = true → t.d.lineOf key a =
          some ⟨way.val, a / 32 * 32, (List.range 8).map fun i => Mem.word s.mem (a / 32 * 32 + 4 * i)⟩))

/-- A permitted store of a core (no ECC error) or of the debug port writes the low bytes of the data at the address, low
byte first, and leaves every other byte of memory. No core keeps a reservation of the granule written by a core.
Registers and everything else stay, but the answer, the reservations and the caches; the debug port changes neither of
the last two. The core's own data cache takes the word, the others drop a line of core SRAM, and no instruction cache
changes (R413). That the answer of a completed store is none is the model's (log entry 135: DESIGN CHOICE). (R19, R20,
R413, R414, R114) -/
def Obligations.StoresChangeTheirBytesOnly : Prop :=
  ∀ (size : Size) (addr data : Word) (s : State) (a : Nat) (p : Place), p ≠ .regs →
    let n := accessBytes size
    let stored (t : State) : Prop :=
      (∀ i, i < n → Mem.rd t.mem (a + i) = BitVec.ofNat 8 (data.toNat / 256 ^ i)) ∧
      (∀ b, b < a ∨ a + n ≤ b → Mem.rd t.mem b = Mem.rd s.mem b)
    s.d.permits p .store size a = true → s.d.rowGone a = false →
    (∀ (core : Fin 4) (mac : Fin 100) (parity : Bool) (way : Fin 4), s.d.coreHeld core.val = false → route core.val addr.toNat = some (p, a) →
      (p = .msgCan → s.d.outPending a = false) →
      Gives (.coreMemoryAccess core .store size addr data .none mac parity way) s fun t =>
        stored t ∧ Sparse.at' .none t.d.resp core.val = .none ∧ (∀ k, k < 4 → t.d.holdsResv k a = false) ∧
        (∀ k, k % 2 = 1 → t.d.lines k = s.d.lines k) ∧
        (p = .sram → ∀ c, c < 4 → c ≠ core.val → t.d.lineOf (Dev.cacheKey c false) a = none) ∧
        (∀ l, s.d.lineOf (Dev.cacheKey core.val false) a = some l → t.d.lineOf (Dev.cacheKey core.val false) a =
          some { l with words := l.words.set (a % 32 / 4) (Mem.word t.mem (a / 4 * 4)) }) ∧
        t = { s with mem := t.mem, d := { s.d with resp := t.d.resp, resv := t.d.resv, caches := t.d.caches } }) ∧
    (route 4 addr.toNat = some (p, a) →
      Gives (.debugWrite size addr data) s fun t =>
        stored t ∧ t = { s with mem := t.mem, d := { s.d with resp := t.d.resp } })

/-- In core SRAM or a TCM, aligned and with no ECC error: an AMO answers the old word and stores the word its operation
gives; LR answers the word and reserves its granule; SC stores and answers 0 where the core holds the reservation, and
stores nothing and answers 1 where it does not (the codes 0 and 1, and that SC gives up the reservation, are the
model's, log entry 71; that they act on the memory word itself, and that the access fault below raises no
CORE_BUS_ERR, log entry 136: DESIGN CHOICE); bytes outside the word stay. Elsewhere or misaligned the instruction is
an access fault without effect. MCINVAL with all ones empties both caches of the core. (R413, R414) -/
def Obligations.AtomicsActOnOneWord : Prop :=
  (∀ (core : Fin 4) (op : Amo) (addr data : Word) (mac : Fin 100) (s : State) (p : Place) (a : Nat),
    s.d.coreHeld core.val = false → route core.val addr.toNat = some (p, a) → p.atomic = true → a % 4 = 0 → s.d.rowGone a = false →
    let old := Mem.word s.mem a
    let held := s.d.holdsResv core.val a
    let new : Option Word := match op with
      | .lr => none
      | .sc => if held then some data else none
      | .swap => some data
      | .add => some (old + data)
      | .xor => some (old ^^^ data)
      | .and => some (old &&& data)
      | .or => some (old ||| data)
      | .min => some (if old.toInt ≤ data.toInt then old else data)
      | .max => some (if old.toInt ≤ data.toInt then data else old)
      | .minu => some (if old.toNat ≤ data.toNat then old else data)
      | .maxu => some (if old.toNat ≤ data.toNat then data else old)
    let ans : Word := if op = .sc then (if held then 0 else 1) else old
    Gives (.amoAccess core op addr data .none mac false) s fun t =>
      Sparse.at' .none t.d.resp core.val = .data ans ∧ Mem.word t.mem a = new.getD old ∧
      (∀ b, b < a ∨ a + 4 ≤ b → Mem.rd t.mem b = Mem.rd s.mem b) ∧
      t.d.holdsResv core.val a = (op == .lr) ∧
      t = { s with mem := t.mem, d := { s.d with resp := t.d.resp, resv := t.d.resv, caches := t.d.caches } }) ∧
  (∀ (core : Fin 4) (op : Amo) (addr data : Word) (ecc : Ecc) (mac : Fin 100) (parity : Bool) (s : State),
    s.d.coreHeld core.val = false → (∀ p a, route core.val addr.toNat = some (p, a) → p.atomic = false ∨ a % 4 ≠ 0) →
    Leads (.amoAccess core op addr data ecc mac parity) s (s.onDev fun d => d.answer core.val .accessFault)) ∧
  (∀ (core : Fin 4) (s : State), s.d.coreHeld core.val = false → Gives (.mcinval core 0xFFFFFFFF) s fun t =>
    t.d.lines (Dev.cacheKey core.val false) = [] ∧ t.d.lines (Dev.cacheKey core.val true) = [] ∧
    (∀ k, k / 2 ≠ core.val → t.d.lines k = s.d.lines k) ∧ t = { s with d := { s.d with caches := t.d.caches } })

/-- A core access outside the ranges of R19, or one that the Core access column does not permit, ends in a bus error: the
answer, the report CORE_BUS_ERR with the address, and no other change; so does an access without acknowledge within
1024 SYS cycles, but for a read of TAKEn, which never times out (R420). The debug port gets the bus error alone. A
register access that is no aligned word, or reaches a block whose clock is gated, ends so too. (R17, R20) -/
def Obligations.RefusedAccessesHaveNoEffect : Prop :=
  let failed (s : State) (core a : Nat) : State :=
    { s with d := { s.d.answer core .busError with hoop := s.d.hoop ++ [reportOf s.d 1 125 a] } }
  (∀ (core : Fin 4) (kind : Access) (size : Size) (addr data : Word) (ecc : Ecc) (mac : Fin 100) (parity : Bool)
      (way : Fin 4) (s : State), s.d.coreHeld core.val = false →
    (route core.val addr.toNat = none ∨
      (∃ p a, route core.val addr.toNat = some (p, a) ∧ p ≠ .regs ∧ s.d.permits p kind size a = false) ∨
      (∃ a, route core.val addr.toNat = some (.regs, a) ∧ (kind = .fetch ∨ size ≠ .word ∨ a % 4 ≠ 0 ∨ s.d.gated a = true))) →
    Leads (.coreMemoryAccess core kind size addr data ecc mac parity way) s (failed s core.val addr.toNat)) ∧
  (∀ (core : Fin 4) (addr : Word) (s : State), s.d.coreHeld core.val = false →
    Leads (.busAccessTimeout (core.castLE (by decide)) addr) s
      (if isTake addr.toNat then s else failed s core.val addr.toNat)) ∧
  (∀ (addr : Word) (s : State), Leads (.busAccessTimeout 4 addr) s (s.onDev fun d => d.answer 4 .busError)) ∧
  (∀ (size : Size) (addr data : Word) (s : State),
    (route 4 addr.toNat = none ∨
      ∃ p a, route 4 addr.toNat = some (p, a) ∧ p ≠ .regs ∧ s.d.permits p .store size a = false) →
    Leads (.debugWrite size addr data) s (s.onDev fun d => d.answer 4 .busError))

/-- A load of a core from core SRAM, a TCM, Archive memory, message RAM or the Pattern store with a single-bit error
answers the correct data, adds one to ECC_CORR.COUNT (saturating) and puts the macro in MACRO; with a double-bit error
it answers a bus error, leaves memory as it was and reports the source of the memory concerned, with the address of
the word, and CORE_BUS_ERR. The scrubber, which visits every one of these but the TCMs, counts and reports in the same
way without an answer, and leaves a word without an error; in a lane's memory it counts in that lane's WV_ECC
register, and a double-bit error is a lane fault's report of the lane. Four corrected errors of a row report
SRAM_ROW_WEAK. That a row out of use and an address without SRAM are passed over is the model's choice (log entry 18).
(R21, R22, R345, R505) -/
def Obligations.EccErrorsAreCountedAndReported : Prop :=
  (∀ (core : Fin 4) (size : Size) (addr data : Word) (mac : Fin 100) (way : Fin 4) (s : State) (p : Place) (a : Nat),
    s.d.coreHeld core.val = false → route core.val addr.toNat = some (p, a) → p.hasEcc = true → (∀ n, p ≠ .lane n) →
    s.d.permits p .load size a = true → s.d.rowGone a = false → s.d.lineOf (Dev.cacheKey core.val false) a = none →
    (Gives (.coreMemoryAccess core .load size addr data .single mac false way) s fun t =>
      Sparse.at' .none t.d.resp core.val = .data (word (Mem.num s.mem a (accessBytes size))) ∧
      t.d.get R.SYSCTL_ECC_CORR_COUNT = min (s.d.get R.SYSCTL_ECC_CORR_COUNT + 1) 0xFFFF ∧
      t.d.get R.SYSCTL_ECC_CORR_MACRO = mac.val ∧
      RegsBut [R.SYSCTL_ECC_CORR_COUNT, R.SYSCTL_ECC_CORR_MACRO] s.d t.d ∧
      t = { s with d := { s.d with regs := t.d.regs, resp := t.d.resp, caches := t.d.caches } }) ∧
    (Gives (.coreMemoryAccess core .load size addr data .double mac false way) s fun t =>
      Sparse.at' .none t.d.resp core.val = .busError ∧
      (∃ isl, (isl = 1 ∨ isl = 2) ∧ Sends s t [reportOf s.d isl (dedSource a) (a / 4 * 4), reportOf s.d 1 125 addr.toNat]) ∧
      t = { s with d := { s.d with hoop := t.d.hoop, resp := t.d.resp } })) ∧
  (∀ (addr : Word) (ecc : Ecc) (mac : Fin 100) (row : Fin 128) (s : State),
    (ecc = .none ∨ route 4 addr.toNat = none ∨ (∃ p a, route 4 addr.toNat = some (p, a) ∧ (scrubbed p = false ∨ s.d.rowGone a = true))) →
    Leads (.scrubWord addr ecc mac row) s s) ∧
  (∀ (addr : Word) (mac : Fin 100) (row : Fin 128) (s : State) (p : Place) (a : Nat),
    route 4 addr.toNat = some (p, a) → p ∈ [Place.sram, .lane 0, .lane 1, .arch, .msgCan, .msgEth, .pattern] →
    s.d.rowGone a = false →
    let k := mac.val * 128 + row.val
    (Gives (.scrubWord addr .single mac row) s fun t =>
      (∀ n, p = .lane n → t.d.get (R.WV_ECC_CORR n) = min (s.d.get (R.WV_ECC_CORR n) + 1) 0xFFFF ∧
        RegsBut [R.WV_ECC_CORR n] s.d t.d) ∧
      ((∀ n, p ≠ .lane n) → t.d.get R.SYSCTL_ECC_CORR_COUNT = min (s.d.get R.SYSCTL_ECC_CORR_COUNT + 1) 0xFFFF ∧
        t.d.get R.SYSCTL_ECC_CORR_MACRO = mac.val ∧ RegsBut [R.SYSCTL_ECC_CORR_COUNT, R.SYSCTL_ECC_CORR_MACRO] s.d t.d) ∧
      Sparse.at' 0 t.d.rowHits k = Sparse.at' 0 s.d.rowHits k + 1 ∧
      t.d.hoop = s.d.hoop ++ (if Sparse.at' 0 s.d.rowHits k = 3 then [reportOf s.d 3 167 (mac.val + 128 * row.val)] else []) ∧
      t = { s with d := { s.d with regs := t.d.regs, hoop := t.d.hoop, rowHits := t.d.rowHits, weak := t.d.weak } }) ∧
    (Gives (.scrubWord addr .double mac row) s fun t =>
      (∀ n, p = .lane n → t.d.get (R.WV_ECC_DED n) = min (s.d.get (R.WV_ECC_DED n) + 1) 0xFFFF ∧
        RegsBut [R.WV_ECC_DED n] s.d t.d ∧ Sends s t [reportOf s.d (4 + n) 66 (a % 0x100000 / 4 * 4) n]) ∧
      ((∀ n, p ≠ .lane n) → t.d.regs = s.d.regs ∧ Sends s t [reportOf s.d 2 (dedSource a) (a / 4 * 4)]) ∧
      t = { s with d := { s.d with regs := t.d.regs, hoop := t.d.hoop } }))

/-- A read through the debug port that answers leaves memory, every register, every channel, queue and log as they were:
only the debug port's answer, its own copies of latched registers and its own Colophon latches change, and a core's
Colophon latch stays. Of memory it answers the word that stands there. A debug read of TIME.NS, a Colophon LO register
or LOG_W0 latches the debug copies of its partners. Of a Strand store it answers half the operation word there, or a
free value where the loader has filled nothing (log entries 10 and 153). (R7) -/
def Obligations.DebugReadsChangeNothingCoresSee : Prop :=
  (∀ (size : Size) (addr : DebugPlace) (ecc : Ecc) (s t : State),
    exec (.debugRead size addr ecc) s = .next t →
    t = { s with d := { s.d with resp := t.d.resp, dbg := t.d.dbg, free := t.d.free, cfg := { s.d.cfg with hiLatch := t.d.cfg.hiLatch } } } ∧
    (∀ k, k < 4 → Sparse.at' .none t.d.resp k = Sparse.at' .none s.d.resp k) ∧
    (∀ core which, core < 4 → which < 3 → t.d.coloHi core which = s.d.coloHi core which)) ∧
  (∀ (size : Size) (addr : Word) (s : State) (p : Place) (a : Nat), route 4 addr.toNat = some (p, a) → p ≠ .regs →
    s.d.permits p .load size a = true → s.d.rowGone a = false → s.d.bankWaits p a = false →
    Leads (.debugRead size (.mem addr) .none) s
      (s.onDev fun d => d.answer 4 (.data (word (Mem.num s.mem a (accessBytes size)))))) ∧
  (∀ (size : Size) (ecc : Ecc) (c : StrandCell) (s : State) (k : Nat) (sec : Strand) (op : BitVec 64),
    k < 32 → s.d.servedBy c.lane.val k = c.phys.val → (∀ j, j < k → s.d.servedBy c.lane.val j ≠ c.phys.val) →
    s.d.pat.strands.filter (fun x => x.stake == k) = [sec] → sec.ops[c.idx.val]? = some op →
    Leads (.debugRead size (.strand c) ecc) s
      (s.onDev fun d => d.answer 4 (.data (word (op.toNat / 2 ^ (if c.hi then 32 else 0)))))) ∧
  (∀ (ecc : Ecc) (s : State), Gives (.debugRead .word (.mem 0x40050000) ecc) s fun t =>
    t.d.dbgWord 0x40050004 0 = word s.d.time.sec ∧ t.d.dbgWord 0x40050008 0 = word (s.d.time.sec / 2 ^ 32) ∧
    t.d.dbgWord 0x4005000C 0 = s.d.shortTime) ∧
  (∀ (ecc : Ecc) (which : Fin 3) (s : State), Gives (.debugRead .word (.mem (word (0x40004010 + 8 * which.val))) ecc) s fun t =>
    t.d.coloHi 4 which.val = s.d.rdw (0x40004014 + 8 * which.val)) ∧
  (∀ (ecc : Ecc) (s : State) (e : LogEntry) (l : List LogEntry), s.d.acc.latch = none → s.d.acc.fifo = e :: l →
    Gives (.debugRead .word (.mem (word R.ACC_LOG_W0_WORD.addr)) ecc) s fun t =>
      t.d.dbgWord R.ACC_LOG_W1_WORD.addr 0 = e.stamp ∧ t.d.dbgWord R.ACC_LOG_W2_WORD.addr 0 = e.ctx ∧
      t.d.dbgWord R.ACC_LOG_W3_WORD.addr 0 = e.w3)

/-- For every register without a write effect of its own, in whichever block, and every field f of the register written:
RO, RC and WO fields stay, W1C bits written 1 clear, an RW field that is Live or Staged, or Static while Static writes
are accepted, takes the value written where its code is not reserved (a Staged field's value is its shadow's; what
acts stays), and a reserved code leaves it and sets the block's write-error flag. A write that would change a Static
field while such writes are refused changes no Static field, and reports STATIC_WRITE with the address. A write that
is a command of its own is that command. For every register with a read-to-clear field, in a block that is not clock-
gated: READ_TO_CLEAR answers the register's word, each RC field returns to its reset value, and every other bit of
every register, memory and the channels stay. (R6, R88, R90) -/
def Obligations.RegisterAccessesFollowAccessCodes : Prop :=
  (∀ (core : Fin 4) (addr data : Word) (s : State) (r : RegSpec) (f : FieldSpec),
    let a := addr.toNat
    let x := bits data.toNat f.lo f.w
    let old := s.d.get ⟨a, f.lo, f.w⟩
    s.d.coreHeld core.val = false → s.d.gated a = false → regSpec? a = some r → f ∈ r.fields → plainWrite a = true →
    let refused := s.d.staticOpen a = false ∧ s.d.changesStatic a data r.fields = true
    Gives (.registerWrite core addr data) s fun t =>
      let new := t.d.get ⟨a, f.lo, f.w⟩
      (f.acc = .ro ∨ f.acc = .rc ∨ f.acc = .wo → new = old) ∧
      (f.acc = .w1c → new = old - (old &&& x)) ∧
      (f.acc = .rw → (f.cls ≠ .static ∨ ¬refused) → s.d.reserved a f data = false → new = x) ∧
      (f.acc = .rw → (f.cls ≠ .static ∨ ¬refused) → s.d.reserved a f data = true →
        new = old ∧ ∀ g, werrFlag a = some g → t.d.get g = 1) ∧
      (refused → (f.cls = .static → new = old) ∧ (∀ g, werrFlag a = some g → t.d.get g = 1) ∧
        t.d.get R.CFG_WERR_ADDR_ADDR = a ∧ t.d.get R.CFG_WERR_INFO_REASON = 1 ∧ reportOf s.d 2 86 a ∈ t.d.hoop) ∧
      (∀ b, b ≠ a → (∀ g, werrFlag a = some g → b ≠ g.addr) → b ≠ 0x40004030 → b ≠ 0x40004034 → t.d.rdw b = s.d.rdw b) ∧
      t = { s with d := { s.d with
        regs := t.d.regs, hoop := t.d.hoop, resp := t.d.resp, cfg := { s.d.cfg with fresh := t.d.cfg.fresh } } }) ∧
  (∀ (core : Fin 4) (addr data : Word) (s : State) (c : Instr),
    s.d.coreHeld core.val = false → writeCommand addr.toNat data = some c →
    Gives (.registerWrite core addr data) s fun t =>
      Leads c (s.onDev fun d => (d.answer core.val .none)) t) ∧
  (∀ (core : Fin 4) (addr : Word) (s : State) (r : RegSpec),
      let a := addr.toNat
      s.d.coreHeld core.val = false → regSpec? a = some r → (∃ f ∈ r.fields, f.acc = .rc) → s.d.gated a = false →
      Gives (.readToClear core addr) s fun t =>
        t.d.resp = (s.d.answer core.val (.data (s.d.regWord a))).resp ∧
        (∀ f ∈ r.fields, f.acc = .rc → t.d.get ⟨a, f.lo, f.w⟩ = bits (resetWord a).toNat f.lo f.w) ∧
        RegsBut ((r.fields.filter fun f => f.acc == .rc).map fun f => ⟨a, f.lo, f.w⟩) s.d t.d ∧
        t = { s with d := { s.d with regs := t.d.regs, resp := t.d.resp } })

/-- Where a word waits on a channel for a receiver: HOOP_STALL reports source 85 with the channel and the receiving island
in its context, once for that handshake, and the channel keeps as many words. The handshake's completion delivers a
window comparator's state to the PWM island, and keeps a word for the fork of either lane, acknowledged, in its place;
so it keeps a report at GUARD, and a lane fault's is signalled to LANE. A leg's period event at the sigma-delta chain
closes the window of every running SETTLE1 channel that names the leg, where such an event or a full window had begun
it, and begins one in the others. With no word waiting both change nothing (log entry 18: DESIGN CHOICE). Clauses that
the spec leaves open follow the model's choices: log entry 164. (R13, R15, R16, R109, R218) -/
def Obligations.HandshakesStallOnceAndDeliver : Prop :=
  (∀ (ch : Fin 256) (recv : Fin 14) (s : State), s.d.handshake ch.val recv.val = none →
    Leads (.hoopStall ch recv) s s ∧ Leads (.hoopHandshakeComplete ch recv) s s) ∧
  (∀ (ch : Fin 256) (recv : Fin 14) (s : State) (e : HEntry), s.d.handshake ch.val recv.val = some e →
    (e.stalled = true → Leads (.hoopStall ch recv) s s) ∧
    (e.stalled = false → Gives (.hoopStall ch recv) s fun t =>
      t = { s with d := { s.d with hoop := t.d.hoop } } ∧
      t.d.hoop.map HEntry.w = s.d.hoop.map HEntry.w ++
        [.report ⟨85, word (ch.val + 256 * recv.val), 2, s.d.time.short, false⟩] ∧
      (t.d.hoop.getLast?.map HEntry.ch = some (0x30 + channelSender ch.val)) ∧
      Leads (.hoopStall ch recv) t t)) ∧
  (∀ (ch : Fin 256) (recv : Fin 14) (s : State) (e : HEntry), ch.val < 8 → recv.val = 4 ∨ recv.val = 5 →
    s.d.handshake ch.val recv.val = some e → (∃ k u x v t, e.w = .sample k u x v t) ∨ (∃ k u t, e.w = .event k u t) →
    Gives (.hoopHandshakeComplete ch recv) s fun t =>
      t = { s with d := { s.d with hoop := t.d.hoop } } ∧ t.d.hoop.map HEntry.w = s.d.hoop.map HEntry.w ∧
      { e with acked := true } ∈ t.d.hoop) ∧
  (∀ (ch : Fin 256) (s : State) (e : HEntry) (r : Report), s.d.handshake ch.val 3 = some e → e.w = .report r →
    Gives (.hoopHandshakeComplete ch 3) s fun t =>
      t = { s with d := { s.d with hoop := t.d.hoop, lc := { s.d.lc with signals := t.d.lc.signals } } } ∧
      t.d.hoop.map HEntry.w = s.d.hoop.map HEntry.w ∧ { e with acked := true } ∈ t.d.hoop ∧
      t.d.lc.signals = s.d.lc.signals ++ (if r.src ∈ [64, 66, 67, 68] ∧ r.lane < 2 then [r.lane] else [])) ∧
  (∀ (ch : Fin 256) (s : State) (e : HEntry) (kind leg tm : Nat), s.d.handshake ch.val 10 = some e → e.w = .event kind leg tm →
    Gives (.hoopHandshakeComplete ch 10) s fun t =>
      t.d.regs = s.d.regs ∧ t.mem = s.mem ∧ t.d.hoop.length + 1 = s.d.hoop.length ∧ ∀ n, n < 24 →
        let u := s.d.sd n
        let named : Prop := s.d.act (R.SDF_CH_FILT_S1_LEG n) = leg ∧ s.d.sdRuns n = true
        (named → s.d.sdPreset n = 3 ∧ u.win = .whole → t.d.sd n = { u with wdue := true }) ∧
        (named → ¬(s.d.sdPreset n = 3 ∧ u.win = .whole) → t.d.sd n = { u with wbits := 0, wones := 0, win := .whole }) ∧
        (¬named → t.d.sd n = u)) ∧
  (∀ (ch : Fin 256) (isl : Fin 14) (s : State) (e : HEntry) (conv wc : Nat) (out : Bool), isl.val = 6 ∨ isl.val = 7 →
    s.d.handshake ch.val isl.val = some e → e.w = .wcState conv wc out → wc < 8 → conv < 4 →
    Gives (.hoopHandshakeComplete ch isl) s fun t =>
      Sparse.at' false t.d.gsup.wc ((isl.val - 6) * 32 + conv * 8 + wc) = out ∧
      (∀ k, k ≠ (isl.val - 6) * 32 + conv * 8 + wc → Sparse.at' false t.d.gsup.wc k = Sparse.at' false s.d.gsup.wc k) ∧
      t.d.hoop.length + 1 = s.d.hoop.length ∧
      t = { s with d := { s.d with hoop := t.d.hoop, gsup := { s.d.gsup with wc := t.d.gsup.wc } } })

/-- For every write of MODE_REQ (targets M0 to M15): with a wrong key REASON is 1; with the right key and a request busy
it is 3; then 2 for a transition that no request starts from the current mode, 4 for M8 without the black-start strap
SEAL[7], 6 where an exit condition is unmet, and 5 where a request that passes all tests is pre-empted. REFUSED is
then 1, the mode and everything else stay. A request that passes clears REFUSED and REASON. A request to M8 that
reaches the strap test is refused with REASON 4 exactly when the latched SEAL[7] is 0. Clauses that the spec leaves
open follow the model's choices: log entries 105 and 140. (R45, R545) -/
def Obligations.RefusedModeRequestsSayWhy : Prop :=
  ∀ (c : Instr) (target : Nat) (key : BitVec 16) (pre : Bool) (s : State),
    ((∃ k : Fin 6, c = .modeReqControl key k pre ∧ target = 4 + k.val) ∨ (c = .modeReqStop key pre ∧ target = 3) ∨
      (c = .modeReqReload key pre ∧ target = 1) ∨ (c = .modeReqCheck key pre ∧ target = 2) ∨
      (c = .modeReqService key pre ∧ target = 11) ∨
      (∃ k : Fin 16, c = .modeReqForbidden key k ∧ pre = false ∧ target = k.val)) →
    let cur := s.d.mode
    let started : Prop := (cur, target) ∈ [(3, 4), (3, 8), (5, 6), (6, 5), (5, 7), (6, 7), (7, 4), (3, 1), (10, 2), (11, 2),
      (3, 11)] ∨ (target = 3 ∧ 4 ≤ cur ∧ cur ≤ 9)
    let exitOk : Prop :=
      (cur = 3 ∧ target = 1 → s.d.stagedPending = false) ∧
      (cur = 3 ∧ target = 11 ∨ cur = 11 → s.d.relaysReadOpen = true) ∧
      (cur = 10 → s.d.accClear = true ∧ s.d.safeNHigh = true ∧ s.d.relaysReadOpen = true)
    let keyOk : Prop := key = (if target = 11 then 0x5E11 else 0xA5C3)
    let busy : Prop := s.d.get R.SYSCTL_MODE_TRANSIT ≠ 0 ∨ s.d.get R.SYSCTL_MODE_STAT_BUSY ≠ 0
    let strapOk : Prop := target = 8 → (s.d.get R.ISO_SEAL_LATCHED).testBit 7 = true
    let refused (reason : Nat) : Prop := Gives c s fun t =>
      t.d.get R.SYSCTL_MODE_STAT_REFUSED = 1 ∧ t.d.get R.SYSCTL_MODE_STAT_REASON = reason ∧ t.d.mode = cur ∧
      RegsBut [R.SYSCTL_MODE_STAT_REFUSED, R.SYSCTL_MODE_STAT_REASON] s.d t.d ∧
      t = { s with d := { s.d with regs := t.d.regs } }
    (¬keyOk → refused 1) ∧ (keyOk → busy → refused 3) ∧ (keyOk → ¬busy → ¬started → refused 2) ∧
    (keyOk → ¬busy → started → ¬strapOk → refused 4) ∧
    (keyOk → ¬busy → started → strapOk → ¬exitOk → refused 6) ∧
    (keyOk → ¬busy → started → strapOk → exitOk → pre = true → refused 5) ∧
    (keyOk → ¬busy → started → strapOk → exitOk → pre = false →
      Gives c s fun t => t.d.get R.SYSCTL_MODE_STAT_REFUSED = 0 ∧ t.d.get R.SYSCTL_MODE_STAT_REASON = 0)

/-- A request that passes the tests for M4 to M9 or M3 stands in the slot that the mode Strand reads, BUSY is 1 and the
mode stays; one for M1, M2 or M11 changes the mode at once with CAUSE 1 and the old mode in PREV, and leaves memory
alone. MODE_REQ_TIMEOUT withdraws a waiting request: the slot empties, BUSY falls, REFUSED is 1 with REASON 7. Clauses
that the spec leaves open follow the model's choices: log entries 18 and 103. (R37, R38, R46) -/
def Obligations.AcceptedModeRequestsTakeEffect : Prop :=
  (∀ (k : Fin 6) (s : State), Dev.requestable s.d.mode (4 + k.val) = true → s.d.get R.SYSCTL_MODE_TRANSIT = 0 →
    s.d.get R.SYSCTL_MODE_STAT_BUSY = 0 → (k = 4 → (s.d.get R.ISO_SEAL_LATCHED).testBit 7 = true) →
    Gives (.modeReqControl 0xA5C3 k false) s fun t =>
      t.d.sys.slot = some (4 + k.val) ∧ t.d.get R.SYSCTL_MODE_STAT_BUSY = 1 ∧ t.d.mode = s.d.mode ∧
      RegsBut [⟨0x40000018, 0, 8⟩] s.d t.d ∧ t = { s with d := { s.d with regs := t.d.regs, sys := t.d.sys } }) ∧
  (∀ s : State, 4 ≤ s.d.mode → s.d.mode ≤ 9 → s.d.get R.SYSCTL_MODE_TRANSIT = 0 → s.d.get R.SYSCTL_MODE_STAT_BUSY = 0 →
    Gives (.modeReqStop 0xA5C3 false) s fun t =>
      t.d.sys.slot = some 3 ∧ t.d.get R.SYSCTL_MODE_STAT_BUSY = 1 ∧ t.d.mode = s.d.mode ∧
      RegsBut [⟨0x40000018, 0, 8⟩] s.d t.d ∧ t = { s with d := { s.d with regs := t.d.regs, sys := t.d.sys } }) ∧
  (∀ (c : Instr) (s : State) (m : Nat), s.d.get R.SYSCTL_MODE_TRANSIT = 0 → s.d.get R.SYSCTL_MODE_STAT_BUSY = 0 →
    ((c = .modeReqReload 0xA5C3 false ∧ m = 1 ∧ s.d.mode = 3 ∧ s.d.stagedPending = false) ∨
      (c = .modeReqCheck 0xA5C3 false ∧ m = 2 ∧ s.d.mode = 11 ∧ s.d.relaysReadOpen = true) ∨
      (c = .modeReqCheck 0xA5C3 false ∧ m = 2 ∧ s.d.mode = 10 ∧ s.d.accClear = true ∧ s.d.safeNHigh = true ∧
        s.d.relaysReadOpen = true) ∨
      (c = .modeReqService 0x5E11 false ∧ m = 11 ∧ s.d.mode = 3 ∧ s.d.relaysReadOpen = true)) →
    Gives c s fun t =>
      t.d.mode = m ∧ t.d.get R.SYSCTL_MODE_PREV = s.d.mode ∧ t.d.get R.SYSCTL_MODE_CAUSE = 1 ∧
      t.mem = s.mem ∧ t.d.pat = s.d.pat ∧ t.d.time = s.d.time ∧ t.d.repair = s.d.repair) ∧
  (∀ (s : State) (m : Nat), s.d.sys.slot = some m → Gives .modeReqTimeout s fun t =>
    t.d.sys.slot = none ∧ t.d.get R.SYSCTL_MODE_STAT_BUSY = 0 ∧ t.d.get R.SYSCTL_MODE_STAT_REFUSED = 1 ∧
    t.d.get R.SYSCTL_MODE_STAT_REASON = 7 ∧ RegsBut [⟨0x40000018, 0, 8⟩] s.d t.d ∧
    t = { s with d := { s.d with regs := t.d.regs, sys := t.d.sys } }) ∧
  (∀ s : State, s.d.sys.slot = none → Leads .modeReqTimeout s s)

/-- MODE_COMMIT takes the front word of channel 0x1C. From M3 to M9, a commit of a mode that the table allows from the
current one (M3 to M8 only with SEAL[7] latched, M9 back to the mode before it, any control mode to M3) makes that
transition, with the word's cause byte in MODE.CAUSE, or 2 where it is 0, and frees a request slot that asked for it;
one that the table does not allow leaves the mode and reports source 77 with current mode, committed mode and cause.
In M0, M1, M2, M10 and M11 and for the current mode it makes no transition and reports nothing. During a switchover
the word is judged against the mode that stood before it, and where it is the survivor's first it releases HOLD.
Clauses that the spec leaves open follow the model's choices: log entries 103 and 166. (R36, R38, R41, R285, R328) -/
def Obligations.ModeCommitsFollowTheTable : Prop :=
  ∀ (s : State) (v : Word) (d : Dev), s.d.take 0x1C 0 = some (.mode v, d) →
    let cur := s.d.mode
    let m := v.toNat % 16
    let cause := v.toNat / 256 % 256
    let allowed : Prop :=
      (cur, m) ∈ [(3, 4), (4, 5), (4, 6), (5, 6), (6, 5), (5, 7), (6, 7), (7, 4), (5, 9), (6, 9), (7, 9), (8, 7)] ∨
      (cur = 3 ∧ m = 8 ∧ (s.d.get R.ISO_SEAL_LATCHED).testBit 7 = true) ∨ (cur = 9 ∧ m = s.d.sys.before9) ∨
      (4 ≤ cur ∧ cur ≤ 9 ∧ m = 3)
    let held (t : State) : Prop := ∀ h, s.d.lc.hold = some h →
      (h.decided = true → t.d.lc.hold = none ∧ t.d.get R.LANE_STATUS_HOLD = 0) ∧ (h.decided = false → t.d.lc.hold = some h)
    (cur ∈ [0, 1, 2, 10, 11] ∨ m = cur → Gives .modeCommit s fun t =>
      t.d.mode = cur ∧ held t ∧ (s.d.lc.hold = none → t.d.hoop = d.hoop) ∧ t.mem = s.mem) ∧
    (cur ∉ [0, 1, 2, 10, 11] → m ≠ cur → allowed → Gives .modeCommit s fun t =>
      t.d.mode = m ∧ t.d.get R.SYSCTL_MODE_PREV = cur ∧
      t.d.get R.SYSCTL_MODE_CAUSE = (if cause = 0 then 2 else cause) ∧
      (s.d.sys.slot = some m → t.d.sys.slot = none ∧ t.d.get R.SYSCTL_MODE_STAT_BUSY = 0) ∧ held t ∧ t.mem = s.mem) ∧
    (cur ∉ [0, 1, 2, 10, 11] → m ≠ cur → ¬allowed → Gives .modeCommit s fun t =>
      t.d.mode = cur ∧ held t ∧ reportOf s.d 0 77 (cur + 16 * m + 256 * cause) ∈ t.d.hoop ∧
      (s.d.lc.hold = none → t.d.hoop = d.hoop ++ [reportOf s.d 0 77 (cur + 16 * m + 256 * cause)]) ∧ t.mem = s.mem)

/-- WARMRST_N, RST_REQ with its key, a debug reset and the watchdog's reset, while no power-on reset stands: the device is
held in M0 with its own RST_CAUSE bit set and the other bits as they were; the latched straps, the boot pins, the weld
lockout, the repair map and the PLLs' lock state stay; every other register returns to its reset value but
TIME.STATUS, LEDGER.SPARES, WVx.MAPs and the converters' STATUS and SLICEMAP, which follow what is kept; TIME is zero,
the lanes are stopped, nothing is pending. The Pattern store reads as cleared and every other byte of memory stays.
RST_REQ with another key is ignored. Clauses that the spec leaves open follow the model's choices: log entries 101 and
104. (R54) -/
def Obligations.WarmResetsKeepTheAonState : Prop :=
  (∀ (c : Instr) (cause : Fld) (s : State), s.d.sys.held ≠ .powerOn →
    ((c = .warmResetPin ∧ cause = R.SYSCTL_RST_CAUSE_WARM_PIN) ∨ (c = .rstReqWarm 0xA5C3 ∧ cause = R.SYSCTL_RST_CAUSE_SW) ∨
      (c = .debugReset ∧ cause = R.SYSCTL_RST_CAUSE_DEBUG) ∨
      (c = .wdogWarmReset ∧ cause = R.SYSCTL_RST_CAUSE_WDOG ∧ s.d.sys.wdogFired = true)) →
    Gives c s fun t =>
      t.d.mode = 0 ∧ t.d.sys.held = .warm ∧ t.d.get cause = 1 ∧
      (∀ f ∈ Dev.warmKept, f ≠ cause → t.d.get f = s.d.get f) ∧
      (∀ a, a ∉ Dev.warmKept.map Fld.addr → a ≠ R.LEDGER_SPARES_STK_A.addr → a ≠ R.TIME_STATUS_BYP.addr →
        (∀ n, n < 4 → a ≠ (R.ADC_SLICEMAP_FAILED n).addr ∧ a ≠ (R.ADC_STATUS_OUT n).addr) →
        (∀ n k, n < 2 → k < 32 → a ≠ (R.WV_MAP_PHYS n k).addr) → t.d.rdw a = resetWord a) ∧
      t.d.sys.straps = s.d.sys.straps ∧ t.d.sys.ring = s.d.sys.ring ∧ t.d.sys.coresOut = false ∧ t.d.repair = s.d.repair ∧ t.d.clk = s.d.clk ∧ t.d.otp = s.d.otp ∧
      t.d.time = {} ∧ t.d.hoop = [] ∧ t.d.acc = {} ∧ t.d.lanes = [] ∧ t.d.cfg = {} ∧ t.d.pat = {} ∧ t.pending = s.pending ∧
      ∀ a, Mem.rd t.mem a = if 0x3C000000 ≤ a ∧ a < 0x3C040000 then 0 else Mem.rd s.mem a) ∧
  (∀ (key : BitVec 16) (s : State), key ≠ 0xA5C3 → Leads (.rstReqWarm key) s s)

/-- PORST_N low or a VDDAON brown-out: every register reads its reset word, but RST_CAUSE holds the reset's own cause
alone; the OTP stays, the Pattern store reads as cleared and every other byte of memory stays. The release latches the
straps in SEAL.LATCHED, the boot pins in BOOT.PINS and the level of VDDIO_B, gives the pads back to the logic, starts
on BYP, and applies the OTP's repair map; with TESTMODE high the straps, boot pins and level are latched too, but the
device stays in M0, and a further release changes nothing. Clauses that the spec leaves open follow the model's
choices: log entries 16, 98, 101 and 104. (R58) -/
def Obligations.PowerOnResetAndItsRelease : Prop :=
  (∀ (c : Instr) (cause : Nat) (s : State), (c = .powerOnReset ∧ cause = 1) ∨ (c = .vddaonBrownout ∧ cause = 2) →
    Gives c s fun t =>
      t.d.mode = 0 ∧ t.d.sys.held = .powerOn ∧ t.d.sys.testStuck = false ∧ t.d.rdw 0x40000020 = word cause ∧
      (∀ a, a ≠ 0x40000020 → t.d.rdw a = resetWord a) ∧ t.d.otp = s.d.otp ∧ t.d.hoop = [] ∧ t.d.time = {} ∧
      t.pending = s.pending ∧ (∀ a, Mem.rd t.mem a = if 0x3C000000 ≤ a ∧ a < 0x3C040000 then 0 else Mem.rd s.mem a)) ∧
  (∀ (straps : BitVec 8) (boot : BitVec 3) (vddioB : Bool) (s : State), s.d.sys.held = .powerOn → s.d.sys.testStuck = false →
    s.d.mode = 0 →
    let latched (t : State) : Prop :=
      t.d.sys.straps = straps ∧ t.d.get R.ISO_SEAL_LATCHED = straps.toNat ∧ t.d.get R.SYSCTL_BOOT_PINS = boot.toNat ∧
      t.d.sys.vddioB = vddioB ∧ t.d.sys.ring = .logic ∧
      t.d.get R.SYSCTL_RST_CAUSE_BOOT_RSV = (if boot = 4 ∨ boot = 5 ∨ boot = 6 then 1 else 0)
    (Gives (.resetRelease straps boot ⟨true, vddioB⟩) s fun t => t.d.mode = 0 ∧ t.d.sys.held = .powerOn ∧ latched t ∧
      t.mem = s.mem ∧ ∀ x b p, Leads (.resetRelease x b p) t t) ∧
    (Gives (.resetRelease straps boot ⟨false, vddioB⟩) s fun t =>
      t.d.sys.held = .none ∧ latched t ∧ t.d.get R.CLK_STAT_ON_BYP = 7 ∧ t.d.repair = s.d.otpMap ∧
      t.d.mode = (if 4 ≤ boot.toNat then 1 else 0) ∧ t.mem = s.mem))

/-- The kick with its key restarts the count and any other value does nothing; the expiry of an enabled watchdog raises
source 78 once, and its warm reset follows only then. SAFE_N held low from outside is condition 79 outside M10,
reported once, and only marks the pin in M10 or while the device drives it; a release of the line ends it.
SAFE_N_RELEASE releases the pin only where R65 allows. Power-down leaves the balls to the pad ring: PWMnH, PWMnL,
SOFTOFF_EN and the GPIO pads are in high impedance and the relay and test-pulse outputs are pulled low; given again,
VDDIO_A may have gone too (a free value, log entry 104), with which nothing holds them. In debug hold the device
enters M1 on BYP when the crystal is not qualified; otherwise it stays. Clauses that the spec leaves open follow the
model's choices: log entries 18, 95, 98 and 102. (R55, R57, R64, R65, R66, R347, R532, R533) -/
def Obligations.WatchdogSafeLineAndDebugHold : Prop :=
  (∀ (v : Word) (s : State), Leads (.wdogKick v) s (if v = 0xA5C3 then
    { s with d := { s.d with sys := { s.d.sys with wdogAt := s.d.time.short } } } else s)) ∧
  (∀ s : State, (s.d.get R.SYSCTL_WDOG_EN = 1 → s.d.sys.wdogFired = false → Gives .wdogExpire s fun t =>
      Sends s t [reportOf s.d 0 78 0] ∧ t.d.sys.wdogFired = true ∧
      t = { s with d := { s.d with hoop := t.d.hoop, sys := t.d.sys } } ∧ Leads .wdogExpire t t) ∧
    (s.d.sys.wdogFired = false → Leads .wdogWarmReset s s)) ∧
  (∀ s : State, Gives .extSafe s fun t =>
    let due : Prop := s.d.mode ≠ 10 ∧ s.d.sys.safeDriven = false ∧ s.d.sys.held = .none
    (due → t.d.bit R.ACC_COND_SRC 79 = true ∧ RegsBut [R.ACC_COND_SRC 2] s.d t.d ∧
      Sends s t (if s.d.bit R.ACC_COND_SRC 79 then [] else [reportOf s.d 0 79 0])) ∧
    (¬due → t.d.regs = s.d.regs ∧ Sends s t []) ∧
    t = { s with d := { s.d with
      regs := t.d.regs, hoop := t.d.hoop, sys := { s.d.sys with safeExt := true, safeHigh := none } } }) ∧
  (∀ s : State, (s.d.safeNFree = false → Leads .safeNRelease s s) ∧
    (s.d.safeNFree = true → Gives .safeNRelease s fun t => t.d.sys.safeDriven = false ∧
      t.d.sys.safeHigh = (if s.d.sys.safeExt then none else some s.d.time.short) ∧
      t = { s with d := { s.d with sys := t.d.sys } })) ∧
  (∀ (low : Bool) (s : State), Gives (.safeNLineChange low) s fun t => t.d.sys.safeExt = low ∧
    (low = true ∨ s.d.sys.safeDriven = true → t.d.sys.safeHigh = none) ∧
    (low = false → s.d.sys.safeDriven = false → s.d.sys.safeHigh = none → t.d.sys.safeHigh = some s.d.time.short) ∧
    (low = true → t.d.regs = s.d.regs) ∧
    (low = false → t.d.bit R.ACC_COND_SRC 79 = false ∧ RegsBut [R.ACC_COND_SRC 2] s.d t.d) ∧
    t = { s with d := { s.d with regs := t.d.regs, sys := t.d.sys } }) ∧
  (∀ s : State, Gives .powerDown s fun t =>
    let up : Prop := t.d.sys.ring = .hold
    t = { s with d := { s.d with free := t.d.free, sys := { s.d.sys with ring := t.d.sys.ring } } } ∧
    (up ∨ t.d.sys.ring = .gone) ∧ (s.d.sys.ring = .logic → up ∧ t.d.free = s.d.free) ∧ (s.d.sys.ring = .gone → t = s) ∧
    (∀ leg low, (up → t.d.pwmBall leg low = .hiZ) ∧ (¬up → t.d.pwmBall leg low = .unpowered)) ∧
    (up → t.d.softoffEnBall = .hiZ) ∧ (¬up → t.d.softoffEnBall = .unpowered) ∧
    (∀ p, (up → t.d.gpioBall p = some .hiZ) ∧ (¬up → t.d.gpioBall p = some .unpowered)) ∧
    (∀ c, (up → t.d.rlyBall c = .pulledLow) ∧ (¬up → t.d.rlyBall c = .unpowered)) ∧
    (∀ k, (up → t.d.tpsBall k = .pulledLow) ∧ (¬up → t.d.tpsBall k = .unpowered))) ∧
  (∀ s : State, s.d.mode = 0 → s.d.sys.held = .none → s.d.get R.CLK_STAT_XTAL_OK = 0 →
    (s.d.sys.debugHold = true → Gives .crystalNotQualified s fun t => t.d.mode = 1 ∧ t.mem = s.mem) ∧
    (s.d.sys.debugHold = false → Leads .crystalNotQualified s s))

/-- BIST in M2 that leaves the lanes formable marks the check done, stays in M2 and shows in FORMED whether every logical
Stake is bound to one that passed, and in MAPs the bindings; one that does not leads to M10 with CAUSE 6. With BIST
done, on the start-up path the calibrations complete and the initialised lane memory equal in both lanes, and the
Colophons equal, STANDBY_ENTRY enters M3 with lane A ACTIVE, lane B SYNCED and the cores out of reset where no SAFE
decision is held; else nothing changes. The profile window takes the request and the current and previous mode in
every lane that waits for them, takes triggers and runs no Loop Set 15; a lane that does not keeps its words. Clauses
that the spec leaves open follow the model's choices: log entries 18, 96, 99, 100 and 148. (R38, R62, R96, R107, R141,
R146, R284, R322, R417, R514) -/
def Obligations.CheckStandbyAndProfileWindow : Prop :=
  (∀ (bad : List BadUnit) (s : State), s.d.mode = 2 → s.d.sys.bistDone = false →
    ((s.d.bist bad).2 = true → Gives (.bistComplete bad) s fun t => t.d.sys.bistDone = true ∧ t.d.mode = 2 ∧ t.mem = s.mem ∧
      ∀ n, n < 2 → (t.d.get (R.WV_STATUS_FORMED n) = 1 ↔ ∀ k, k < 32 → t.d.stakeDead n (t.d.servedBy n k) = false) ∧
        ∀ k, k < 32 → t.d.get (R.WV_MAP_PHYS n k) = t.d.servedBy n k ∧
          (t.d.get (R.WV_MAP_SPARE n k) = 1 ↔ 32 ≤ t.d.servedBy n k)) ∧
    ((s.d.bist bad).2 = false → Gives (.bistComplete bad) s fun t =>
      t.d.mode = 10 ∧ t.d.get R.SYSCTL_MODE_PREV = 2 ∧ t.d.get R.SYSCTL_MODE_CAUSE = 6 ∧ t.d.sys.safeDriven = true ∧
      t.mem = s.mem)) ∧
  (∀ s : State, s.d.mode = 2 → s.d.sys.bistDone = true →
    (s.d.sys.startup = false ∨ s.lanesEqual = true ∧ ∀ c, c < 4 → s.d.adcOut c = true ∨ c ∈ s.d.sys.calDone) →
    s.d.get R.CFG_STATUS_SPLIT = 0 → s.d.acc.heldSafe = none → Gives .standbyEntry s fun t =>
      t.d.mode = 3 ∧ t.d.get R.SYSCTL_MODE_PREV = 2 ∧ t.d.laneState 0 = 1 ∧ t.d.laneState 1 = 2 ∧
      t.d.get R.LANE_STATUS_ACTIVE = 0 ∧ t.d.sys.seen3 = true ∧ t.d.sys.coresOut = true ∧ t.mem = s.mem) ∧
  (∀ s : State, s.d.mode ≠ 2 ∨ s.d.sys.bistDone = false ∨ s.d.get R.CFG_STATUS_SPLIT = 1 ∨
      (s.d.sys.startup = true ∧ (s.lanesEqual = false ∨ ∃ c, c < 4 ∧ s.d.adcOut c = false ∧ c ∉ s.d.sys.calDone)) →
    Leads .standbyEntry s s) ∧
  (∀ s : State, s.d.pat.profOff < 0xFFF00 → Gives .profileWindowUpdate s fun t =>
    let takes (n : Nat) : Prop := n ∈ s.d.sys.profWait ∧ s.d.get R.CFG_STATUS_LOADED = 1 ∧ s.d.lc.copying = false ∧
      s.d.laneState n ∈ [1, 2, 3] ∧ ∀ r ∈ (s.d.lane n).runs, r.ls ≠ 15
    (∀ n, n < 2 → takes n → n ∉ t.d.sys.profWait ∧
      Mem.word t.mem (laneBase n + s.d.pat.profOff + 0xE4) =
        (match s.d.sys.slot with | some m => word (m + 256 * (s.d.sys.reqSeq % 256)) | none => 0) ∧
      Mem.word t.mem (laneBase n + s.d.pat.profOff + 0xE8) = word (s.d.mode + 16 * s.d.get R.SYSCTL_MODE_PREV)) ∧
    (∀ a, (∀ n, n < 2 → takes n → a < laneBase n + s.d.pat.profOff + 0xE4 ∨ laneBase n + s.d.pat.profOff + 0xEC ≤ a) →
      Mem.rd t.mem a = Mem.rd s.mem a) ∧
    t = { s with mem := t.mem, d := { s.d with sys := { s.d.sys with profWait := t.d.sys.profWait } } })

/-- PATTERN_LOAD in M1 with locked clocks and a flash boot code: a bad directory, or FLASH_NO_RESPONSE, records its code
in BOOT.FAIL if none stands there, and tries the secondary slot where the code is 000 and the slot is the primary,
else ends in M10 with CAUSE 5. With a good directory the image stands in the Pattern store, whether or not it passes:
where checks 1 to 11 and the firmware signature pass the device enters M2 with LOADED set and COLO0 the header's
Colophon; where a check fails CFG.STATUS takes the first failure, the Pattern's structure stays, and the slot fails.
HOST_BOOT_IMAGE with a bad length or entry fails with 5 or 2, else places the firmware at 0x1000_0000 and is checked
the same way. Outside these conditions nothing changes. Clauses that the spec leaves open follow the model's choices:
log entries 14, 18, 55, 56, 57, 59, 98 and 150. (R57, R61, R84, R85, R86, R546) -/
def Obligations.PatternLoadsCheckThenApply : Prop :=
  let slotFails (s t : State) (code : Nat) : Prop :=
    (s.d.get R.SYSCTL_BOOT_FAIL = 0 → t.d.get R.SYSCTL_BOOT_FAIL = code) ∧
    (s.d.get R.SYSCTL_BOOT_FAIL ≠ 0 → t.d.get R.SYSCTL_BOOT_FAIL = s.d.get R.SYSCTL_BOOT_FAIL) ∧
    (if s.d.get R.SYSCTL_BOOT_PINS = 0 ∧ s.d.get R.SYSCTL_BOOT_SLOT = 0 then
      t.d.mode = s.d.mode ∧ t.d.get R.SYSCTL_BOOT_SLOT = 1
    else t.d.mode = 10 ∧ t.d.get R.SYSCTL_MODE_CAUSE = 5)
  let loaded (s t : State) (img : List Nat) (len : Nat) (fw sig : List Nat) (entry : Word) : Prop :=
    (∀ i, i < img.length → i < 262144 → Mem.rd t.mem (0x3C000000 + i) = BitVec.ofNat 8 (img.getD i 0)) ∧
    match s.d.checkImage img len with
    | .error e => slotFails s t (if e.err = 3 then 5 else if e.err = 12 then 4 else 3) ∧ t.d.pat = s.d.pat ∧
        (s.d.get R.CFG_STATUS_ERR = 0 → t.d.get R.CFG_STATUS_ERR = e.err % 256 ∧
          t.d.get R.CFG_STATUS_NOSECT = (if e.sec = none then 1 else 0))
    | .ok secs =>
      t.d.get R.CFG_STATUS_LOADED = 1 ∧ t.d.rdw 0x40004010 = word (beAt img 0x14 4) ∧ t.d.rdw 0x40004014 = word (beAt img 0x10 4) ∧
      t.d.pat.profOff = leAt img 0x1C 4 ∧
      (if signed' (pubKey (bodyOf secs 0xFF 0)) sig fw then t.d.mode = 2 ∧ t.d.sys.entry = entry
      else slotFails s t 4)
  (∀ s : State, s.d.loads [0, 1] = true →
    let dir := Mem.bytes s.mem (0x60000000 + 0x1000 * s.d.get R.SYSCTL_BOOT_SLOT) 32
    (∀ code, directoryFail dir = some code → Gives .patternLoad s fun t => slotFails s t code ∧ t.mem = s.mem) ∧
    (Gives .flashNoResponse s fun t => slotFails s t 1 ∧ t.mem = s.mem) ∧
    (directoryFail dir = none → Gives .patternLoad s fun t =>
      loaded s t (Mem.bytes s.mem (0x60000000 + leAt dir 8 4) (leAt dir 0xC 4)) (leAt dir 0xC 4)
        (Mem.bytes s.mem (0x60000000 + leAt dir 0x10 4) (leAt dir 0x14 4))
        (Mem.bytes s.mem (0x60000000 + leAt dir 0x10 4 + leAt dir 0x14 4) 64) (word (leAt dir 0x18 4)))) ∧
  (∀ (patLen : Word) (pattern : List Byte) (fwLen entry : Word) (fw sig : List Byte) (s : State), s.d.loads [2, 3] = true →
    let c := Instr.hostBootImage patLen pattern fwLen entry fw sig
    let n := fwLen.toNat
    (n = 0 ∨ n % 4 ≠ 0 ∨ 0x200000 < n → Gives c s fun t => slotFails s t 5 ∧ t.mem = s.mem) ∧
    (n ≠ 0 → n % 4 = 0 → n ≤ 0x200000 → entry.toNat < 0x10000000 ∨ 0x10000000 + n ≤ entry.toNat →
      Gives c s fun t => slotFails s t 2 ∧ t.mem = s.mem) ∧
    (n ≠ 0 → n % 4 = 0 → n ≤ 0x200000 → 0x10000000 ≤ entry.toNat → entry.toNat < 0x10000000 + n → fw.length = n →
      Gives c s fun t => loaded s t (pattern.map BitVec.toNat) patLen.toNat (fw.map BitVec.toNat) (sig.map BitVec.toNat) entry ∧
        ∀ i, i < n → Mem.rd t.mem (0x10000000 + i) = fw.getD i 0)) ∧
  (∀ (s : State) (p : Word) (l : List Byte) (n e : Word) (f g : List Byte), s.d.mode ≠ 1 →
    Leads .patternLoad s s ∧ Leads .flashNoResponse s s ∧ Leads (.hostBootImage p l n e f g) s s)

/-- For every image, check 1 fails with ERR 0x01 where the MAGIC is not DRSP; with the MAGIC right, check 2 fails with
0x02 where FORMAT is not 1, HDR_SIZE is not 64 or a reserved header byte is not zero; with these right, check 3 fails
with 0x03 where LENGTH is outside R68 or not the directory's length; and with these right, check 4 fails with 0x04
where PART is not 0x9640 or MIN_STEP is above the stepping code of R2. Each of them names no section. Clauses that the
spec leaves open follow the model's choices: log entry 55. (R547) -/
def Obligations.HeaderChecksComeInOrder : Prop :=
  ∀ (d : Dev) (img : List Nat) (len : Nat), (∀ b ∈ img, b < 256) → img.length = len →
    let c1 : Prop := img.take 4 = [0x44, 0x52, 0x53, 0x50]
    let c2 : Prop := leAt img 4 2 = 1 ∧ leAt img 6 2 = 64 ∧ leAt img 0xE 2 = 0 ∧ byteAt img 0x1B = 0
    let c3 : Prop := leAt img 8 4 = len ∧ lengthOk len = true
    let c4 : Prop := leAt img 0x18 2 = 0x9640 ∧ byteAt img 0x1A ≤ Dev.stepCode
    (¬c1 → d.checkImage img len = .error ⟨1, none⟩) ∧ (c1 → ¬c2 → d.checkImage img len = .error ⟨2, none⟩) ∧
    (c1 → c2 → ¬c3 → d.checkImage img len = .error ⟨3, none⟩) ∧
    (c1 → c2 → c3 → ¬c4 → d.checkImage img len = .error ⟨4, none⟩) ∧
    (c1 → c2 → c3 → c4 → ∀ e, d.checkImage img len = .error e → 5 ≤ e.err)

/-- GSUP_COMMIT, ADC_COMMIT, ISO_COMMIT, ARCH_COMMIT, ACC_COMMIT and SDF_COMMIT complete in every state, and so does each
Staged field of the block that lies in no paired group (for SDF, that R232 does not hold back): with the block enabled
(for GSUP, with the PWM block too) the pending set gives the field the value of the shadow, and the acting value
stays; with the block disabled the field acts as the shadow reads, at once. A set that stood pending is replaced and
counted in REPLACED. The shadow, the registers of other blocks but CFG.WERR, and memory stay. A write after the
capture is no part of it. A converter's, ACC's, ISO's or the Archive's set stays pending though no word changed (for
SDF and GSUP, log entry 152). Clauses that the spec leaves open follow the model's choices: log entries 52 and 53.
(R90, R91, R92, R232) -/
def Obligations.CommitsCaptureTheShadow : Prop :=
  let ours (lo : Nat) (p : Nat × Word) : Prop := lo ≤ p.1 ∧ p.1 < lo + 0x1000
  let captures (lo : Nat) (inc : Fld) (en : Bool) (hold : Nat → Bool) (s t : State) : Prop :=
    (∀ a r f, lo ≤ a → a < lo + 0x1000 → regSpec? a = some r → f ∈ r.fields → f.cls = .staged → inPair a f.lo = false →
      hold a = false →
      (en = true → bits (((t.d.cfg.pend.find? fun p => p.1 == a).map Prod.snd).getD (s.d.actw a)).toNat f.lo f.w =
          s.d.get ⟨a, f.lo, f.w⟩ ∧ t.d.act ⟨a, f.lo, f.w⟩ = s.d.act ⟨a, f.lo, f.w⟩) ∧
      (en = false → t.d.act ⟨a, f.lo, f.w⟩ = s.d.get ⟨a, f.lo, f.w⟩)) ∧
    (∀ a, a ≠ inc.addr → a ≠ 0x40004030 → a ≠ 0x40004034 → t.d.rdw a = s.d.rdw a) ∧
    (((∃ p ∈ s.d.cfg.pend, ours lo p) →
        t.d.get R.CFG_WERR_INFO_REPLACED = min (s.d.get R.CFG_WERR_INFO_REPLACED + 1) (2 ^ R.CFG_WERR_INFO_REPLACED.w - 1)) ∧
      ((∀ p ∈ s.d.cfg.pend, ¬ours lo p) → t.d.get R.CFG_WERR_INFO_REPLACED = s.d.get R.CFG_WERR_INFO_REPLACED)) ∧
    (en = false → ∀ p ∈ t.d.cfg.pend, ¬ours lo p) ∧
    (∀ core addr data u, plainWrite addr.toNat = true → Leads (.registerWrite core addr data) t u →
      u.d.cfg.pend = t.d.cfg.pend ∧ u.d.cfg.act = t.d.cfg.act) ∧
    t = { s with d := { s.d with regs := t.d.regs, hoop := t.d.hoop, cfg := t.d.cfg } }
  let kept (lo : Nat) (en : Bool) (t : State) : Prop := en = true → ∃ p ∈ t.d.cfg.pend, ours lo p
  (∀ s : State, let en := s.d.isSet R.GSUP_CTRL_EN && s.d.isSet R.PWM_CTRL_EN
    ∃ t, exec .gsupCommit s = .next t ∧ captures 0x40024000 R.GSUP_STATUS_INCOMPLETE en (fun _ => false) s t) ∧
  (∀ (k : Fin 4) (s : State), let en := s.d.isSet (R.ADC_CTRL_EN k.val)
    let lo := 0x40010000 + 0x1000 * k.val
    ∃ t, exec (.adcCommit k) s = .next t ∧ captures lo (R.ADC_STATUS_INCOMPLETE k.val) en (fun _ => false) s t ∧ kept lo en t) ∧
  (∀ s : State, let en := s.d.isSet R.ISO_CTRL_EN
    ∃ t, exec .isoCommit s = .next t ∧ captures 0x40031000 R.ISO_STATUS_INCOMPLETE en (fun _ => false) s t ∧
      kept 0x40031000 en t) ∧
  (∀ s : State, let en := s.d.isSet R.ARCH_CTRL_EN
    ∃ t, exec .archCommit s = .next t ∧ captures 0x40032000 R.ARCH_STATUS_INCOMPLETE en (fun _ => false) s t ∧
      kept 0x40032000 en t) ∧
  (∀ s : State, ∃ t, exec .accCommit s = .next t ∧
    captures 0x40030000 R.ACC_STATUS_INCOMPLETE true (fun _ => false) s t ∧ kept 0x40030000 true t) ∧
  (∀ s : State, let en := s.d.isSet R.SDF_CTRL_EN
    ∃ t, exec .sdfCommit s = .next t ∧ captures 0x40014000 R.SDF_STATUS_INCOMPLETE en s.d.sdHold s t)

/-- For every fault source: after ACC_COMMIT with one of N and W, and not the other, written since the group was last
applied, INCOMPLETE is set, WERR_INFO records reason 2 (with the register's address where no other group is
incomplete), and the capture keeps the acting N and W; with both written, in either order, the capture takes both, and
INCOMPLETE stays where no other group is incomplete. ACC_COMMIT_APPLY makes the captured words act, leaves no capture
of ACC, and closes the promotion window of a source whose N or W changed, and of no other. Clauses that the spec
leaves open follow the model's choices: log entries 18, 51 and 52. (R92, R93, R354) -/
def Obligations.PairedGroupsCommitWhole : Prop :=
  (∀ (src : Fin 192) (s : State),
    let a := (R.ACC_SRC_CFG_N src.val).addr
    let w := (R.ACC_SRC_WIN_W src.val).addr
    let fresh := s.d.cfg.fresh
    let caught (t : State) (x : Nat) : Word := ((t.d.cfg.pend.find? fun p => p.1 == x).map Prod.snd).getD (t.d.actw x)
    let others : Prop := ∀ f ∈ fresh, 0x40030000 ≤ f.1 → f.1 < 0x40031000 → f.1 ≠ a → f.1 ≠ w →
      s.d.groupComplete (pairGroup f.1) = true
    let partial' (x : Nat) : Prop := Gives .accCommit s fun t =>
      t.d.get R.ACC_STATUS_INCOMPLETE = 1 ∧ t.d.get R.CFG_WERR_INFO_REASON = 2 ∧
      (others → t.d.get R.CFG_WERR_ADDR_ADDR = x) ∧
      bits (caught t a).toNat 8 8 = s.d.act (R.ACC_SRC_CFG_N src.val) ∧
      bits (caught t w).toNat 0 8 = s.d.act (R.ACC_SRC_WIN_W src.val)
    ((a, 8) ∈ fresh → (w, 0) ∉ fresh → partial' a) ∧ ((w, 0) ∈ fresh → (a, 8) ∉ fresh → partial' w) ∧
    ((a, 8) ∈ fresh → (w, 0) ∈ fresh → Gives .accCommit s fun t =>
      (others → t.d.get R.ACC_STATUS_INCOMPLETE = s.d.get R.ACC_STATUS_INCOMPLETE) ∧
      bits (caught t a).toNat 8 8 = s.d.get (R.ACC_SRC_CFG_N src.val) ∧
      bits (caught t w).toNat 0 8 = s.d.get (R.ACC_SRC_WIN_W src.val))) ∧
  (∀ s : State, (s.d.cfg.pend.map Prod.fst).Nodup → Gives .accCommitApply s fun t =>
    (∀ p ∈ s.d.cfg.pend, 0x40030000 ≤ p.1 → p.1 < 0x40031000 → t.d.actw p.1 = p.2) ∧
    (∀ a, a < 0x40030000 ∨ 0x40031000 ≤ a ∨ a ∉ s.d.cfg.pend.map Prod.fst → t.d.actw a = s.d.actw a) ∧
    (∀ p ∈ t.d.cfg.pend, p.1 < 0x40030000 ∨ 0x40031000 ≤ p.1) ∧
    (∀ src, src < 192 → Sparse.at' none t.d.acc.wins src =
      if t.d.act (R.ACC_SRC_CFG_N src) = s.d.act (R.ACC_SRC_CFG_N src) ∧
        t.d.act (R.ACC_SRC_WIN_W src) = s.d.act (R.ACC_SRC_WIN_W src) then Sparse.at' none s.d.acc.wins src else none) ∧
    t.mem = s.mem ∧ t.d.regs = s.d.regs)

/-- COEF_COMMIT with a capture pending, a COUNT of 0 or above 64, or a range outside a coefficient region records reason 3
and captures nothing; else it captures COUNT words of COEF_BUF for the Loop Set, PENDING is 1 while a lane that is not
STOPPED has not taken them, and neither lane's memory has changed. With both lanes STOPPED nothing waits: PENDING
reads 0 and event flag 4 is requested. Clauses that the spec leaves open follow the model's choices: log entries 18
and 23. (R96, R105, R106, R424) -/
def Obligations.CoefficientCommitsCaptureOrRefuse : Prop :=
  ∀ (count : BitVec 7) (ls : Fin 16) (s : State),
    let n := count.toNat
    let off := s.d.get R.CFG_COEF_ADDR_OFF / 4 * 4
    let ok : Prop := s.d.cfg.coef = none ∧ 1 ≤ n ∧ n ≤ 64 ∧
      ∃ r ∈ s.d.pat.coefs, r.1 ≤ off ∧ off + 4 * n ≤ r.1 + 4 * r.2
    (¬ok → Gives (.coefCommit count ls) s fun t =>
      t.d.get R.CFG_WERR_INFO_REASON = 3 ∧ t.d.get R.CFG_WERR_ADDR_ADDR = 0x40004044 ∧
      t.d.get R.CFG_WERR_INFO_COUNT = min (s.d.get R.CFG_WERR_INFO_COUNT + 1) 255 ∧
      t = { s with d := { s.d with regs := t.d.regs } }) ∧
    (ok → s.d.laneState 0 ≠ 0 ∨ s.d.laneState 1 ≠ 0 → Gives (.coefCommit count ls) s fun t =>
      t.d.cfg.coef = some ⟨off, (List.range n).map fun i => s.d.rdw (0x40004100 + 4 * i), ls.val, true, true⟩ ∧
      t.d.get R.CFG_COEF_CTRL_PENDING = 1 ∧ t.d.get R.CFG_COEF_CTRL_COUNT = n ∧ t.d.get R.CFG_COEF_CTRL_LOOPSET = ls.val ∧
      RegsBut [R.CFG_COEF_CTRL_PENDING, R.CFG_COEF_CTRL_COUNT, R.CFG_COEF_CTRL_LOOPSET] s.d t.d ∧
      t = { s with d := { s.d with regs := t.d.regs, cfg := t.d.cfg } }) ∧
    (ok → s.d.laneState 0 = 0 → s.d.laneState 1 = 0 → Gives (.coefCommit count ls) s fun t =>
      t.d.cfg = s.d.cfg ∧ t.d.get R.CFG_COEF_CTRL_PENDING = 0 ∧ t.d.get R.CFG_COEF_CTRL_COUNT = n ∧
      t.d.get R.CFG_COEF_CTRL_LOOPSET = ls.val ∧ Sends s t [flagOf 2 4] ∧
      RegsBut [R.CFG_COEF_CTRL_PENDING, R.CFG_COEF_CTRL_COUNT, R.CFG_COEF_CTRL_LOOPSET] s.d t.d ∧
      t = { s with d := { s.d with regs := t.d.regs, hoop := t.d.hoop } })

/-- A change that reaches lane A's accumulator over channel 0x13 is XORed into COLO_A and leaves COLO_B, and SPLIT shows
whether they differ; so lane B's over 0x1B. COLOPHON_SPLIT with SPLIT set and the condition not begun reports source
87 with the low word of the accumulators' XOR and sets its COND bit; with SPLIT clear, or the condition standing,
nothing changes. A LO read answers the register and latches the HI word that the next HI read returns. Clauses that
the spec leaves open follow the model's choices: log entries 18 and 54. (R98, R100, R104) -/
def Obligations.ColophonAccumulatorsSplitAndLatch : Prop :=
  (∀ (s : State) (e : HEntry) (delta : BitVec 64), s.d.handshake 0x13 4 = some e → e.w = .colophon delta →
    Gives (.hoopHandshakeComplete 0x13 4) s fun t =>
      t.d.coloA = s.d.coloA ^^^ delta ∧ t.d.coloB = s.d.coloB ∧
      t.d.get R.CFG_STATUS_SPLIT = (if s.d.coloA ^^^ delta = s.d.coloB then 0 else 1) ∧ t.mem = s.mem) ∧
  (∀ (s : State) (e : HEntry) (delta : BitVec 64), s.d.handshake 0x1B 5 = some e → e.w = .colophon delta →
    Gives (.hoopHandshakeComplete 0x1B 5) s fun t =>
      t.d.coloB = s.d.coloB ^^^ delta ∧ t.d.coloA = s.d.coloA ∧
      t.d.get R.CFG_STATUS_SPLIT = (if s.d.coloA = s.d.coloB ^^^ delta then 0 else 1) ∧ t.mem = s.mem) ∧
  (∀ s : State, s.d.get R.CFG_STATUS_SPLIT = 1 → s.d.bit R.ACC_COND_SRC 87 = false → Gives .colophonSplit s fun t =>
    Sends s t [reportOf s.d 3 87 ((s.d.coloA ^^^ s.d.coloB).toNat % 2 ^ 32)] ∧ t.d.bit R.ACC_COND_SRC 87 = true ∧
    RegsBut [⟨(R.ACC_COND_SRC 2).addr, 23, 1⟩] s.d t.d ∧ t = { s with d := { s.d with regs := t.d.regs, hoop := t.d.hoop } } ∧
    Leads .colophonSplit t t) ∧
  (∀ s : State, s.d.get R.CFG_STATUS_SPLIT = 0 → Leads .colophonSplit s s) ∧
  (∀ (core : Fin 4) (which : Fin 3) (s : State), s.d.coreHeld core.val = false → Gives (.colophonLoRead core which) s fun t =>
    Sparse.at' .none t.d.resp core.val = .data (s.d.rdw (0x40004010 + 8 * which.val)) ∧
    t.d.coloHi core.val which.val = s.d.rdw (0x40004014 + 8 * which.val) ∧
    t = { s with d := { s.d with resp := t.d.resp, cfg := { s.d.cfg with hiLatch := t.d.cfg.hiLatch } } })

/-- FORK_WORD takes the oldest word of its channel from both of its handshakes: a running lane with room in its four-word
buffer queues it, a running lane with a full buffer loses it with LANE_INPUT_LOSS (context the channel), a stopped
lane discards it. SAMPLE_PORT_WORD moves a buffered sample word to every sample port that routes it. LOOPSET_TRIGGER
takes a buffered event: a Loop Set that takes no triggers in the mode ignores it; in a held lane it counts in
HOLD_TRIG; with no run in progress a run starts on the ports as they stand, stamped with the event's time, and RUNS
counts; with a run and none pending it waits on its own snapshot, OVERRUN counts and LOOPSET_OVERRUN is reported; with
one pending it replaces it and LOST counts. Clauses that the spec leaves open follow the model's choices: log entries
18 and 41. (R16, R18, R117, R118, R124, R125, R127, R139, R140) -/
def Obligations.ForksPortsAndTriggers : Prop :=
  (∀ (ch : Fin 8) (s : State), (∀ x ∈ s.d.hoop, ¬(x.ch = ch.val ∧ x.recv = 4)) → Leads (.forkWord ch) s s) ∧
  (∀ (ch : Fin 8) (s : State) (pre post : List HEntry) (e e' : HEntry),
    s.d.hoop = pre ++ e :: e' :: post → e.ch = ch.val → e.recv = 4 → e'.ch = ch.val → e'.recv = 5 →
    (∀ x ∈ pre, ¬(x.ch = ch.val ∧ (x.recv = 4 ∨ x.recv = 5))) →
    let full (n : Nat) : Bool := s.d.laneRuns n && decide (4 ≤ (Sparse.at' [] (s.d.lane n).forks ch.val).length)
    let lost (n : Nat) : List HEntry := if full n then [reportOf s.d (4 + n) 68 ch.val n] else []
    Gives (.forkWord ch) s fun t =>
      t.d.hoop = pre ++ post ++ lost 0 ++ lost 1 ∧
      (∀ n, n < 2 → (s.d.laneRuns n = true ∧ full n = false →
          Sparse.at' [] (t.d.lane n).forks ch.val = Sparse.at' [] (s.d.lane n).forks ch.val ++ [e.w] ∧
          (∀ k, k ≠ ch.val → Sparse.at' [] (t.d.lane n).forks k = Sparse.at' [] (s.d.lane n).forks k) ∧
          t.d.lane n = { s.d.lane n with forks := (t.d.lane n).forks }) ∧
        (s.d.laneRuns n = false ∨ full n = true → t.d.lane n = s.d.lane n)) ∧
      t = { s with d := { s.d with hoop := t.d.hoop, lanes := t.d.lanes } }) ∧
  (∀ (lane : Fin 2) (ch : Fin 8) (s : State) (k u x : Nat) (v : Word) (tm : Nat),
    s.d.forkFront lane.val ch.val = some (.sample k u x v tm) → Gives (.samplePortWord lane ch) s fun t =>
      let l := s.d.lane lane.val
      let l' := t.d.lane lane.val
      Sparse.at' [] l'.forks ch.val = (Sparse.at' [] l.forks ch.val).tail ∧
      (∀ key, Sparse.at' 0 l'.ports key =
        if (s.d.pat.routes.any fun r => r.kind == k && r.srcUnit == u && (k == 2 || r.srcItem == x) &&
            r.dstStake * 8 + r.dstPort == key) then v else Sparse.at' 0 l.ports key) ∧
      l' = { l with forks := l'.forks, ports := l'.ports } ∧
      t = { s with d := { s.d with lanes := t.d.lanes } }) ∧
  (∀ (lane : Fin 2) (ch : Fin 8) (s : State) (k u tm : Nat) (l : LoopSet),
    let n := lane.val
    let c := Instr.loopsetTrigger lane ch
    let L := s.d.lane n
    let running : Prop := ∃ r ∈ L.runs, r.ls = l.idx
    let waiting : Prop := ∃ p ∈ L.pend, p.ls = l.idx
    s.d.forkFront n ch.val = some (.event k u tm) → l.idx < 16 →
    (s.d.pat.loopsets.filter fun x => x.kind == k && x.unit == u) = [l] →
    (s.d.lsTakes l = false → Gives c s fun t =>
      (t.d.lane n).runs = L.runs ∧ (t.d.lane n).pend = L.pend ∧ t.mem = s.mem ∧ t.d.regs = s.d.regs) ∧
    (s.d.lsTakes l = true → s.d.laneState n = 4 → Gives c s fun t =>
      (t.d.lane n).runs = L.runs ∧ (t.d.lane n).pend = L.pend ∧ t.mem = s.mem ∧
      t.d.get R.LANE_CNT_HOLD_TRIG = min (s.d.get R.LANE_CNT_HOLD_TRIG + 1) (2 ^ R.LANE_CNT_HOLD_TRIG.w - 1) ∧
      RegsBut [R.LANE_CNT_HOLD_TRIG] s.d t.d) ∧
    (s.d.lsTakes l = true → s.d.laneState n ≠ 4 → ¬running → l.idx ∉ L.mirroring → Gives c s fun t =>
      (t.d.lane n).runs = L.runs ++ [{ ls := l.idx, no := tm, snap := L.ports, streams := s.d.streams l, sent := [] }] ∧ (t.d.lane n).pend = L.pend ∧
      t.d.get (R.WV_LS_CNT_RUNS n l.idx) = (s.d.get (R.WV_LS_CNT_RUNS n l.idx) + 1) % 2 ^ 16 ∧
      (∀ st, Sparse.at' {} (t.d.lane n).flags (st * 16 + l.idx) = {}) ∧
      (s.d.cfg.coef = none → l.idx ≠ 15 → t.mem = s.mem)) ∧
    (s.d.lsTakes l = true → s.d.laneState n ≠ 4 → s.d.slotDue = [] → s.d.lc.bufs = [] → running → Gives c s fun t =>
      (t.d.lane n).runs = L.runs ∧ t.mem = s.mem ∧
      (t.d.lane n).pend = (L.pend.filter fun p => p.ls != l.idx) ++ [⟨l.idx, tm, L.ports⟩] ∧
      (¬waiting → Sends s t [reportOf s.d (4 + n) 63 l.idx n] ∧
        t.d.get (R.WV_LS_CNT_OVERRUN n l.idx) = min (s.d.get (R.WV_LS_CNT_OVERRUN n l.idx) + 1) 255 ∧
        t.d.get (R.WV_LS_CNT_LOST n l.idx) = s.d.get (R.WV_LS_CNT_LOST n l.idx)) ∧
      (waiting → Sends s t [] ∧
        t.d.get (R.WV_LS_CNT_LOST n l.idx) = min (s.d.get (R.WV_LS_CNT_LOST n l.idx) + 1) 255 ∧
        t.d.get (R.WV_LS_CNT_OVERRUN n l.idx) = s.d.get (R.WV_LS_CNT_OVERRUN n l.idx))))

/-- LOOPSET_RUN_COMPLETE of a run with every operation issued and completed ends it: LAST takes the cycles, MAX the
larger, and a pending run starts on its own snapshot; before that it changes nothing. LOOPSET_HUNG with PERIOD_NS not
0 discards the run and its entries in flight without a result and reports LOOPSET_HUNG. WINDOW_FULL reports once, when
the cycles in a row with a refusal, up to the present one, exceed PERIOD_NS / 2.5 rounded up. MEMORY_GRANT of a
request that its banks grant reads the load's words as they stand or writes the store's and nothing else; a double-bit
error gives zeros, counts and reports LANE_MEM_DED with the offset of the word concerned, a single-bit error is
corrected and counted. PORT_WRITE_COMPLETE returns the tag when the FIFO has room, which takes the word at its end,
after the writes to it that issued before, or when the channels have acknowledged; else it changes nothing. Clauses
that the spec leaves open follow the model's choices: log entries 18, 24, 62 and 63. (R113, R115, R122, R126, R127,
R128, R131, R134, R138, R140, R143, R145) -/
def Obligations.RunsEndBanksGrantAndPortsTake : Prop :=
  (∀ (lane : Fin 2) (ls : Fin 16) (cycles : Nat) (s : State) (r : Run),
    let n := lane.val
    let L := s.d.lane n
    let rest := L.runs.filter fun x => x.ls != ls.val
    let next (t : State) : Prop :=
      (L.pend.find? (fun p => p.ls == ls.val) = none → (t.d.lane n).runs = rest) ∧
      (∀ p set, L.pend.find? (fun p => p.ls == ls.val) = some p → s.d.loopSet ls.val = some set → ls.val ∉ L.mirroring →
        s.d.lc.bufs = [] → (t.d.lane n).runs = rest ++ [{ ls := ls.val, no := p.no, snap := p.snap, streams := s.d.streams set, sent := [] }] ∧
          ∀ p ∈ (t.d.lane n).pend, p.ls ≠ ls.val)
    (L.runs.find? fun x => x.ls == ls.val) = some r →
    ((∃ st ∈ r.streams, st.2 ≠ []) ∨ (∃ f ∈ L.flight, f.ls = ls.val) → Leads (.loopsetRunComplete lane ls cycles) s s) ∧
    ((∀ st ∈ r.streams, st.2 = []) → (∀ f ∈ L.flight, f.ls ≠ ls.val) → Gives (.loopsetRunComplete lane ls cycles) s fun t =>
      t.d.get (R.WV_LS_TIME_LAST n ls.val) = min cycles 0xFFFF ∧
      t.d.get (R.WV_LS_TIME_MAX n ls.val) = max (s.d.get (R.WV_LS_TIME_MAX n ls.val)) (min cycles 0xFFFF) ∧ next t) ∧
    (∀ set, s.d.loopSet ls.val = some set → set.period ≠ 0 → Gives (.loopsetHung lane ls) s fun t =>
      (s.d.cfg.coef = none → (t.d.lane n).flight = L.flight.filter fun f => f.ls != ls.val) ∧
      reportOf s.d (4 + n) 64 ls.val n ∈ t.d.hoop ∧
      (L.pend.find? (fun p => p.ls == ls.val) = none → Sends s t [reportOf s.d (4 + n) 64 ls.val n]) ∧
      t.d.get (R.WV_LS_TIME_LAST n ls.val) = s.d.get (R.WV_LS_TIME_LAST n ls.val) ∧ next t) ∧
    (∀ set, s.d.loopSet ls.val = some set →
      (r.full = false → set.period ≠ 0 → (2 * set.period + 4) / 5 < r.refused → r.refusedAt = some L.cycle →
        Gives (.windowFull lane ls) s fun t =>
          t.d.get (R.WV_WINDOW_LAST_LS n) = ls.val ∧
          t.d.get (R.WV_WINDOW_FULL_COUNT n) = min (s.d.get (R.WV_WINDOW_FULL_COUNT n) + 1) 255 ∧
          RegsBut [R.WV_WINDOW_LAST_LS n, R.WV_WINDOW_FULL_COUNT n] s.d t.d ∧
          Sends s t [reportOf s.d (4 + n) 62 ls.val n] ∧ t.mem = s.mem ∧
          (t.d.lane n).flight = L.flight ∧ Leads (.windowFull lane ls) t t) ∧
      (r.full = true ∨ set.period = 0 ∨ r.refusedAt ≠ some L.cycle ∨ r.refused ≤ (2 * set.period + 4) / 5 → Leads (.windowFull lane ls) s s))) ∧
  (∀ (lane : Fin 2) (tag : Fin 256) (s : State) (f : InFlight) (ecc : Ecc) (second : Bool),
    let n := lane.val
    let L := s.d.lane n
    let base := 0x20000000 + 0x100000 * n
    let holds (t : State) (g : InFlight) : Prop :=
      (t.d.lane n).flight = L.flight.map (fun x => if x.tag = tag.val then g else x)
    s.d.findTag n tag.val = some f → (L.flight.map InFlight.tag).Nodup →
    (s.d.granted n f = false → Leads (.memoryGrant lane tag ⟨ecc, second⟩) s s) ∧
    (s.d.granted n f = true → ∀ off k, f.act = .load off k → Gives (.memoryGrant lane tag ⟨ecc, second⟩) s fun t =>
      t.mem = s.mem ∧
      (ecc = .none → (let ws := (List.range k).map fun j => Mem.word s.mem (base + off + 4 * j)
          holds t { f with waiting := false, outs := f.writes.zip ws }) ∧
        Sends s t [] ∧ t.d.regs = s.d.regs) ∧
      (ecc = .single → (let ws := (List.range k).map fun j => Mem.word s.mem (base + off + 4 * j)
          holds t { f with waiting := false, outs := f.writes.zip ws }) ∧
        Sends s t [] ∧ t.d.get (R.WV_ECC_CORR n) = min (s.d.get (R.WV_ECC_CORR n) + 1) 0xFFFF ∧
        RegsBut [R.WV_ECC_CORR n] s.d t.d) ∧
      (ecc = .double → holds t { f with waiting := false, outs := f.writes.map fun w => (w, 0) } ∧
        Sends s t [reportOf s.d (4 + n) 66 (if second = true ∧ k = 2 then off + 4 else off) n] ∧
        t.d.get (R.WV_ECC_DED n) = min (s.d.get (R.WV_ECC_DED n) + 1) 0xFFFF)) ∧
    (s.d.granted n f = true → ∀ off ws, f.act = .store off ws → Gives (.memoryGrant lane tag ⟨ecc, second⟩) s fun t =>
      (∀ j, j < ws.length → Mem.word t.mem (base + off + 4 * j) = ws.getD j 0) ∧
      (∀ a, a < base + off ∨ base + off + 4 * ws.length ≤ a → Mem.rd t.mem a = Mem.rd s.mem a) ∧
      holds t { f with waiting := false, outs := [] } ∧ t = { s with mem := t.mem, d := { s.d with lanes := t.d.lanes } }) ∧
    (∀ st port v, f.act = .chan st port v →
      let q := Sparse.at' [] L.fifos (st * 8 + port)
      let first := (L.flight.find? fun g => g.act.toPort st port).map InFlight.tag
      (4 ≤ q.length ∨ first ≠ some tag.val → Leads (.portWriteComplete lane tag) s s) ∧
      (q.length < 4 → first = some tag.val → Gives (.portWriteComplete lane tag) s fun t =>
        Sparse.at' [] (t.d.lane n).fifos (st * 8 + port) = q ++ [v] ∧
        (t.d.lane n).flight = L.flight.filter (fun x => x.tag != tag.val) ∧ t.mem = s.mem ∧ t.d.hoop = s.d.hoop)) ∧
    (∀ c, f.act = .commit c →
      ((∃ e ∈ s.d.hoop, e.acked = false ∧ e.w = .commit c) → Leads (.portWriteComplete lane tag) s s) ∧
      ((∀ e ∈ s.d.hoop, e.w = .commit c → e.acked = true) → Gives (.portWriteComplete lane tag) s fun t =>
        (t.d.lane n).flight = L.flight.filter (fun x => x.tag != tag.val) ∧ t.mem = s.mem ∧ t.d.hoop = s.d.hoop)))

/-- For each of the 96 operations: one whose turn it is not under R129 to R137, or whose code is not the one commanded,
leaves the state as it is. One that no tag may be had for stays in its stream: STALL counts the lane cycle, once
whatever number of operations it refuses, and the run keeps the cycle for its count. One whose turn it is and whose
Strand-store word has a double-bit error leaves its stream without issuing; ECC.DED counts, STKCHK marks the Stake,
and STAKE_CHECK is reported with the logical Stake. NOP takes no tag: it leaves its stream, and a corrected error and
a CHAIN bit without a chain count. One whose predicate disables it takes its tag, counts as a writer of its slots, and
writes, sends and raises nothing. An enabled one of whose operand slots has a double-bit error takes its tag and will
write zeros to its slots with no flag; it sends, stores and requests nothing; ECC.DED counts and LANE_MEM_DED is
reported with the offset of the slot. Clauses that the spec leaves open follow the model's choices: log entries 18,
62, 64, 155 and 156. (R109, R115, R129, R130, R137, R138, R140, R143, R144, R160, R161) -/
def Obligations.OperationsThatDoNotRun : Prop :=
  ∀ (c : Instr) (opc : Nat) (i : Issue) (s : State), opIssue c = some (opc, i) →
    let n := i.lane.val
    let st := i.stake.val
    let L := s.d.lane n
    let stall (t : State) : Prop := t.d.get (R.WV_STALL_CYCLES n) =
      if L.stalled = some i.cycle then s.d.get (R.WV_STALL_CYCLES n) else min (s.d.get (R.WV_STALL_CYCLES n) + 1) 0xFFFFFFFF
    (s.turn opc i = .no → Leads c s s) ∧
    (∀ lss, s.turn opc i = .refused lss → Gives c s fun t =>
      stall t ∧ RegsBut [R.WV_STALL_CYCLES n] s.d t.d ∧
      (t.d.lane n).runs.map (fun r => (r.ls, r.no, r.streams)) = L.runs.map (fun r => (r.ls, r.no, r.streams)) ∧
      (∀ r ∈ (t.d.lane n).runs, r.ls = i.ls.val → r.refusedAt = some i.cycle ∨ r.grantedAt = some i.cycle) ∧
      (t.d.lane n).flight = L.flight ∧
      t = { s with d := { s.d with regs := t.d.regs, lanes := t.d.lanes } }) ∧
    ∀ q lss, s.turn opc i = .take q lss →
      (i.upset = .storeDouble → Gives c s fun t =>
        LeftStream s t i q ∧ (t.d.lane n).flight = L.flight ∧ t.mem = s.mem ∧ t.d.lc = s.d.lc ∧
        t.d.get (R.WV_ECC_DED n) = min (s.d.get (R.WV_ECC_DED n) + 1) 0xFFFF ∧
        (t.d.get (R.WV_STKCHK_STAKE n)).testBit st = true ∧
        Sends s t [reportOf s.d (4 + n) 67 st n] ∧
        RegsBut [R.WV_ECC_DED n, ⟨(R.WV_STKCHK_STAKE n).addr, st, 1⟩, R.WV_STALL_CYCLES n] s.d t.d) ∧
      (i.upset ≠ .storeDouble → c = .opNop i → Gives c s fun t =>
        LeftStream s t i q ∧ (t.d.lane n).flight = L.flight ∧
        (lss = [] → RegsBut [R.WV_ECC_CORR n, R.WV_CHAIN_MISS n] s.d t.d) ∧
        t.d.get (R.WV_ECC_CORR n) = (if i.upset = .storeSingle ∨ i.upset = .slotSingle then
          min (s.d.get (R.WV_ECC_CORR n) + 1) 0xFFFF else s.d.get (R.WV_ECC_CORR n)) ∧
        (q.idx = 0 → q.word.chain = true →
          t.d.get (R.WV_CHAIN_MISS n) = min (s.d.get (R.WV_CHAIN_MISS n) + 1) (2 ^ (R.WV_CHAIN_MISS n).w - 1)) ∧
        t = { s with d := { s.d with regs := t.d.regs, lanes := t.d.lanes } }) ∧
      (i.upset = .none → opc ≠ 0 → q.enabled = false → Gives c s fun t => Flies s t i q [] {}) ∧
      (∀ which slot, i.upset = .slotDouble which → opc ≠ 0 → q.enabled = true → Dev.upsetSlot q which.val = some slot →
        Gives c s fun t =>
          LeftStream s t i q ∧ t.mem = s.mem ∧ Sends s t [reportOf s.d (4 + n) 66 (st * 0x1000 + 4 * slot) n] ∧
          t.d.get (R.WV_ECC_DED n) = min (s.d.get (R.WV_ECC_DED n) + 1) 0xFFFF ∧
          ∃ f : InFlight, (t.d.lane n).flight = L.flight ++ [f] ∧ f.tag = s.d.newTag n ∧ f.writes = q.word.writes q.info ∧
            f.outs = f.writes.map (fun w => (w, 0)) ∧ f.flags = {} ∧ f.act = .none ∧ f.waiting = false)

/-- Where no operation of the Stake is in flight, a ready operation has as its operands the words that stand in the slots
its fields name; its predicate enables it when PEN is 0, or the predicate slot is nonzero and PINV is 0, or zero and
PINV is 1. When an entry in flight that waits for nothing completes without a failed residue check, each of its
destination slots holds its result, every byte outside them stays, its flags are ORed into the Loop Set's flag word,
the tag is free, and no other entry has moved; while it waits the command changes nothing. A failed residue check of
an add, MAC or divide result also writes the result unchanged, marks the Stake in STKCHK and reports STAKE_CHECK.
Clauses that the spec leaves open follow the model's choices: log entry 18. (R110, R136, R140, R158, R159) -/
def Obligations.OperandsComeFromSlotsAndResultsReachThem : Prop :=
  (∀ (i : Issue) (s : State) (q : Issued),
    s.eligible i.lane.val i.stake.val i.ls.val i.place.val i.cycle = some q →
    (∀ f ∈ (s.d.lane i.lane.val).flight, f.stake ≠ i.stake.val) →
    let at' (slot : Nat) : Word := Mem.word s.mem (0x20000000 + 0x100000 * i.lane.val + 0x1000 * i.stake.val + 4 * slot)
    q.x.a = at' q.word.srca ∧ q.x.b = at' q.word.srcb ∧ q.x.b' = at' (q.word.srcb + 1) ∧ q.x.c = at' (q.word.imm % 1024) ∧
    q.x.c' = at' (q.word.imm % 1024 + 1) ∧ q.x.d = at' q.word.dst ∧ q.x.d' = at' (q.word.dst + 1) ∧
    (q.enabled = true ↔ (q.word.pen = true → (at' (1020 + q.word.psel) ≠ 0 ↔ q.word.pinv = false)))) ∧
  (∀ (lane : Fin 2) (tag : Fin 256) (s : State) (f : InFlight) (bad : Bool),
    let n := lane.val
    let c := Instr.operationComplete lane tag bad
    let addr (slot : Nat) : Nat := 0x20000000 + 0x100000 * n + 0x1000 * f.stake + 4 * slot
    s.d.findTag n tag.val = some f →
    (f.waiting = true → Leads c s s) ∧
    (f.waiting = false → (f.outs.map Prod.fst).Nodup → (∀ o ∈ f.outs, o.1 < 1024) → Gives c s fun t =>
      (∀ o ∈ f.outs, Mem.word t.mem (addr o.1) = o.2) ∧
      (∀ a, (∀ o ∈ f.outs, a < addr o.1 ∨ addr o.1 + 4 ≤ a) → Mem.rd t.mem a = Mem.rd s.mem a) ∧
      (t.d.lane n).flight = (s.d.lane n).flight.filter (fun g => g.tag != tag.val) ∧
      Sparse.at' {} (t.d.lane n).flags (f.stake * 16 + f.ls) =
        (Sparse.at' {} (s.d.lane n).flags (f.stake * 16 + f.ls)).or f.flags ∧
      (t.d.lane n).runs = (s.d.lane n).runs ∧ (∀ m, m ≠ n → t.d.lane m = s.d.lane m) ∧
      (if bad = true ∧ f.unit ∈ [OpUnit.add, .mac, .divide] ∧ f.outs ≠ [] then
        Sends s t [reportOf s.d (4 + n) 67 f.stake n] ∧
          (f.stake < 32 → (t.d.get (R.WV_STKCHK_STAKE n)).testBit f.stake = true)
      else Sends s t [] ∧ t.d.get (R.WV_STKCHK_STAKE n) = s.d.get (R.WV_STKCHK_STAKE n))))

/-- Each of MOV, LDI, LDIH, RTIME, SEL, AND, OR, XOR, ANDN, SHL, SHR, SAR, ROR, BFX, BFI, IMIN, IMAX, ICMPLT, ICMPLTU,
ICMPEQ, CLZ, POPC and IMULH, issued with its operands, puts in flight the word that the Operation column of R161
gives, for its DST, with no flag; nothing else changes but the stream, the tag and the lane's counters. IADD, ISUB,
IADDI, IABS, IMUL and IMAC form the exact signed integer; inside 32 bits it is the result with no flag; outside, SAT =
1 gives the extreme word of its sign with S and SAT = 0 the low 32 bits with V. IDIV truncates toward zero under the
same rule (so 0x8000_0000 by -1 gives 0x7FFF_FFFF with S or 0x8000_0000 with V) and IDIVU divides unsigned; by zero
IDIV gives 0x7FFF_FFFF for a not negative and 0x8000_0000 for a negative, IDIVU gives 0xFFFF_FFFF, each with Z alone.
(R161) -/
def Obligations.RawWordAndIntegerOperationsWriteTheirWords : Prop :=
  (∀ (i : Issue) (s : State) (q : Issued) (c : Instr) (opc : Nat) (v : Word),
    let a := q.x.a
    let b := q.x.b
    let k := q.word.imm
    let sh := k % 32
    let pos := k % 32
    let len := k / 32 % 32 + 1
    let ones : Word := BitVec.ofNat 32 (2 ^ len - 1)
    let flag (p : Bool) : Word := if p then 1 else 0
    (c, opc, v) ∈ ([
      (.opMov i, 0x10, a), (.opLdi i, 0x11, (BitVec.ofNat 16 k).signExtend 32),
      (.opLdih i, 0x12, BitVec.ofNat 16 k ++ a.extractLsb' 0 16), (.opRtime i, 0x03, BitVec.ofNat 32 q.run.no),
      (.opSel i, 0x1F, if q.x.c ≠ 0 then a else b), (.opAnd i, 0x46, a &&& b), (.opOr i, 0x47, a ||| b),
      (.opXor i, 0x48, a ^^^ b), (.opAndn i, 0x49, a &&& ~~~b), (.opShl i, 0x4A, a <<< sh), (.opShr i, 0x4B, a >>> sh),
      (.opSar i, 0x4C, a.sshiftRight sh), (.opRor i, 0x4D, (a >>> sh) ||| (a <<< (32 - sh))),
      (.opBfx i, 0x4E, (a >>> pos) &&& ones),
      (.opBfi i, 0x4F, (q.x.d &&& ~~~(ones <<< pos)) ||| ((a &&& ones) <<< pos)),
      (.opImin i, 0x44, if b.slt a then b else a), (.opImax i, 0x45, if a.slt b then b else a),
      (.opIcmplt i, 0x50, flag (a.slt b)), (.opIcmpltu i, 0x51, flag (a.ult b)), (.opIcmpeq i, 0x52, flag (a == b)),
      (.opClz i, 0x53, BitVec.ofNat 32 ((List.range 32).takeWhile fun j => !a.getMsbD j).length),
      (.opPopc i, 0x54, BitVec.ofNat 32 ((List.range 32).filter fun j => a.getLsbD j).length),
      (.opImulh i, 0x61, (a.signExtend 64 * b.signExtend 64).extractLsb' 32 32)] : List (Instr × Nat × Word)) →
    Clear s opc i q → Gives c s fun t => Flies s t i q [(q.word.dst, v)] {}) ∧
  (∀ (i : Issue) (s : State) (q : Issued),
    let a := q.x.a.toInt
    let b := q.x.b.toInt
    (∀ (c : Instr) (opc : Nat) (z : Int),
      (c, opc, z) ∈ ([(.opIadd i, 0x40, a + b), (.opIsub i, 0x41, a - b),
        (.opIaddi i, 0x42, a + (BitVec.ofNat 16 q.word.imm).toInt), (.opIabs i, 0x43, |a|), (.opImul i, 0x60, a * b),
        (.opImac i, 0x62, a * b + q.x.c.toInt)] : List (Instr × Nat × Int)) →
      Clear s opc i q → Gives c s fun t => Flies s t i q [(q.word.dst, (intWord q.word.sat z).1)] (intWord q.word.sat z).2) ∧
    (Clear s 0x7C i q → Gives (.opIdiv i) s fun t =>
      if q.x.b = 0 then Flies s t i q [(q.word.dst, if a < 0 then 0x80000000 else 0x7FFFFFFF)] { z := true }
      else Flies s t i q [(q.word.dst, (intWord q.word.sat (a.tdiv b)).1)] (intWord q.word.sat (a.tdiv b)).2) ∧
    (Clear s 0x7D i q → Gives (.opIdivu i) s fun t =>
      if q.x.b = 0 then Flies s t i q [(q.word.dst, 0xFFFFFFFF)] { z := true }
      else Flies s t i q [(q.word.dst, q.x.a.udiv q.x.b)] {}))

/-- For every finite exact value x, format and direction: in Q1.31 and Q16.16 the word written is the integer x·2^31 or
x·2^16 rounded in that direction (to the nearer, a tie to the even; toward zero; down; up), kept where it lies in 32
bits, else limited to the extreme of its sign with S (SAT = 1, or an operation without S), or wrapped with V (SAT =
0), or wrapped with no flag (an angle). In FP32, for 2^e ≤ |x| < 2^(e+1) and e ≥ -126 the word reads back as
x·2^(23-e) rounded in that direction, over 2^(23-e), with no flag, unless that reaches 2^128: then the largest finite
value of its sign with S under SAT = 1, the infinity with V else. Below 2^-126 it is a zero of x's sign with no flag.
(R151, R152, R153) -/
def Obligations.WritingAValueRoundsItOnce : Prop :=
  ∀ (r : Rnd) (o : Ovf) (v : Val) (x : ℚ), v.Is x →
    (∀ f, f = Fmt.q31 ∨ f = Fmt.q16 →
      let z := rndInt r (x * 2 ^ f.frac)
      writeVal f r o v = (match o with
        | .wrap => intWord false z
        | .angle => (BitVec.ofInt 32 z, {})
        | _ => intWord true z)) ∧
    (∀ e : Int, (2 : ℚ) ^ e ≤ |x| → |x| < (2 : ℚ) ^ (e + 1) →
      let y : ℚ := rndInt r (x * (2 : ℚ) ^ (23 - e)) * (2 : ℚ) ^ (e - 23)
      let w := writeVal .fp32 r o v
      (-126 ≤ e → |y| < (2 : ℚ) ^ (128 : Int) → (readFmt .fp32 w.1).Is y ∧ w.2 = {}) ∧
      (-126 ≤ e → (2 : ℚ) ^ (128 : Int) ≤ |y| →
        w = if o = .sat then (if x < 0 then 0xFF7FFFFF else 0x7F7FFFFF, { s := true })
          else (if x < 0 then 0xFF800000 else 0x7F800000, { v := true })) ∧
      (e < -126 → w = (if x < 0 then 0x80000000 else 0, {})))

/-- For ADD, SUB, ADDI, NEG, ABS, ABSD, CPYS, MIN, MAX, MID3, AVG, LDEXP, RINT, FRAC, CVT, ITO, UTO, MUL, MAC, MSUB, MSBR,
MULI, SQR, LPF1, DIV and RECIP on finite operands (a divisor not zero): with x the rational number that R161 and R154
give, the word and flags put in flight are those that a value equal to x is written with, in FMT by RND, with SAT for
an operation that lists S and limited for one that does not. An exact result of zero is a zero word (in FP32 of either
sign) with no flag. (R150, R154, R161, R162) -/
def Obligations.TypedOperationsRoundTheExactResult : Prop :=
  ∀ (i : Issue) (s : State) (q : Issued) (c : Instr) (opc : Nat) (lists : Bool) (ops : List Val) (x : ℚ),
    let w := q.word
    let f := w.format
    let A := readFmt f q.x.a
    let B := readFmt f q.x.b
    let C := readFmt f q.x.c
    let D := readFmt f q.x.d
    let S := readFmt (if w.imm % 8 = 1 then .q31 else if w.imm % 8 = 2 then .q16 else .fp32) q.x.a
    let X := readFmt f (if f = .q16 then (BitVec.ofNat 16 w.imm).signExtend 32 <<< 8 else BitVec.ofNat 32 (w.imm * 2 ^ 16))
    let a := A.rat
    let b := B.rat
    let k := (BitVec.ofNat 6 w.imm).toInt
    (c, opc, lists, ops, x) ∈ ([
      (.opAdd i, 0x14, true, [A, B], a + b), (.opSub i, 0x15, true, [A, B], a - b), (.opAddi i, 0x16, true, [A, X], a + X.rat),
      (.opNeg i, 0x17, true, [A], -a), (.opAbs i, 0x18, true, [A], |a|), (.opAbsd i, 0x19, true, [A, B], |a - b|),
      (.opCpys i, 0x1A, true, [A, B], if B.neg? then -|a| else |a|), (.opMin i, 0x1B, false, [A, B], min a b),
      (.opMax i, 0x1C, false, [A, B], max a b),
      (.opMid3 i, 0x1D, false, [A, B, C], max (min a b) (min (max a b) C.rat)),
      (.opAvg i, 0x27, false, [A, B], (a + b) / 2), (.opLdexp i, 0x2D, true, [A], a * (2 : ℚ) ^ k),
      (.opRint i, 0x2E, true, [A], rndInt w.round a), (.opFrac i, 0x2F, false, [A], a - ⌊a⌋), (.opCvt i, 0x30, true, [S], S.rat),
      (.opIto i, 0x33, true, [], q.x.a.toInt * (2 : ℚ) ^ (-k)), (.opUto i, 0x34, true, [], q.x.a.toNat * (2 : ℚ) ^ (-k)),
      (.opMul i, 0x58, true, [A, B], a * b), (.opMac i, 0x59, true, [A, B, C], a * b + C.rat),
      (.opMsub i, 0x5A, true, [A, B, C], C.rat - a * b), (.opMsbr i, 0x5B, true, [A, B, C], a * b - C.rat),
      (.opMuli i, 0x5C, true, [A, X], a * X.rat), (.opSqr i, 0x5D, true, [A], a * a),
      (.opLpf1 i, 0x5E, true, [A, B, D], D.rat + a * (b - D.rat)), (.opDiv i, 0x78, true, [A, B], a / b),
      (.opRecip i, 0x79, true, [A], 1 / a)] : List (Instr × Nat × Bool × List Val × ℚ)) →
    (∀ v ∈ ops, v.finite = true) → (opc = 0x78 → b ≠ 0) → (opc = 0x79 → a ≠ 0) → Clear s opc i q →
    (x ≠ 0 → ∀ v : Val, v.Is x →
      let o := writeVal f w.round (if lists then w.ovf else .limit) v
      Gives c s fun t => Flies s t i q [(w.dst, o.1)] o.2) ∧
    (x = 0 → ∃ z : Word, z &&& 0x7FFFFFFF = 0 ∧ (f ≠ .fp32 → z = 0) ∧ Gives c s fun t => Flies s t i q [(w.dst, z)] {})

/-- A NaN operand of ADD, SUB, NEG, ABS, ABSD, CPYS, MID3, SGN, AVG, DZONE, RLIM, LDEXP, RINT, FRAC, CVT, MUL, MAC, MSUB,
MSBR, SQR, LPF1, DIV, RECIP, SQRT, RSQRT, SIN, COS, ATAN2, HYPOT, EXP or LN gives 0x7FC0_0000 under SAT = 0 (0 under
SAT = 1 or in a Q format) with N alone. MIN and MAX with one NaN operand write the other, with N. ADD of opposite
infinities, MUL of zero and an infinity, DIV of two infinities and FRAC of an infinity give that same NaN result; ADD
of an infinity and a finite value, MUL of an infinity and a nonzero value and DIV of an infinity give that infinity
with no flag, or the largest finite value with S under SAT = 1. (R152, R153, R161, R162) -/
def Obligations.NanAndInfiniteOperands : Prop :=
  ∀ (i : Issue) (s : State) (q : Issued),
    let w := q.word
    let f := w.format
    let A := readFmt f q.x.a
    let B := readFmt f q.x.b
    let C := readFmt f q.x.c
    let D := readFmt f q.x.d
    let S := readFmt (if w.imm % 8 = 1 then .q31 else if w.imm % 8 = 2 then .q16 else .fp32) q.x.a
    let nan (sat : Bool) : Word := if f = .fp32 ∧ sat = false then 0x7FC00000 else 0
    let inf (neg : Bool) : Word := if neg then (if w.sat then 0xFF7FFFFF else 0xFF800000)
      else (if w.sat then 0x7F7FFFFF else 0x7F800000)
    (∀ (c : Instr) (opc : Nat) (lists : Bool) (ops : List Val),
      (c, opc, lists, ops) ∈ ([
        (.opAdd i, 0x14, true, [A, B]), (.opSub i, 0x15, true, [A, B]), (.opNeg i, 0x17, true, [A]), (.opAbs i, 0x18, true, [A]),
        (.opAbsd i, 0x19, true, [A, B]), (.opCpys i, 0x1A, true, [A, B]), (.opMid3 i, 0x1D, false, [A, B, C]),
        (.opSgn i, 0x26, false, [A]), (.opAvg i, 0x27, false, [A, B]), (.opDzone i, 0x28, true, [A, B]),
        (.opRlim i, 0x29, true, [A, B, D]), (.opLdexp i, 0x2D, true, [A]), (.opRint i, 0x2E, true, [A]),
        (.opFrac i, 0x2F, false, [A]), (.opCvt i, 0x30, true, [S]), (.opMul i, 0x58, true, [A, B]),
        (.opMac i, 0x59, true, [A, B, C]), (.opMsub i, 0x5A, true, [A, B, C]), (.opMsbr i, 0x5B, true, [A, B, C]),
        (.opSqr i, 0x5D, true, [A]), (.opLpf1 i, 0x5E, true, [A, B, D]), (.opDiv i, 0x78, true, [A, B]),
        (.opRecip i, 0x79, true, [A]), (.opSqrt i, 0x7A, false, [A]), (.opRsqrt i, 0x7B, true, [A]),
        (.opSin i, 0x69, false, [A]), (.opCos i, 0x6A, false, [A]), (.opAtan2 i, 0x6C, false, [A, B]),
        (.opHypot i, 0x6D, true, [A, B]), (.opExp i, 0x6F, true, [A]), (.opLn i, 0x70, true, [A])] :
          List (Instr × Nat × Bool × List Val)) →
      Val.nan ∈ ops → Clear s opc i q →
      Gives c s fun t => Flies s t i q [(w.dst, nan (lists && w.sat))] { n := true }) ∧
    (∀ (c : Instr) (opc : Nat), (c, opc) = (.opMin i, 0x1B) ∨ (c, opc) = (.opMax i, 0x1C) → Clear s opc i q →
      (A = .nan → B.finite = true → B.rat ≠ 0 → Gives c s fun t => Flies s t i q [(w.dst, q.x.b)] { n := true }) ∧
      (B = .nan → A.finite = true → A.rat ≠ 0 → Gives c s fun t => Flies s t i q [(w.dst, q.x.a)] { n := true })) ∧
    (∀ p r : Bool,
      (Clear s 0x14 i q → A = .inf p → B = .inf (!p) →
        Gives (.opAdd i) s fun t => Flies s t i q [(w.dst, nan w.sat)] { n := true }) ∧
      (Clear s 0x14 i q → A = .inf p → B.finite = true ∨ B = .inf p →
        Gives (.opAdd i) s fun t => Flies s t i q [(w.dst, inf p)] { s := w.sat }) ∧
      (Clear s 0x58 i q → A = .inf p → B.finite = true → B.rat = 0 →
        Gives (.opMul i) s fun t => Flies s t i q [(w.dst, nan w.sat)] { n := true }) ∧
      (Clear s 0x58 i q → A = .inf p → (B.finite = true ∧ B.rat ≠ 0 ∧ B.neg? = r) ∨ B = .inf r →
        Gives (.opMul i) s fun t => Flies s t i q [(w.dst, inf (p != r))] { s := w.sat }) ∧
      (Clear s 0x78 i q → A = .inf p → B = .inf r →
        Gives (.opDiv i) s fun t => Flies s t i q [(w.dst, nan w.sat)] { n := true }) ∧
      (Clear s 0x78 i q → A = .inf p → B.finite = true → B.rat ≠ 0 → B.neg? = r →
        Gives (.opDiv i) s fun t => Flies s t i q [(w.dst, inf (p != r))] { s := w.sat }) ∧
      (Clear s 0x2F i q → A = .inf p → Gives (.opFrac i) s fun t => Flies s t i q [(w.dst, nan false)] { n := true }))

/-- On operands that are not NaN, with the order of the numbers and the infinities: CMPLT, CMPLE, CMPEQ and CMPNE write 1
or 0; HYST writes 1 above c', 0 below c, else the word d; ISAT writes whether a ≤ c or a ≥ c'. A NaN makes the
compares 0 (CMPNE 1), HYST d and ISAT 1, each with N. SGN writes the sign of a (+1 as 0x7FFF_FFFF in Q1.31). DZONE
writes 0 for |a| ≤ |b|, with S where a is not zero, else a - |b|·sign(a) rounded once. RLIM writes d + max(-|b|,
min(|b|, a - d)) rounded once, with S added where |a - d| exceeds |b|. (R157, R161, R162) -/
def Obligations.ComparesAndLimiters : Prop :=
  ∀ (i : Issue) (s : State) (q : Issued),
    let w := q.word
    let f := w.format
    let A := readFmt f q.x.a
    let B := readFmt f q.x.b
    let C := readFmt f q.x.c
    let C' := readFmt f q.x.c'
    let D := readFmt f q.x.d
    let flag (p : Bool) : Word := if p then 1 else 0
    let put (t : State) (v : Word) (fl : Flags) : Prop := Flies s t i q [(w.dst, v)] fl
    (∀ (c : Instr) (opc : Nat) (p nan : Bool),
      (c, opc, p, nan) ∈ ([(.opCmplt i, 0x20, decide (A.place < B.place), false),
        (.opCmple i, 0x21, decide (A.place ≤ B.place), false), (.opCmpeq i, 0x22, decide (A.place = B.place), false),
        (.opCmpne i, 0x23, decide (A.place ≠ B.place), true)] : List (Instr × Nat × Bool × Bool)) →
      Clear s opc i q → Gives c s fun t =>
        if A = .nan ∨ B = .nan then put t (flag nan) { n := true } else put t (flag p) {}) ∧
    (Clear s 0x24 i q → Gives (.opHyst i) s fun t =>
      if A = .nan ∨ C = .nan ∨ C' = .nan then put t q.x.d { n := true }
      else put t (if C'.place < A.place then 1 else if A.place < C.place then 0 else q.x.d) {}) ∧
    (Clear s 0x25 i q → Gives (.opIsat i) s fun t =>
      if A = .nan ∨ C = .nan ∨ C' = .nan then put t 1 { n := true }
      else put t (flag (decide (A.place ≤ C.place ∨ C'.place ≤ A.place))) {}) ∧
    (Clear s 0x26 i q → A.place < 0 → A ≠ .nan → Gives (.opSgn i) s fun t =>
      put t (match f with | .fp32 => 0xBF800000 | .q31 => 0x80000000 | .q16 => 0xFFFF0000) {}) ∧
    (Clear s 0x26 i q → A.place = 0 → A ≠ .nan → Gives (.opSgn i) s fun t => put t 0 {}) ∧
    (Clear s 0x26 i q → 0 < A.place → A ≠ .nan → Gives (.opSgn i) s fun t =>
      put t (match f with | .fp32 => 0x3F800000 | .q31 => 0x7FFFFFFF | .q16 => 0x00010000) {}) ∧
    (Clear s 0x28 i q → A.finite = true → B.finite = true → |A.rat| ≤ |B.rat| → Gives (.opDzone i) s fun t =>
      put t 0 { s := decide (A.rat ≠ 0) }) ∧
    (Clear s 0x28 i q → A.finite = true → B.finite = true → |B.rat| < |A.rat| → ∀ v : Val,
      v.Is (if A.rat < 0 then A.rat + |B.rat| else A.rat - |B.rat|) →
      let o := writeVal f w.round w.ovf v
      Gives (.opDzone i) s fun t => put t o.1 o.2) ∧
    (Clear s 0x29 i q → A.finite = true → B.finite = true → D.finite = true →
      let x := D.rat + max (-|B.rat|) (min |B.rat| (A.rat - D.rat))
      let lim : Flags := { s := decide (|B.rat| < |A.rat - D.rat|) }
      (x ≠ 0 → ∀ v : Val, v.Is x →
        let o := writeVal f w.round w.ovf v
        Gives (.opRlim i) s fun t => put t o.1 (o.2.or lim)) ∧
      (x = 0 → ∃ z : Word, z &&& 0x7FFFFFFF = 0 ∧ (f ≠ .fp32 → z = 0) ∧ Gives (.opRlim i) s fun t => put t z lim))

/-- On finite operands, with e the rounded value of a (CLAMP), a - b (IPRE) or d + a·b (INTG): the result is max(c,
min(c', e)), which is c where c > c'; S is set when that differs from e; SAT has no part in it. A NaN operand or limit
gives the NaN result with N. (R164, R165) -/
def Obligations.ClampsActOnTheRoundedValue : Prop :=
  ∀ (i : Issue) (s : State) (q : Issued) (c : Instr) (opc : Nat) (ops : List Val) (x : ℚ),
    let w := q.word
    let f := w.format
    let A := readFmt f q.x.a
    let B := readFmt f q.x.b
    let C := readFmt f q.x.c
    let C' := readFmt f q.x.c'
    let D := readFmt f q.x.d
    (c, opc, ops, x) ∈ ([(.opClamp i, 0x1E, [A], A.rat), (.opIpre i, 0x35, [A, B], A.rat - B.rat),
      (.opIntg i, 0x5F, [A, B, D], D.rat + A.rat * B.rat)] : List (Instr × Nat × List Val × ℚ)) →
    Clear s opc i q →
    ((∀ v ∈ ops, v.finite = true) → C.finite = true → C'.finite = true → ∀ u : Val, u.Is x →
      let e := (roundVal f w.round u).rat
      let y := max C.rat (min C'.rat e)
      (y ≠ 0 → ∀ v : Val, v.Is y →
        let o := writeVal f w.round .limit v
        Gives c s fun t => Flies s t i q [(w.dst, o.1)] (o.2.or { s := decide (y ≠ e) })) ∧
      (y = 0 → ∃ z : Word, z &&& 0x7FFFFFFF = 0 ∧ (f ≠ .fp32 → z = 0) ∧
        Gives c s fun t => Flies s t i q [(w.dst, z)] { s := decide (y ≠ e) })) ∧
    (Val.nan ∈ ops ++ [C, C'] → Gives c s fun t =>
      Flies s t i q [(w.dst, if f = .fp32 then 0x7FC00000 else 0)] { n := true })

/-- ANGADD and ANGDIFF in Q1.31 are wrapping additions with no flag, and WRAPA moves the word. In FP32 and Q16.16, on
finite operands, the exact sum, difference or operand has 2π (0x40C9_0FDB, 0x0006_487F) added once below -π and
subtracted once from π up, and is rounded once; WRAPA sets V where the result still lies outside. TOI and TOU on a
finite operand round a·2^k by RND to an integer: inside the signed or unsigned 32-bit range it is the word, else the
end of the range with S under SAT = 1, or the low 32 bits with V; NaN gives 0 with N, an infinity the end of the range
of its sign with S whatever SAT holds. (R152, R155, R161, R162) -/
def Obligations.AnglesWrapAndIntegersConvert : Prop :=
  ∀ (i : Issue) (s : State) (q : Issued),
    let w := q.word
    let f := w.format
    let A := readFmt f q.x.a
    let B := readFmt f q.x.b
    let turn : ℚ := (if f = .q16 then readFmt .q16 0x0006487F else readFmt .fp32 0x40C90FDB).rat
    let once (x : ℚ) : ℚ := if x < -(turn / 2) then x + turn else if turn / 2 ≤ x then x - turn else x
    (f = .q31 →
      (Clear s 0x2A i q → Gives (.opAngadd i) s fun t => Flies s t i q [(w.dst, q.x.a + q.x.b)] {}) ∧
      (Clear s 0x2B i q → Gives (.opAngdiff i) s fun t => Flies s t i q [(w.dst, q.x.a - q.x.b)] {}) ∧
      (Clear s 0x2C i q → Gives (.opWrapa i) s fun t => Flies s t i q [(w.dst, q.x.a)] {})) ∧
    (f ≠ .q31 → ∀ (c : Instr) (opc : Nat) (ops : List Val) (x : ℚ),
      (c, opc, ops, x) ∈ ([(.opAngadd i, 0x2A, [A, B], A.rat + B.rat), (.opAngdiff i, 0x2B, [A, B], A.rat - B.rat),
        (.opWrapa i, 0x2C, [A], A.rat)] : List (Instr × Nat × List Val × ℚ)) →
      (∀ v ∈ ops, v.finite = true) → once x ≠ 0 → Clear s opc i q → ∀ v : Val, v.Is (once x) →
      let o := writeVal f w.round .limit v
      Gives c s fun t => Flies s t i q [(w.dst, o.1)]
        (o.2.or { v := decide (opc = 0x2C ∧ (once x < -(turn / 2) ∨ turn / 2 ≤ once x)) })) ∧
    (∀ (c : Instr) (opc : Nat) (lo hi : Int),
      (c, opc, lo, hi) = (.opToi i, 0x31, -(2 ^ 31), 2 ^ 31 - 1) ∨ (c, opc, lo, hi) = (.opTou i, 0x32, 0, 2 ^ 32 - 1) →
      Clear s opc i q →
      (A = .nan → Gives c s fun t => Flies s t i q [(w.dst, 0)] { n := true }) ∧
      (∀ p, A = .inf p → Gives c s fun t => Flies s t i q [(w.dst, BitVec.ofInt 32 (if p then lo else hi))] { s := true }) ∧
      (A.finite = true →
        let z := rndInt w.round (A.rat * (2 : ℚ) ^ (BitVec.ofNat 6 w.imm).toInt)
        (lo ≤ z → z ≤ hi → Gives c s fun t => Flies s t i q [(w.dst, BitVec.ofInt 32 z)] {}) ∧
        (z < lo ∨ hi < z → w.sat = true →
          Gives c s fun t => Flies s t i q [(w.dst, BitVec.ofInt 32 (if z < lo then lo else hi))] { s := true }) ∧
        (z < lo ∨ hi < z → w.sat = false → Gives c s fun t => Flies s t i q [(w.dst, BitVec.ofInt 32 z)] { v := true })))

/-- DIV and RECIP of a nonzero value by zero give the infinity of the quotient's sign (the largest finite value under SAT
= 1), in a Q format the extreme of the dividend's sign, with Z; 0/0 gives the NaN result. SQRT, RSQRT and HYPOT of a
positive argument are the square root rounded once; a negative argument is invalid. SIN, COS, ROT, ATAN2, EXP and LN
write what the shared operation of their function gives (that it is the exact value rounded once is the next
statement), for every operand, SINCOS and VEC the two results separately, with these cases: sin 0 is 0, cos 0 is 1
(limited with S in Q1.31), an infinite angle is invalid, atan2 of two zeros is 0, e^0 is 1, ln 1 is 0, ln 0 is the
negative infinity or extreme with Z, ln of a negative value is invalid, a rotation by zero leaves nonzero a and b.
Clauses that the spec leaves open follow the model's choices: log entries 30, 157, 158 and 159. (R152, R153, R161,
R162, R163) -/
def Obligations.DivisionRootsAndCordicResults : Prop :=
  ∀ (i : Issue) (s : State) (q : Issued),
    let w := q.word
    let f := w.format
    let A := readFmt f q.x.a
    let B := readFmt f q.x.b
    let nan (sat : Bool) : Word := if f = .fp32 ∧ sat = false then 0x7FC00000 else 0
    let one : Word := match f with | .fp32 => 0x3F800000 | .q31 => 0x7FFFFFFF | .q16 => 0x00010000
    let capped : Flags := { s := decide (f = .q31) }
    let put (t : State) (o : Word × Flags) : Prop := Flies s t i q [(w.dst, o.1)] o.2
    let two (t : State) (o p : Word × Flags) : Prop := Flies s t i q [(w.dst, o.1), (w.dst + 1, p.1)] (o.2.or p.2)
    let away (neg : Bool) : Word := match f with
      | .fp32 => if neg then (if w.sat then 0xFF7FFFFF else 0xFF800000) else (if w.sat then 0x7F7FFFFF else 0x7F800000)
      | _ => if neg then 0x80000000 else 0x7FFFFFFF
    (Clear s 0x78 i q → A.finite = true → B.finite = true → B.rat = 0 → Gives (.opDiv i) s fun t =>
      put t (if A.rat = 0 then (nan w.sat, { n := true }) else (away (A.neg? != B.neg?), { z := true }))) ∧
    (Clear s 0x79 i q → A.finite = true → A.rat = 0 → Gives (.opRecip i) s fun t => put t (away A.neg?, { z := true })) ∧
    (Clear s 0x7A i q → A.finite = true → 0 < A.rat → ∃ o, rootWord f w.round true A.rat o ∧
      Gives (.opSqrt i) s fun t => put t o) ∧
    (Clear s 0x7B i q → A.finite = true → 0 < A.rat → ∃ o, rootWord f w.round w.sat (1 / A.rat) o ∧
      Gives (.opRsqrt i) s fun t => put t o) ∧
    (Clear s 0x7A i q → A.finite = true → A.rat < 0 → Gives (.opSqrt i) s fun t => put t (nan false, { n := true })) ∧
    (Clear s 0x7B i q → A.finite = true → A.rat < 0 → Gives (.opRsqrt i) s fun t => put t (nan w.sat, { n := true })) ∧
    (Clear s 0x7B i q → A.finite = true → A.rat = 0 → Gives (.opRsqrt i) s fun t => put t (away A.neg?, { z := true })) ∧
    (Clear s 0x6D i q → A.finite = true → B.finite = true → 0 < A.rat ^ 2 + B.rat ^ 2 →
      ∃ o, rootWord f w.round w.sat (A.rat ^ 2 + B.rat ^ 2) o ∧ Gives (.opHypot i) s fun t => put t o) ∧
    (Clear s 0x69 i q → Gives (.opSin i) s fun t => put t (sinOp f w.round false q.x.a)) ∧
    (Clear s 0x6A i q → Gives (.opCos i) s fun t => put t (sinOp f w.round true q.x.a)) ∧
    (Clear s 0x68 i q → Gives (.opSincos i) s fun t =>
      two t (sinOp f w.round false q.x.a) (sinOp f w.round true q.x.a)) ∧
    (Clear s 0x6B i q → Gives (.opRot i) s fun t =>
      two t (rotOp f w.round w.ovf false q.x.a q.x.b q.x.c) (rotOp f w.round w.ovf true q.x.a q.x.b q.x.c)) ∧
    (Clear s 0x6C i q → Gives (.opAtan2 i) s fun t => put t (atan2Op f w.round false q.x.a q.x.b)) ∧
    (Clear s 0x6E i q → Gives (.opVec i) s fun t =>
      two t (hypotOp f w.round w.ovf q.x.a q.x.b) (atan2Op f w.round w.sat q.x.a q.x.b)) ∧
    (Clear s 0x6F i q → Gives (.opExp i) s fun t => put t (expOp f w.round w.ovf q.x.a)) ∧
    (Clear s 0x70 i q → Gives (.opLn i) s fun t => put t (lnOp f w.round w.ovf q.x.a)) ∧
    (A.finite = true → A.rat = 0 → sinOp f w.round true q.x.a = (one, capped) ∧
      (sinOp f w.round false q.x.a).1 &&& 0x7FFFFFFF = 0 ∧ expOp f w.round .sat q.x.a = (one, capped) ∧
      lnOp f w.round w.ovf q.x.a = (away true, { z := true })) ∧
    (∀ p, A = .inf p → sinOp f w.round false q.x.a = (nan false, { n := true }) ∧
      sinOp f w.round true q.x.a = (nan false, { n := true })) ∧
    (A.finite = true → B.finite = true → A.rat = 0 → B.rat = 0 → atan2Op f w.round false q.x.a q.x.b = (0, {})) ∧
    (A.finite = true → A.rat = 1 → (lnOp f w.round w.ovf q.x.a).1 = 0) ∧
    (A.finite = true → A.rat < 0 → lnOp f w.round w.ovf q.x.a = (nan w.sat, { n := true })) ∧
    (A.finite = true → B.finite = true → A.rat ≠ 0 → B.rat ≠ 0 →
      rotOp f w.round w.ovf false q.x.a q.x.b 0 = (q.x.a, {}) ∧ rotOp f w.round w.ovf true q.x.a q.x.b 0 = (q.x.b, {}))

/-- For finite operands, SIN, COS, SINCOS, ROT, ATAN2, HYPOT, VEC, EXP and LN complete, and each word that they put in
flight for DST (and DST + 1) is the real number sin x, cos x, a·cos x - b·sin x, a·sin x + b·cos x, atan2(a, b), √(a²
+ b²), e^a or ln a of the operands' values, rounded once to FMT by RND and limited or wrapped where it lies outside
the format (SIN and COS limited, ATAN2 wrapped as an angle, the others by SAT), with that result's flags; two results
round separately. Angles are in radians, in Q1.31 in units of π. ATAN2 has a ≠ 0 or b > 0, LN a > 0: the other
operands are special cases of the statement before. Where the operand is one for which no precision of the model
decides the rounding, the word is the free value of log entry 30 with no flag; √(a² + b²) has no such case. (R150,
R151, R152, R153, R155, R161, R163) -/
def Obligations.CordicResultsAreRealValuesRoundedOnce : Prop :=
  ∀ (i : Issue) (s : State) (q : Issued),
    let w := q.word
    let f := w.format
    let A := readFmt f q.x.a
    let B := readFmt f q.x.b
    let C := readFmt f q.x.c
    let a : ℝ := (A.rat : ℚ)
    let b : ℝ := (B.rat : ℚ)
    let unit : ℝ := if f = .q31 then Real.pi else 1
    let arg : ℝ := Complex.arg ⟨b, a⟩ / unit
    let rounded (o : Ovf) (fn : Nat) (ws : List Word) (x : ℝ) (p : Word × Flags) : Prop :=
      realWord f w.round o x p ∨ p = (Config.cordicFree fn (fmtCode f) (rndCode w.round) ws, {})
    let one (c : Instr) (P : Word × Flags → Prop) : Prop :=
      ∃ p, P p ∧ Gives c s fun t => Flies s t i q [(w.dst, p.1)] p.2
    let two (c : Instr) (P P' : Word × Flags → Prop) : Prop :=
      ∃ p p', P p ∧ P' p' ∧ Gives c s fun t => Flies s t i q [(w.dst, p.1), (w.dst + 1, p'.1)] (p.2.or p'.2)
    A.finite = true →
      (Clear s 0x69 i q → one (.opSin i) (rounded .limit 1 [q.x.a] (Real.sin (unit * a)))) ∧
      (Clear s 0x6A i q → one (.opCos i) (rounded .limit 2 [q.x.a] (Real.cos (unit * a)))) ∧
      (Clear s 0x68 i q → two (.opSincos i) (rounded .limit 1 [q.x.a] (Real.sin (unit * a)))
        (rounded .limit 2 [q.x.a] (Real.cos (unit * a)))) ∧
      (Clear s 0x6B i q → B.finite = true → C.finite = true →
        let x : ℝ := unit * (C.rat : ℚ)
        two (.opRot i) (rounded w.ovf 3 [q.x.a, q.x.b, q.x.c] (a * Real.cos x - b * Real.sin x))
          (rounded w.ovf 4 [q.x.a, q.x.b, q.x.c] (a * Real.sin x + b * Real.cos x))) ∧
      (Clear s 0x6C i q → B.finite = true → A.rat ≠ 0 ∨ 0 < B.rat →
        one (.opAtan2 i) (rounded .angle 5 [q.x.a, q.x.b] arg)) ∧
      (Clear s 0x6D i q → B.finite = true → one (.opHypot i) (realWord f w.round w.ovf (Real.sqrt (a ^ 2 + b ^ 2)))) ∧
      (Clear s 0x6E i q → B.finite = true → A.rat ≠ 0 ∨ 0 < B.rat →
        two (.opVec i) (realWord f w.round w.ovf (Real.sqrt (a ^ 2 + b ^ 2))) (rounded .angle 5 [q.x.a, q.x.b] arg)) ∧
      (Clear s 0x6F i q → one (.opExp i) (rounded w.ovf 6 [q.x.a] (Real.exp a))) ∧
      (Clear s 0x70 i q → 0 < A.rat → one (.opLn i) (rounded w.ovf 7 [q.x.a] (Real.log a)))

/-- SATT and SATTL put in flight for DST the timer and for DST + 1 the trigger time t of the run: delta is t minus the
stored time modulo 2^32, at most four periods where PERIOD_NS is not 0; saturated (a ≤ c, a ≥ c' or a NaN) the timer
adds delta up to 0xFFFF_FFFF; not saturated SATT writes 0 and SATTL takes off delta / 4, down to 0. Where b is not 0
and the timer crosses b from below, SAT_EXPIRE is reported with the DST slot, the logical Stake and the Loop Set in
its context; else nothing is. N is set by a NaN operand alone. (R166) -/
def Obligations.SaturationTimersCountAndExpire : Prop :=
  ∀ (i : Issue) (s : State) (q : Issued) (c : Instr) (opc : Nat),
    (c, opc) = (.opSatt i, 0x36) ∨ (c, opc) = (.opSattl i, 0x37) → Clear s opc i q →
    let w := q.word
    let A := readFmt w.format q.x.a
    let C := readFmt w.format q.x.c
    let C' := readFmt w.format q.x.c'
    let t0 : Word := BitVec.ofNat 32 q.run.no
    let past := (t0 - q.x.d').toNat
    let delta := if q.set.period ≠ 0 ∧ 4 * q.set.period < past then 4 * q.set.period else past
    let isSat : Prop := A = .nan ∨ (C ≠ .nan ∧ A.place ≤ C.place) ∨ (C' ≠ .nan ∧ C'.place ≤ A.place)
    let old := q.x.d.toNat
    ∀ new, (isSat → new = min (old + delta) (2 ^ 32 - 1)) →
      (¬isSat → new = (if opc = 0x36 then 0 else if delta / 4 < old then old - delta / 4 else 0)) →
      Gives c s fun t =>
        Flies s t i q [(w.dst, BitVec.ofNat 32 new), (w.dst + 1, t0)]
          { n := decide (A = .nan ∨ C = .nan ∨ C' = .nan) }
          (sent := if q.x.b ≠ 0 ∧ old < q.x.b.toNat ∧ q.x.b.toNat ≤ new then
            [reportOf s.d (4 + i.lane.val) 69 (w.dst + 2 ^ 10 * i.stake.val + 2 ^ 16 * q.run.ls) i.lane.val] else [])

/-- PRD of a sample port reads the run's snapshot, in which a port without a route is 0; of a channel port it takes the
FIFO's oldest word. PWR of a port without a route discards the value; on a channel route it waits for the receiving
FIFO; on routes 0x10 to 0x12 it puts the commit word on LANE's channel, and for a leg, from the lane that LANE marks
active, first on the channel of its PWM island, and waits. RAISE reports STRAND_RAISE with context i. LD and LDP, ST
and STP at an aligned offset a + 4i (modulo 2^32) inside 0x2_0000 to 0xF_FFFF request their words and wait; elsewhere
a load gets zeros, a store nothing, and WEAVE_ADDR is reported with the logical Stake. GETF takes the flag word, which
is then zero. No byte of memory changes at issue. Clauses that the spec leaves open follow the model's choices: log
entries 44 and 155. (R29, R113, R117, R121, R122, R158, R161, R162) -/
def Obligations.PortMemoryAndFlagOperations : Prop :=
  ∀ (i : Issue) (s : State) (q : Issued),
    let n := i.lane.val
    let st := i.stake.val
    let w := q.word
    let l := s.d.lane n
    let routes := s.d.pat.routes
    let off := (q.x.a.toNat + 4 * w.imm) % 2 ^ 32
    let within (k : Nat) : Prop := off % 4 = 0 ∧ 0x20000 ≤ off ∧ off + 4 * k ≤ 0x100000
    let astray := reportOf s.d (4 + n) 65 st n
    let chan : Bool := routes.any fun t => t.kind == 3 && t.dstStake == st && t.dstPort == w.imm
    (Clear s 0x01 i q → chan = false → Gives (.opPrd i) s fun t =>
        Flies s t i q [(w.dst, Sparse.at' 0 q.run.snap (st * 8 + w.imm))] {}) ∧
    (Clear s 0x01 i q → (∀ r ∈ routes, r.dstStake = st → r.dstPort ≠ w.imm) →
      (∀ p ∈ q.run.snap, ∃ r ∈ routes, p.1 = r.dstStake * 8 + r.dstPort ∧ r.dstPort < 8) → w.imm < 8 →
      Gives (.opPrd i) s fun t => Flies s t i q [(w.dst, 0)] {}) ∧
    (∀ v rest, Clear s 0x01 i q → chan = true → Sparse.at' [] l.fifos (st * 8 + w.imm) = v :: rest →
      Gives (.opPrd i) s fun t =>
        Flies s t i q [(w.dst, v)] {} (l := { l with fifos := Sparse.put [] l.fifos (st * 8 + w.imm) rest })) ∧
    (Clear s 0x02 i q → (∀ r ∈ routes, (r.kind = 3 ∨ 0x10 ≤ r.kind) → r.srcUnit = st → r.srcItem ≠ w.dst) →
      Gives (.opPwr i) s fun t => Flies s t i q [] {}) ∧
    (∀ r, Clear s 0x02 i q →
      routes.filter (fun r => (r.kind == 3 || decide (0x10 ≤ r.kind)) && r.srcUnit == st && r.srcItem == w.dst) = [r] →
      Gives (.opPwr i) s fun t =>
        if r.kind = 3 then Flies s t i q [] {} (act := .chan r.dstStake r.dstPort q.x.a)
        else
          let field := if r.kind = 0x12 then 0 else w.imm % 16
          ∃ cw : CommitWord, cw.lane = n ∧ cw.ls = q.run.ls ∧ cw.run = q.run.no ∧ cw.kind = r.kind ∧ cw.unit = r.dstUnit ∧
            cw.field = field ∧ cw.fin = (r.kind != 0x12 && w.imm.testBit 4) ∧ cw.value = q.x.a ∧
            cw.occ = (q.run.sent.filter (· == (r.kind, r.dstUnit, field))).length ∧
            Flies s t i q [] {} (act := .commit cw) (sent :=
              (if r.kind = 0x10 ∧ s.d.laneState n = 1 then
                [⟨(if n = 0 then 0x10 else 0x18) + (if r.dstUnit < 24 then 0 else 1), if r.dstUnit < 24 then 6 else 7,
                  .commit cw, false, false⟩] else []) ++
              [⟨if n = 0 then 0x12 else 0x1A, 3, .commit cw, false, false⟩])) ∧
    (Clear s 0x08 i q → Gives (.opRaise i) s fun t =>
      Flies s t i q [] {} (sent := [reportOf s.d (4 + n) 70 w.imm n])) ∧
    (Clear s 0x04 i q → within 1 → Gives (.opLd i) s fun t => Flies s t i q [(w.dst, 0)] {} (act := .load off 1)) ∧
    (Clear s 0x04 i q → ¬within 1 → Gives (.opLd i) s fun t => Flies s t i q [(w.dst, 0)] {} (sent := [astray])) ∧
    (Clear s 0x06 i q → within 2 → Gives (.opLdp i) s fun t =>
      Flies s t i q [(w.dst, 0), (w.dst + 1, 0)] {} (act := .load off 2)) ∧
    (Clear s 0x06 i q → ¬within 2 → Gives (.opLdp i) s fun t =>
      Flies s t i q [(w.dst, 0), (w.dst + 1, 0)] {} (sent := [astray])) ∧
    (Clear s 0x05 i q → within 1 → Gives (.opSt i) s fun t => Flies s t i q [] {} (act := .store off [q.x.b])) ∧
    (Clear s 0x05 i q → ¬within 1 → Gives (.opSt i) s fun t => Flies s t i q [] {} (sent := [astray])) ∧
    (Clear s 0x07 i q → within 2 → Gives (.opStp i) s fun t => Flies s t i q [] {} (act := .store off [q.x.b, q.x.b'])) ∧
    (Clear s 0x07 i q → ¬within 2 → Gives (.opStp i) s fun t => Flies s t i q [] {} (sent := [astray])) ∧
    (Clear s 0x13 i q → Gives (.opGetf i) s fun t =>
      let fl := Sparse.at' {} l.flags (st * 16 + q.run.ls)
      Flies s t i q [(w.dst, fl.toWord)] {}
        (l := { l with flags := Sparse.put {} l.flags (st * 16 + q.run.ls) {} }))

/-- ADC_SEQ_TRIGGER takes the oldest trigger: an enabled converter in service with no sequence running starts its sequence
at entry 0; with one running the trigger waits, SEQ_OVR counts and ADC_SEQ_OVERRUN is reported; a further one counts
in SEQ_LOST. ADC_SLOT_GRANT, while the slice next in rotation still converts, is not due and changes nothing; else it
starts, on that slice, the conversion of an accepted injected request before the sequence, and of a sequence's entry
at its position, alone (class 0 or 1) or in both converters at once (a shared input), and the rotation advances.
CONVERSION_COMPLETE rounds 32768·(V - 0.900 V)/1.25 V convergently and clamps the code to 16 bits. Of an unsealed
input, injected or of class 0, the tagged result with its stamp enters its owner's queue; a full queue loses it,
counts QLOSS and reports the first loss; each window comparator on the input shows whether the code lies outside its
limits. Of a sealed input (class 1) it enters the Tally alone. Of a shared input both converters' results are queued
and compared: apart by more than the pair window both MISMATCH count and ADC_PAIR is reported; the reference inputs 38
and 39 report ADC_REF of each converter that lies outside REF_WIN. QTIME_READ answers the head's stamp and removes it;
an empty queue answers 0. Clauses that the spec leaves open follow the model's choices: log entries 18, 65, 66, 67,
72, 145, 160 and 161. (R170, R175, R177, R181, R182, R183, R185, R186, R194, R197, R199, R200) -/
def Obligations.ConvertersRunSequencesAndQueueResults : Prop :=
  (∀ (c : Fin 4) (s : State) (tm : Nat) (rest : List Nat), (s.d.adc c.val).trigIn = tm :: rest →
    s.d.adcAvail c.val = true → s.d.adcHanded c.val = false → (s.d.adcMap c.val).seq ≠ [] →
    let u := s.d.adc c.val
    Gives (.adcSeqTrigger c) s fun t =>
      let u' := t.d.adc c.val
      t.mem = s.mem ∧ u'.trigIn = rest ∧ u'.flights = u.flights ∧ u'.queue = u.queue ∧
      (∀ m, m ≠ c.val → t.d.adc m = s.d.adc m) ∧
      (u.running = false → u'.running = true ∧ u'.pos = 0 ∧ u'.seqNo = (u.seqNo + 1) % 64 ∧ Sends s t [] ∧
        t.d.get (R.ADC_STATUS_SEQ_ACTIVE c.val) = 1) ∧
      (u.running = true → u.pend = false → u'.pend = true ∧ u'.pos = u.pos ∧ Sends s t [reportOf s.d (8 + c.val / 2) 52 c.val] ∧
        t.d.get (R.ADC_CNT_SEQ_OVR c.val) = min (s.d.get (R.ADC_CNT_SEQ_OVR c.val) + 1) (2 ^ (R.ADC_CNT_SEQ_OVR 0).w - 1)) ∧
      (u.running = true → u.pend = true → u'.pend = true ∧ u'.pos = u.pos ∧ Sends s t [] ∧
        t.d.get (R.ADC_CNT_SEQ_LOST c.val) = min (s.d.get (R.ADC_CNT_SEQ_LOST c.val) + 1) (2 ^ (R.ADC_CNT_SEQ_LOST 0).w - 1))) ∧
  (∀ (pair lead : Fin 2) (s : State),
    let c := 2 * pair.val + lead.val
    let p := 2 * pair.val + (1 - lead.val)
    let u := s.d.adc c
    let ain := (s.d.adcMap c).seq.getD u.pos 0
    let final : Bool := decide ((s.d.adcMap c).seq.length ≤ u.pos + 1)
    let slot (n : Nat) : Nat := s.d.nextSlice n
    (s.d.sliceBusy c = true → Leads (.adcSlotGrant pair) s s) ∧
    ((∀ n, n = c ∨ n = p → s.d.adcAvail n = true ∧ s.d.adcHanded n = false ∧ (s.d.adc n).calWait = false ∧
      s.d.sliceBusy n = false) → (s.d.adc p).inj = none → (s.d.adc p).running = false →
    (∀ k x, u.inj = some (k, x) → s.d.cfg.pend = [] → Gives (.adcSlotGrant pair) s fun t =>
      (t.d.adc c).flights = u.flights ++ [⟨c, x, true, false, false, false, false, u.seqNo, s.d.time.short, slot c⟩] ∧
      (t.d.adc c).rot = (u.rot + 1) % 8 ∧
      (t.d.adc c).inj = none ∧ (t.d.adc c).pos = u.pos ∧ (t.d.adc p).flights = (s.d.adc p).flights ∧ t.mem = s.mem) ∧
    (u.inj = none → u.running = true → s.d.adcClass c ain < 2 → Gives (.adcSlotGrant pair) s fun t =>
      (t.d.adc c).flights = u.flights ++ [⟨c, ain, false, false, false, false, final, u.seqNo, s.d.time.short, slot c⟩] ∧
      (t.d.adc c).rot = (u.rot + 1) % 8 ∧
      (final = false → (t.d.adc c).running = true ∧ (t.d.adc c).pos = u.pos + 1) ∧
      (t.d.adc p).flights = (s.d.adc p).flights ∧ t.mem = s.mem) ∧
    (u.inj = none → u.running = true → 2 ≤ s.d.adcClass c ain → Gives (.adcSlotGrant pair) s fun t =>
      (t.d.adc c).flights = u.flights ++ [⟨c, ain, false, false, true, false, final, u.seqNo, s.d.time.short, slot c⟩] ∧
      (t.d.adc p).flights = (s.d.adc p).flights ++
        [⟨p, ain, false, false, true, true, false, (s.d.adc p).seqNo, s.d.time.short, slot p⟩] ∧ t.mem = s.mem))) ∧
  (∀ (c : Fin 4) (x y : Volts) (s : State) (f : Conv) (rest : List Conv),
    let o := f.owner
    let p := partner c.val
    let q := (s.d.adc o).queue
    let lsb (v : Volts) : Int := rndInt .even (32768 * ((v.num : ℚ) / v.den - 9 / 10) / (5 / 4))
    let clamped (v : Volts) : Int := max (-32768) (min 32767 (lsb v))
    let code := clamped x
    let flag (b : Bool) (k : Nat) : Nat := if b then 2 ^ k else 0
    let tagOf (v : Volts) (f : Conv) (shared : Bool) : Word := BitVec.ofNat 32 ((BitVec.ofInt 16 (clamped v)).toNat +
      f.ain * 2 ^ 16 + flag f.inj 22 + flag f.carried 23 + flag (decide (lsb v < -32768 ∨ 32767 < lsb v)) 24 + flag shared 25 +
      f.seq * 2 ^ 26)
    let tag := tagOf x f false
    0 < x.den → 0 < y.den → (s.d.adc c.val).flights = f :: rest → f.last = false →
    (s.d.blockFull c.val = true → Leads (.conversionComplete c x y) s s) ∧
    (f.shared = false → s.d.blockFull c.val = false → o = c.val ∨ o = p → s.d.adcClass o f.ain = 1 →
      ∀ j, s.d.tallyOf o f.ain = some j →
      let T := s.d.tally o j
      let out : Bool := decide (code < (BitVec.ofNat 16 (s.d.act (R.ADC_T_LIM_LO o j))).toInt ∨
        (BitVec.ofNat 16 (s.d.act (R.ADC_T_LIM_HI o j))).toInt < code)
      (s.d.act (R.ADC_T_WIN_WIN_N o j) ≤ T.n → Leads (.conversionComplete c x y) s s) ∧
      (T.n < s.d.act (R.ADC_T_WIN_WIN_N o j) → s.d.tallyOver o j = false → Gives (.conversionComplete c x y) s fun t =>
        (t.d.adc c.val).flights = rest ∧ (t.d.adc o).queue = q ∧ t.mem = s.mem ∧ Sends s t [] ∧
        t.d.tally o j = { sum := T.sum + code, sq := T.sq + (code ^ 2).toNat, min := min T.min code, max := max T.max code
                          n := T.n + 1, run := if out then T.run + 1 else 0, raised := out && T.raised
                          first := if T.n = 0 then f.time else T.first })) ∧
    (∀ g rest', (s.d.adc p).flights = g :: rest' → f.shared = true → g.shared = true → g.ain = f.ain →
      o = c.val → g.owner = p → g.last = false → s.d.blockFull c.val = false → s.d.blockFull p = false →
      q.length < 1024 → (s.d.adc p).queue.length < 1024 →
      let low := 2 * (c.val / 2)
      let window := (((s.d.adcMap low).chans.find? fun r => r.ain == f.ain).map (·.window)).getD 0
      let apart : Prop := (window : Int) < |clamped x - clamped y|
      let astray (n : Nat) (z : Int) : Prop := (f.ain = 38 ∨ f.ain = 39) ∧ s.d.act (R.ADC_PAIRCFG_REF_WIN n) ≠ 0 ∧
        (s.d.act (R.ADC_PAIRCFG_REF_WIN n) : Int) < |z - (BitVec.ofNat 16 (s.d.act (R.ADC_PAIRCFG_REF_EXPECT n))).toInt|
      Gives (.conversionComplete c x y) s fun t =>
        t.mem = s.mem ∧ (t.d.adc c.val).flights = rest ∧ (t.d.adc p).flights = rest' ∧
        (t.d.adc c.val).queue = q ++ [(tagOf x f true, BitVec.ofNat 32 f.time)] ∧
        (t.d.adc p).queue = (s.d.adc p).queue ++ [(tagOf y g true, BitVec.ofNat 32 g.time)] ∧
        (∀ n, n = c.val ∨ n = p →
          (apart → t.d.get (R.ADC_PAIRCNT_MISMATCH n) =
            min (s.d.get (R.ADC_PAIRCNT_MISMATCH n) + 1) (2 ^ (R.ADC_PAIRCNT_MISMATCH 0).w - 1)) ∧
          (¬apart → t.d.get (R.ADC_PAIRCNT_MISMATCH n) = s.d.get (R.ADC_PAIRCNT_MISMATCH n))) ∧
        (apart → reportOf s.d (8 + low / 2) 54 f.ain ∈ t.d.hoop) ∧
        (astray c.val (clamped x) → reportOf s.d (8 + c.val / 2) 55 c.val ∈ t.d.hoop) ∧
        (astray p (clamped y) → reportOf s.d (8 + p / 2) 55 p ∈ t.d.hoop)) ∧
    (f.shared = false → s.d.blockFull c.val = false → o = c.val ∨ o = p →
    s.d.adcClass o f.ain ≠ 1 → (f.inj = true ∨ s.d.adcClass o f.ain = 0) →
    Gives (.conversionComplete c x y) s fun t =>
      t.mem = s.mem ∧ (t.d.adc c.val).flights = rest ∧
      (q.length < 1024 → (t.d.adc o).queue = q ++ [(tag, BitVec.ofNat 32 f.time)] ∧
        t.d.get (R.ADC_QSTAT_QLOSS o) = s.d.get (R.ADC_QSTAT_QLOSS o)) ∧
      (1024 ≤ q.length → (t.d.adc o).queue = q ∧ (t.d.adc o).lost = true ∧
        t.d.get (R.ADC_QSTAT_QLOSS o) = min (s.d.get (R.ADC_QSTAT_QLOSS o) + 1) (2 ^ (R.ADC_QSTAT_QLOSS 0).w - 1) ∧
        ((s.d.adc o).lost = false → reportOf s.d (8 + o / 2) 53 o ∈ t.d.hoop)) ∧
      (∀ k, k < 8 → s.d.act (R.ADC_WC_CFG_EN o k) ≠ 0 → s.d.act (R.ADC_WC_CFG_AIN o k) = f.ain →
        ((t.d.get (R.ADC_WCSTAT_NOW o)).testBit k = true ↔
          code < (BitVec.ofNat 16 (s.d.act (R.ADC_WC_LIM_LO o k))).toInt ∨
          (BitVec.ofNat 16 (s.d.act (R.ADC_WC_LIM_HI o k))).toInt < code)) ∧
      ((s.d.pat.routes.any fun r => r.kind == 1 && r.srcUnit == o && r.srcItem == f.ain) = true →
        ⟨o, 4, .sample 1 o f.ain ((BitVec.ofInt 16 code).setWidth 32 <<< 16) f.time, false, false⟩ ∈ t.d.hoop))) ∧
  (∀ (core c : Fin 4) (s : State),
    let q := (s.d.adc c.val).queue
    s.d.coreHeld core.val = false →
    (q = [] → Leads (.qtimeRead core c) s { s with d := s.d.answer core.val (.data 0) }) ∧
    (∀ e rest, q = e :: rest → Gives (.qtimeRead core c) s fun t =>
      Sparse.at' .none t.d.resp core.val = .data e.2 ∧ (t.d.adc c.val).queue = rest ∧ (t.d.adc c.val).lost = false ∧
      t.mem = s.mem ∧ Sends s t []))

/-- INJ_SW_REQUEST, and INJECTED_TRIGGER of the request that came first, of an enabled configuration are accepted for
their input where the converter is enabled and has no injected conversion pending or running and is neither in
calibration nor out of service; else INJ_DROP counts; a configuration with EN 0 changes nothing. CAL_START from M3 on
with the partner free, no sealed channel in M4 to M9, the converter enabled, in service and not in calibration is
accepted and waits; at the first slot boundary with no accepted injected request it begins: CAL_BUSY, HANDED and the
partner's CARRYING are set. Refused it sets REFUSED with the REASON. CAL_COMPLETE writes the trims where all lie in
range, else keeps them and reports ADC_CAL_FAIL; CAL_BUSY and HANDED clear. TRIM_BLOCK_END before 2^20 conversions
changes nothing; at the end of the block each trim moves one step at most toward its estimate, skew where the block's
RMS exceeds 256 LSB, none under FREEZE or at STAGE 7, and a new block begins. TALLY_WINDOW_CLOSE at WIN_N conversions
latches sum, squares, extremes and count, advances WSEQ and restarts; TALLY_LIMIT reports a run of EXCEED_N once.
Clauses that the spec leaves open follow the model's choices: log entries 18, 24, 25, 68, 69, 146, 160 and 162. (R178,
R179, R186, R187, R189, R190, R191, R193, R200, R202) -/
def Obligations.InjectionCalibrationTrimsAndTally : Prop :=
  (∀ (c k : Fin 4) (s : State),
    let u := s.d.adc c.val
    let ain := s.d.act (R.ADC_INJ_CFG_AIN c.val k.val)
    let free : Prop := u.inj = none ∧ (∀ f ∈ u.flights, f.inj = false) ∧ s.d.calTaken c.val = false ∧ s.d.adcOut c.val = false
    let taken (t : State) (v : AdcU) : Prop :=
      (free → t.d.adc c.val = { v with inj := some (k.val, ain) } ∧
        t.d.get (R.ADC_CNT_INJ_DROP c.val) = s.d.get (R.ADC_CNT_INJ_DROP c.val)) ∧
      (¬free → t.d.adc c.val = v ∧
        t.d.get (R.ADC_CNT_INJ_DROP c.val) = min (s.d.get (R.ADC_CNT_INJ_DROP c.val) + 1) (2 ^ (R.ADC_CNT_INJ_DROP 0).w - 1)) ∧
      t.mem = s.mem ∧ Sends s t []
    let one : BitVec 4 := BitVec.ofNat 4 (2 ^ k.val)
    s.d.led.meas = none → s.d.isSet (R.ADC_CTRL_EN c.val) = true →
    (s.d.act (R.ADC_INJ_CFG_EN c.val k.val) ≠ 0 →
      (Gives (.injSwRequest c one) s fun t => taken t u) ∧
      (∀ rest, u.injIn = k.val :: rest → Gives (.injectedTrigger c k) s fun t => taken t { u with injIn := rest })) ∧
    (s.d.act (R.ADC_INJ_CFG_EN c.val k.val) = 0 → Leads (.injSwRequest c one) s s) ∧
    (u.injIn.head? ≠ some k.val → Leads (.injectedTrigger c k) s s)) ∧
  (∀ (c : Fin 4) (s : State),
    let n := c.val
    let p := partner n
    let sealed : Prop := s.d.control = true ∧ ∃ r ∈ (s.d.adcMap n).chans, r.cls = 1
    let r1 : Prop := s.d.calTaken p = true ∨ s.d.adcOut p = true
    let r3 : Prop := s.d.calTaken n = true
    let r4 : Prop := s.d.isSet (R.ADC_CTRL_EN n) = false ∨ s.d.adcOut n = true
    (s.d.mode < 3 → Leads (.calStart c) s s) ∧
    (3 ≤ s.d.mode → ¬r1 → ¬sealed → ¬r3 → ¬r4 →
      Leads (.calStart c) s { s with d := s.d.setAdc n { s.d.adc n with calWait := true } }) ∧
    (∀ pair : Fin 2, n / 2 = pair.val → (s.d.adc n).calWait = true → (s.d.adc p).calWait = false →
      s.d.sliceBusy n = false → s.d.sliceBusy p = false → (s.d.adc n).running = false → s.d.cfg.pend = [] →
      Gives (.adcSlotGrant pair) s fun t =>
        ((s.d.adc n).inj = none → (t.d.adc n).calWait = false ∧ t.d.get (R.ADC_STATUS_CAL_BUSY n) = 1 ∧
          t.d.get (R.ADC_STATUS_HANDED n) = 1 ∧ t.d.get (R.ADC_STATUS_CARRYING p) = 1) ∧
        ((s.d.adc n).inj ≠ none → (t.d.adc n).calWait = true ∧
          t.d.get (R.ADC_STATUS_CAL_BUSY n) = s.d.get (R.ADC_STATUS_CAL_BUSY n))) ∧
    (∀ reason, 3 ≤ s.d.mode →
      (r1 ∧ reason = 1) ∨ (¬r1 ∧ sealed ∧ reason = 2) ∨ (¬r1 ∧ ¬sealed ∧ r3 ∧ reason = 3) ∨
        (¬r1 ∧ ¬sealed ∧ ¬r3 ∧ r4 ∧ reason = 4) → Gives (.calStart c) s fun t =>
      t.d.get (R.ADC_CAL_REFUSED n) = 1 ∧ t.d.get (R.ADC_CAL_REASON n) = reason ∧
      RegsBut [R.ADC_CAL_REFUSED n, R.ADC_CAL_REASON n] s.d t.d ∧ t = { s with d := { s.d with regs := t.d.regs } }) ∧
    (∀ trims : List Trim, s.d.adcCal n = false → Leads (.calComplete c trims) s s) ∧
    (∀ trims : List Trim, s.d.adcCal n = true → s.d.adcOut n = false → trims.length = 9 → Gives (.calComplete c trims) s fun t =>
      t.d.get (R.ADC_STATUS_CAL_BUSY n) = 0 ∧ t.d.get (R.ADC_STATUS_HANDED n) = 0 ∧ t.mem = s.mem ∧
      ((∀ x ∈ trims, Trim.inRange x = true) → (∀ j, j < 9 → some (t.d.trim n j) = trims[j]?) ∧ Sends s t []) ∧
      ((∃ x ∈ trims, Trim.inRange x = false) → (∀ j, j < 9 → t.d.trim n j = s.d.trim n j) ∧ t.d.get (R.ADC_CAL_FAILED n) = 1 ∧
        Sends s t [reportOf s.d (8 + n / 2) 57 n])) ∧
    (∀ (est : List Trim) (spare : Trim),
      let rms : Prop := 256 ^ 2 * (s.d.adc n).block < (s.d.adc n).blockSq
      ((s.d.adc n).block < 2 ^ 20 → Leads (.trimBlockEnd c est spare) s s) ∧
      (2 ^ 20 ≤ (s.d.adc n).block → Gives (.trimBlockEnd c est spare) s fun t =>
        t.mem = s.mem ∧ (t.d.adc n).block = 0 ∧ (t.d.adc n).blockSq = 0 ∧
        (s.d.isSet (R.ADC_CAL_FREEZE n) = true ∨ s.d.get R.PWRB_STATUS_STAGE = 7 → t.d.regs = s.d.regs ∧ Sends s t []) ∧
        (s.d.isSet (R.ADC_CAL_FREEZE n) = false → s.d.get R.PWRB_STATUS_STAGE ≠ 7 →
          ∀ j, j < 9 → Trim.inRange (s.d.trim n j) = true → ∀ e, (if j = 8 then some spare else est[j]?) = some e →
          let near (lo hi x y z : Int) : Prop := |y - x| ≤ 1 ∧ |max lo (min hi z) - y| ≤ |max lo (min hi z) - x|
          near (-2047) 2047 (s.d.trim n j).gain (t.d.trim n j).gain e.gain ∧
          near (-128) 127 (s.d.trim n j).offset (t.d.trim n j).offset e.offset ∧
          (rms → near (-2047) 2047 (s.d.trim n j).skew (t.d.trim n j).skew e.skew) ∧
          (¬rms → (t.d.trim n j).skew = (s.d.trim n j).skew) ∧ Trim.inRange (t.d.trim n j) = true)))) ∧
  (∀ (c j : Fin 4) (s : State),
    let n := c.val
    let k := j.val
    let T := s.d.tally n k
    let lim := s.d.act (R.ADC_T_WIN_EXCEED_N n k)
    (T.n < s.d.act (R.ADC_T_WIN_WIN_N n k) → Leads (.tallyWindowClose c j) s s) ∧
    (s.d.act (R.ADC_T_WIN_WIN_N n k) ≤ T.n → s.d.iso.weld = none → Gives (.tallyWindowClose c j) s fun t =>
      t.d.get (R.ADC_T_SUM_LO_SUM n k) = (BitVec.ofInt 32 T.sum).toNat ∧
      t.d.get (R.ADC_T_SQ_LO_SQ n k) + 2 ^ 32 * t.d.get (R.ADC_T_SQ_HI_SQ n k) = T.sq % 2 ^ (32 + (R.ADC_T_SQ_HI_SQ 0 0).w) ∧
      t.d.get (R.ADC_T_MINMAX_MIN n k) = (BitVec.ofInt 16 T.min).toNat ∧
      t.d.get (R.ADC_T_MINMAX_MAX n k) = (BitVec.ofInt 16 T.max).toNat ∧
      t.d.get (R.ADC_T_COUNT_WSEQ n k) = (s.d.get (R.ADC_T_COUNT_WSEQ n k) + 1) % 2 ^ (R.ADC_T_COUNT_WSEQ 0 0).w ∧
      t.d.tally n k = { run := T.run, raised := T.raised } ∧ t.mem = s.mem ∧ Sends s t []) ∧
    (lim ≠ 0 → lim ≤ T.run → T.raised = false → Gives (.tallyLimit c j) s fun t =>
      Sends s t [reportOf s.d (8 + n / 2) 59 (k + 4 * n)] ∧ t.d.tally n k = { T with raised := true } ∧ t.mem = s.mem ∧
      t.d.regs = s.d.regs ∧ Leads (.tallyLimit c j) t t) ∧
    (lim = 0 ∨ T.run < lim ∨ T.raised = true → Leads (.tallyLimit c j) s s))

/-- SD_OUTPUT_WORD is one SDM cycle: with the block disabled, or while an event of the cycle before waits, it changes
nothing; else the cycle counts and every running channel in the sampling cycle of its modulator period takes the level
of its ball. At an output instant of FAST, BALANCED or QUIET (a multiple of 32, 64, 256 of the sampled periods) of a
running channel with nothing pending and no resampler, the preset word x is the sum over the last bits of the
coefficients of (1 + z + ... + z^(M-1))^N times +1 or -1, over M^N, in Q1.31 rounded convergently, +1.0 as 0x7FFF_FFFF
with SAT; DATA is x, or under DC blocking x - e rounded and saturated, after which e moves by α·(x - e) unless FREEZE;
WORDS counts. Away from an instant DATA stays. A SETTLE1 window whose period event has come delivers (ones - zeros) /
W and starts anew with the cycle's bit; S1_WINDOW_TRUNC of one with 2^20 bits delivers likewise, sets S1_TRUNC and
starts anew, and before 2^20 bits changes nothing. SD_STUCK reports once a run of 16 x STUCK_N equal bits.
SD_DATA_READ answers DATA and latches its stamp. SDF_ENABLE sets EN, starts the cycle count at 0 and clears every
channel's bit history; enabled already, it changes nothing. Clauses that the spec leaves open follow the model's
choices: log entries 18, 74, 163 and 164. (R212, R213, R214, R215, R216, R218, R219, R221) -/
def Obligations.SigmaDeltaWordsAreSincSums : Prop :=
  (∀ (high mid low : BitVec 8) (s : State),
    let pins : BitVec 24 := high ++ mid ++ low
    let c := Instr.sdOutputWord high mid low
    (s.d.isSet R.SDF_CTRL_EN = false ∨ s.d.sdWaits = true → Leads c s s) ∧
    (s.d.isSet R.SDF_CTRL_EN = true → s.d.sdWaits = false → Gives c s fun t =>
      t.d.sdmCycle = s.d.sdmCycle + 1 ∧ t.mem = s.mem ∧
      ∀ n, n < 24 → s.d.cfg.pend = [] → s.d.cfg.taken = [] →
        let u := s.d.sd n
        let pre := s.d.act (R.SDF_CH_FILT_PRESET n)
        let M := if pre = 0 then 32 else if pre = 1 then 64 else 256
        let N := if pre = 0 then 3 else if pre = 1 then 4 else 5
        let div := s.d.sdDiv n
        let off := (if s.d.isSet (R.SDF_CH_CFG_EDGE n) then div / 2 else 0) + s.d.get (R.SDF_CH_CFG_SAMPLE_DLY n)
        let hist := pins.getLsbD n :: u.hist
        let weight (k : Nat) : Int := match hist[k]? with | some true => 1 | some false => -1 | none => 0
        let coeff (k : Nat) : Nat := (((Finset.range M).sum fun j => (Polynomial.X : Polynomial ℕ) ^ j) ^ N).coeff k
        let sum : Int := (Finset.range (N * (M - 1) + 1)).sum fun k => coeff k * weight k
        let z := rndInt .even ((sum : ℚ) / M ^ N * 2 ^ 31)
        let sat (z : Int) : Int := max (-(2 ^ 31)) (min (2 ^ 31 - 1) z)
        let x := sat z
        let blocked : Prop := s.d.act (R.SDF_CH_FILT_DCB_EN n) ≠ 0
        let data := t.d.get (R.SDF_CH_DATA_WORD n)
        (s.d.sdRuns n = false → t.d.sd n = u ∧ data = s.d.get (R.SDF_CH_DATA_WORD n)) ∧
        (s.d.sdRuns n = true → pre < 3 → u.rs = none → u.hand = none → u.wdue = false →
          ((∀ j, s.d.sdmCycle ≠ off + j * div) → t.d.sd n = u ∧ data = s.d.get (R.SDF_CH_DATA_WORD n)) ∧
          (∀ j, s.d.sdmCycle = off + j * div →
            (t.d.sd n).hist = hist.take 1276 ∧
            (j % (if pre = 2 then 256 else M) ≠ 0 → data = s.d.get (R.SDF_CH_DATA_WORD n)) ∧
            (j % (if pre = 2 then 256 else M) = 0 →
              (¬blocked → data = (BitVec.ofInt 32 x).toNat ∧ (t.d.sd n).e = u.e) ∧
              (blocked →
                let diff : Int := x * 2 ^ 16 - u.e
                data = (BitVec.ofInt 32 (sat (rndInt .even ((diff : ℚ) / 2 ^ 16)))).toNat ∧
                (t.d.sd n).e = if s.d.isSet (R.SDF_CH_DCB_FREEZE n) then u.e else
                  u.e + rndInt .even (((dcbAlpha (s.d.act (R.SDF_CH_FILT_CORNER n)) (M * div) * diff : Int) : ℚ) / 2 ^ 40)) ∧
              (t.d.sd n).stamp = BitVec.ofNat 32 s.d.time.short ∧ (z = 2 ^ 31 → t.d.get (R.SDF_CH_STAT_SAT n) = 1) ∧
              t.d.get (R.SDF_CH_CNT_WORDS n) =
                (s.d.get (R.SDF_CH_CNT_WORDS n) + 1) % 2 ^ (R.SDF_CH_CNT_WORDS 0).w))) ∧
        (s.d.sdRuns n = true → pre = 3 → u.rs = none → u.hand = none → ¬blocked → u.wdue = true → u.wbits ≠ 0 →
          u.wones ≤ u.wbits →
          data = (BitVec.ofInt 32 (sat (rndInt .even ((((2 * u.wones : Nat) : ℚ) - (u.wbits : ℚ)) / u.wbits * 2 ^ 31)))).toNat ∧
          (t.d.sd n).wdue = false ∧ ((∀ j, s.d.sdmCycle ≠ off + j * div) → (t.d.sd n).wbits = 0) ∧
          (∀ j, s.d.sdmCycle = off + j * div → (t.d.sd n).wbits = 1)))) ∧
  (∀ (group : Fin 3) (k : Fin 8) (s : State),
    let n := 8 * group.val + k.val
    let u := s.d.sd n
    let W := u.wbits
    let full : Prop := s.d.sdRuns n = true ∧ s.d.act (R.SDF_CH_FILT_PRESET n) = 3 ∧ 2 ^ 20 ≤ W
    (¬full → Leads (.s1WindowTrunc group k) s s) ∧
    (full → u.win ≠ .none → u.rs = none → u.hand = none → s.d.cfg.pend = [] → s.d.cfg.taken = [] →
      s.d.act (R.SDF_CH_FILT_DCB_EN n) = 0 → u.wones ≤ W → Gives (.s1WindowTrunc group k) s fun t =>
      t.d.get (R.SDF_CH_STAT_S1_TRUNC n) = 1 ∧ (t.d.sd n).wbits = 0 ∧ (t.d.sd n).wones = 0 ∧ t.mem = s.mem ∧
      t.d.get (R.SDF_CH_DATA_WORD n) = (BitVec.ofInt 32 (min (2 ^ 31 - 1)
        (rndInt .even ((((2 * u.wones : Nat) : ℚ) - (W : ℚ)) / W * 2 ^ 31)))).toNat)) ∧
  (∀ (n : Fin 24) (s : State),
    let u := s.d.sd n.val
    let k := 16 * s.d.get (R.SDF_CH_CFG_STUCK_N n.val)
    let due : Prop := s.d.sdRuns n.val = true ∧ k ≠ 0 ∧ k ≤ u.run ∧ u.stuck = false
    (due → Gives (.sdStuck n) s fun t => Sends s t [reportOf s.d 10 60 n.val] ∧ t.d.get (R.SDF_CH_STAT_STUCK n.val) = 1 ∧
      RegsBut [R.SDF_CH_STAT_STUCK n.val] s.d t.d ∧ t.d.sd n.val = { u with stuck := true } ∧ t.mem = s.mem ∧
      Leads (.sdStuck n) t t) ∧
    (¬due → Leads (.sdStuck n) s s)) ∧
  (∀ (core : Fin 4) (n : Fin 24) (s : State), s.d.coreHeld core.val = false → Gives (.sdDataRead core n) s fun t =>
    Sparse.at' .none t.d.resp core.val = .data (s.d.rdw (R.SDF_CH_DATA_WORD n.val).addr) ∧
    t.d.get (R.SDF_CH_STAMP_TIME n.val) = (s.d.sd n.val).stamp.toNat ∧ RegsBut [R.SDF_CH_STAMP_TIME n.val] s.d t.d ∧
    t = { s with d := { s.d with regs := t.d.regs, resp := t.d.resp } }) ∧
  (∀ s : State,
    (s.d.isSet R.SDF_CTRL_EN = true → Leads .sdfEnable s s) ∧
    (s.d.isSet R.SDF_CTRL_EN = false → Gives .sdfEnable s fun t => t.d.get R.SDF_CTRL_EN = 1 ∧
      RegsBut [R.SDF_CTRL_EN] s.d t.d ∧ (∀ n, n < 24 → (t.d.sd n).hist = [] ∧ (t.d.sd n).wbits = 0 ∧ (t.d.sd n).run = 0 ∧
        (t.d.sd n).e = (s.d.sd n).e) ∧ t = { s with d := { s.d with regs := t.d.regs, sds := t.d.sds, sdmCycle := 0 } }))

/-- RESAMPLER_ENABLE with EN = 1 outside M1, M2 and M11 or with PRESET SETTLE1 sets WERR and changes nothing else; inside,
a channel not claimed by LANE takes PHASE, sets EN and ACTIVE and starts; EN = 0 stops it, clears EN and ACTIVE, and
keeps preset words back up to T_in after its last word. RESAMPLER_OUTPUT at an instant whose inputs have come delivers
the sum of the 16 newest preset words times the ROM coefficients of the phase, in Q1.31 rounded and saturated, and
moves on by RATIO; less than 640 ns after the last word it counts RS_SKIP and only moves on; without a running
resampler or its inputs, or in a channel that does not run, it changes nothing. (The ROM is a constant the spec does
not print.) DCB_EST_WRITE under FREEZE sets the estimate with its lower 16 bits zero; else it sets WERR and changes
nothing else. Clauses that the spec leaves open follow the model's choices: log entries 18, 31, 75 and 76. (R221,
R226, R227, R229, R231) -/
def Obligations.ResamplersAndDcEstimates : Prop :=
  (∀ (n : Fin 24) (v : Word) (s : State),
    let u := s.d.sd n.val
    let en := v.getLsbD 0
    let phase := (v.extractLsb' 8 6).toNat
    let bad : Prop := en = true ∧ (s.d.mode ∉ [1, 2, 11] ∨ s.d.act (R.SDF_CH_FILT_PRESET n.val) = 3)
    (bad → Gives (.resamplerEnable n v) s fun t => t.d.get R.SDF_STATUS_WERR = 1 ∧ RegsBut [R.SDF_STATUS_WERR] s.d t.d ∧
      t = { s with d := { s.d with regs := t.d.regs, hoop := t.d.hoop } }) ∧
    (¬bad → en = true → u.rs = none → Gives (.resamplerEnable n v) s fun t =>
      t.d.get (R.SDF_CH_RS_CTRL_EN n.val) = 1 ∧ t.d.get (R.SDF_CH_RS_CTRL_ACTIVE n.val) = 1 ∧
      t.d.get (R.SDF_CH_RS_CTRL_PHASE n.val) = phase ∧
      t.d.sd n.val = { u with rs := some ⟨false, phase, none, none, 0, phase * 2 ^ 18⟩ } ∧
      t.mem = s.mem ∧ Sends s t []) ∧
    (en = false → ∀ r, u.rs = some r → r.claimed = false → Gives (.resamplerEnable n v) s fun t =>
      t.d.get (R.SDF_CH_RS_CTRL_EN n.val) = 0 ∧ t.d.get (R.SDF_CH_RS_CTRL_ACTIVE n.val) = 0 ∧ (t.d.sd n.val).rs = none ∧
      (t.d.sd n.val).hand = u.tlast.map (· + s.d.sdTin n.val) ∧ t.mem = s.mem ∧ Sends s t [])) ∧
  (∀ (n : Fin 24) (s : State),
    let u := s.d.sd n.val
    (u.rs = none → Leads (.resamplerOutput n) s s) ∧
    ∀ r, u.rs = some r →
      let z := rndInt .even ((r.next % 2 ^ 24 : ℕ) / (2 ^ 18 : ℚ))
      let base := r.next / 2 ^ 24 + (if z = 64 then 1 else 0)
      let phase := if z = 64 then 0 else z.toNat
      let step := r.ratio.getD (s.d.get (R.SDF_CH_RS_RATIO_RATIO n.val))
      (r.start = none → Leads (.resamplerOutput n) s s) ∧
      ∀ t0 tin, r.start = some (t0, tin) →
        let at' := t0 + (rndInt .even ((r.next * tin : ℕ) / (2 ^ 24 : ℚ))).toNat
        let due : Prop := s.d.sdRuns n.val = true ∧ at' ≤ s.d.sdmCycle ∧ base ≤ r.inputs
        let soon : Prop := ∃ l, u.tlast = some l ∧ at' < l + 64
        (¬due → Leads (.resamplerOutput n) s s) ∧
        (due → soon → Gives (.resamplerOutput n) s fun t =>
          t.d.sd n.val = { u with rs := some { r with next := r.next + step } } ∧ t.mem = s.mem ∧ Sends s t [] ∧
          t.d.get (R.SDF_CH_CNT_RS_SKIP n.val) =
            min (s.d.get (R.SDF_CH_CNT_RS_SKIP n.val) + 1) (2 ^ (R.SDF_CH_CNT_RS_SKIP 0).w - 1)) ∧
        (due → ¬soon → s.d.cfg.pend = [] → s.d.cfg.taken = [] → 16 + (r.inputs - base) ≤ u.past.length →
          let sum : Int := ((List.range 16).map fun k =>
            (Config.resamplerRom phase k).toInt * (u.past.getD (r.inputs - base + k) 0).toInt).sum
          let y := max (-(2 ^ 31)) (min (2 ^ 31 - 1) (rndInt .even ((sum : ℚ) / 2 ^ 23)))
          Gives (.resamplerOutput n) s fun t =>
            t.d.get (R.SDF_CH_DATA_WORD n.val) = (BitVec.ofInt 32 y).toNat ∧
            (t.d.sd n.val).rs = some { r with next := r.next + step } ∧ (t.d.sd n.val).tlast = some at' ∧
            (t.d.sd n.val).stamp = BitVec.ofNat 32 s.d.time.short ∧ t.mem = s.mem)) ∧
  (∀ (n : Fin 24) (v : Word) (s : State),
    (s.d.isSet (R.SDF_CH_DCB_FREEZE n.val) = true → Gives (.dcbEstWrite n v) s fun t =>
      (t.d.sd n.val).e = v.toInt * 65536 ∧ t.d.get (R.SDF_CH_DCB_EST_EST n.val) = v.toNat ∧
      RegsBut [R.SDF_CH_DCB_EST_EST n.val] s.d t.d ∧ t = { s with d := { s.d with regs := t.d.regs, sds := t.d.sds } }) ∧
    (s.d.isSet (R.SDF_CH_DCB_FREEZE n.val) = false → Gives (.dcbEstWrite n v) s fun t =>
      t.d.get R.SDF_STATUS_WERR = 1 ∧ RegsBut [R.SDF_STATUS_WERR] s.d t.d ∧
      t = { s with d := { s.d with regs := t.d.regs, hoop := t.d.hoop } }))

/-- A commit word that a PWM island takes from the active lane (no HOLD): codes 0 to 4 on a Weave-owned leg write CMPA,
CMPB, PERIOD (low five bits zero), DT (12 bits) or EVT of the shadow and nothing else; with END the leg's commit
follows. On a bus-owned or unowned leg the word is recorded in PWM.WRITE_ERR with SRC 1 or 3; codes 6 to 15 with SRC
2. A word of a lane that is not active is taken without effect. LEG_COMMIT on a bus-owned leg with the block running
forms the pending set: each set-group field written since the last capture, and EVT; an unfrozen set it replaces
counts in REPLACED, one inside the guard window in COMMIT_LATE; on another leg it is recorded with SRC 0 or 3. Clauses
that the spec leaves open follow the model's choices: log entries 18, 80 and 82. (R29, R30, R251, R252, R253) -/
def Obligations.CommitWordsAndLegCommits : Prop :=
  let err (s t : State) (d0 : Dev) (leg src : Nat) : Prop :=
    t.d.get R.PWM_WRITE_ERR_LEG = leg % 2 ^ R.PWM_WRITE_ERR_LEG.w ∧ t.d.get R.PWM_WRITE_ERR_SRC = src ∧
    t.d.get R.PWM_WRITE_ERR_COUNT = min (s.d.get R.PWM_WRITE_ERR_COUNT + 1) (2 ^ R.PWM_WRITE_ERR_COUNT.w - 1) ∧
    RegsBut [R.PWM_WRITE_ERR_LEG, R.PWM_WRITE_ERR_SRC, R.PWM_WRITE_ERR_COUNT] s.d t.d ∧
    t = { s with d := { d0 with regs := t.d.regs } }
  let set (t : State) (leg : Nat) (fresh : List Nat) (x : LegSet) : Prop :=
    x.cmpa = (if 0 ∈ fresh then some (t.d.get (R.PWM_LEG_CMPA_C leg)) else none) ∧
    x.cmpb = (if 1 ∈ fresh then some (t.d.get (R.PWM_LEG_CMPB_C leg)) else none) ∧
    x.period = (if 2 ∈ fresh then some (t.d.get (R.PWM_LEG_PERIOD_P leg)) else none) ∧
    x.dt = (if 3 ∈ fresh then some (t.d.get (R.PWM_LEG_DT_DT leg)) else none) ∧
    x.evt = t.d.rdw (R.PWM_LEG_EVT_POS leg).addr
  let committed (s t : State) (leg : Nat) (fresh : List Nat) : Prop :=
    (∃ x, (t.d.leg leg).pend = some x ∧ set t leg fresh x) ∧ (t.d.leg leg).fresh = [] ∧
    (t.d.leg leg).frozen = (s.d.leg leg).frozen ∧ t.d.get (R.PWM_LEG_STAT_PENDING leg) = 1 ∧ t.mem = s.mem ∧
    ((s.d.leg leg).pend ≠ none → t.d.get R.CFG_WERR_INFO_REPLACED = min (s.d.get R.CFG_WERR_INFO_REPLACED + 1) 255) ∧
    ((s.d.leg leg).window = true → t.d.get (R.PWM_LEG_CNT_COMMIT_LATE leg) =
      min (s.d.get (R.PWM_LEG_CNT_COMMIT_LATE leg) + 1) (2 ^ (R.PWM_LEG_CNT_COMMIT_LATE 0).w - 1))
  (∀ (lane : Fin 2) (hi : Bool) (s : State) (cw : CommitWord) (d' : Dev),
    let v := cw.value.toNat % 2 ^ 24
    let u := cw.unit
    let fresh (code : Nat) := if 3 < code ∨ code ∈ (s.d.leg u).fresh then (s.d.leg u).fresh else (s.d.leg u).fresh ++ [code]
    s.d.take ((if lane.val = 0 then 0x10 else 0x18) + (if hi then 1 else 0)) (if hi then 7 else 6) = some (.commit cw, d') →
    (∀ (c : Instr) (code : Nat) (f : Fld) (x : Nat),
      (c, code, f, x) ∈ ([(.commitWordCmpa lane hi, 0, R.PWM_LEG_CMPA_C u, v), (.commitWordCmpb lane hi, 1, R.PWM_LEG_CMPB_C u, v),
        (.commitWordPeriod lane hi, 2, R.PWM_LEG_PERIOD_P u, v / 32 * 32), (.commitWordDt lane hi, 3, R.PWM_LEG_DT_DT u, v % 2 ^ 12),
        (.commitWordEvt lane hi, 4, R.PWM_LEG_EVT_POS u, v / 32 * 32)] : List (Instr × Nat × Fld × Nat)) →
      u < 48 →
      (cw.field ≠ code → Leads c s s) ∧
      (cw.field = code → s.d.laneState lane.val ≠ 1 → Leads c s { s with d := d' }) ∧
      (cw.field = code → s.d.laneState lane.val = 1 → s.d.lc.hold = none →
        (s.d.legOwner u = 1 → cw.fin = false → Gives c s fun t =>
          t.d.get f = x ∧ RegsBut [f] s.d t.d ∧ t.d.leg u = { s.d.leg u with fresh := fresh code } ∧
          t = { s with d := { d' with regs := t.d.regs, legs := t.d.legs } }) ∧
        (s.d.legOwner u = 1 → cw.fin = true → s.d.isSet R.PWM_CTRL_EN = true → Gives c s fun t =>
          t.d.get f = x ∧ committed s t u (fresh code)) ∧
        (s.d.legOwner u = 2 → Gives c s fun t => err s t d' u 1) ∧
        (s.d.legOwner u ≠ 1 → s.d.legOwner u ≠ 2 → Gives c s fun t => err s t d' u 3))) ∧
    (cw.field < 6 → Leads (.commitWordReserved lane hi) s s) ∧
    (6 ≤ cw.field → s.d.laneState lane.val ≠ 1 → Leads (.commitWordReserved lane hi) s { s with d := d' }) ∧
    (6 ≤ cw.field → s.d.laneState lane.val = 1 → s.d.lc.hold = none → Gives (.commitWordReserved lane hi) s fun t =>
      err s t d' u 2)) ∧
  (∀ (leg : Fin 48) (s : State),
    (s.d.legOwner leg.val = 2 → s.d.isSet R.PWM_CTRL_EN = true → Gives (.legCommit leg) s fun t =>
      committed s t leg.val (s.d.leg leg.val).fresh) ∧
    (s.d.legOwner leg.val = 1 → Gives (.legCommit leg) s fun t => err s t s.d leg.val 0) ∧
    (s.d.legOwner leg.val ≠ 1 → s.d.legOwner leg.val ≠ 2 → Gives (.legCommit leg) s fun t => err s t s.d leg.val 3))

/-- PWM_BLOCK_ENABLE starts every leg's counter at PHASE mod P and lets legs in HIZ without another cause enter DISABLED;
enabled already it changes nothing. RESYNC restarts the named groups' legs that are not in RUN; one in RUN keeps its
counter and sets WERR. A live EVT inside the period sends the period event to the converters, the sigma-delta chain
and the lanes whose Loop Sets name it. The guard window freezes the pending set. PWM_RELOAD with the block disabled
changes nothing; else it closes the window, starts the counter at 0, counts and reports a period in which the
interlock held an output off, counts short PWMnL periods toward a refresh period, and applies the frozen set whole:
PERIOD, DT, and the compares formed from word and format (absolute, or Q1.23 times P with 0xFF_FFFF as P and a
negative word as 0 with NEG_DUTY), carried where not written; each compare is formed anew from its stored word at
every reload; a PERIOD below 0x1000 is refused whole with PWM_SET_REJ while EVT applies; a leg waiting for its enable
enters RUN. Clauses that the spec leaves open follow the model's choices: log entries 18, 80 and 168. (R244, R245,
R246, R247, R249, R253, R254, R255, R257, R259, R260, R261) -/
def Obligations.CountersReloadTheirSets : Prop :=
  (∀ s : State,
    (s.d.isSet R.PWM_CTRL_EN = true → Leads .pwmBlockEnable s s) ∧
    (s.d.isSet R.PWM_CTRL_EN = false → Gives .pwmBlockEnable s fun t => t.d.get R.PWM_CTRL_EN = 1 ∧ t.mem = s.mem ∧
      ((∀ n, n < 48 → s.d.legState n ≠ 1) → Sends s t []) ∧ ∀ n, n < 48 → (t.d.leg n).at' = s.d.time.short ∧ (t.d.leg n).start = s.d.get (R.PWM_LEG_PHASE_PHASE n) % s.d.livePeriod n ∧
        ((s.d.leg n).softoff = none → (s.d.leg n).trip = none → 3 ≤ s.d.mode → s.d.mode ≠ 10 → s.d.legState n = 2 →
          t.d.legState n = 0))) ∧
  (∀ (groups : BitVec 16) (s : State), Gives (.pwmResync groups) s fun t =>
    t.mem = s.mem ∧ RegsBut [R.PWM_STATUS_WERR] s.d t.d ∧ ∀ n, n < 48 →
      let named := groups.getLsbD (s.d.get (R.PWM_LEG_MAP_GROUP n))
      (named = true → s.d.legState n ≠ 1 →
        t.d.leg n = { s.d.leg n with
          start := s.d.get (R.PWM_LEG_PHASE_PHASE n) % s.d.livePeriod n, at' := s.d.time.short, lock := (t.d.leg n).lock }) ∧
      (named = false ∨ s.d.legState n = 1 → t.d.leg n = s.d.leg n) ∧
      (named = true → s.d.legState n = 1 → t.d.get R.PWM_STATUS_WERR = 1)) ∧
  (∀ (leg : Fin 48) (s : State),
    let n := leg.val
    let l := s.d.leg n
    let ch := if n < 24 then 5 else 6
    let ev : HWord := .event 2 n s.d.time.short
    let inside : Prop := s.d.isSet R.PWM_CTRL_EN = true ∧ s.d.act (R.PWM_LEG_EVT_POS n) < s.d.livePeriod n
    (inside → Gives (.periodEvent leg) s fun t =>
      Sends s t ((if s.d.pat.loopsets.any (fun x => x.kind == 2 && x.unit == n) then
          [⟨ch, 4, ev, false, false⟩, ⟨ch, 5, ev, false, false⟩] else []) ++
        [⟨ch, 8, ev, false, false⟩, ⟨ch, 9, ev, false, false⟩, ⟨ch, 10, ev, false, false⟩]) ∧ t.d.regs = s.d.regs ∧ t.mem = s.mem) ∧
    (¬inside → Leads (.periodEvent leg) s s) ∧
    (s.d.isSet R.PWM_CTRL_EN = false ∨ l.window = true → Leads (.guardWindowOpen leg) s s) ∧
    (s.d.isSet R.PWM_CTRL_EN = true → l.window = false → Gives (.guardWindowOpen leg) s fun t =>
      (t.d.leg n).window = true ∧ (t.d.leg n).pend = none ∧ t.mem = s.mem ∧ Sends s t [] ∧
      (l.pend ≠ none → (t.d.leg n).frozen = l.pend ∧ t.d.get (R.PWM_LEG_STAT_FROZEN n) = 1)) ∧
    (∀ mis, s.d.isSet R.PWM_CTRL_EN = false → Leads (.pwmReload leg mis) s s) ∧
    (∀ mis, s.d.isSet R.PWM_CTRL_EN = true → l.coarse = false → l.badTap = [] → Gives (.pwmReload leg mis) s fun t =>
      let p0 := s.d.livePeriod n
      let ticks (p w : Nat) : Nat :=
        if s.d.legFrac n = false then w else if w = 0xFFFFFF then p else if 0x800000 ≤ w then 0
        else (rndInt .even ((w * p : ℕ) / (2 ^ 23 : ℚ))).toNat
      let stored : Prop := t.d.livePeriod n = p0 ∧
        (l.wordA < 2 ^ 24 → ticks p0 l.wordA < 2 ^ 24 → t.d.get (R.PWM_LEG_LIVE_CMPA_C n) = ticks p0 l.wordA)
      let runs : Prop := s.d.legState n = 1 ∧ l.softoff = none
      let shot : Prop := runs ∧ ((s.d.legRun n p0).held = true ∨ mis = true)
      let boot : Prop := runs ∧ s.d.isSet (R.PWM_LEG_MAP_BOOT n) = true ∧ s.d.legIndep n = false
      let brief : Prop := (s.d.legRun n p0).lowOn < 32 * s.d.get (R.PWM_LEG_BOOT_WIDTH n)
      (t.d.leg n).start = 0 ∧ (t.d.leg n).at' = s.d.time.short ∧
      (shot → t.d.get (R.PWM_LEG_STAT_SHOOT n) = 1 ∧ t.d.get (R.PWM_LEG_CNT_SHOOT n) =
          min (s.d.get (R.PWM_LEG_CNT_SHOOT n) + 1) (2 ^ (R.PWM_LEG_CNT_SHOOT 0).w - 1) ∧
        (s.d.get (R.PWM_LEG_STAT_SHOOT n) = 0 → reportOf s.d (if n < 24 then 6 else 7) 48 n ∈ t.d.hoop)) ∧
      (¬shot → t.d.get (R.PWM_LEG_CNT_SHOOT n) = s.d.get (R.PWM_LEG_CNT_SHOOT n)) ∧
      (boot → l.refresh = false → brief → (t.d.leg n).short = l.short + 1 ∧
        (t.d.leg n).refresh = decide (s.d.get (R.PWM_LEG_BOOT_K n) ≤ l.short + 1)) ∧
      (boot → l.refresh = true → (t.d.leg n).refresh = false ∧ (t.d.leg n).short = 0) ∧
      (t.d.leg n).window = false ∧ (t.d.leg n).frozen = none ∧ (t.d.leg n).pend = l.pend ∧ t.mem = s.mem ∧
      (l.enabling = true → s.d.legState n = 0 → t.d.legState n = 1) ∧
      (l.frozen = none → stored) ∧
      (∀ x, l.frozen = some x →
        let p := x.period.getD p0
        t.d.act (R.PWM_LEG_EVT_POS n) = bits x.evt.toNat (R.PWM_LEG_EVT_POS n).lo (R.PWM_LEG_EVT_POS n).w ∧
        (p < 0x1000 → stored ∧ t.d.get (R.PWM_LEG_STAT_SET_REJ n) = 1 ∧ reportOf s.d (if n < 24 then 6 else 7) 49 n ∈ t.d.hoop) ∧
        (0x1000 ≤ p → p < 2 ^ 24 → p % 32 = 0 →
          let word (w : Option Nat) (old live : Nat) : Nat :=
            w.getD (if p = p0 ∨ s.d.legFrac n = true then old else min live p)
          let wa := word x.cmpa l.wordA (s.d.get (R.PWM_LEG_LIVE_CMPA_C n))
          let wb := word x.cmpb l.wordB (s.d.get (R.PWM_LEG_LIVE_CMPB_C n))
          t.d.livePeriod n = p ∧ (x.dt = none → l.wordDt < 2 ^ 12 → t.d.get (R.PWM_LEG_LIVE_DT_DT n) = l.wordDt) ∧
          (∀ v, x.dt = some v → v < 2 ^ 12 → t.d.get (R.PWM_LEG_LIVE_DT_DT n) = v) ∧
          (wa < 2 ^ 24 → t.d.get (R.PWM_LEG_LIVE_CMPA_C n) = ticks p wa) ∧
          (wb < 2 ^ 24 → t.d.get (R.PWM_LEG_LIVE_CMPB_C n) = ticks p wb) ∧
          (s.d.legFrac n = true → 0x800000 ≤ wa → wa < 0xFFFFFF → t.d.get (R.PWM_LEG_STAT_NEG_DUTY n) = 1) ∧
          (p ≠ p0 → x.cmpa = none → t.d.get (R.PWM_LEG_STAT_STALE_DUTY n) = 1)))))

/-- LEG_ENABLE_REQUEST on a bus-owned leg, and COMMIT_WORD_ENABLE from the active lane on a Weave-owned one: an enable in
a mode that permits the leg waits for the period boundary; in another mode it reports LEG_EN_MODE and changes nothing
else; a disable takes the leg out of RUN at once. CLR_FAULT outside M10 with inactive inputs and no soft-off delay
clears the trip, else sets WERR. TAP_DRIFT reports PWM_TAP. DESAT_CONFIRM and GUARD_TRIP on a live input report
GSUP_DESATk with leg, side and cause and take the leg to HIZ, or to soft-off where input and leg say so; the delay's
end takes it to HIZ; DRVFLT_CONFIRM takes it to HIZ with cause 5; with GRP every other leg of the group follows with
cause 6. A confirmation's COND bit is set, a comparator's or driver's. A sweep is refused without a guard comparator,
else every EVERY-th period of its leg has a measuring pulse, in which no desaturation is confirmed and one reading is
taken; it searches by halves and ends at its eighth. Clauses that the spec leaves open follow the model's choices: log
entries 18, 77, 78, 79, 81, 83, 167, 168 and 169. (R258, R260, R261, R262, R265, R266, R267, R268, R270, R272) -/
def Obligations.LegsEnableTripAndSweep : Prop :=
  let off (t : State) (n : Nat) : Prop := (t.d.leg n).lock.h = false ∧ (t.d.leg n).lock.l = false
  let hiz (t : State) (n cause : Nat) : Prop := off t n ∧
    t.d.legState n = 2 ∧ t.d.get (R.PWM_LEG_STAT_HIZ_CAUSE n) = cause ∧ (t.d.leg n).trip = some cause ∧
    (t.d.leg n).enabling = false ∧ t.d.get (R.PWM_LEG_CTRL_EN n) = 0
  let asked (s t : State) (n : Nat) (en : Bool) (d0 : Dev) : Prop :=
    (en = true → s.d.legPermitted n = false → t.d.hoop = d0.hoop ++ [reportOf s.d (if n < 24 then 6 else 7) 51 n] ∧
      t.d.leg n = s.d.leg n ∧ t.d.regs = s.d.regs) ∧
    (en = true → s.d.legPermitted n = true → s.d.legState n = 0 → (t.d.leg n).enabling = true ∧ t.d.legState n = 0 ∧
      t.d.get (R.PWM_LEG_CTRL_EN n) = 1 ∧ t.d.hoop = d0.hoop) ∧
    (en = false → (t.d.leg n).enabling = false ∧ t.d.get (R.PWM_LEG_CTRL_EN n) = 0 ∧
      (s.d.legState n ≠ 1 → t.d.hoop = d0.hoop) ∧
      (s.d.legState n = 1 → (s.d.leg n).softoff = none → t.d.legState n = 0 ∧ off t n)) ∧ t.mem = s.mem
  (∀ (leg : Fin 48) (en : Bool) (s : State),
    let n := leg.val
    (s.d.legOwner n = 2 → Gives (.legEnableRequest leg en) s fun t => asked s t n en s.d) ∧
    (s.d.legOwner n ≠ 2 → Gives (.legEnableRequest leg en) s fun t => t.d.leg n = s.d.leg n ∧
      t.d.get R.PWM_WRITE_ERR_LEG = n ∧ t.d.get R.PWM_WRITE_ERR_SRC = (if s.d.legOwner n = 1 then 0 else 3))) ∧
  (∀ (lane : Fin 2) (hi : Bool) (s : State) (cw : CommitWord) (d' : Dev),
    s.d.take ((if lane.val = 0 then 0x10 else 0x18) + (if hi then 1 else 0)) (if hi then 7 else 6) = some (.commit cw, d') →
    cw.field = 5 → cw.unit < 48 → s.d.laneState lane.val = 1 → s.d.lc.hold = none → s.d.legOwner cw.unit = 1 → cw.fin = false →
    Gives (.commitWordEnable lane hi) s fun t => asked s t cw.unit (cw.value.getLsbD 0) d') ∧
  (∀ (leg : Fin 48) (tap : Fin 32) (inactive : Bool) (s : State),
    let n := leg.val
    let l := s.d.leg n
    let ok : Prop := s.d.mode ≠ 10 ∧ inactive = true ∧ l.softoff = none
    (ok → Gives (.legClrFault leg inactive) s fun t => (t.d.leg n).trip = none ∧ t.mem = s.mem ∧
      (s.d.legState n ≠ 1 → Sends s t []) ∧
      (3 ≤ s.d.mode → s.d.isSet R.PWM_CTRL_EN = true → s.d.legState n = 2 → t.d.legState n = 0)) ∧
    (¬ok → Gives (.legClrFault leg inactive) s fun t => t.d.get (R.PWM_LEG_STAT_WERR n) = 1 ∧
      (inactive = false → RegsBut [R.PWM_LEG_STAT_WERR n] s.d t.d) ∧ t = { s with d := { s.d with regs := t.d.regs } }) ∧
    (Gives (.tapDrift leg tap) s fun t => t.d.get (R.PWM_LEG_STAT_TAP n) = 1 ∧ (t.d.leg n).badTap = l.badTap.filter (· != tap.val) ++ [tap.val] ∧
      Sends s t [reportOf s.d (if n < 24 then 6 else 7) 50 (n + 64 * tap.val)] ∧ RegsBut [R.PWM_LEG_STAT_TAP n] s.d t.d) ∧
    (l.softoff = none → Leads (.softoffDelayEnd leg) s s) ∧
    (∀ k cause, l.softoff = some (k, cause) → cause < 8 → Gives (.softoffDelayEnd leg) s fun t =>
      hiz t n cause ∧ (t.d.leg n).softoff = none ∧ t.d.get (R.PWM_LEG_STAT_SOFTOFF_ACT n) = 0 ∧ t.mem = s.mem ∧
      (s.d.isSet (R.PWM_LEG_STAT_SOFTOFF_ACT n) = true → l.groupWait = false → Sends s t []))) ∧
  (∀ (k : Fin 24) (s : State) (c : Instr) (leg cause src ctx : Nat) (grp soft live : Bool) (d' : Dev),
    let l := s.d.leg leg
    let conv := s.d.act (R.GSUP_OSV_GUARD_ADC k.val)
    let wc := s.d.act (R.GSUP_OSV_GUARD_WC k.val)
    let side := s.d.get (R.GSUP_OSV_CFG_SIDE k.val)
    let osv : Prop := leg = s.d.get (R.GSUP_OSV_CFG_LEG k.val) ∧ src = k.val ∧ grp = s.d.isSet (R.GSUP_OSV_CFG_GRP k.val) ∧
      soft = (s.d.isSet (R.GSUP_OSV_CFG_SOFTOFF k.val) && s.d.isSet (R.PWM_LEG_MAP_SOFTOFF leg))
    ((c = .desatConfirm k ∧ osv ∧ cause = 3 ∧ ctx = leg + 64 * side ∧ live = (s.d.osvLive k.val && !s.d.sweepPulse k.val) ∧ d' = s.d) ∨
      (c = .guardTrip k ∧ osv ∧ cause = 4 ∧ ctx = leg + 64 * side + 128 ∧
        live = (s.d.osvLive k.val && s.d.isSet (R.GSUP_OSV_CFG_EN k.val) && s.d.act (R.GSUP_OSV_GUARD_EN k.val) != 0) ∧
        s.d.take ((if conv < 2 then 0x20 else 0x22) + (if k.val < 12 then 0 else 1)) (if k.val < 12 then 6 else 7) =
          some (.wcState conv wc true, d')) ∨
      (c = .drvfltConfirm k ∧ leg = s.d.get (R.GSUP_DRV_CFG_LEG k.val) ∧ src = 24 + k.val ∧
        grp = s.d.isSet (R.GSUP_DRV_CFG_GRP k.val) ∧ soft = false ∧ cause = 5 ∧ ctx = leg ∧
        live = (s.d.isSet R.GSUP_CTRL_EN && s.d.isSet (R.GSUP_DRV_CFG_EN k.val)) ∧ d' = s.d)) →
    (live = false → Leads c s s) ∧
    (live = true → leg < 48 → (∀ f, s.d.gsup.first = some f → f.1 + 20 < s.d.time.short ∨ s.d.time.short < f.1) →
      l.softoff = none → l.trip = none → Gives c s fun t =>
        (∃ more, t.d.hoop = d'.hoop ++ reportOf s.d (if leg < 24 then 6 else 7) src ctx :: more ∧
          ∀ e ∈ more, ∃ m, m < 48 ∧ e = reportOf s.d (if m < 24 then 6 else 7) 48 m) ∧ t.mem = s.mem ∧
        (cause ≠ 4 → t.d.bit R.ACC_COND_SRC src = true) ∧
        t.d.gsup.first = some (s.d.time.short, src) ∧
        (if src < 24 then (t.d.get R.GSUP_TRIPPED_OSV).testBit k.val = true else (t.d.get R.GSUP_DRVTRIP_DRV).testBit k.val = true) ∧
        (soft = true → (t.d.leg leg).softoff = some (k.val, cause) ∧ k.val ∈ t.d.gsup.softoff ∧
          t.d.get (R.PWM_LEG_STAT_SOFTOFF_ACT leg) = 1 ∧ (t.d.leg leg).groupWait = grp ∧ t.d.legState leg = s.d.legState leg) ∧
        (soft = false → hiz t leg cause ∧ ∀ m, m < 48 → m ≠ leg → (s.d.leg m).softoff = none → (s.d.leg m).trip = none →
          (grp = true → s.d.get (R.PWM_LEG_MAP_GROUP m) = s.d.get (R.PWM_LEG_MAP_GROUP leg) → hiz t m 6) ∧
          (grp = false ∨ s.d.get (R.PWM_LEG_MAP_GROUP m) ≠ s.d.get (R.PWM_LEG_MAP_GROUP leg) → t.d.leg m = s.d.leg m)))) ∧
  (∀ (k : Fin 24) (every sample : BitVec 8) (active : Bool) (s : State),
    let n := k.val
    let run (w : Sweep) : Prop := s.d.isSet (R.GSUP_OSV_SWEEP_EN n) = true ∧ s.d.osvLive n = true ∧ w.pulse = true ∧ w.read = false
    (s.d.act (R.GSUP_OSV_GUARD_EN n) = 0 → Gives (.osvSweepStart k every sample) s fun t =>
      t.d.get (R.GSUP_OSV_SWEEP_EN n) = 0 ∧ t.d.get (R.GSUP_OSV_SWEEP_REFUSED n) = 1 ∧ t.d.gsup = s.d.gsup ∧ t.mem = s.mem) ∧
    (s.d.act (R.GSUP_OSV_GUARD_EN n) ≠ 0 → Gives (.osvSweepStart k every sample) s fun t =>
      t.d.get (R.GSUP_OSV_SWEEP_EN n) = 1 ∧ t.d.get (R.GSUP_OSV_SWRES_VALID n) = 0 ∧ t.mem = s.mem ∧
      Sparse.at' none t.d.gsup.sweeps n = some ⟨0, s.d.act (R.GSUP_OSV_TH_THRESH n), 0, 0, false, false⟩) ∧
    (∀ (leg : Fin 48) (mis : Bool) (w : Sweep), s.d.isSet R.PWM_CTRL_EN = true → s.d.get (R.GSUP_OSV_CFG_LEG n) = leg.val →
      s.d.isSet (R.GSUP_OSV_SWEEP_EN n) = true → Sparse.at' none s.d.gsup.sweeps n = some w → Gives (.pwmReload leg mis) s fun t =>
        let due := decide (s.d.get (R.GSUP_OSV_SWEEP_EVERY n) ≤ w.periods + 1)
        Sparse.at' none t.d.gsup.sweeps n =
          some { w with periods := if due then 0 else w.periods + 1, pulse := due, read := false }) ∧
    ((∀ w, Sparse.at' none s.d.gsup.sweeps n = some w → ¬run w) → Leads (.osvSweepSample k active) s s) ∧
    (∀ w, run w → Sparse.at' none s.d.gsup.sweeps n = some w → w.lo < w.hi →
      let mid := (w.lo + w.hi) / 2
      let lo := if active then mid + 1 else w.lo
      let up := if active then w.hi else mid
      (w.pulses < 7 → Gives (.osvSweepSample k active) s fun t => t.d.regs = s.d.regs ∧ t.mem = s.mem ∧
        Sparse.at' none t.d.gsup.sweeps n = some ⟨lo, up, w.pulses + 1, w.periods, w.pulse, true⟩) ∧
      (7 ≤ w.pulses → Gives (.osvSweepSample k active) s fun t =>
        t.d.get (R.GSUP_OSV_SWRES_CODE n) = lo % 2 ^ (R.GSUP_OSV_SWRES_CODE 0).w ∧ t.d.get (R.GSUP_OSV_SWRES_VALID n) = 1 ∧
        t.d.get (R.GSUP_OSV_SWSTAMP_TIME n) = s.d.time.short % 2 ^ 32 ∧ t.mem = s.mem)))

/-- With comparison on and the lanes ACTIVE and SYNCED, a commit word waits for the word of equal key from the other lane;
a pair agrees by R325 (a compare within TOL and equal END, another leg field in 24 bits, else all 32 bits), leaves the
table, and a relay command or mode commit goes on; a pair that disagrees, or whose partner does not come, counts in
MISMATCH, is recorded in LAST, reports LANE_MISMATCH and holds both lanes. With the other lane STOPPED, or comparison
off, the active lane's word goes on at once; one that went on before its partner came goes on no second time. A fault
of the active lane holds both lanes, a STOPPED standby too; of a standby, also while HOLD stands, stops it with
LANE_STANDBY_LOST; of a lane in the sequence it counts. After the drain the check vectors decide by the first rule of
R330 that applies: LOSER and RULE, the loser's and the survivor's states, LANE_NO_SURVIVOR where no lane may take
over, BENIGN where none loses. Clauses that the spec leaves open follow the model's choices: log entries 18, 84, 85,
86, 88, 144 and 166. (R322, R323, R324, R325, R326, R327, R328, R330, R331, R335) -/
def Obligations.LanesCompareHoldAndDecide : Prop :=
  let held (t : State) : Prop := t.d.laneState 0 = 4 ∧ t.d.laneState 1 = 4 ∧ t.d.get R.LANE_STATUS_HOLD = 1 ∧ t.d.lc.table = [] ∧
    ∃ h, t.d.lc.hold = some h ∧ h.drained = false ∧ h.decided = false
  let missed (s t : State) (kind : Nat) (c : CommitWord) (va vb : Word) : Prop :=
    held t ∧ t.d.get R.LANE_CNT_MISMATCH = min (s.d.get R.LANE_CNT_MISMATCH + 1) 255 ∧ t.d.get R.LANE_LAST_KIND = kind ∧
    t.d.get R.LANE_LAST_TARGET = (c.kind - 0x10) % 4 ∧ t.d.get R.LANE_LAST_UNIT = c.unit % 64 ∧
    t.d.get R.LANE_LAST_FIELD = c.field % 16 ∧ t.d.get R.LANE_LAST_LOOPSET = c.ls % 16 ∧
    t.d.rdw 0x4000A04C = va ∧ t.d.rdw 0x4000A050 = vb ∧ t.d.rdw 0x4000A054 = BitVec.ofNat 32 s.d.time.short ∧
    reportOf s.d 3 71 ((t.d.rdw 0x4000A048).toNat % 2 ^ 18) ∈ t.d.hoop ∧ t.mem = s.mem
  let passes (t : State) (d0 : Dev) (c : CommitWord) : Prop :=
    t.d.lc.relays = d0.lc.relays ++ (if c.kind = 0x11 then [(c.unit, c.value)] else []) ∧
    t.d.hoop = d0.hoop ++ (if c.kind = 0x12 ∧ c.ls = 15 then [⟨0x1C, 0, .mode c.value, false, false⟩] else [])
  let pair (s : State) : Prop := s.d.lc.hold = none ∧
    ((s.d.laneState 0 = 1 ∧ s.d.laneState 1 = 2 ∧ s.d.get R.LANE_STATUS_ACTIVE = 0) ∨
      (s.d.laneState 0 = 2 ∧ s.d.laneState 1 = 1 ∧ s.d.get R.LANE_STATUS_ACTIVE = 1))
  (∀ (lane : Fin 2) (s : State) (c : CommitWord) (d' : Dev),
    let n := lane.val
    let agrees (p : CommitWord) : Prop :=
      if c.kind = 0x10 then c.fin = p.fin ∧
        (if c.field ≤ 1 then |(c.value.toNat % 2 ^ 24 : Int) - (p.value.toNat % 2 ^ 24 : Int)| ≤ s.d.tol c.unit
          else c.value.toNat % 2 ^ 24 = p.value.toNat % 2 ^ 24)
      else c.value = p.value
    s.d.take (if n = 0 then 0x12 else 0x1A) 3 = some (.commit c, d') → c.lane = n →
    (pair s → s.d.isSet R.LANE_CTRL_CMP_EN = true → (∀ p ∈ s.d.lc.table, p.lane = n ∨ p.sameKey c = false) →
      Leads (.laneCommitWord lane) s { s with d := { d' with lc := { d'.lc with table := d'.lc.table ++ [c] } } }) ∧
    (pair s → s.d.isSet R.LANE_CTRL_CMP_EN = true → ∀ p, (s.d.lc.table.filter fun p => p.lane == 1 - n && p.sameKey c) = [p] →
      (agrees p → Gives (.laneCommitWord lane) s fun t =>
        t.d.lc.table = s.d.lc.table.filter (· != p) ∧ t.d.regs = s.d.regs ∧ t.mem = s.mem ∧
        (p ∉ s.d.lc.sent → passes t d' c) ∧ (p ∈ s.d.lc.sent → t.d.lc.relays = d'.lc.relays ∧ t.d.hoop = d'.hoop)) ∧
      (¬agrees p → Gives (.laneCommitWord lane) s fun t =>
        missed s t 0 c (if n = 0 then c.value else p.value) (if n = 0 then p.value else c.value))) ∧
    (s.d.laneState (1 - n) = 0 ∨ s.d.isSet R.LANE_CTRL_CMP_EN = false → s.d.laneState n = 1 → Gives (.laneCommitWord lane) s fun t =>
      passes t d' c ∧ t.d.lc.table = s.d.lc.table ∧ t.d.regs = s.d.regs ∧ t.mem = s.mem) ∧
    (s.d.laneState n = 0 ∨ s.d.laneState n = 4 → Leads (.laneCommitWord lane) s { s with d := d' })) ∧
  (∀ (lane : Fin 2) (s : State),
    ((∀ c ∈ s.d.lc.table, c.lane ≠ lane.val) → Leads (.partnerMissing lane) s s) ∧
    (∀ c, pair s → s.d.lc.table.find? (fun c => c.lane == lane.val) = some c → Gives (.partnerMissing lane) s fun t =>
      missed s t (if lane = 0 then 2 else 1) c (if lane = 0 then c.value else 0) (if lane = 0 then 0 else c.value))) ∧
  (∀ (lane : Fin 2) (s : State),
    let n := lane.val
    (n ∉ s.d.lc.signals → Leads (.laneFault lane) s s) ∧
    (n ∈ s.d.lc.signals → s.d.lc.hold = none → s.d.laneState n = 1 →
      Gives (.laneFault lane) s fun t => held t ∧ t.mem = s.mem ∧ (t.d.lane n).faults = [s.d.time.short]) ∧
    (n ∈ s.d.lc.signals → s.d.laneState n = 2 ∨ s.d.laneState n = 3 → s.d.laneState (1 - n) = 1 →
      Gives (.laneFault lane) s fun t => t.d.laneState n = 0 ∧ t.d.laneState (1 - n) = 1 ∧ t.d.get R.LANE_STATUS_SIMPLEX = 1 ∧
        t.d.lc.table = [] ∧ t.d.laneRuns n = false ∧ reportOf s.d 3 73 n n ∈ t.d.hoop ∧ t.mem = s.mem) ∧
    (n ∈ s.d.lc.signals → s.d.lc.hold ≠ none → s.d.laneState n ≠ 2 → s.d.laneState n ≠ 3 →
      Gives (.laneFault lane) s fun t =>
      t.d.get R.LANE_CNT_MISMATCH = min (s.d.get R.LANE_CNT_MISMATCH + 1) 255 ∧ RegsBut [R.LANE_CNT_MISMATCH] s.d t.d ∧
      t.d.lc.hold = s.d.lc.hold)) ∧
  (∀ (s : State) (h : Hold) (fa fb : Word), s.d.lc.hold = some h →
    let empty : Prop := (s.d.lane 0).runs = [] ∧ (s.d.lane 1).runs = []
    (h.drained = true ∨ ¬empty → Leads .holdDrainComplete s s) ∧
    (h.drained = false → empty → Leads .holdDrainComplete s
      { s with d := { s.d with lc := { s.d.lc with hold := some { h with drained := true } } } }) ∧
    (h.drained = true → Leads .holdDrainTimeout s s) ∧
    (h.drained = false → Gives .holdDrainTimeout s fun t => (t.d.lane 0).runs = [] ∧ (t.d.lane 1).runs = [] ∧
      t.d.lc.hold = some { h with drained := true } ∧ t.mem = s.mem ∧ Sends s t []) ∧
    (h.drained = false ∨ h.decided = true → Leads (.checkVectorComplete fa fb) s s) ∧
    (h.drained = true → h.decided = false → h.active < 2 →
      let fit : Prop := h.synced = true ∧ s.d.get R.CFG_STATUS_SPLIT = 0
      let bad (n : Nat) : Prop := if n = 0 then fa ≠ 0 else fb ≠ 0
      let hit (n : Nat) : Prop := s.d.faulted h.reference n = true
      let rule : Nat → Prop := fun r =>
        (r = 0 ∧ (hit 0 ∨ hit 1)) ∨ (r = 1 ∧ ¬hit 0 ∧ ¬hit 1 ∧ (bad 0 ∨ bad 1)) ∨
        (r = 2 ∧ ¬hit 0 ∧ ¬hit 1 ∧ ¬bad 0 ∧ ¬bad 1 ∧ h.swap = true) ∨
        (r = 3 ∧ ¬hit 0 ∧ ¬hit 1 ∧ ¬bad 0 ∧ ¬bad 1 ∧ h.swap = false)
      let loses (r n : Nat) : Prop := (r = 0 ∧ hit n) ∨ (r = 1 ∧ bad n) ∨ (r = 2 ∧ h.active = n)
      ∀ r, rule r → (r = 3 → s.d.get R.LANE_CFG_BENIGN_LIM = 0) → Gives (.checkVectorComplete fa fb) s fun t =>
        let a := h.active
        let o := 1 - a
        t.d.get R.LANE_BLAME_RULE = r ∧ t.d.lc.hold = some { h with decided := true } ∧
        ((t.d.get R.LANE_BLAME_LOSER).testBit 0 = true ↔ loses r 0) ∧ ((t.d.get R.LANE_BLAME_LOSER).testBit 1 = true ↔ loses r 1) ∧
        t.d.rdw 0x4000A058 = fa ∧ t.d.rdw 0x4000A05C = fb ∧ t.d.lc.restart = none ∧
        (loses r a → loses r o → t.d.laneState a = 1 ∧ t.d.laneState o = 0 ∧ reportOf s.d 3 74 3 ∈ t.d.hoop) ∧
        (loses r a → ¬loses r o → t.d.laneState o = 1 ∧ t.d.laneState a = (if r = 2 then 2 else 0) ∧
          t.d.get R.LANE_STATUS_ACTIVE = o ∧ (¬fit → reportOf s.d 3 74 (if a = 0 then 1 else 2) a ∈ t.d.hoop)) ∧
        (¬loses r a → loses r o → t.d.laneState a = 1 ∧ t.d.laneState o = 0) ∧
        (r = 3 → t.d.laneState a = 1 ∧ t.d.laneState o = 2 ∧
          t.d.get R.LANE_CNT_BENIGN = min (s.d.get R.LANE_CNT_BENIGN + 1) 255) ∧ t.mem = s.mem))

/-- MIRROR_CAPTURE_COMPLETE takes the words of the Loop Set's ranges from the active lane into its buffer.
MIRROR_WRITE_START marks a ready buffer as writing once the standby's run of the same number is over.
MIRROR_WRITE_COMPLETE writes the buffer's words at the same offsets of the standby and changes no other byte.
LANE_RESTART with the key, a STOPPED lane beside an ACTIVE one, no hold and no restart starts a restart, else sets
WERR; a failing check vector ends it with LANE_RESTART_FAIL of step 1; the copy gives every byte of the lane's memory
the other lane's, changes no other byte, and starts the lane in SYNCING; not SYNCED in time it stops with step 5.
Captures, writes and copies wait, and change nothing, while a Stake requests one of their banks. LANE_SWAP with the
key, comparison on, a SYNCED standby, no split and no hold starts the hold sequence, else sets WERR. Clauses that the
spec leaves open follow the model's choices: log entries 18, 84, 87 and 89. (R134, R329, R336, R337, R338) -/
def Obligations.MirrorsRestartsAndSwaps : Prop :=
  let refused (s t : State) : Prop := t.d.get R.LANE_STATUS_WERR = 1 ∧ RegsBut [R.LANE_STATUS_WERR] s.d t.d ∧
    t = { s with d := { s.d with regs := t.d.regs, hoop := t.d.hoop } }
  let base (n : Nat) : Nat := 0x20000000 + 0x100000 * n
  (∀ (ls : Fin 16) (s : State) (n : Nat), s.d.standbyOf = some n → (s.d.lc.bufs.map MirrorBuf.ls).Nodup → ∀ b ∈ s.d.lc.bufs,
    b.ls = ls.val →
    (s.d.bankBusy (1 - n) (s.d.mirrorBanks ls.val) = true → Leads (.mirrorCaptureComplete ls) s s) ∧
    (b.ready = false → s.d.bankBusy (1 - n) (s.d.mirrorBanks ls.val) = false → Gives (.mirrorCaptureComplete ls) s fun t => t.mem = s.mem ∧ t.d.regs = s.d.regs ∧
      ∃ ws, { b with ready := true, words := ws } ∈ t.d.lc.bufs ∧
        ∀ r ∈ s.d.pat.mirror, r.ls = ls.val → ∀ k, 4 * k + 4 ≤ r.len →
          (r.off + 4 * k, Mem.word s.mem (base (1 - n) + r.off + 4 * k)) ∈ ws) ∧
    (b.ready = true → b.standbyDone = true → b.writing = false → (∀ r ∈ (s.d.lane n).runs, r.ls ≠ ls.val) →
      ls.val ∉ (s.d.lane n).mirroring → Gives (.mirrorWriteStart ls) s fun t =>
        { b with writing := true } ∈ t.d.lc.bufs ∧ ls.val ∈ (t.d.lane n).mirroring ∧ t.mem = s.mem ∧ t.d.regs = s.d.regs) ∧
    (b.standbyDone = false → Leads (.mirrorWriteStart ls) s s) ∧
    (b.writing = true → s.d.bankBusy n (s.d.mirrorBanks ls.val) = true → Leads (.mirrorWriteComplete ls) s s) ∧
    (b.writing = true → s.d.bankBusy n (s.d.mirrorBanks ls.val) = false → s.d.cfg.coef = none →
      ls.val ≠ 15 ∨ (∀ p ∈ (s.d.lane n).pend, p.ls ≠ 15) → (b.words.map Prod.fst).Nodup → (∀ w ∈ b.words, w.1 % 4 = 0) →
      Gives (.mirrorWriteComplete ls) s fun t =>
        (∀ w ∈ b.words, Mem.word t.mem (base n + w.1) = w.2) ∧
        (∀ a, (∀ w ∈ b.words, a < base n + w.1 ∨ base n + w.1 + 4 ≤ a) → Mem.rd t.mem a = Mem.rd s.mem a) ∧
        b ∉ t.d.lc.bufs ∧ ls.val ∉ (t.d.lane n).mirroring)) ∧
  (∀ (test : Bool) (key : BitVec 16) (s : State),
    let may (n : Nat) : Prop := n < 2 ∧ s.d.laneState n = 0 ∧ s.d.laneState (1 - n) = 1 ∧ key = 0xA5C3 ∧ s.d.lc.hold = none ∧
      s.d.lc.restart = none
    (∀ n, may n → Leads (.laneRestart test key) s
      { s with d := { s.d with lc := { s.d.lc with restart := some ⟨n, test, false, false⟩ } } }) ∧
    ((∀ n, ¬may n) → Gives (.laneRestart test key) s fun t => refused s t) ∧
    (let ok : Prop := key = 0xA5C3 ∧ s.d.get R.LANE_CTRL_CMP_EN = 1 ∧ s.d.laneState (1 - s.d.get R.LANE_STATUS_ACTIVE) = 2 ∧ s.d.get R.CFG_STATUS_SPLIT = 0 ∧
        s.d.lc.hold = none;
      (ok → s.d.laneState (s.d.get R.LANE_STATUS_ACTIVE) = 1 → Gives (.laneSwap key) s fun t =>
        t.d.laneState 0 = 4 ∧ t.d.laneState 1 = 4 ∧ t.d.get R.LANE_STATUS_HOLD = 1 ∧ t.mem = s.mem ∧
        t.d.lc.hold = some ⟨s.d.time.short, true, s.d.get R.LANE_STATUS_ACTIVE, true, 2, false, false⟩) ∧
      (¬ok → Gives (.laneSwap key) s fun t => refused s t))) ∧
  (∀ (s : State) (r : Restart), s.d.lc.restart = some r → r.lane < 2 →
    let n := r.lane
    let failed (t : State) (step : Nat) : Prop := t.d.lc.restart = none ∧ t.d.laneState n = 0 ∧
      reportOf s.d 3 75 step n ∈ t.d.hoop ∧ t.mem = s.mem
    (∀ fails bad, r.checked = true ∨ s.d.lc.hold ≠ none → Leads (.restartCheckComplete fails bad) s s) ∧
    (∀ fails bad, r.checked = false → s.d.lc.hold = none → s.d.laneState n = 0 → fails ≠ 0 →
      Gives (.restartCheckComplete fails bad) s fun t => failed t 1 ∧
        t.d.rdw (if n = 0 then 0x4000A058 else 0x4000A05C) = fails) ∧
    (∀ bad, r.checked = false → s.d.lc.hold = none → r.test = false → Gives (.restartCheckComplete 0 bad) s fun t =>
      t.d.lc.restart = some { r with checked := true } ∧ t.d.lc.copying = true ∧ t.mem = s.mem ∧ Sends s t []) ∧
    (r.checked = true → r.started = false → s.d.lc.hold = none → s.d.bankBusy (1 - n) (List.range 8) = false → s.d.laneState n = 0 → s.d.laneState (1 - n) = 1 →
      Gives .restartCopyComplete s fun t =>
        (∀ k, k < 0x100000 → Mem.rd t.mem (base n + k) = Mem.rd s.mem (base (1 - n) + k)) ∧
        (∀ a, a < base n ∨ base n + 0x100000 ≤ a → Mem.rd t.mem a = Mem.rd s.mem a) ∧
        (t.d.laneState n = 3 ∨ t.d.laneState n = 2) ∧ t.d.laneRuns n = true ∧ (t.d.lane n).flight = [] ∧ (t.d.lane n).ports = []) ∧
    (r.checked = false ∨ r.started = true ∨ s.d.lc.hold ≠ none ∨ s.d.bankBusy (1 - n) (List.range 8) = true → Leads .restartCopyComplete s s) ∧
    (r.started = true → s.d.laneState n = 3 → Gives .laneRestartFail s fun t => failed t 5) ∧
    (r.started = false ∨ s.d.laneState n ≠ 3 → Leads .laneRestartFail s s))

/-- A report that reaches ACC alone adds 1 to EVENTS, or from the standby lane to STANDBY; of a disabled source it does
nothing else. A standby report is only staged, as LOG. Any other counts in the window: a count above N promotes the
source, counted in PROMOTED; a report at or after the close opens a new window. Promoted, its class is Severe and its
reaction the higher of REACTION and PROMO_REACT. Severe sets ACTIVE and SEV; NOTIFY and above set ACTIVE and
STATUS.NOTIFY; GRACE starts the timer unless one runs or has expired; SAFE records FIRST_SAFE, drives SAFE_N, triggers
the Archive over channel 0x50 and enters M10, with CAUSE 4 for the network, 9 for the watchdog and 3 for other
sources, or below M3 sets SAFE_HELD. The report takes its free slot, merges into the newest entry of its source and
lane where R367 allows, or is counted LOST. No report: nothing happens. Clauses that the spec leaves open follow the
model's choices: log entries 18, 21, 94, 96, 108 and 109. (R16, R351, R352, R353, R355, R360, R364, R367) -/
def Obligations.ReportsAreJudged : Prop :=
  (∀ (c : Fin 14) (s : State), s.d.take (0x30 + c.val) 3 = none → Leads (.faultReport [c]) s s) ∧
  ∀ (c : Fin 14) (s : State) (r : Report) (d' : Dev), s.d.take (0x30 + c.val) 3 = some (.report r, d') → r.src < 192 →
    let k := r.src
    let standby : Bool := r.lane != 2 && r.lane !=
      (match s.d.lc.hold with | some h => h.active | none => s.d.get R.LANE_STATUS_ACTIVE)
    let cnt := if standby then R.ACC_SRC_CNT_STANDBY k else R.ACC_SRC_CNT_EVENTS k
    let counted (t : State) : Prop := t.d.get cnt = min (s.d.get cnt + 1) (if standby then 0xFF else 0xFFFF) ∧ t.mem = s.mem
    let entry (cls react : Nat) (promo : Bool) : LogEntry :=
      { src := k, cls := cls, react := react, lane := r.lane, promoted := promo, forced := r.forced, rep := 0,
        stamp := BitVec.ofNat 32 r.time, ctx := r.ctx, esc := false, standby := standby, mode := 0, lastDt := 0, seq := 0,
        closed := false }
    let same (e : LogEntry) : Prop := e.src = k ∧ e.lane = r.lane
    let fits (e x : LogEntry) : Prop := e.cls = x.cls ∧ e.closed = false ∧ e.rep < 0xFFFF ∧ (x.stamp - e.stamp).toNat < 1000 ∧
      e.esc = false
    let staged (t : State) (x : LogEntry) : Prop :=
      ((∀ e ∈ s.d.acc.staged, ¬(e.src = k ∧ (e.lane = 1 ↔ r.lane = 1))) →
        (∀ e ∈ s.d.acc.fifo, ¬same e) →
        t.d.acc.staged = s.d.acc.staged ++ [x] ∧ t.d.acc.fifo = s.d.acc.fifo ∧ t.d.acc.ovfNext = s.d.acc.ovfNext) ∧
      (∀ l e l', s.d.acc.staged = l ++ e :: l' → same e → (∀ e ∈ l ++ l', ¬same e) →
        (fits e x → t.d.acc.staged = l ++ { e with rep := e.rep + 1, lastDt := (x.stamp - e.stamp).toNat } :: l' ∧
          t.d.acc.fifo = s.d.acc.fifo) ∧
        (¬fits e x → t.d.acc.staged = s.d.acc.staged ∧
          t.d.get R.ACC_LOGSTAT_LOST = min (s.d.get R.ACC_LOGSTAT_LOST + 1) 0xFFFF)) ∧
      (∀ l e l', (∀ e ∈ s.d.acc.staged, ¬(e.src = k ∧ (e.lane = 1 ↔ r.lane = 1))) → s.d.acc.fifo = l ++ e :: l' → same e →
        (∀ e ∈ l', ¬same e) →
        (fits e x → t.d.acc.fifo = l ++ { e with rep := e.rep + 1, lastDt := (x.stamp - e.stamp).toNat } :: l' ∧
          t.d.acc.staged = s.d.acc.staged) ∧
        (¬fits e x → t.d.acc.staged = s.d.acc.staged ++ [x] ∧ t.d.acc.fifo = s.d.acc.fifo))
    let close (w : Win) : Nat := w.opened + windowNs (s.d.act (R.ACC_SRC_WIN_W k))
    (s.d.act (R.ACC_SRC_CFG_EN k) = 0 → Gives (.faultReport [c]) s fun t => counted t ∧ RegsBut [cnt] s.d t.d ∧
      t = { s with d := { d' with regs := t.d.regs, lc := { d'.lc with signals := t.d.lc.signals } } } ∧
      (k ∉ [64, 66, 67, 68] → t.d.lc = d'.lc)) ∧
    (s.d.act (R.ACC_SRC_CFG_EN k) ≠ 0 → standby = true → Gives (.faultReport [c]) s fun t => counted t ∧
      staged t (entry (s.d.act (R.ACC_SRC_CFG_CLASS k)) 0 false) ∧ RegsBut [cnt, R.ACC_LOGSTAT_LOST, R.ACC_LOGSTAT_LEVEL] s.d t.d ∧
      t.d.acc.wins = s.d.acc.wins ∧ t.d.acc.timers = s.d.acc.timers) ∧
    (s.d.act (R.ACC_SRC_CFG_EN k) ≠ 0 → standby = false → 1 ≤ s.d.act (R.ACC_SRC_CFG_N k) →
      (∀ w, s.d.accWin k = some w → 1 ≤ w.count) →
      let was := s.d.bit R.ACC_PROMO_SRC k
      let due : Prop := ∃ w, s.d.accWin k = some w ∧ r.time < close w ∧ s.d.act (R.ACC_SRC_CFG_N k) < w.count + 1
      ∀ promo : Bool, (promo = true ↔ was = true ∨ due) →
      let cls := if promo then 3 else s.d.act (R.ACC_SRC_CFG_CLASS k)
      let react := if promo then max (s.d.act (R.ACC_SRC_CFG_REACTION k)) (s.d.act R.ACC_CTRL_PROMO_REACT)
        else s.d.act (R.ACC_SRC_CFG_REACTION k)
      Gives (.faultReport [c]) s fun t => counted t ∧ staged t (entry cls react promo) ∧
        t.d.bit R.ACC_PROMO_SRC k = promo ∧
        t.d.get (R.ACC_SRC_CNT_PROMOTED k) =
          (if promo = true ∧ was = false then min (s.d.get (R.ACC_SRC_CNT_PROMOTED k) + 1) 0xFF
            else s.d.get (R.ACC_SRC_CNT_PROMOTED k)) ∧
        (was = false → promo = true → t.d.accWin k = none) ∧
        (promo = false → (∀ w, s.d.accWin k = some w → r.time < close w → t.d.accWin k = some ⟨w.opened, w.count + 1⟩) ∧
          ((∀ w, s.d.accWin k = some w → close w ≤ r.time) → t.d.accWin k = some ⟨r.time, 1⟩)) ∧
        (∀ j, j < 192 → t.d.bit R.ACC_ACTIVE_SRC j = (s.d.bit R.ACC_ACTIVE_SRC j || (j == k && (react != 0 || cls == 3))) ∧
          t.d.bit R.ACC_SEV_SRC j = (s.d.bit R.ACC_SEV_SRC j || (j == k && cls == 3))) ∧
        (react ≠ 0 → t.d.get R.ACC_STATUS_NOTIFY = 1 ∧ flagOf 3 0 ∈ t.d.hoop) ∧
        t.d.timer k = (if react = 2 ∧ s.d.timer k = none
          then some ⟨true, s.d.act (R.ACC_SRC_CFG_GRACE k), r.ctx, r.lane, promo⟩ else s.d.timer k) ∧
        (react ≠ 3 → t.d.mode = s.d.mode ∧ t.d.sys = s.d.sys ∧ t.d.legs = s.d.legs ∧ t.d.acc.safeSrcs = s.d.acc.safeSrcs ∧
          RegsBut [cnt, R.ACC_LOGSTAT_LOST, R.ACC_LOGSTAT_LEVEL, R.ACC_SRC_CNT_PROMOTED k, R.ACC_PROMO_SRC (k / 32),
            R.ACC_ACTIVE_SRC (k / 32), R.ACC_SEV_SRC (k / 32), R.ACC_GRACE_SRC (k / 32), R.ACC_STATUS_NOTIFY] s.d t.d) ∧
        (react = 3 → k ∈ t.d.acc.safeSrcs ∧ t.d.sys.safeDriven = true ∧
          (s.d.mode ≠ 10 → s.d.get R.ACC_STATUS_FIRST_VALID = 0 → t.d.get R.ACC_STATUS_FIRST_SAFE = k ∧
            t.d.get R.ACC_STATUS_FIRST_VALID = 1) ∧
          (3 ≤ s.d.mode → s.d.mode ≠ 10 → t.d.mode = 10 ∧ t.d.get R.SYSCTL_MODE_PREV = s.d.mode ∧
            t.d.get R.SYSCTL_MODE_CAUSE = (if k = 79 then 4 else if k = 78 then 9 else 3)) ∧
          ⟨0x50, 2, .safe s.d.time.short, false, false⟩ ∈ t.d.hoop ∧
          (s.d.mode = 10 → t.d.mode = 10) ∧
          (s.d.mode < 3 → t.d.mode = s.d.mode ∧ t.d.get R.ACC_STATUS_SAFE_HELD = 1)))

/-- ACK with the key and a source below 192 stops its timer, ends its promotion, closes its window, and clears ACTIVE and
SEV, or sets WERR while COND is set; ALL does so for every source; another key or source only sets WERR. FORCE with
the key puts a report with FORCE_CTX, lane code 2 and FORCED on ACC's channel; else it sets WERR. A running timer that
expires sets ACTIVE, and SEV where the class is Severe, stops, and decides SAFE; one not running does nothing. The log
writer moves the oldest staged entry, with SEQ and MODE, while two slots are free, and writes an OVERFLOW entry into
the last. LOG_W0 answers and latches the head, or the latched entry again; LOG_W3 answers the latched word and removes
the entry; with none latched it answers 0 and removes nothing. Clauses that the spec leaves open follow the model's
choices: log entries 18, 107, 108 and 141. (R357, R362, R363, R366, R368, R369) -/
def Obligations.AcknowledgeForceExpiryAndLog : Prop :=
  let refused (s t : State) : Prop := t.d.get R.ACC_STATUS_WERR = 1 ∧ RegsBut [R.ACC_STATUS_WERR] s.d t.d ∧
    t = { s with d := { s.d with regs := t.d.regs } }
  let cleared (s t : State) (k : Nat) : Prop := t.d.timer k = none ∧ t.d.bit R.ACC_GRACE_SRC k = false ∧
    t.d.bit R.ACC_PROMO_SRC k = false ∧ t.d.accWin k = none ∧
    (s.d.bit R.ACC_COND_SRC k = true → t.d.get R.ACC_STATUS_WERR = 1 ∧
      t.d.bit R.ACC_ACTIVE_SRC k = s.d.bit R.ACC_ACTIVE_SRC k ∧ t.d.bit R.ACC_SEV_SRC k = s.d.bit R.ACC_SEV_SRC k) ∧
    (s.d.bit R.ACC_COND_SRC k = false → t.d.bit R.ACC_ACTIVE_SRC k = false ∧ t.d.bit R.ACC_SEV_SRC k = false ∧
      k ∉ t.d.acc.safeSrcs)
  let stays (s t : State) (f : Dev → Dev) : Prop := t.mem = s.mem ∧ Sends s t [] ∧
    t = { s with d := { f s.d with regs := t.d.regs, acc := t.d.acc } }
  (∀ (src : BitVec 8) (key : BitVec 16) (s : State),
    let k := src.toNat
    let ok : Prop := key = 0xA5C3 ∧ k < 192
    (¬ok → (Gives (.accAck src key) s fun t => refused s t) ∧ (Gives (.accForce src key) s fun t => refused s t)) ∧
    (ok → Gives (.accAck src key) s fun t => cleared s t k ∧ stays s t id ∧
      RegsBut [R.ACC_STATUS_WERR, ⟨(R.ACC_ACTIVE_SRC (k / 32)).addr, k % 32, 1⟩, ⟨(R.ACC_SEV_SRC (k / 32)).addr, k % 32, 1⟩,
        ⟨(R.ACC_PROMO_SRC (k / 32)).addr, k % 32, 1⟩, ⟨(R.ACC_GRACE_SRC (k / 32)).addr, k % 32, 1⟩] s.d t.d) ∧
    (ok → Leads (.accForce src key) s { s with d := { s.d with hoop := s.d.hoop ++
      [⟨0x33, 3, .report ⟨k, s.d.rdw 0x40030010, 2, s.d.time.short, true⟩, false, false⟩] } })) ∧
  (∀ (key : BitVec 16) (s : State),
    (key ≠ 0xA5C3 → Gives (.accAckAll key) s fun t => refused s t) ∧
    (key = 0xA5C3 → Gives (.accAckAll key) s fun t => (∀ k, k < 192 → cleared s t k) ∧ stays s t id)) ∧
  (∀ (src : Fin 192) (ack : Bool) (s : State),
    let k := src.val
    ((∀ x, s.d.timer k = some x → x.running = false) → Leads (.graceExpiry src ack) s s) ∧
    (∀ x, s.d.timer k = some x → x.running = true → Gives (.graceExpiry src ack) s fun t =>
      t.d.timer k = some { x with running := false } ∧ t.d.bit R.ACC_GRACE_SRC k = false ∧
      t.d.bit R.ACC_ACTIVE_SRC k = true ∧ k ∈ t.d.acc.safeSrcs ∧ t.d.sys.safeDriven = true ∧ t.mem = s.mem ∧
      (s.d.act (R.ACC_SRC_CFG_CLASS k) = 3 ∨ ack = false ∧ s.d.bit R.ACC_PROMO_SRC k = true → t.d.bit R.ACC_SEV_SRC k = true) ∧
      (ack = true → s.d.bit R.ACC_COND_SRC k = false → s.d.act (R.ACC_SRC_CFG_CLASS k) ≠ 3 → t.d.bit R.ACC_SEV_SRC k = false) ∧
      (∀ c, c = (if (ack = false ∧ s.d.bit R.ACC_PROMO_SRC k = true) then 3 else s.d.act (R.ACC_SRC_CFG_CLASS k)) →
        (∀ e ∈ s.d.acc.staged, e.src ≠ k) → (∀ e ∈ s.d.acc.fifo, e.src ≠ k) → t.d.acc.staged = s.d.acc.staged ++
          [{ src := k, cls := c, react := 3, lane := x.lane, promoted := x.promoted, forced := false, rep := 0,
             stamp := BitVec.ofNat 32 s.d.time.short, ctx := x.ctx, esc := true, standby := false, mode := 0, lastDt := 0,
             seq := 0, closed := false }]) ∧
      (3 ≤ s.d.mode → t.d.mode = 10) ∧ (s.d.mode < 3 → t.d.mode = s.d.mode ∧ t.d.get R.ACC_STATUS_SAFE_HELD = 1))) ∧
  (∀ s : State, s.d.acc.fifo.length ≤ 256 →
    let n := s.d.acc.fifo.length
    let put (t : State) (e : LogEntry) : Prop :=
      t.d.acc.fifo = s.d.acc.fifo ++ [{ e with seq := s.d.acc.seq, mode := s.d.mode }] ∧
      t.d.acc.seq = (s.d.acc.seq + 1) % 16384 ∧ t.d.get R.ACC_LOGSTAT_LEVEL = n + 1
    let overflow (stamp : Word) (k : Nat) : LogEntry :=
      { src := 0xFF, cls := 0, react := 0, lane := 2, promoted := false, forced := false, rep := 0, stamp := stamp,
        ctx := BitVec.ofNat 32 k, esc := false, standby := false, mode := 0, lastDt := 0, seq := 0, closed := false }
    (s.d.acc.ovfNext = none → s.d.acc.staged = [] → Leads .logWrite s s) ∧
    (∀ e l, s.d.acc.ovfNext = none → s.d.acc.staged = e :: l →
      (n + 2 ≤ 256 → Gives .logWrite s fun t => put t e ∧ t.d.acc.staged = l ∧ RegsBut [R.ACC_LOGSTAT_LEVEL] s.d t.d ∧
        stays s t id) ∧
      (n = 255 → (∀ x, s.d.acc.fifo.getLast? = some x → x.src ≠ 0xFF) → Gives .logWrite s fun t =>
        put t (overflow e.stamp (1 + e.rep)) ∧ t.d.acc.staged = l ∧ t.d.get R.ACC_STATUS_OVF = 1 ∧
        t.d.get R.ACC_LOGSTAT_LOST = min (s.d.get R.ACC_LOGSTAT_LOST + (1 + e.rep)) 0xFFFF ∧ stays s t id) ∧
      (∀ f x, 255 ≤ n → s.d.acc.fifo = f ++ [x] → x.src = 0xFF → Gives .logWrite s fun t =>
        t.d.acc.fifo = f ++ [{ x with ctx := BitVec.ofNat 32 (min (x.ctx.toNat + (1 + e.rep)) 0xFFFFFFFF) }] ∧
        t.d.acc.staged = l ∧ t.d.get R.ACC_LOGSTAT_LOST = min (s.d.get R.ACC_LOGSTAT_LOST + (1 + e.rep)) 0xFFFF ∧
        stays s t id)) ∧
    (∀ stamp k, s.d.acc.ovfNext = some (stamp, k) → n < 256 → Gives .logWrite s fun t =>
      put t (overflow stamp k) ∧ t.d.acc.ovfNext = none ∧ t.d.acc.staged = s.d.acc.staged ∧ t.d.get R.ACC_STATUS_OVF = 1 ∧
      stays s t id)) ∧
  (∀ (core : Fin 4) (s : State), s.d.coreHeld core.val = false →
    let told (w : Word) (d : Dev) : Dev := d.answer core.val (.data w)
    let w0 (e : LogEntry) : Word := BitVec.ofNat 32 (e.src + e.cls * 2 ^ 8 + e.react * 2 ^ 10 + e.lane * 2 ^ 12 +
      b2n e.promoted * 2 ^ 14 + b2n e.forced * 2 ^ 15 + e.rep * 2 ^ 16)
    let w3 (e : LogEntry) : Word := BitVec.ofNat 32 (b2n e.esc + b2n e.standby * 2 + e.mode * 4 + e.lastDt * 2 ^ 8 +
      e.seq * 2 ^ 18)
    (∀ e, s.d.acc.latch = some e →
      Leads (.logW0Read core) s { s with d := told (w0 e) s.d } ∧
      Gives (.logW3Read core) s fun t => stays s t (told (w3 e)) ∧ t.d.acc.latch = none ∧
        t.d.acc.fifo = s.d.acc.fifo.tail ∧ t.d.get R.ACC_LOGSTAT_LEVEL = s.d.acc.fifo.tail.length % 512 ∧
        RegsBut [R.ACC_LOGSTAT_LEVEL] s.d t.d) ∧
    (s.d.acc.latch = none → Leads (.logW3Read core) s { s with d := told 0 s.d } ∧
      (s.d.acc.fifo = [] → Leads (.logW0Read core) s { s with d := told 0 s.d }) ∧
      (∀ e l, s.d.acc.fifo = e :: l → Gives (.logW0Read core) s fun t => stays s t (told (w0 e)) ∧
        t.d.acc.latch = some e ∧ t.d.acc.fifo = { e with closed := true } :: l ∧
        RegsBut [R.ACC_LOGSTAT_LEVEL] s.d t.d)))

/-- Enabling needs R373's four conditions, else it records CFGERR and CFGCH and raises ARCH_CFG. Each DECIM-th word is
taken; one stamped under 1000 ns after the last taken is skipped and counted. A taken sample joins the open block; a
full block, or one whose Δ would exceed 0xFFFF, is written at its place in the ring and nothing else in memory
changes. A KIND 2 read waits while a Stake uses its bank, and takes nothing while both lanes are HELD. The first unit
whose condition of R380 holds and whose bit is set starts the record; so do SWTRIG and a TRIGIO edge where enabled. A
sample outside its envelope entry raises ARCH_MASK and ends every channel: of all triggers of one word it comes first,
and in POST it sets MASK_FAIL; in POST a trigger counts INPOST, in IDLE and WAIT MISSED. A sample past T + POST ends
its channel; the timeout ends the rest with NO_END; completion writes header, directory and magic, sets DONE and arms
the next free bank where asked. ARM, ARMIO and DPL arms take the lowest free bank or wait; DISARM, RELEASE, the stuck
line and the pulses act as their rules say; commands whose condition fails change nothing. Clauses that the spec
leaves open follow the model's choices: log entries 18, 50, 110, 111, 112, 113, 114, 115, 116, 117 and 170. (R372,
R373, R375, R376, R377, R378, R380, R381, R382, R383, R384, R386) -/
def Obligations.ArchiveCapturesTriggersAndArms : Prop :=
  let on (s : State) (k : Nat) : Prop := k < 64 ∧ s.d.get (R.ARCH_CH_CFG_EN k) = 1
  let blocks (s : State) : Nat := (24576 - (s.d.get R.ARCH_MASK_LEN + 15) / 16) / 2 ^ s.d.get R.ARCH_CTRL_NBANK
  let at' (s : State) (bank blk : Nat) : Nat := 0x30000000 + 64 * (bank * blocks s + blk)
  let st (s : State) : Nat := s.d.get R.ARCH_STATUS_STATE
  let bank (s : State) : Nat := s.d.get R.ARCH_STATUS_BANK
  let done (s : State) (b : Nat) : Bool := (s.d.get R.ARCH_STATUS_DONE).testBit b
  let en (s : State) : Prop := s.d.get R.ARCH_CTRL_EN = 1
  let free (s : State) (b : Nat) : Prop := b < 4 ∧ b < 2 ^ s.d.get R.ARCH_CTRL_NBANK ∧ done s b = false ∧ ∀ c, c < b → done s c = true
  let none' (s : State) : Prop := ∀ b, b < 2 ^ s.d.get R.ARCH_CTRL_NBANK → done s b = true
  let fired (s t : State) (cause unit T : Nat) : Prop := st t = 2 ∧
    (∃ g, t.d.arch.trig = some g ∧ g.t = T ∧ g.cause = cause ∧ g.unit = unit) ∧ t.d.arch.dead = some T ∧
    t.d.get R.ARCH_CNT_FIRED = (s.d.get R.ARCH_CNT_FIRED + 1) % 256 ∧ reportOf s.d 2 112 (cause + 8 * bank s) ∈ t.d.hoop ∧
    (s.d.get R.ARCH_CTRL_TRIGIO_OUT = 1 → cause ≠ 3 → t.d.arch.trigio = true)
  let trigger (s t : State) (cause T : Nat) : Prop := t.mem = s.mem ∧
    (st s = 1 → fired s t cause 0 T ∧ RegsBut [R.ARCH_STATUS_STATE, R.ARCH_CNT_FIRED, R.ARCH_CNT2_TRUNC] s.d t.d) ∧
    (st s = 2 → t.d.get R.ARCH_CNT_INPOST = min (s.d.get R.ARCH_CNT_INPOST + 1) 0xFFF ∧ RegsBut [R.ARCH_CNT_INPOST] s.d t.d ∧
      Sends s t [] ∧ t.d.arch = s.d.arch) ∧
    (st s ≠ 1 → st s ≠ 2 → t.d.get R.ARCH_CNT_MISSED = min (s.d.get R.ARCH_CNT_MISSED + 1) 0xFFF ∧
      RegsBut [R.ARCH_CNT_MISSED] s.d t.d ∧ Sends s t [reportOf s.d 2 113 cause] ∧ t.d.arch = s.d.arch)
  let armed (s t : State) (b : Nat) (id : Nat) : Prop := st t = 1 ∧ bank t = b ∧ t.d.arch.id = id ∧
    t.d.get R.ARCH_ID_NEXT = (id + 1) % 0x10000 ∧ t.d.get R.ARCH_STATUS_ARM_PEND = 0 ∧ t.d.arch.armAt = s.d.time.short ∧
    t.d.arch.trig = none ∧ t.d.arch.pend = none ∧ Mem.word t.mem (at' s b 0) = 0 ∧
    ∀ a, a < at' s b 0 ∨ at' s b 0 + 4 ≤ a → Mem.rd t.mem a = Mem.rd s.mem a
  let waits (s t : State) (id : Option Nat) (state : Nat) : Prop := t.d.arch.pend = some id ∧
    t.d.get R.ARCH_STATUS_ARM_PEND = 1 ∧ st t = state ∧ t.mem = s.mem ∧
    RegsBut [R.ARCH_STATUS_ARM_PEND, R.ARCH_STATUS_STATE] s.d t.d
  let asks (c : Instr) (s : State) (id : Option Nat) : Prop :=
    (∀ b, st s = 0 → free s b → Gives c s fun t => armed s t b (id.getD (s.d.get R.ARCH_ID_NEXT))) ∧
    (st s = 0 → none' s → Gives c s fun t => waits s t id 3) ∧
    (st s = 1 → Gives c s fun t => t.mem = s.mem ∧ t.d.regs = s.d.regs ∧ t.d.arch.pend = s.d.arch.pend) ∧
    (2 ≤ st s → Gives c s fun t => waits s t id (st s))
  -- Enable
  (∀ s : State,
    let outside (k : Nat) : Prop := ¬(17 ≤ s.d.get (R.ARCH_CH_RING_BASE k) ∧ 2 ≤ s.d.get (R.ARCH_CH_RING_LEN k) ∧
      s.d.get (R.ARCH_CH_RING_BASE k) + s.d.get (R.ARCH_CH_RING_LEN k) ≤ blocks s)
    let crosses (k : Nat) : Prop := ∃ j, on s j ∧ j < k ∧
      s.d.get (R.ARCH_CH_RING_BASE j) < s.d.get (R.ARCH_CH_RING_BASE k) + s.d.get (R.ARCH_CH_RING_LEN k) ∧
      s.d.get (R.ARCH_CH_RING_BASE k) < s.d.get (R.ARCH_CH_RING_BASE j) + s.d.get (R.ARCH_CH_RING_LEN j)
    let wrong (k code : Nat) : Prop := on s k ∧ ((code = 1 ∧ outside k) ∨ (code = 2 ∧ crosses k) ∨
      (code = 3 ∧ s.d.archLegal k = false) ∨ (code = 4 ∧ s.d.get (R.ARCH_CH_CFG_DECIM k) = 0))
    (en s → Leads .archEnable s s) ∧
    (¬en s → (∀ k code, ¬wrong k code) → Gives .archEnable s fun t => en t ∧ st t = 0 ∧ t.d.get R.ARCH_STATUS_DONE = 0 ∧
      t.d.get R.ARCH_STATUS_CFGERR = 0 ∧ t.mem = s.mem ∧ Sends s t [] ∧ t.d.arch.dead = s.d.arch.dead ∧
      RegsBut [R.ARCH_CTRL_EN, R.ARCH_STATUS_CFGERR, R.ARCH_STATUS_CFGCH, R.ARCH_STATUS_DONE, R.ARCH_STATUS_STATE] s.d t.d) ∧
    (¬en s → (∃ k code, wrong k code) → Gives .archEnable s fun t => ∃ k code, wrong k code ∧
      t.d.get R.ARCH_STATUS_CFGERR = code ∧ t.d.get R.ARCH_STATUS_CFGCH = k ∧ Sends s t [reportOf s.d 2 119 k] ∧
      RegsBut [R.ARCH_STATUS_CFGERR, R.ARCH_STATUS_CFGCH] s.d t.d ∧ t.mem = s.mem ∧ t.d.arch = s.d.arch)) ∧
  -- Words reach channels
  (∀ (ch : Fin 3) (s : State), (s.d.take (0x28 + ch.val) 2 = none → Leads (.archSample ch) s s) ∧
    ∀ kind conv sel w x d', s.d.take (0x28 + ch.val) 2 = some (.arch kind conv sel w x, d') →
      (¬en s → Leads (.archSample ch) s { s with d := d' }) ∧
      (∀ k, en s → (∀ j, on s j ∧ s.d.get (R.ARCH_CH_CFG_KIND j) = kind ∧ s.d.get (R.ARCH_CH_CFG_SEL j) = sel ∧
          (kind = 1 ∨ s.d.get (R.ARCH_CH_CFG_CONV j) = conv) ↔ j = k) →
        Leads (.archSample ch) s (State.archWord { s with d := d' } k w x)) ∧
      (en s → ∃ ks : List Nat, ks.Nodup ∧ (∀ j, j ∈ ks ↔ on s j ∧ s.d.get (R.ARCH_CH_CFG_KIND j) = kind ∧
          s.d.get (R.ARCH_CH_CFG_SEL j) = sel ∧ (kind = 1 ∨ s.d.get (R.ARCH_CH_CFG_CONV j) = conv)) ∧
        Leads (.archSample ch) s (State.archWords { s with d := d' } ks w x))) ∧
  (∀ (ch : Fin 64) (s : State), ((∀ e ∈ s.d.slotDue, e.1 ≠ ch.val) → Leads (.archSlotRead ch) s s) ∧
    ∀ e, s.d.slotDue.find? (fun e => e.1 == ch.val) = some e →
      let s' := { s with d := { s.d with slotDue := s.d.slotDue.filter (· != e) } }
      let at0 := s.d.get (R.ARCH_CH_SRC_OFFSET ch.val) / 4 * 4
      let bank := at0 / 4 % 8
      let used : Prop := ∃ f ∈ (s.d.lane (s.d.get R.LANE_STATUS_ACTIVE)).flight, f.waiting = true ∧ bank ∈ f.act.banks
      (used → Leads (.archSlotRead ch) s s) ∧
      (¬used → Leads (.archSlotRead ch) s (if s.d.laneState 0 = 4 ∧ s.d.laneState 1 = 4 then s' else
        s'.archWord ch.val (Mem.word s.mem (0x20000000 + 0x100000 * s.d.get R.LANE_STATUS_ACTIVE + at0)) e.2.2))) ∧
  (∀ (s : State) (k x : Nat) (w : Word), on s k →
    let c := s.d.archCh k
    let t := s.archWord k w x
    let v : Int := (BitVec.ofNat 16 (w.toNat / 2 ^ 16)).toInt
    let step : Prop := s.d.get (R.ARCH_CH_CFG_DECIM k) ∣ c.words + 1 ∧ s.d.get (R.ARCH_CH_CFG_DECIM k) ≠ 0
    let soon : Prop := ∃ l, c.last = some l ∧ x < l + 1000
    let plain : Prop := s.d.act R.ARCH_MASKCFG_ALIGN = 0 ∧ ∀ u, u < 8 → s.d.act (R.ARCH_TU_CFG_CH u) ≠ k
    let lvl := if st s = 2 then 0 else s.d.get R.ARCH_STATUS_THROTTLE
    let past : Prop := ∃ g, s.d.arch.trig = some g ∧ g.t + s.d.act R.ARCH_TRIG_POST * 10000 < x
    let stores : Prop := (st s = 1 ∧ 2 ^ lvl ∣ c.taken) ∨ (st s = 2 ∧ c.ended = false ∧ s.d.arch.complete = none ∧ ¬past)
    let wide : Prop := s.d.get (R.ARCH_CH_CFG_WIDE k) = 1
    let cap := if wide then 7 else 14
    let written (b : ArchBlk) : Prop :=
      let A := at' s (bank s) (s.d.get (R.ARCH_CH_RING_BASE k) + c.count % max 1 (s.d.get (R.ARCH_CH_RING_LEN k)))
      Mem.word t.mem A = BitVec.ofNat 32 b.first ∧
      Mem.word t.mem (A + 4) = BitVec.ofNat 32 (c.count % 0x10000 + b.ents.length * 2 ^ 16 + b.t * 2 ^ 20 +
        (if st s = 2 then 2 ^ 22 else 0) + k * 2 ^ 24) ∧
      (∀ j e, b.ents[j]? = some e →
        if wide then Mem.word t.mem (A + 8 + 8 * j) = e.2 ∧ Mem.word t.mem (A + 12 + 8 * j) = BitVec.ofNat 32 e.1
        else Mem.word t.mem (A + 8 + 4 * j) = BitVec.ofNat 32 (e.1 + e.2.toNat / 2 ^ 16 * 2 ^ 16)) ∧
      (∀ a, a < A ∨ A + 64 ≤ a → Mem.rd t.mem a = Mem.rd s.mem a) ∧ (t.d.archCh k).count = c.count + 1
    (¬step → t = { s with d := s.d.setArchCh k { c with words := c.words + 1 } }) ∧
    (step → soon → t.mem = s.mem ∧ t.d.archCh k = { c with words := c.words + 1 } ∧ t.d.arch.rate = true ∧
      t.d.get R.ARCH_CNT2_RATE_SKIP = min (s.d.get R.ARCH_CNT2_RATE_SKIP + 1) 0xFFFF ∧
      RegsBut [R.ARCH_CNT2_RATE_SKIP] s.d t.d ∧ Sends s t (if s.d.arch.rate then [] else [reportOf s.d 2 116 k])) ∧
    (step → ¬soon → (t.d.archCh k).words = c.words + 1 ∧ (t.d.archCh k).last = some x ∧ (t.d.archCh k).taken = c.taken + 1 ∧
      (plain → ¬stores → ¬(st s = 2 ∧ past) → t.mem = s.mem ∧ (t.d.archCh k).blk = c.blk ∧ t.d.regs = s.d.regs) ∧
      (plain → st s = 2 → c.ended = false → s.d.arch.complete = none → past →
        (t.d.archCh k).ended = true ∧ (t.d.archCh k).noEnd = false ∧ (t.d.archCh k).blk = none ∧
        (c.blk = none → t.mem = s.mem) ∧ (∀ b, c.blk = some b → b.ents.length ≤ cap → written b)) ∧
      (plain → stores → c.blk = none → t.mem = s.mem ∧ (t.d.archCh k).blk = some ⟨x, x, 0, lvl, [(0, w)]⟩) ∧
      (plain → stores → ∀ b cum, c.blk = some b → b.ents.length < cap →
        (10 * cum ≤ x - b.first + 5 ∧ x - b.first ≤ 10 * cum + 5 ∧
          (10 * cum = x - b.first + 5 ∨ x - b.first = 10 * cum + 5 → cum % 2 = 0)) →
        let b' : ArchBlk := { b with last := x, cum := cum, ents := b.ents ++ [(cum - b.cum, w)] }
        (0xFFFF < cum - b.cum → written b ∧ (t.d.archCh k).blk = some ⟨x, x, 0, lvl, [(0, w)]⟩) ∧
        (cum - b.cum ≤ 0xFFFF → b'.ents.length < cap → t.mem = s.mem ∧ (t.d.archCh k).blk = some b') ∧
        (cum - b.cum ≤ 0xFFFF → b'.ents.length = cap → written b' ∧ (t.d.archCh k).blk = none)) ∧
      (let fires (u : Nat) : Prop :=
          let y := s.d.archTu u
          let lo : Int := (BitVec.ofNat 16 (s.d.act (R.ARCH_TU_LIM_LO u))).toInt
          let hi : Int := (BitVec.ofNat 16 (s.d.act (R.ARCH_TU_LIM_HI u))).toInt
          let kind := s.d.act (R.ARCH_TU_CFG_KIND u)
          s.d.act (R.ARCH_TU_CFG_CH u) = k ∧ (s.d.act R.ARCH_TRIGSRC_UNITS).testBit u = true ∧
            ((kind = 1 ∧ y.seen = true ∧ hi ≤ v) ∨ (kind = 2 ∧ y.seen = true ∧ v ≤ lo) ∨
              (kind = 3 ∧ y.seen = true ∧ (v < lo ∨ hi < v)) ∨
              (kind = 4 ∧ ∃ z, y.hist[s.d.act (R.ARCH_TU_RATE_N u) - 1]? = some z ∧
                (s.d.act (R.ARCH_TU_RATE_DELTA u) : Int) < |v - z|));
        ∀ u, u < 8 → st s = 1 → s.d.act R.ARCH_MASKCFG_ALIGN = 0 → fires u → (∀ i, i < u → ¬fires i) → fired s t 0 u x))) ∧
  -- The mask test
  (∀ (s : State) (ks : List Nat) (k i x : Nat) (w : Word), ks.Nodup → k ∈ ks → (∀ j ∈ ks, on s j) →
    let t := s.archWords ks w x
    let E := 0x30000000 + 64 * (24576 - (s.d.get R.ARCH_MASK_LEN + 15) / 16) + 4 * i
    let half (n : Nat) : Int := (BitVec.ofNat 16 n).toInt
    let env := (Mem.word s.mem E).toNat
    let out : Prop := half (w.toNat / 2 ^ 16) < half env ∨ half (env / 2 ^ 16) < half (w.toNat / 2 ^ 16)
    let ended (j : Nat) : Prop := (t.d.archCh j).ended = true ∧ (t.d.archCh j).blk =
      (if (s.d.archCh j).ended then (s.d.archCh j).blk else none) ∧
      ((s.d.archCh j).ended = false → (t.d.archCh j).noEnd = false)
    s.d.act R.ARCH_MASKCFG_ALIGN ≠ 0 → s.d.act R.ARCH_MASKCFG_CH = k → s.d.arch.maskIdx = some i →
    s.d.get (R.ARCH_CH_CFG_DECIM k) ≠ 0 → s.d.get (R.ARCH_CH_CFG_DECIM k) ∣ (s.d.archCh k).words + 1 →
    (∀ l, (s.d.archCh k).last = some l → l + 1000 ≤ x) →
    -- no block that the word completes lies on the envelope entry
    (∀ j ∈ ks, (∀ b, (s.d.archCh j).blk = some b → b.ents.length < (if s.d.get (R.ARCH_CH_CFG_WIDE j) = 1 then 7 else 14)) ∧
      (let A := at' s (bank s) (s.d.get (R.ARCH_CH_RING_BASE j) + (s.d.archCh j).count % max 1 (s.d.get (R.ARCH_CH_RING_LEN j)))
       E + 4 ≤ A ∨ A + 64 ≤ E)) →
    (out → i < s.d.get R.ARCH_MASK_LEN → st s = 1 → s.d.arch.complete = none → (∀ j, on s j → (s.d.archCh j).ended = false) →
      (s.d.act R.ARCH_TRIGSRC_MASK = 1 → fired s t 1 0 x ∧ reportOf s.d 2 115 i ∈ t.d.hoop ∧
        t.d.arch.complete = some s.d.time.short ∧ ∀ j, on s j → ended j) ∧
      (s.d.act R.ARCH_TRIGSRC_MASK = 0 → s.d.arch.trig = none → (∀ u, u < 8 → s.d.act (R.ARCH_TU_CFG_CH u) ∉ ks) →
        (∀ j ∈ ks, ∀ l, (s.d.archCh j).last = some l → l + 1000 ≤ x) → st t = 1 ∧
        Sends s t [reportOf s.d 2 115 i] ∧ t.d.arch.maskIdx = some (i + 1) ∧ t.d.regs = s.d.regs)) ∧
    (out → i < s.d.get R.ARCH_MASK_LEN → st s = 2 → s.d.arch.complete = none → (s.d.archCh k).ended = false →
      (∀ g, s.d.arch.trig = some g → x ≤ g.t + s.d.act R.ARCH_TRIG_POST * 10000) →
      t.d.arch.maskFail = true ∧ reportOf s.d 2 115 i ∈ t.d.hoop ∧ t.d.arch.trig = s.d.arch.trig ∧
        t.d.arch.complete = some s.d.time.short ∧ ∀ j, on s j → ended j) ∧
    (¬out ∨ s.d.get R.ARCH_MASK_LEN ≤ i → (∀ u, u < 8 → s.d.act (R.ARCH_TU_CFG_CH u) ∉ ks) →
      (∀ j ∈ ks, ∀ l, (s.d.archCh j).last = some l → l + 1000 ≤ x) →
      t.d.arch.maskIdx = some (i + 1) ∧ t.d.arch.maskFail = s.d.arch.maskFail ∧ t.d.arch.trig = s.d.arch.trig ∧ st t = st s)) ∧
  -- The end of a record
  (∀ s : State,
    (st s ≠ 2 ∨ s.d.arch.complete ≠ none → Leads .archRecordTimeout s s) ∧
    (st s = 2 → s.d.arch.complete = none → (∀ k b, on s k → (s.d.archCh k).blk = some b →
        b.ents.length ≤ (if s.d.get (R.ARCH_CH_CFG_WIDE k) = 1 then 7 else 14)) → Gives .archRecordTimeout s fun t =>
      t.d.arch.complete = some s.d.time.short ∧ (∀ k, on s k → (t.d.archCh k).ended = true ∧ (t.d.archCh k).blk =
        (if (s.d.archCh k).ended then (s.d.archCh k).blk else none) ∧
        ((s.d.archCh k).ended = false → (t.d.archCh k).noEnd = true)) ∧
      ∀ a, (∀ k, on s k → a < at' s (bank s) (s.d.get (R.ARCH_CH_RING_BASE k)) ∨
        at' s (bank s) (s.d.get (R.ARCH_CH_RING_BASE k) + max 1 (s.d.get (R.ARCH_CH_RING_LEN k))) ≤ a) →
        Mem.rd t.mem a = Mem.rd s.mem a) ∧
    (s.d.arch.trig = none ∨ s.d.arch.complete = none → Leads .archHeaderWritten s s) ∧
    (∀ g c, s.d.arch.trig = some g → s.d.arch.complete = some c → 17 ≤ blocks s → Gives .archHeaderWritten s fun t =>
      let A := at' s (bank s) 0
      let again : Prop := s.d.arch.pend ≠ none ∨ s.d.get R.ARCH_CTRL_AUTO = 1
      let rest (b : Nat) : Prop := b < 2 ^ s.d.get R.ARCH_CTRL_NBANK ∧ done s b = false ∧ b ≠ bank s
      Mem.bytes t.mem A 4 = [0x41, 0x52, 0x43, 0x52] ∧ Mem.word t.mem (A + 8) = BitVec.ofNat 32 g.t ∧
      Mem.word t.mem (A + 0x0C) = BitVec.ofNat 32 s.d.arch.armAt ∧ Mem.word t.mem (A + 0x10) = BitVec.ofNat 32 c ∧
      (∃ low, Mem.word t.mem (A + 4) = BitVec.ofNat 32 low ∧ low % 2 ^ 22 = (s.d.arch.id + g.unit * 2 ^ 16 + g.cause * 2 ^ 19) % 2 ^ 22) ∧
      flagOf 2 13 ∈ t.d.hoop ∧ done t (bank s) = true ∧ t.d.arch.trig = none ∧
      (¬again → st t = 0 ∧ ∀ a, a < A ∨ A + 1088 ≤ a → Mem.rd t.mem a = Mem.rd s.mem a) ∧
      (again → (∀ b, ¬rest b) → st t = 3) ∧
      (∀ b, b < 4 → again → rest b → (∀ i, i < b → ¬rest i) → st t = 1 ∧ bank t = b ∧ Mem.word t.mem (at' s b 0) = 0))) ∧
  -- Arming
  (∀ s : State, (¬en s → Leads .archArm s s) ∧ (en s → asks .archArm s none ∧
      Gives .archArm s fun t => t.d.arch.armio = (s.d.arch.armio || s.d.isSet R.ARCH_CTRL_ARMIO_OUT)) ∧
    (¬en s ∨ s.d.get R.ARCH_CTRL_ARMIO_IN = 0 → Leads .armioEdge s s) ∧
    (en s → s.d.get R.ARCH_CTRL_ARMIO_IN = 1 → asks .armioEdge s none) ∧
    (s.d.arch.due = [] → Leads .dplArmTime s s) ∧
    (∀ id sec ns l, s.d.arch.due = (id, sec, ns) :: l → en s → asks .dplArmTime s (some id) ∧
      Gives .dplArmTime s fun t => t.d.arch.due = l) ∧
    (st s = 1 → Gives .archDisarm s fun t => st t = 0 ∧ RegsBut [R.ARCH_STATUS_STATE] s.d t.d ∧
      t = { s with d := { s.d with regs := t.d.regs } }) ∧
    (st s ≠ 1 → Gives .archDisarm s fun t => t.d.get R.ARCH_STATUS_WERR = 1 ∧ RegsBut [R.ARCH_STATUS_WERR] s.d t.d ∧
      t = { s with d := { s.d with regs := t.d.regs } })) ∧
  (∀ (banks : BitVec 4) (s : State),
    let after' (b : Nat) : Bool := done s b && !banks.toNat.testBit b
    (st s ≠ 3 ∨ s.d.arch.pend = none → Gives (.archRelease banks) s fun t => (∀ b, b < 4 → done t b = after' b) ∧
      ((∃ b, b < 4 ∧ banks.toNat.testBit b = true ∧ done s b = false) → t.d.get R.ARCH_STATUS_WERR = 1) ∧
      RegsBut [R.ARCH_STATUS_DONE, R.ARCH_STATUS_WERR] s.d t.d ∧ t = { s with d := { s.d with regs := t.d.regs } }) ∧
    (∀ b id, st s = 3 → s.d.arch.pend = some id → b < 2 ^ s.d.get R.ARCH_CTRL_NBANK → b < 4 → after' b = false →
      (∀ c, c < b → after' c = true) → Gives (.archRelease banks) s fun t =>
        armed s t b (id.getD (s.d.get R.ARCH_ID_NEXT)))) ∧
  -- Triggers from outside the channels, and the shared lines
  (∀ s : State,
    let edge : Prop := s.d.get R.ARCH_CTRL_TRIGIO_IN = 1 ∧ s.d.arch.trigio = false ∧ s.d.bit R.ACC_COND_SRC 118 = false
    (¬(en s ∧ s.d.act R.ARCH_TRIGSRC_SW = 1) → Leads .archSwtrig s s) ∧
    (en s → s.d.act R.ARCH_TRIGSRC_SW = 1 → Gives .archSwtrig s fun t => trigger s t 2 s.d.time.short) ∧
    (¬(en s ∧ s.d.act R.ARCH_TRIGSRC_TRIGIO = 1 ∧ edge) → Leads .trigioEdge s s) ∧
    (en s → s.d.act R.ARCH_TRIGSRC_TRIGIO = 1 → edge → Gives .trigioEdge s fun t => trigger s t 3 (s.d.time.short - 30)) ∧
    (s.d.bit R.ACC_COND_SRC 118 = true → Leads .archTrigioStuck s s) ∧
    (s.d.bit R.ACC_COND_SRC 118 = false → Gives .archTrigioStuck s fun t => t.d.bit R.ACC_COND_SRC 118 = true ∧
      Sends s t [reportOf s.d 2 118 0] ∧ t = { s with d := { s.d with regs := t.d.regs, hoop := t.d.hoop } }) ∧
    (Gives .trigioReadsHigh s fun t => t.d.bit R.ACC_COND_SRC 118 = false ∧ RegsBut [R.ACC_COND_SRC 3] s.d t.d ∧
      t = { s with d := { s.d with regs := t.d.regs } }) ∧
    Leads .trigioPulseEnd s { s with d := { s.d with arch := { s.d.arch with trigio := false } } } ∧
    Leads .armioPulseEnd s { s with d := { s.d with arch := { s.d.arch with armio := false } } })

/-- With no hold, a relay word with nonzero upper bits raises ISO_CMD_BAD; an open command de-energises its chain, or
aborts a running test; a close is refused under WELD_FAIL or by mode with its source; accepted outside M4 it energises
the chain; in M4 it starts the weld test, which aborts at once where a chain is commanded or reads closed, or is held
while one runs. Each step of the test is judged on the closed Tally window as R396 says: next action, abort, weld or
pass. SETTLE starts the step's window or the supervision, in which a disagreeing readback holds ISO_RB_x; the
readbacks follow the pins and RB_POL at once, and a sensor input whose OPEN_SRC is cleared holds no SIN_OPENk. The due
and overdue conditions, the weld bit by key, the test pulses, the evidence count and cross state of each sensor input,
its STATE, and the seal samples follow their rules; a command whose condition fails changes nothing. Clauses that the
spec leaves open follow the model's choices: log entries 18, 91, 92 and 93. (R392, R393, R394, R395, R396, R398, R399,
R401, R402, R403, R404, R406) -/
def Obligations.RelaysWeldTestPulsesAndSeal : Prop :=
  let cmd (x : Nat) : Fld := if x = 0 then R.ISO_STATUS_CMD_A else R.ISO_STATUS_CMD_B
  let rb (d : Dev) (r : Nat) : Bool :=
    if r < 2 then (d.get R.ISO_STATUS_RB_A).testBit r else (d.get R.ISO_STATUS_RB_B).testBit (r - 2)
  let only (s t : State) : Prop := t.mem = s.mem ∧
    t = { s with d := { s.d with regs := t.d.regs, hoop := t.d.hoop, iso := t.d.iso, lc := t.d.lc } }
  let aborted (s t : State) (reason : Nat) : Prop := t.d.iso.weld = none ∧ t.d.iso.want = [] ∧ t.d.get R.ISO_STATUS_STEP = 0 ∧
    t.d.get R.ISO_WELD_RESULT = 4 ∧ t.d.get R.ISO_WELD_REASON = reason ∧ t.d.get (cmd 0) = 0 ∧ t.d.get (cmd 1) = 0 ∧
    t.d.get R.ISO_STATUS_WELD_FAIL = s.d.get R.ISO_STATUS_WELD_FAIL ∧ reportOf s.d 3 94 reason ∈ t.d.hoop ∧ t.mem = s.mem
  let closes (s : State) (m : Nat) : Prop := m = 4 ∨ m = 5 ∨ m = 6 ∨ m = 8 ∨ (m = 7 ∧ s.d.sys.from8 = true)
  let cond (d : Dev) (n : Nat) : Bool := d.bit R.ACC_COND_SRC n
  -- Relay commands
  (∀ s : State, s.d.lc.hold = none → (s.d.lc.relays = [] → Leads .relayCommand s s) ∧
    ∀ x v l, s.d.lc.relays = (x, v) :: l → x < 2 →
      let permitted : Prop := closes s s.d.mode ∨ (s.d.mode = 9 ∧ closes s s.d.sys.before9)
      let fail : Prop := s.d.get R.ISO_STATUS_WELD_FAIL = 1
      let told (t : State) : Prop := only s t ∧ t.d.lc = { s.d.lc with relays := l }
      let idle (t : State) : Prop := told t ∧ t.d.regs = s.d.regs ∧ t.d.iso = s.d.iso
      let shut : Prop := s.d.get (cmd 0) = 0 ∧ s.d.get (cmd 1) = 0 ∧ s.d.get R.ISO_STATUS_RB_A = 0 ∧ s.d.get R.ISO_STATUS_RB_B = 0
      (2 ≤ v.toNat → Gives .relayCommand s fun t => idle t ∧ Sends s t [reportOf s.d 3 100 x]) ∧
      (v = 0 → s.d.iso.weld = none → Gives .relayCommand s fun t => told t ∧ t.d.get (cmd x) = 0 ∧ x ∉ t.d.iso.want ∧
        (s.d.get (cmd x) = 1 → x ∈ t.d.iso.settling) ∧ RegsBut [cmd x] s.d t.d ∧ Sends s t []) ∧
      (v = 0 → s.d.iso.weld ≠ none → Gives .relayCommand s fun t => told t ∧ aborted s t 5) ∧
      (v = 1 → fail → Gives .relayCommand s fun t => idle t ∧ Sends s t [reportOf s.d 3 99 x]) ∧
      (v = 1 → ¬fail → ¬permitted → Gives .relayCommand s fun t => idle t ∧ Sends s t [reportOf s.d 3 80 x]) ∧
      (v = 1 → ¬fail → permitted → s.d.mode ≠ 4 → Gives .relayCommand s fun t => told t ∧ t.d.get (cmd x) = 1 ∧
        x ∈ t.d.iso.want ∧ (s.d.get (cmd x) = 0 → x ∈ t.d.iso.settling) ∧ RegsBut [cmd x] s.d t.d ∧ Sends s t []) ∧
      (v = 1 → ¬fail → s.d.mode = 4 → s.d.iso.weld ≠ none → Gives .relayCommand s fun t => told t ∧ x ∈ t.d.iso.want ∧
        t.d.iso.weld = s.d.iso.weld ∧ t.d.regs = s.d.regs ∧ Sends s t []) ∧
      (v = 1 → ¬fail → s.d.mode = 4 → s.d.iso.weld = none → s.d.get (cmd x) = 1 → Gives .relayCommand s fun t => idle t ∧
        Sends s t []) ∧
      (v = 1 → ¬fail → s.d.mode = 4 → s.d.iso.weld = none → s.d.get (cmd x) = 0 →
        (shut → Gives .relayCommand s fun t => told t ∧ t.d.iso.weld = some ⟨1, some s.d.time.short⟩ ∧ x ∈ t.d.iso.want ∧
          t.d.get R.ISO_STATUS_STEP = 1 ∧ RegsBut [R.ISO_STATUS_STEP] s.d t.d ∧ Sends s t []) ∧
        (¬shut → Gives .relayCommand s fun t => told t ∧ aborted s t 1))) ∧
  -- The judgement of a step
  (∀ (c j : Fin 4) (s : State) (step r : Nat), s.d.iso.weld = some ⟨step, some r⟩ → s.d.get R.ISO_CFG_VCONV = c.val →
    s.d.get R.ISO_CFG_VTJ = j.val → r ≤ (s.d.tally c.val j.val).first →
    s.d.act (R.ADC_T_WIN_WIN_N c.val j.val) ≤ (s.d.tally c.val j.val).n →
    let T := s.d.tally c.val j.val
    let low : Prop := T.sq ≤ s.d.act R.ISO_VTH_OPEN_MAX ^ 2 * T.n
    let high : Prop := s.d.act R.ISO_VTH_CLOSED_MIN ^ 2 * T.n ≤ T.sq
    let goes (n x v : Nat) : Prop := Gives (.tallyWindowClose c j) s fun t => t.d.iso.weld = some ⟨n, none⟩ ∧
      t.d.get R.ISO_STATUS_STEP = n ∧ t.d.get (cmd x) = v ∧ t.d.get (cmd (1 - x)) = s.d.get (cmd (1 - x)) ∧
      t.d.iso.want = s.d.iso.want ∧ t.mem = s.mem
    let stops (reason : Nat) : Prop := Gives (.tallyWindowClose c j) s fun t => aborted s t reason
    let welded (x n : Nat) : Prop := Gives (.tallyWindowClose c j) s fun t => t.d.iso.weld = none ∧ t.d.iso.want = [] ∧
      t.d.get (cmd 0) = 0 ∧ t.d.get (cmd 1) = 0 ∧ t.d.get R.ISO_STATUS_WELD_FAIL = 1 ∧ t.d.get R.ISO_WELD_RESULT = 2 + x ∧
      reportOf s.d 3 (92 + x) n ∈ t.d.hoop ∧ t.mem = s.mem
    let closed (x : Nat) : Prop := rb s.d (2 * x) = true ∧ rb s.d (2 * x + 1) = true
    let opened (x : Nat) : Prop := rb s.d (2 * x) = false ∧ rb s.d (2 * x + 1) = false
    (step = 1 → (low → goes 2 0 1) ∧ (¬low → stops 2)) ∧
    (step = 2 → (closed 0 ∧ high → goes 3 0 0) ∧ (¬(closed 0 ∧ high) → stops 3)) ∧
    (step = 3 → (opened 0 ∧ low → goes 4 1 1) ∧ (¬(opened 0 ∧ low) → welded 0 3)) ∧
    (step = 4 → (closed 1 ∧ high → goes 5 1 0) ∧ (¬(closed 1 ∧ high) → stops 3)) ∧
    (step = 5 → (¬(opened 1 ∧ low) → welded 1 5) ∧ (opened 1 ∧ low → Gives (.tallyWindowClose c j) s fun t =>
      t.d.iso.weld = none ∧ t.d.get R.ISO_WELD_RESULT = 1 ∧ t.d.get R.ISO_WELD_AGE = 0 ∧ t.d.get R.ISO_STATUS_TEST_DUE = 0 ∧
      cond t.d 97 = false ∧ cond t.d 98 = false ∧ (∀ x, x < 2 → x ∈ s.d.iso.want → t.d.get (cmd x) = 1) ∧ t.mem = s.mem))) ∧
  -- Settling, readbacks and timers
  (∀ (chain : Fin 2) (s : State),
    let x := chain.val
    let differs (d : Dev) (y : Nat) : Prop := ∃ i, i < 2 ∧ (rb d (2 * y + i) = true ↔ s.d.get (cmd y) = 0)
    let watched (t : State) (y : Nat) : Prop := (cond t.d (95 + y) = true ↔ differs t.d y) ∧
      (cond s.d (95 + y) = false → differs t.d y → ∃ ctx, reportOf s.d 3 (95 + y) ctx ∈ t.d.hoop)
    (x ∉ s.d.iso.settling → Leads (.relaySettle chain) s s) ∧
    (x ∈ s.d.iso.settling → s.d.iso.weld = none → Gives (.relaySettle chain) s fun t => only s t ∧
      x ∉ t.d.iso.settling ∧ watched t x) ∧
    (∀ w, x ∈ s.d.iso.settling → s.d.iso.weld = some w → Gives (.relaySettle chain) s fun t => only s t ∧ t.d.regs = s.d.regs ∧
      Sends s t [] ∧ t.d.iso.weld = (if w.ready = none ∧ x = (if w.step ≤ 3 then 0 else 1)
        then some { w with ready := some s.d.time.short } else some w)) ∧
    ∀ (relay : Fin 4) (level : Bool), Gives (.relayReadbackChange relay level) s fun t => only s t ∧
      (∀ r, r < 4 → rb t.d r =
        ((if r = relay.val then level else s.d.iso.pins.toNat.testBit r) ^^ (s.d.get R.ISO_CFG_RB_POL).testBit r)) ∧
      (s.d.iso.weld = none → x ∉ s.d.iso.settling → watched t x) ∧ t.d.get (cmd x) = s.d.get (cmd x)) ∧
  (∀ (core : Fin 4) (data : Word) (s : State), s.d.coreHeld core.val = false → s.d.gated 0x4003100C = false →
    (Gives (.registerWrite core 0x4003100C data) s fun t =>
      (s.d.staticOpen 0x4003100C = true → t.d.get R.ISO_CFG_RB_POL = data.toNat / 16 % 16) ∧
      (∀ r, r < 4 → rb t.d r = (s.d.iso.pins.toNat.testBit r ^^ (t.d.get R.ISO_CFG_RB_POL).testBit r)) ∧
      (s.d.iso.weld = none → ∀ x, x < 2 → x ∉ s.d.iso.settling →
        (cond t.d (95 + x) = true ↔ ∃ i, i < 2 ∧ (rb t.d (2 * x + i) = true ↔ s.d.get (cmd x) = 0))) ∧ t.mem = s.mem) ∧
    ∀ k, k < 8 → Gives (.registerWrite core (word (0x40031040 + 4 * k)) data) s fun t =>
      (s.d.staticOpen (0x40031040 + 4 * k) = true → t.d.get (R.ISO_SIN_EN k) = data.toNat % 2 ∧
        t.d.get (R.ISO_SIN_SRC k) = data.toNat / 2 % 2 ∧ t.d.get (R.ISO_SIN_OPEN_SRC k) = data.toNat / 4 % 2) ∧
      (∀ j, j < 8 → cond t.d (103 + j) = (cond s.d (103 + j) && t.d.isSet (R.ISO_SIN_OPEN_SRC j))) ∧ t.mem = s.mem) ∧
  (∀ s : State, (s.d.iso.weld = none → Leads .weldStepTimeout s s) ∧
    (s.d.iso.weld ≠ none → Gives .weldStepTimeout s fun t => only s t ∧ aborted s t 4) ∧
    (s.d.get (cmd 0) = 0 → s.d.get (cmd 1) = 0 → Leads .isoWeldDue s s) ∧
    (s.d.get (cmd 0) = 1 ∨ s.d.get (cmd 1) = 1 → Gives .isoWeldDue s fun t => t.d.get R.ISO_STATUS_TEST_DUE = 1 ∧
      cond t.d 97 = true ∧ Sends s t (if cond s.d 97 then [] else [reportOf s.d 3 97 0]) ∧
      RegsBut [R.ISO_STATUS_TEST_DUE, R.ACC_COND_SRC 3] s.d t.d ∧ only s t) ∧
    (cond s.d 97 = false → Leads .isoWeldOverdue s s) ∧
    (cond s.d 97 = true → Gives .isoWeldOverdue s fun t => cond t.d 98 = true ∧
      Sends s t (if cond s.d 98 then [] else [reportOf s.d 3 98 0]) ∧ RegsBut [R.ACC_COND_SRC 3] s.d t.d ∧ only s t) ∧
    ∀ key : BitVec 16,
      let sets (t : State) (f : Fld) (v : Nat) : Prop := t.d.get f = v ∧ RegsBut [f] s.d t.d ∧ only s t
      (key = 0xA5C3 → s.d.mode = 11 → Gives (.clrWeld key) s fun t => sets t R.ISO_STATUS_WELD_FAIL 0) ∧
      (key ≠ 0xA5C3 ∨ s.d.mode ≠ 11 → Gives (.clrWeld key) s fun t => sets t R.ISO_STATUS_WERR 1) ∧
      (key = 0xA5C3 → Gives (.setWeld key) s fun t => sets t R.ISO_STATUS_WELD_FAIL 1) ∧
      (key ≠ 0xA5C3 → Gives (.setWeld key) s fun t => sets t R.ISO_STATUS_WERR 1)) ∧
  -- Test pulses, sensor inputs and seal
  (∀ (supply : Fin 2) (levels : BitVec 8) (s : State),
    let off : Prop := s.d.get R.ISO_CTRL_EN = 0
    (Gives (.testPulseEnd supply) s fun t => supply.val ∉ t.d.iso.pulses ∧
      t = { s with d := { s.d with iso := { s.d.iso with pulses := t.d.iso.pulses } } }) ∧
    (off → Leads (.testPulseStart supply) s s ∧ Leads (.sinPreSample levels) s s ∧ Leads (.sinInSample supply levels) s s) ∧
    (¬off → Gives (.testPulseStart supply) s fun t => supply.val ∈ t.d.iso.pulses ∧ t.mem = s.mem ∧
      (supply = 1 → t = { s with d := { s.d with iso := { s.d.iso with pulses := t.d.iso.pulses } } }) ∧
      (supply = 0 → ∀ p ∈ t.d.cfg.pend, ¬(0x40031000 ≤ p.1 ∧ p.1 < 0x40032000))) ∧
    (¬off → Leads (.sinPreSample levels) s { s with d := { s.d with iso := { s.d.iso with pre := levels } } }) ∧
    (¬off → Gives (.sinInSample supply levels) s fun t => only s t ∧
      let on (k : Nat) : Prop := s.d.get (R.ISO_SIN_EN k) = 1
      let own (k : Nat) : Prop := s.d.get (R.ISO_SIN_SRC k) = supply.val
      let was (k : Nat) : Prop := (s.d.get R.ISO_SINSTAT_CROSS).testBit k = true
      let sign (k : Nat) : Prop := s.d.iso.pre.toNat.testBit k = true ∧ (levels.toNat.testBit k = true ↔ own k)
      let count (k : Nat) : Nat := Sparse.at' 0 s.d.iso.cross k
      let found (k : Nat) : Prop := on k ∧ sign k ∧ 1 ≤ count k ∧ ¬was k
      (∀ k, k < 8 →
        (on k → sign k → Sparse.at' 0 t.d.iso.cross k = min (count k + 1) 2) ∧
        (on k → ¬sign k → own k → Sparse.at' 0 t.d.iso.cross k = 0) ∧
        ((t.d.get R.ISO_SINSTAT_CROSS).testBit k = true ↔ found k ∨ (was k ∧ ¬(on k ∧ own k ∧ ¬sign k))) ∧
        (found k → (t.d.get R.ISO_SINSTAT_STATE).testBit k = false ∧ (t.d.get R.ISO_SINSTAT_CROSS_SEEN).testBit k = true ∧
          cond t.d 102 = true) ∧
        (on k → own k → ¬found k → ¬was k ∨ ¬sign k →
          (t.d.get R.ISO_SINSTAT_STATE).testBit k = s.d.iso.pre.toNat.testBit k ∧
          cond t.d (103 + k) = (s.d.isSet (R.ISO_SIN_OPEN_SRC k) && !s.d.iso.pre.toNat.testBit k)) ∧
        (¬on k ∨ (¬own k ∧ ¬found k) → (t.d.get R.ISO_SINSTAT_STATE).testBit k = (s.d.get R.ISO_SINSTAT_STATE).testBit k)) ∧
      ((∃ k, k < 8 ∧ was k) → t.d.get R.ISO_SINSTAT_CROSS = 0 → cond t.d 102 = false)) ∧
    (s.d.mode < 3 → Leads (.sealSample levels) s s) ∧
    (3 ≤ s.d.mode → Gives (.sealSample levels) s fun t => only s t ∧ t.d.get R.ISO_SEAL_LIVE = levels.toNat ∧
      t.d.get R.ISO_SEAL_LATCHED = s.d.get R.ISO_SEAL_LATCHED ∧
      (levels.toNat = s.d.get R.ISO_SEAL_LATCHED → t.d.iso.sealRun = 0 ∧ cond t.d 101 = false) ∧
      (levels.toNat ≠ s.d.get R.ISO_SEAL_LATCHED → t.d.iso.sealRun = min (s.d.iso.sealRun + 1) 2 ∧
        (s.d.iso.sealRun = 0 → t.d.get R.ISO_SEAL_CHANGED = s.d.get R.ISO_SEAL_CHANGED ∧ cond t.d 101 = cond s.d 101) ∧
        (1 ≤ s.d.iso.sealRun → t.d.get R.ISO_SEAL_CHANGED = 1 ∧ cond t.d 101 = true ∧ Sends s t (if cond s.d 101 then [] else
          [reportOf s.d 3 101 (levels.toNat + 256 * s.d.get R.ISO_SEAL_LATCHED)])))))

/-- A core held in reset does nothing. A TAKE of another core, of a disabled Desk or of a core with a RUNNING slot answers
0; else it answers the slot that R422 picks, which becomes RUNNING, or the core waits. A GIVE that R421 forbids sets
WERR and raises CIRC_CMD_ERR; with no core waiting, a GIVE takes the slot off its core into the state of its
operation, or of a pending STOP or SUSPEND. CMD moves a slot as R419 says, marks a RUNNING one, and errs from any
other state; a started slot goes to a waiting core, else requests preemption of the core that R423 names. Flags set,
clear (a set wins) and count overruns; a met wait wakes its slot and consumes its flags. A Shelf tick that TIME has
made due counts and readies expired slots by priority, then number. CIRC_STARVE and CIRC_RUN_LONG are raised once
where limits stand; a debug halt ends a blocked TAKE. Clauses that the spec leaves open follow the model's choices:
log entries 18, 118, 119 and 149. (R417, R418, R419, R420, R421, R422, R423, R425, R426, R428, R429, R430) -/
def Obligations.DeskGivesTakesWakesAndPreempts : Prop :=
  let st (d : Dev) (u : Nat) : Nat := d.get (R.CIRC_SLOT_STAT_STATE u)
  let prio (d : Dev) (u : Nat) : Nat := d.get (R.CIRC_SLOT_CFG_PRIO u)
  let aff (d : Dev) (u c : Nat) : Bool := (d.get (R.CIRC_SLOT_CFG_AFF u)).testBit c
  let en (s : State) : Prop := s.d.get R.CIRC_CTRL_EN = 1
  let noWait (s : State) : Prop := ∀ c, c < 4 → (s.d.ccore c).waiting = false
  let desk (u : Nat) : List Fld := [R.CIRC_SLOT_STAT_STATE u, R.CIRC_PREEMPT_CORES, R.CIRC_STATUS_WAITING, R.CIRC_STATUS_RUNNING,
    R.CIRC_CUR_TCB 0, R.CIRC_CUR_TCB 1, R.CIRC_CUR_TCB 2, R.CIRC_CUR_TCB 3]
  let only (s t : State) : Prop := t.mem = s.mem ∧
    t = { s with d := { s.d with regs := t.d.regs, hoop := t.d.hoop, circ := t.d.circ, resp := t.d.resp, time := t.d.time } }
  let tail (s t : State) (u : Nat) : Prop := t.d.circ.ready = (s.d.circ.ready.filter fun x => x != u) ++ [u]
  let ready (s t : State) (u wake : Nat) : Prop := st t.d u = 1 ∧ tail s t u ∧ (t.d.slot u).wake = wake ∧
    (t.d.slot u).wait = none ∧ (t.d.slot u).expiry = none
  let parked (t : State) (u state : Nat) : Prop := st t.d u = state ∧ u ∉ t.d.circ.ready ∧ (t.d.slot u).wait = none ∧
    (t.d.slot u).expiry = none
  let err (s t : State) (ctx : Nat) : Prop := t.d.get R.CIRC_STATUS_WERR = 1 ∧ RegsBut [R.CIRC_STATUS_WERR] s.d t.d ∧
    Sends s t [reportOf s.d 1 123 ctx] ∧ t = { s with d := { s.d with regs := t.d.regs, hoop := t.d.hoop } }
  let given (s t : State) (u c : Nat) : Prop := st t.d u = 2 ∧ (t.d.ccore c).cur = some u ∧ (t.d.ccore c).waiting = false ∧
    u ∉ t.d.circ.ready ∧ t.d.get (R.CIRC_SLOT_STAT_LASTCORE u) = c ∧
    t.d.get (R.CIRC_SLOT_STAT_RUNS u) = (s.d.get (R.CIRC_SLOT_STAT_RUNS u) + 1) % 0x10000 ∧
    t.d.get (R.CIRC_CUR_TCB c) = s.d.get (R.CIRC_SLOT_TCB_PTR u)
  let told (d : Dev) (c : Nat) : Resp := Sparse.at' .none d.resp c
  let waits (d : Dev) (w : FlagWait) : Prop := let x := d.get (R.CIRC_FLAG_BITS w.group) &&& w.mask
    if w.all then x = w.mask else x ≠ 0
  let eaten (d : Dev) (w : FlagWait) (f j : Nat) : Bool :=
    f.testBit j && !(w.mask.testBit j && (d.get (R.CIRC_FLAGCONS_BITS w.group)).testBit j)
  let runs (s : State) (core : Fin 4) : Prop := s.d.coreHeld core.val = false
  -- A core held in reset
  (∀ (core target : Fin 4) (all : Bool) (group : Fin 4) (ticks : BitVec 24) (slot : Fin 256) (s : State), ¬runs s core →
    ∀ c ∈ ([.take core target, .giveYield core, .giveWait core all group ticks, .giveDelay core ticks, .giveUntil core ticks,
      .giveExit core, .giveSuspend core, .cmdStart core slot, .cmdResume core slot, .cmdStop core slot,
      .cmdSuspend core slot] : List Instr), Leads c s s) ∧
  -- TAKE
  (∀ (core target : Fin 4) (s : State), runs s core →
    let n := target.val
    let ask : Prop := core = target ∧ en s ∧ (s.d.ccore n).cur = none
    (¬ask → Leads (.take core target) s { s with d := s.d.answer core.val (.data 0) }) ∧
    (ask → (∀ c, c < 4 → c ≠ n → (s.d.ccore c).waiting = false) →
      ((∀ u ∈ s.d.circ.ready, aff s.d u n = false) → Gives (.take core target) s fun t => (t.d.ccore n).waiting = true ∧
        told t.d n = .none ∧ only s t ∧ t.d.circ.ready = s.d.circ.ready) ∧
      (∀ u, u ∈ s.d.circ.ready → aff s.d u n = true → (∀ v ∈ s.d.circ.ready, aff s.d v n = true → prio s.d v ≤ prio s.d u) →
        let peers := s.d.circ.ready.filter fun v => prio s.d v == prio s.d u && aff s.d v n
        let warm (v : Nat) : Bool := s.d.get (R.CIRC_SLOT_STAT_LASTCORE v) == n &&
          (match (s.d.slot v).left with
            | some x => decide (s.d.time.short - x < s.d.get R.CIRC_CTRL_AFFWIN * 1000)
            | none => false)
        (peers.find? warm).or peers.head? = some u → u < 256 → Gives (.take core target) s fun t =>
          given s t u n ∧ only s t ∧
          told t.d n = .data (BitVec.ofNat 32 (u + (s.d.slot u).wake * 2 ^ 8 + b2n (s.d.slot u).preempted * 2 ^ 11 + 2 ^ 31))))) ∧
  -- GIVE
  (∀ (core : Fin 4) (s : State) (all : Bool) (group : Fin 4) (ticks : BitVec 24), runs s core →
    let c := core.val
    let k := ticks.toNat
    let mask := s.d.get (R.CIRC_WAITMASK_MASK c)
    let gives : List Instr := [.giveYield core, .giveWait core all group ticks, .giveDelay core ticks, .giveUntil core ticks,
      .giveExit core, .giveSuspend core]
    ((s.d.ccore c).cur = none → ∀ g ∈ gives, Gives g s fun t => err s t (c * 2 ^ 8 + 2 ^ 10)) ∧
    (∀ u, (s.d.ccore c).cur = some u → u < 256 →
      let stop : Prop := s.d.get (R.CIRC_SLOT_STAT_PEND_STOP u) = 1
      let susp : Prop := s.d.get (R.CIRC_SLOT_STAT_PEND_SUSP u) = 1
      let w : FlagWait := ⟨group.val, mask, all⟩
      let leaves (t : State) : Prop := (t.d.ccore c).cur = none ∧ (t.d.ccore c).req = none ∧
        (t.d.slot u).left = some s.d.time.short ∧ t.d.get (R.CIRC_SLOT_STAT_PEND_STOP u) = 0 ∧
        t.d.get (R.CIRC_SLOT_STAT_PEND_SUSP u) = 0 ∧ only s t
      let ahead := (k + 2 ^ 24 - s.d.get R.CIRC_TICKCNT_COUNT % 2 ^ 24) % 2 ^ 24
      (k = 0 → Gives (.giveDelay core ticks) s fun t => err s t (u + c * 2 ^ 8 + 2 ^ 10)) ∧
      (mask = 0 → Gives (.giveWait core all group ticks) s fun t => err s t (u + c * 2 ^ 8 + 2 ^ 10)) ∧
      (noWait s → stop ∨ susp → ∀ g ∈ gives, (g = .giveDelay core ticks → k ≠ 0) →
        (g = .giveWait core all group ticks → mask ≠ 0) →
        Gives g s fun t => leaves t ∧ (stop → parked t u 0) ∧ (¬stop → parked t u 5)) ∧
      (noWait s → ¬stop → ¬susp →
        (Gives (.giveYield core) s fun t => leaves t ∧ st t.d u = 1 ∧ (t.d.slot u).wake = 1 ∧
          (t.d.slot u).preempted = (s.d.ccore c).req.isSome ∧
          ((s.d.ccore c).req = none → tail s t u) ∧
          ((s.d.ccore c).req ≠ none → t.d.circ.ready = u :: s.d.circ.ready.filter fun x => x != u)) ∧
        (mask ≠ 0 → waits s.d w → Gives (.giveWait core all group ticks) s fun t => leaves t ∧ ready s t u 2 ∧
          ∀ j, j < 32 → (t.d.get (R.CIRC_FLAG_BITS group.val)).testBit j =
            eaten s.d w (s.d.get (R.CIRC_FLAG_BITS group.val)) j) ∧
        (mask ≠ 0 → ¬waits s.d w → Gives (.giveWait core all group ticks) s fun t => leaves t ∧ st t.d u = 3 ∧
          (t.d.slot u).wait = some w ∧ (t.d.slot u).expiry = (if k = 0 then none else some (s.d.circ.ticks + k)) ∧
          t.d.get (R.CIRC_FLAG_BITS group.val) = s.d.get (R.CIRC_FLAG_BITS group.val)) ∧
        (k ≠ 0 → Gives (.giveDelay core ticks) s fun t => leaves t ∧ st t.d u = 4 ∧
          (t.d.slot u).expiry = some (s.d.circ.ticks + k)) ∧
        (1 ≤ ahead → ahead ≤ 2 ^ 23 → Gives (.giveUntil core ticks) s fun t => leaves t ∧ st t.d u = 4 ∧
          (t.d.slot u).expiry = some (s.d.circ.ticks + ahead)) ∧
        (¬(1 ≤ ahead ∧ ahead ≤ 2 ^ 23) → Gives (.giveUntil core ticks) s fun t => leaves t ∧ ready s t u 4 ∧
          t.d.get (R.CIRC_SLOT_STAT_LATE u) = 1 ∧ reportOf s.d 1 122 u ∈ t.d.hoop) ∧
        (Gives (.giveExit core) s fun t => leaves t ∧ parked t u 0) ∧
        (Gives (.giveSuspend core) s fun t => leaves t ∧ parked t u 5)))) ∧
  -- CMD, and what a started slot does to the cores
  (∀ (core : Fin 4) (slot : Fin 256) (s : State), runs s core →
    let u := slot.val
    let was := st s.d u
    let bad (c : Instr) : Prop := Gives c s fun t => err s t (u + core.val * 2 ^ 8)
    let marks (c : Instr) (f : Fld) : Prop := Gives c s fun t => t.d.get f = 1 ∧ RegsBut [f] s.d t.d ∧
      t = { s with d := { s.d with regs := t.d.regs } }
    (was ≠ 0 → bad (.cmdStart core slot)) ∧ (was ≠ 5 → bad (.cmdResume core slot)) ∧ (was = 0 → bad (.cmdStop core slot)) ∧
    (was = 0 ∨ 5 ≤ was → bad (.cmdSuspend core slot)) ∧
    (was = 2 → marks (.cmdSuspend core slot) (R.CIRC_SLOT_STAT_PEND_SUSP u) ∧
      marks (.cmdStop core slot) (R.CIRC_SLOT_STAT_PEND_STOP u)) ∧
    (noWait s →
      (was = 0 → Gives (.cmdStart core slot) s fun t => ready s t u 0 ∧ only s t ∧ RegsBut (desk u) s.d t.d) ∧
      (was = 5 → Gives (.cmdResume core slot) s fun t => ready s t u 5 ∧ only s t ∧ RegsBut (desk u) s.d t.d) ∧
      (was = 1 ∨ was = 3 ∨ was = 4 → Gives (.cmdSuspend core slot) s fun t => parked t u 5 ∧ only s t ∧
        RegsBut (desk u) s.d t.d) ∧
      (was = 1 ∨ was = 3 ∨ was = 4 ∨ was = 5 → Gives (.cmdStop core slot) s fun t => parked t u 0 ∧ only s t ∧
        RegsBut (desk u) s.d t.d)) ∧
    (en s → was = 0 → s.d.circ.ready = [] →
      (∀ c, c < 4 → aff s.d u c = true → (s.d.ccore c).waiting = true → (∀ x, x < 4 → x ≠ c → (s.d.ccore x).waiting = false) →
        Gives (.cmdStart core slot) s fun t => given s t u c ∧
          told t.d c = .data (BitVec.ofNat 32 (u + b2n (s.d.slot u).preempted * 2 ^ 11 + 2 ^ 31))) ∧
      (∀ c p, noWait s → (∀ x, x < 4 → (s.d.ccore x).req = none) → c < 4 → aff s.d u c = true →
        (let low (x q : Nat) : Prop := x < 4 ∧ aff s.d u x = true ∧ (∃ v, (s.d.ccore x).cur = some v ∧ v ≠ u ∧ q = prio s.d v) ∧
            q < prio s.d u;
          low c p ∧ ∀ x q, low x q → p < q ∨ (p = q ∧ c ≤ x)) → (∀ x v, x < 4 → (s.d.ccore x).cur = some v → v < 256 ∧ v ≠ u) →
        Gives (.cmdStart core slot) s fun t => (t.d.ccore c).req = some u ∧
          (t.d.get R.CIRC_PREEMPT_CORES).testBit c = true))) ∧
  -- Event flags
  (∀ (group : Fin 4) (bits : Word) (isl : Fin 14) (s : State), noWait s →
    let g := group.val
    let flags := s.d.get (R.CIRC_FLAG_BITS g)
    let twice := (List.range 32).filter fun j => flags.testBit j && bits.getLsbD j
    let free : Prop := ∀ v, (s.d.slot v).wait = none
    (free → Gives (.flagSet group bits) s fun t => t.d.get (R.CIRC_FLAG_BITS g) = flags ||| bits.toNat ∧ only s t ∧
      t.d.get R.CIRC_FLAGOVR_COUNT = min (s.d.get R.CIRC_FLAGOVR_COUNT + twice.length) 0xFFFF ∧
      (∀ j ∈ twice, (s.d.get (R.CIRC_FLAGREP_BITS g)).testBit j = true → reportOf s.d 1 124 (32 * g + j) ∈ t.d.hoop)) ∧
    (free → Gives (.flagClear group bits []) s fun t => only s t ∧ Sends s t [] ∧
      ∀ j, j < 32 → (t.d.get (R.CIRC_FLAG_BITS g)).testBit j = (flags.testBit j && !bits.getLsbD j)) ∧
    (∀ f d', free → s.d.take (0x40 + isl.val) 1 = some (.flag f, d') → f < 128 →
      (Gives (.flagRequest isl) s fun t => only s t ∧
        ((s.d.get (R.CIRC_FLAG_BITS (f / 32))).testBit (f % 32) = false → t.d.hoop = d'.hoop) ∧ ∀ i, i < 128 →
        (t.d.get (R.CIRC_FLAG_BITS (i / 32))).testBit (i % 32) =
          ((s.d.get (R.CIRC_FLAG_BITS (i / 32))).testBit (i % 32) || i == f)) ∧
      (Gives (.flagClear group bits [isl]) s fun t => only s t ∧ ∀ i, i < 128 →
        (t.d.get (R.CIRC_FLAG_BITS (i / 32))).testBit (i % 32) = (i == f ||
          ((s.d.get (R.CIRC_FLAG_BITS (i / 32))).testBit (i % 32) && !(i / 32 == g && bits.getLsbD (i % 32)))))) ∧
    (∀ u w, u < 256 → (s.d.slot u).wait = some w → w.group = g → w.mask < 2 ^ 32 → (∀ v, v ≠ u → (s.d.slot v).wait = none) →
      let x := (flags ||| bits.toNat) &&& w.mask
      let met : Prop := if w.all then x = w.mask else x ≠ 0
      (met → Gives (.flagSet group bits) s fun t => ready s t u 2 ∧ ∀ j, j < 32 →
        (t.d.get (R.CIRC_FLAG_BITS g)).testBit j = eaten s.d w (flags ||| bits.toNat) j) ∧
      (¬met → Gives (.flagSet group bits) s fun t => (t.d.slot u).wait = some w ∧ st t.d u = st s.d u ∧
        t.d.get (R.CIRC_FLAG_BITS g) = flags ||| bits.toNat))) ∧
  -- The Shelf
  (∀ (s : State) (isls : List (Fin 14)), s.d.time.shelf = 0 → Leads (.shelfTick isls) s s) ∧
  (∀ s : State, 0 < s.d.time.shelf → noWait s → (∀ v w, (s.d.slot v).wait = some w → ¬waits s.d w) →
    (¬en s → Leads (.shelfTick []) s { s with d := { s.d with time := { s.d.time with shelf := s.d.time.shelf - 1 } } }) ∧
    (en s → Sparse.rising s.d.circ.slots = true → (∀ v x, (s.d.slot v).expiry = some x → v < 256) →
      Gives (.shelfTick []) s fun t =>
      t.d.get R.CIRC_TICKCNT_COUNT = (s.d.get R.CIRC_TICKCNT_COUNT + 1) % 2 ^ 32 ∧ t.d.circ.ticks = s.d.circ.ticks + 1 ∧
      t.d.time = { s.d.time with shelf := s.d.time.shelf - 1 } ∧
      only s t ∧ ∃ l : List Nat, (∀ u, u ∈ l ↔ (s.d.slot u).expiry = some (s.d.circ.ticks + 1)) ∧
        l.Pairwise (fun u v => prio s.d v < prio s.d u ∨ (prio s.d v = prio s.d u ∧ u < v)) ∧
        t.d.circ.ready = (s.d.circ.ready.filter fun u => !l.contains u) ++ l ∧
        (∀ u ∈ l, st t.d u = 1 ∧ (t.d.slot u).wake = (if st s.d u = 3 then 3 else 4) ∧ (t.d.slot u).expiry = none) ∧
        (∀ u, u < 256 → u ∉ l → st t.d u = st s.d u ∧ t.d.slot u = s.d.slot u))) ∧
  -- Monitors and the debug halt
  (∀ (slot : Fin 256) (core : Fin 4) (s : State),
    let u := slot.val
    let c := core.val
    let starves : Prop := st s.d u = 1 ∧ s.d.get (R.CIRC_SLOT_CFG_STARVE u) ≠ 0 ∧ (s.d.slot u).starved = false
    let long : Prop := st s.d u = 2 ∧ s.d.get (R.CIRC_SLOT_CFG_RUNMAX u) ≠ 0 ∧ (s.d.slot u).runLong = false
    let once (x : Instr) (src ctx : Nat) : Prop := Gives x s fun t => Sends s t [reportOf s.d 1 src ctx] ∧ only s t ∧
      t.d.regs = s.d.regs ∧ Leads x t t
    (¬starves → Leads (.circStarve slot) s s) ∧ (starves → once (.circStarve slot) 120 u) ∧
    (¬long → Leads (.circRunLong slot) s s) ∧
    (long → once (.circRunLong slot) 121 (u + s.d.get (R.CIRC_SLOT_STAT_LASTCORE u) * 2 ^ 8)) ∧
    Gives (.coreDebugHalt core) s fun t => (t.d.ccore c).waiting = false ∧ only s t ∧
      told t.d c = (if (s.d.ccore c).waiting then .data 0 else told s.d c) ∧
      Sends s t (if 4 ≤ s.d.mode ∧ s.d.mode ≤ 9 then [reportOf s.d 1 127 c] else []))

/-- A tick adds the increment in force to NS.FRAC, the same whole nanoseconds to the short time, and the waiting step to
SEC.NS modulo 2^48 s, counts down a running adjustment off BYP, raises PPS_OUT at the carry by the increment where
enabled, makes at most one Shelf tick due, and, where it applies a step, records STEP_SHORT, counts STEP_SEQ and
raises TIME_STEP. An empty queue ticks; so do the commands that name a tick, when theirs it is. ADJ_TICKS, GO and the
read of NS do what R443, R444 and R440 say. A comparator loads its set when armed; reached, it sends its event with
the stamp of R445, sets FIRED, requests its flag, and disarms or takes the first target not passed, counting the
periods skipped. PPS_IN latches the time less 8 ns; the loss condition needs an edge seen before. Anything not due,
and a read of a core held in reset, changes nothing. Clauses that the spec leaves open follow the model's choices: log
entries 18, 40, 143 and 149. (R427, R436, R437, R438, R440, R443, R444, R445, R446, R447, R448) -/
def Obligations.TimeTicksStepsAndCompares : Prop :=
  let inc (s : State) : Nat := if s.d.get R.TIME_STATUS_BYP = 1 then 0x0A000000
    else if s.d.time.adj ≠ 0 then s.d.get R.TIME_ADJ_INCR_INCR else s.d.get R.TIME_INCR_INCR
  let w (s : State) : Nat := (s.d.time.frac + inc s) / 2 ^ 24
  let ticked (s t : State) : Prop :=
    t.d.time.frac = (s.d.time.frac + inc s) % 2 ^ 24 ∧ t.d.time.short = s.d.time.short + w s ∧ t.d.time.ns < 10 ^ 9 ∧
    ((t.d.time.sec * 10 ^ 9 + t.d.time.ns : Nat) : Int) = (s.d.time.sec * 10 ^ 9 + s.d.time.ns + w s +
      (match s.d.time.step with | some x => x.sec * 10 ^ 9 + x.ns | none => 0)) % (2 ^ 48 * 10 ^ 9) ∧
    t.d.time.adj = (if s.d.get R.TIME_STATUS_BYP = 1 then s.d.time.adj else s.d.time.adj - 1) ∧ t.d.time.step = none ∧
    (t.d.time.ppsOut = true ↔ s.d.time.ppsOut = true ∨
      (10 ^ 9 ≤ s.d.time.ns + w s ∧ s.d.get R.TIME_PPSOUT_EN = 1)) ∧ t.mem = s.mem ∧
    (let P := s.d.get R.CIRC_CTRL_TICK * 1000
     let on : Prop := s.d.get R.CIRC_CTRL_EN = 1
     s.d.time.shelf ≤ t.d.time.shelf ∧ t.d.time.shelf ≤ s.d.time.shelf + 1 ∧ (¬on → t.d.time.shelf = s.d.time.shelf) ∧
     (on → P ≠ 0 → s.d.time.ns / P < (s.d.time.ns + w s) / P → t.d.time.shelf = s.d.time.shelf + 1) ∧
     (P ≠ 0 → s.d.time.ns / P = (s.d.time.ns + w s) / P → (∀ x, s.d.time.step = some x → x.sec * 10 ^ 9 + x.ns ≤ 0) →
       t.d.time.shelf = s.d.time.shelf)) ∧
    (s.d.time.step = none → Sends s t [] ∧
      RegsBut [R.TIME_ADJ_TICKS_K, R.ISO_WELD_AGE, R.LEDGER_HOURS_H] s.d t.d) ∧
    (∀ x, s.d.time.step = some x → Sends s t [reportOf t.d 13 129 (BitVec.ofInt 32 x.ns).toNat] ∧
      t.d.get R.TIME_STEP_SHORT_TIME = t.d.time.short % 2 ^ 32 ∧ t.d.get R.TIME_STEP_CTRL_WAITING = 0 ∧
      t.d.get R.TIME_STEP_CTRL_STEP_SEQ = (s.d.get R.TIME_STEP_CTRL_STEP_SEQ + 1) % 0x10000)
  let runs (s : State) : Prop := s.d.sys.held = .none
  (∀ s : State, s.pending = [] → runs s → ∃ t, step s = .next t ∧ ticked s t ∧ t.pending = []) ∧
  (∀ s : State, runs s →
    (s.d.time.adj = 1 → s.d.get R.TIME_STATUS_BYP = 0 → Gives .timeAdjustEnd s fun t => ticked s t ∧ t.d.time.adj = 0) ∧
    (s.d.time.adj ≠ 1 ∨ s.d.get R.TIME_STATUS_BYP = 1 → Leads .timeAdjustEnd s s) ∧
    (s.d.time.step ≠ none → Gives .timeStep s fun t => ticked s t) ∧
    (s.d.time.step = none → Leads .timeStep s s) ∧
    (10 ^ 9 ≤ s.d.time.ns + w s → Gives .secondCarry s fun t => ticked s t) ∧
    (s.d.time.ns + w s < 10 ^ 9 → Leads .secondCarry s s)) ∧
  (∀ (k : BitVec 24) (core : Fin 4) (s : State),
    (Gives (.timeAdjustStart k) s fun t => t.d.time.adj = k.toNat ∧ t.d.get R.TIME_ADJ_TICKS_K = k.toNat ∧
      RegsBut [R.TIME_ADJ_TICKS_K] s.d t.d ∧
      t = { s with d := { s.d with regs := t.d.regs, time := { s.d.time with adj := k.toNat } } }) ∧
    (Gives .timeStepRequest s fun t =>
      let x : TimeStep := ⟨(BitVec.ofNat 16 (s.d.get R.TIME_STEP_SEC_SEC)).toInt, (s.d.rdw 0x4005001C).toInt⟩
      t.d.get R.TIME_STEP_CTRL_WAITING = 1 ∧ RegsBut [R.TIME_STEP_CTRL_WAITING] s.d t.d ∧
      t = { s with d := { s.d with regs := t.d.regs, time := { s.d.time with step := some x } } }) ∧
    (s.d.coreHeld core.val = true → Leads (.timeNsRead core) s s) ∧
    (s.d.coreHeld core.val = false → s.d.time.ns < 10 ^ 9 → Gives (.timeNsRead core) s fun t => Sparse.at' .none t.d.resp core.val = .data (BitVec.ofNat 32 s.d.time.ns) ∧
      t.d.get R.TIME_NS_NS = s.d.time.ns ∧ t.d.get R.TIME_SEC_LO_SEC = s.d.time.sec % 2 ^ 32 ∧
      t.d.get R.TIME_SEC_HI_SEC = s.d.time.sec / 2 ^ 32 % 2 ^ 16 ∧ t.d.get R.TIME_SHORT_TIME = s.d.time.short % 2 ^ 32 ∧
      RegsBut [R.TIME_NS_NS, R.TIME_SEC_LO_SEC, R.TIME_SEC_HI_SEC, R.TIME_SHORT_TIME] s.d t.d ∧
      t = { s with d := { s.d with regs := t.d.regs, resp := t.d.resp } })) ∧
  (∀ (k : Fin 8) (mode : Bool) (s : State),
    let i := k.val
    let c := s.d.cmp i
    let now := s.d.time.sec % 2 ^ 32 * 10 ^ 9 + s.d.time.ns
    let short := (s.d.time.short + 2 ^ 32 - c.at' % 2 ^ 32) % 2 ^ 32
    let reached (past : Nat) : Prop := c.armed = true ∧
      ((c.mode = true ∧ c.sec * 10 ^ 9 + c.at' + past = now) ∨ (c.mode = false ∧ past = short ∧ short < 2 ^ 31))
    (Gives (.comparatorArm k mode) s fun t =>
      t.d.cmp i = ⟨true, mode, s.d.get (R.TIME_CMP_AT_T i), s.d.get (R.TIME_CMP_ATSEC_SEC i), s.d.get (R.TIME_CMP_PERIOD_NS i)⟩ ∧
      t.d.get (R.TIME_CMP_CFG_EN i) = 1 ∧ t.d.get (R.TIME_CMP_CFG_MODE i) = b2n mode ∧
      RegsBut [R.TIME_CMP_CFG_EN i, R.TIME_CMP_CFG_MODE i] s.d t.d ∧ (∀ j, j ≠ i → t.d.cmp j = s.d.cmp j) ∧
      t = { s with d := { s.d with regs := t.d.regs, cmps := t.d.cmps } }) ∧
    ((∀ past, ¬reached past) → Leads (.timeComparatorFire k) s s) ∧
    (∀ past, reached past → Gives (.timeComparatorFire k) s fun t =>
      (t.d.get R.TIME_CMPSTAT_FIRED).testBit i = true ∧ flagOf 13 (16 + i) ∈ t.d.hoop ∧ t.mem = s.mem ∧
      (∃ stamp, stamp % 2 ^ 32 = (if c.mode then s.d.time.short else c.at') % 2 ^ 32 ∧
        ∀ ch : Nat, ch = 8 ∨ ch = 9 ∨ (ch = 4 ∧ ∃ l ∈ s.d.pat.loopsets, l.kind = 3 ∧ l.unit = i) →
          ⟨7, ch, .event 3 i stamp, false, false⟩ ∈ t.d.hoop) ∧
      (c.period = 0 → (t.d.cmp i).armed = false ∧ t.d.get (R.TIME_CMP_CFG_EN i) = 0 ∧
        t.d.get R.TIME_CMPSTAT_MISSED = s.d.get R.TIME_CMPSTAT_MISSED) ∧
      (c.period ≠ 0 → (t.d.cmp i).armed = true ∧ t.d.get (R.TIME_CMP_CFG_EN i) = 1 ∧
        t.d.get R.TIME_CMPSTAT_MISSED = min (s.d.get R.TIME_CMPSTAT_MISSED + past / c.period) 0xFFFF ∧
        (c.mode = false → (t.d.cmp i).at' = (c.at' + (past / c.period + 1) * c.period) % 2 ^ 32) ∧
        (c.mode = true → (t.d.cmp i).at' < 10 ^ 9 ∧ (t.d.cmp i).sec < 2 ^ 32 ∧
          ((t.d.cmp i).sec * 10 ^ 9 + (t.d.cmp i).at') % (2 ^ 32 * 10 ^ 9) =
            (c.sec * 10 ^ 9 + c.at' + (past / c.period + 1) * c.period) % (2 ^ 32 * 10 ^ 9))) ∧
      RegsBut [R.TIME_CMPSTAT_FIRED, R.TIME_CMPSTAT_MISSED, R.TIME_CMP_CFG_EN i] s.d t.d)) ∧
  (∀ s : State,
    Leads .ppsOutEnd s { s with d := { s.d with time := { s.d.time with ppsOut := false } } } ∧
    (Gives .ppsInEdge s fun t => t.d.time = { s.d.time with ppsSeen := true } ∧ t.d.bit R.ACC_COND_SRC 128 = false ∧
      Sends s t [flagOf 13 24] ∧ t.mem = s.mem ∧
      (8 ≤ s.d.time.ns → s.d.time.ns < 10 ^ 9 → t.d.get R.TIME_PPSIN_NS_NS = s.d.time.ns - 8 ∧
        t.d.get R.TIME_PPSIN_SEC_SEC = s.d.time.sec % 2 ^ 32) ∧
      (s.d.time.ns < 8 → 1 ≤ s.d.time.sec → s.d.time.sec < 2 ^ 48 → t.d.get R.TIME_PPSIN_NS_NS = s.d.time.ns + 10 ^ 9 - 8 ∧
        t.d.get R.TIME_PPSIN_SEC_SEC = (s.d.time.sec - 1) % 2 ^ 32) ∧
      t.d.get R.TIME_PPSIN_SHORT_TIME = (s.d.time.short + 2 ^ 32 - 8) % 2 ^ 32 ∧
      RegsBut [R.TIME_PPSIN_NS_NS, R.TIME_PPSIN_SEC_SEC, R.TIME_PPSIN_SHORT_TIME, R.ACC_COND_SRC 4] s.d t.d) ∧
    (s.d.time.ppsSeen = false ∨ s.d.bit R.ACC_COND_SRC 128 = true → Leads .timePpsLoss s s) ∧
    (s.d.time.ppsSeen = true → s.d.bit R.ACC_COND_SRC 128 = false → Gives .timePpsLoss s fun t =>
      t.d.bit R.ACC_COND_SRC 128 = true ∧ Sends s t [reportOf s.d 13 128 0] ∧ RegsBut [R.ACC_COND_SRC 4] s.d t.d ∧
      t = { s with d := { s.d with regs := t.d.regs, hoop := t.d.hoop } }))

/-- A frame at an enabled MAC with its link up is stored, its length, PTP and ERR marks and its corrected ingress stamp
written back, HEAD moves on and RXF is set; over 2000 bytes or without an owned descriptor it is counted lost, the
latter with ETH_RX_LOST; an unusable descriptor ends the ring with ETH_DESC_ERR. A kicked ring's head is stopped on
when not owned, ready when owned, awaited until its launch time, sent late or dropped when that is past. The MAC
starts the highest queue that is ready and whose frame is off the wire before every awaited head above it, with the
frame's bytes, one-step Syncs patched, and the egress stamp; its end writes back the descriptor and examines the next.
A ring's processing touches only the two words of R451 in its descriptors, STATUS and its HEAD. MDIO's fields are
written with every GO; transactions run one at a time and end with data or TIMEOUT. The link follows R452; its loss is
a condition. Nothing else changes, and what is not due does nothing. Clauses that the spec leaves open follow the
model's choices: log entries 18, 60, 120, 121, 122 and 173. (R449, R450, R451, R452, R453, R454, R455, R456, R457) -/
def Obligations.EthernetFramesRingsAndLink : Prop :=
  let base := 0x38010000
  let get (s : State) (a : Nat) : Word := Mem.word s.mem a
  let bit (x : Word) (i : Nat) : Bool := x.toNat.testBit i
  let total (s : State) (corr : Int) : Int := ((s.d.time.sec : Int) * 10 ^ 9 + s.d.time.ns + corr) % (2 ^ 48 * 10 ^ 9)
  let only (s t : State) : Prop :=
    t = { s with d := { s.d with regs := t.d.regs, hoop := t.d.hoop, eths := t.d.eths }, mem := t.mem }
  let inside (off len : Nat) : Prop := off + len ≤ 0x30000
  -- Reception
  (∀ (mac : Fin 2) (frame : List Byte) (bad : Bool) (s : State),
    let m := mac.val
    let c := Instr.ethFrameReceived mac frame bad
    let n := s.d.get (R.ETH_RXQ_LEN_N m)
    let i := s.d.get (R.ETH_RXQ_HEAD_IDX m)
    let a := base + s.d.get (R.ETH_RXQ_BASE_OFF m) / 32 * 32 + 32 * i
    let off := (get s a).toNat
    let size := (get s (a + 4)).toNat % 0x10000
    let on : Prop := s.d.get (R.ETH_CTRL_EN m) = 1 ∧ s.d.get (R.ETH_STATUS_LINK m) = 1
    let lost (t : State) : Prop := t.d.get (R.ETH_RXLOST_COUNT m) = min (s.d.get (R.ETH_RXLOST_COUNT m) + 1) 0xFFFF ∧ only s t ∧
      t.mem = s.mem
    let owned : Prop := n ≠ 0 ∧ (s.d.eth m).rxStopped = false ∧ bit (get s (a + 4)) 31 = true
    let usable : Prop := inside off size ∧ inside (a - base) 32
    let z := total s (BitVec.ofNat 16 (s.d.get (R.ETH_PTPLAT_RX m))).toInt
    (¬on → Leads c s s) ∧
    (on → 2000 < frame.length → Gives c s fun t => lost t ∧ Sends s t [] ∧ RegsBut [R.ETH_RXLOST_COUNT m] s.d t.d) ∧
    (on → frame.length ≤ 2000 →
      (¬owned → Gives c s fun t => lost t ∧ Sends s t [reportOf s.d 11 133 m] ∧ RegsBut [R.ETH_RXLOST_COUNT m] s.d t.d) ∧
      (owned → ¬usable → Gives c s fun t => lost t ∧ (t.d.eth m).rxStopped = true ∧ t.d.get (R.ETH_STATUS_DESC_ERR m) = 1 ∧
        RegsBut [R.ETH_RXLOST_COUNT m, R.ETH_STATUS_DESC_ERR m] s.d t.d ∧
        reportOf s.d 11 134 (8 + 16 * m) ∈ t.d.hoop ∧ reportOf s.d 11 133 m ∈ t.d.hoop) ∧
      (owned → usable → off + size ≤ a - base ∨ a - base + 32 ≤ off → Gives c s fun t => only s t ∧
        (∀ j, j < size → ∀ b, frame[j]? = some b → Mem.rd t.mem (base + off + j) = b) ∧
        (∀ x, (x < base + off ∨ base + off + size ≤ x) → (x < a + 4 ∨ (a + 8 ≤ x ∧ x < a + 12) ∨ a + 28 ≤ x) →
          Mem.rd t.mem x = Mem.rd s.mem x) ∧
        (get t (a + 4)).toNat % 0x10000 = frame.length ∧ bit (get t (a + 4)) 31 = false ∧
        (bit (get t (a + 4)) 17 = true ↔ bad = true ∨ size < frame.length) ∧
        (∀ x y, frame[12]? = some x → frame[13]? = some y → x ≠ 0x81 → (x ≠ 0x08 ∨ y ≠ 0) →
          (bit (get t (a + 4)) 16 = true ↔ x = 0x88 ∧ y = 0xF7)) ∧
        get t (a + 12) = BitVec.ofInt 32 (s.d.time.short + (BitVec.ofNat 16 (s.d.get (R.ETH_PTPLAT_RX m))).toInt) ∧
        ((get t (a + 16)).toNat : Int) = z % 10 ^ 9 ∧ ((get t (a + 20)).toNat : Int) = z / 10 ^ 9 % 2 ^ 32 ∧
        ((get t (a + 24)).toNat : Int) = z / 10 ^ 9 / 2 ^ 32 ∧ t.d.get (R.ETH_STATUS_RXF m) = 1 ∧
        t.d.get (R.ETH_RXQ_HEAD_IDX m) = (if n ≤ i + 1 then 0 else i + 1) ∧
        RegsBut [R.ETH_RXQ_HEAD_IDX m, R.ETH_STATUS_RXF m] s.d t.d))) ∧
  -- Transmission
  (∀ (mac : Fin 2) (q : Fin 8) (s : State),
    let m := mac.val
    let n (k : Nat) : Nat := s.d.get (R.ETH_TXQ_LEN_N m k)
    let a (k : Nat) : Nat := base + s.d.get (R.ETH_TXQ_BASE_OFF m k) / 32 * 32 + 32 * s.d.get (R.ETH_TXQ_HEAD_IDX m k)
    let w1 (k : Nat) : Word := get s (a k + 4)
    let len (k : Nat) : Nat := (w1 k).toNat % 0x10000
    let head (k : Nat) : Option EthHead := (s.d.ethQ m k).head
    let dist (k : Nat) : Nat := (get s (a k + 8) - BitVec.ofNat 32 s.d.time.short).toNat
    let on : Prop := s.d.get (R.ETH_CTRL_EN m) = 1
    let usable : Prop := inside (get s (a q.val)).toNat (len q.val) ∧ inside (a q.val - base) 32
    let kick := Instr.ethTxKick mac q
    let late := reportOf s.d 11 132 (q.val + 8 * m)
    let launch := Instr.ethLaunchTime mac q
    let reached (k : Nat) : Prop := dist k = 0 ∨ 2 ^ 31 ≤ dist k
    let desc (k i : Nat) : Nat := base + s.d.get (R.ETH_TXQ_BASE_OFF m k) / 32 * 32 + 32 * i
    -- outside these words of the ring's descriptors memory stays, and so does every other register
    let ring (t : State) (k : Nat) (full : Bool) : Prop := only s t ∧
      RegsBut [R.ETH_STATUS_TXF m, R.ETH_STATUS_DESC_ERR m, R.ETH_TXQ_HEAD_IDX m k] s.d t.d ∧
      ∀ y, (y < a k + 4 ∨ (a k + 8 ≤ y ∧ y < a k + (if full then 12 else 28)) ∨ a k + 32 ≤ y) →
        (∀ i, i < n k → y < desc k i + 4 ∨ (desc k i + 8 ≤ y ∧ y < desc k i + 28) ∨ desc k i + 32 ≤ y) →
        Mem.rd t.mem y = Mem.rd s.mem y
    let same (t : State) : Prop := only s t ∧ t.mem = s.mem ∧ t.d.regs = s.d.regs ∧ Sends s t []
    let looks (c : Instr) : Prop :=
      (bit (w1 q.val) 31 = false → Gives c s fun t => same t ∧ t.d.ethQ m q.val = ⟨true, none⟩) ∧
      (bit (w1 q.val) 31 = true → ¬usable → Gives c s fun t => only s t ∧ t.mem = s.mem ∧ t.d.ethQ m q.val = ⟨true, none⟩ ∧
        t.d.get (R.ETH_STATUS_DESC_ERR m) = 1 ∧ RegsBut [R.ETH_STATUS_DESC_ERR m] s.d t.d ∧
        reportOf s.d 11 134 (q.val + 16 * m) ∈ t.d.hoop) ∧
      (bit (w1 q.val) 31 = true → usable → bit (w1 q.val) 18 = false ∨ dist q.val < 2 ^ 31 → Gives c s fun t => same t ∧
        t.d.ethQ m q.val = ⟨false, some ⟨!bit (w1 q.val) 18 || dist q.val == 0, false⟩⟩) ∧
      (bit (w1 q.val) 31 = true → usable → bit (w1 q.val) 18 = true → 2 ^ 31 ≤ dist q.val →
        (s.d.get (R.ETH_TXQ_CFG_LATE_POL m q.val) = 0 → Gives c s fun t => only s t ∧ t.mem = s.mem ∧ Sends s t [late] ∧
          t.d.regs = s.d.regs ∧ t.d.ethQ m q.val = ⟨false, some ⟨true, true⟩⟩) ∧
        (s.d.get (R.ETH_TXQ_CFG_LATE_POL m q.val) = 1 → Gives c s fun t => ring t q.val false ∧ late ∈ t.d.hoop ∧
          t.d.get (R.ETH_STATUS_TXF m) = 1 ∧ (get t (a q.val + 28)).toNat = 2 ∧
          (get t (a q.val + 4)).toNat = (w1 q.val).toNat - 2 ^ 31))
    (¬on ∨ n q.val = 0 → Gives kick s fun t => same t) ∧
    (∀ h, head q.val = some h → Gives kick s fun t => same t ∧ t.d.ethQ m q.val = ⟨false, some h⟩) ∧
    (on → n q.val ≠ 0 → head q.val = none → looks kick) ∧
    (on → n q.val ≠ 0 → head q.val = none → (s.d.ethQ m q.val).stopped = false → looks launch) ∧
    (head q.val = none → ¬on ∨ n q.val = 0 ∨ (s.d.ethQ m q.val).stopped = true → Leads launch s s) ∧
    (∀ h, head q.val = some h → (h.ready = true ∨ ¬reached q.val → Leads launch s s) ∧
      (h.ready = false → reached q.val → Gives launch s fun t => same t ∧
        (t.d.ethQ m q.val).head = some { h with ready := true })) ∧
    (let may (k : Nat) : Prop := (∃ h, head k = some h ∧ (h.ready = true ∨ reached k)) ∧ ∀ p, k < p → p < 8 →
        (∃ h, head p = some h ∧ h.ready = false) → ¬reached p → (8 + len k + 12) *
          (if s.d.get (R.ETH_CTRL_SPEED m) = 0 then 800 else if s.d.get (R.ETH_CTRL_SPEED m) = 1 then 80 else 8) ≤ dist p
      let idle : Prop := on ∧ s.d.get (R.ETH_STATUS_LINK m) = 1 ∧ (s.d.eth m).tx = none
      let known : Prop := ∀ k, k < 8 → n k = 0 ∨ (s.d.ethQ m k).stopped = true ∨ head k ≠ none
      let start := Instr.ethTxStart mac
      let woken (t : State) : Prop := t = { s with d := { s.d with eths := t.d.eths } } ∧ ∀ k, k < 8 →
        (head k = none → (t.d.ethQ m k).head = none) ∧
        ∀ h, head k = some h → ∃ w, (t.d.ethQ m k).head = some ⟨w, h.late⟩ ∧ (w = true ↔ h.ready = true ∨ reached k);
      (¬on ∨ (known ∧ (¬idle ∨ ∀ k, k < 8 → ¬may k)) → Gives start s fun t => woken t ∧ (t.d.eth m).tx = (s.d.eth m).tx) ∧
      (known → idle → may q.val → (∀ k, q.val < k → k < 8 → ¬may k) → Gives start s fun t => ∃ x : EthTx,
        woken t ∧ (t.d.eth m).tx = some x ∧ x.q = q.val ∧
        (let corr := (BitVec.ofNat 16 (s.d.get (R.ETH_PTPLAT_TX m))).toInt
          let f := Mem.bytes s.mem (base + (get s (a q.val)).toNat) (len q.val)
          let sync : Prop := f[12]? = some 0x88 ∧ f[13]? = some 0xF7 ∧ (∃ b, f[14]? = some b ∧ b % 16 = 0) ∧
            (∃ b, f[15]? = some b ∧ b % 16 = 2) ∧ ∃ b, f[20]? = some b ∧ b / 2 % 2 = 0;
          ((x.sec * 10 ^ 9 + x.ns : Nat) : Int) = total s corr ∧ x.ns < 10 ^ 9 ∧
          x.short = (BitVec.ofInt 32 (s.d.time.short + corr)).toNat ∧ (∀ h, head q.val = some h → x.late = h.late) ∧
          (bit (w1 q.val) 16 = false → x.frame = f) ∧
          (bit (w1 q.val) 16 = true → sync → x.frame = f.take 48 ++ (List.range 6).map (fun j => x.sec / 256 ^ (5 - j) % 256) ++
            (List.range 4).map (fun j => x.ns / 256 ^ (3 - j) % 256) ++ f.drop 58)))) ∧
    ((s.d.eth m).tx = none → Leads (.ethTxComplete mac) s s) ∧
    (∀ x, (s.d.eth m).tx = some x → x.q = q.val → Gives (.ethTxComplete mac) s fun t => ring t x.q true ∧
      (t.d.eth m).tx = none ∧ t.d.get (R.ETH_STATUS_TXF m) = 1 ∧ (get t (a x.q + 28)).toNat = 4 + b2n x.late ∧
      (get t (a x.q + 4)).toNat = (w1 x.q).toNat % 2 ^ 31 ∧
      (bit (w1 x.q) 16 = true ∨ bit (w1 x.q) 17 = true → get t (a x.q + 12) = BitVec.ofNat 32 x.short ∧
        get t (a x.q + 16) = BitVec.ofNat 32 x.ns ∧ get t (a x.q + 20) = BitVec.ofNat 32 x.sec ∧
        get t (a x.q + 24) = BitVec.ofNat 32 (x.sec / 2 ^ 32)) ∧
      (let i := s.d.get (R.ETH_TXQ_HEAD_IDX m x.q) + 1
        let next := base + s.d.get (R.ETH_TXQ_BASE_OFF m x.q) / 32 * 32 + 32 * (if n x.q ≤ i then 0 else i);
        let w := get s (next + 4)
        (bit w 31 = false → t.d.get (R.ETH_TXQ_HEAD_IDX m x.q) = (if n x.q ≤ i then 0 else i) % 4096 ∧
          ∀ y, (y < a x.q + 4 ∨ (a x.q + 8 ≤ y ∧ y < a x.q + 12) ∨ a x.q + 32 ≤ y) → Mem.rd t.mem y = Mem.rd s.mem y) ∧
        (on → n x.q ≠ 0 → i < 4096 → (s.d.ethQ m x.q).stopped = false → next ≠ a x.q → bit w 31 = true → bit w 18 = false →
          inside (get s next).toNat (w.toNat % 0x10000) → inside (next - base) 32 →
          t.d.get (R.ETH_TXQ_HEAD_IDX m x.q) = (if n x.q ≤ i then 0 else i) ∧ (t.d.ethQ m x.q).head = some ⟨true, false⟩ ∧
          ∀ y, (y < a x.q + 4 ∨ (a x.q + 8 ≤ y ∧ y < a x.q + 12) ∨ a x.q + 32 ≤ y) → Mem.rd t.mem y = Mem.rd s.mem y)))) ∧
  -- MDIO and link
  (∀ (data : BitVec 16) (reg phy : Fin 32) (op : Fin 4) (read : Option (BitVec 16)) (s : State),
    let busy : Prop := s.d.get (R.ETH_MDIO_BUSY 0) = 1
    let frame (t : State) (fs : List Fld) : Prop := RegsBut fs s.d t.d ∧
      t = { s with d := { s.d with regs := t.d.regs, hoop := t.d.hoop } }
    let fields (t : State) : Prop := t.d.get (R.ETH_MDIO_DATA 0) = data.toNat ∧ t.d.get (R.ETH_MDIO_REG 0) = reg.val ∧
      t.d.get (R.ETH_MDIO_PHY 0) = phy.val ∧ t.d.get (R.ETH_MDIO_OP 0) = op.val
    let runs := (s.d.eth 0).mdio
    (¬busy → Leads (.mdioComplete read) s s ∧ Leads .ethMdioTimeout s s) ∧
    (busy → Gives (.mdioGo data reg phy op) s fun t => fields t ∧ Sends s t [] ∧
      frame t [R.ETH_MDIO_DATA 0, R.ETH_MDIO_REG 0, R.ETH_MDIO_PHY 0, R.ETH_MDIO_OP 0]) ∧
    (¬busy → Gives (.mdioGo data reg phy op) s fun t => fields t ∧ t.d.get (R.ETH_MDIO_BUSY 0) = 1 ∧ Sends s t [] ∧
      (t.d.eth 0).mdio = (op.val, phy.val) ∧ only s t ∧ t.mem = s.mem ∧
      RegsBut [R.ETH_MDIO_BUSY 0, R.ETH_MDIO_DATA 0, R.ETH_MDIO_REG 0, R.ETH_MDIO_PHY 0, R.ETH_MDIO_OP 0] s.d t.d) ∧
    (busy → Gives (.mdioComplete read) s fun t => t.d.get (R.ETH_MDIO_BUSY 0) = 0 ∧ Sends s t [] ∧
      t.d.get (R.ETH_MDIO_DATA 0) = (match read with
        | some x => if runs.1 = 1 ∨ runs.1 = 3 then x.toNat else s.d.get (R.ETH_MDIO_DATA 0)
        | none => s.d.get (R.ETH_MDIO_DATA 0)) ∧ frame t [R.ETH_MDIO_BUSY 0, R.ETH_MDIO_DATA 0]) ∧
    (busy → Gives .ethMdioTimeout s fun t => t.d.get (R.ETH_MDIO_BUSY 0) = 0 ∧ t.d.get (R.ETH_MDIO_TIMEOUT 0) = 1 ∧
      Sends s t [reportOf s.d 11 135 runs.2] ∧ frame t [R.ETH_MDIO_BUSY 0, R.ETH_MDIO_TIMEOUT 0])) ∧
  (∀ (mac : Fin 2) (up : Bool) (s : State),
    let m := mac.val
    let cond (d : Dev) : Bool := d.bit R.ACC_COND_SRC (130 + m)
    let link : Prop := (s.d.get R.CLK_STAT_ON_BYP).testBit 0 = false ∧
      (if s.d.get (R.ETH_CTRL_INBAND m) = 1 then up = true else s.d.get (R.ETH_CTRL_LINK m) = 1)
    Gives (.ethLinkChange mac up) s fun t => (t.d.eth m).inband = up ∧ (t.d.get (R.ETH_STATUS_LINK m) = 1 ↔ link) ∧
      (link → cond t.d = false ∧ Sends s t []) ∧
      (¬link → s.d.get (R.ETH_STATUS_LINK m) = 0 → cond t.d = cond s.d ∧ Sends s t []) ∧
      (¬link → s.d.get (R.ETH_STATUS_LINK m) = 1 → cond t.d = true ∧
        Sends s t (if cond s.d then [] else [reportOf s.d 11 (130 + m) 0])) ∧
      RegsBut [R.ETH_STATUS_LINK m, R.ACC_COND_SRC 4] s.d t.d ∧ only s t ∧ t.mem = s.mem)

/-- EN is accepted from M3 with regions inside 64 KiB and apart; else WERR, and for the layout CAN_MRAM_ERR. A received
frame (not in loopback, which hears nothing of the bus) lowers REC, ends ACKRUN and ALONE, and unless DPL takes it or
a remote frame is dropped goes where the first matching gate element, or NOMATCH, sends it: written as R465 lays out
with the stamp of its SOF, or lost from a full inbox. OUT_GO adds pending slots; OUT_ABORT ends those not in
transmission and marks the other. The lowest identifier, then slot, enters arbitration, as FD with FD_EN, with BRS
with BRS_EN, remote as classical. A success sets SENT and writes the receipt asked for, and in loopback the frame is
received; a failure is retried or ends as aborted; ack errors count in ACKRUN, 16 set ALONE; TEC and REC follow ISO
11898-1, WARNING at 96, PASSIVE at 128, bus-off above 255. RECOVER, rejoin, INk_DONE and RCPT_DONE act as their rules
say; what does not apply changes nothing. Clauses that the spec leaves open follow the model's choices: log entries
18, 44, 123, 124, 171 and 172. (R461, R463, R464, R465, R467, R468, R469, R470, R471, R472, R473, R488) -/
def Obligations.CanGatesSendsAndCountsErrors : Prop :=
  let base := 0x38000000
  let dlc (x : Nat) : Nat := ([0, 1, 2, 3, 4, 5, 6, 7, 8, 12, 16, 20, 24, 32, 48, 64][x]?).getD 64
  let room (x : Nat) : Nat := ([8, 12, 16, 20, 24, 32, 48, 64][x]?).getD 64
  let len (f : CanFrame) : Nat := if f.rtr then 0 else if f.fdf then dlc f.dlc.val else min f.dlc.val 8
  let head (f : CanFrame) : Word := BitVec.ofNat 32 (b2n f.xtd + 2 * b2n f.rtr + 4 * b2n f.esi +
    (if f.xtd then f.id * 2 ^ 3 else f.id * 2 ^ 21))
  let on (s : State) (n : Nat) : Prop := s.d.get (R.CAN_CTRL_EN n) = 1 ∧ s.d.get (R.CAN_STATUS_BUSOFF n) = 0 ∧
    (s.d.can n).off = false
  let wait (s : State) (n b : Nat) : Bool := (s.d.get (R.CAN_OUT_WAIT_SLOTS n)).testBit b
  let out (s : State) (n b : Nat) : Nat := base + s.d.get (R.CAN_LAY_OUT_OFF n) / 4 * 4 + b * (12 + room (s.d.get (R.CAN_LAY_OUT_SIZE n)))
  let counts (s t : State) (n tec rec : Nat) : Prop := t.d.get (R.CAN_ERRCNT_TEC n) = tec ∧ t.d.get (R.CAN_ERRCNT_REC n) = rec ∧
    (t.d.get (R.CAN_ERRCNT_RXPASSIVE n) = 1 ↔ 128 ≤ rec) ∧ (t.d.get (R.CAN_STATUS_WARNING n) = 1 ↔ 96 ≤ tec ∨ 96 ≤ rec) ∧
    (t.d.get (R.CAN_STATUS_PASSIVE n) = 1 ↔ 128 ≤ tec ∨ 128 ≤ rec) ∧
    (s.d.get (R.CAN_STATUS_PASSIVE n) = 0 → t.d.get (R.CAN_STATUS_PASSIVE n) = 1 → reportOf s.d 12 144 n ∈ t.d.hoop) ∧
    (255 < tec → t.d.get (R.CAN_STATUS_BUSOFF n) = 1 ∧
      (s.d.get (R.CAN_STATUS_BUSOFF n) = 0 → t.d.bit R.ACC_COND_SRC (136 + n) = true ∧ (t.d.can n).tx = none)) ∧
    (tec ≤ 255 → t.d.get (R.CAN_STATUS_BUSOFF n) = s.d.get (R.CAN_STATUS_BUSOFF n))
  let tec (s : State) (n : Nat) : Nat := s.d.get (R.CAN_ERRCNT_TEC n)
  let rec' (s : State) (n : Nat) : Nat := s.d.get (R.CAN_ERRCNT_REC n)
  let heard (t : State) (n : Nat) : Prop := t.d.get (R.CAN_ACKRUN_RUN n) = 0 ∧ t.d.get (R.CAN_STATUS_ALONE n) = 0 ∧
    t.d.bit R.ACC_COND_SRC (140 + n) = false
  -- Enable, recovery, rejoining, and the reads of the queues
  (∀ (bus : Fin 4) (s : State),
    let n := bus.val
    let regions (k : Nat) : List (Nat × Nat) := [(s.d.get (R.CAN_LAY_GB_OFF k), 4 * s.d.get (R.CAN_LAY_GB_COUNT k)),
      (s.d.get (R.CAN_LAY_GX_OFF k), 8 * s.d.get (R.CAN_LAY_GX_COUNT k))] ++
      (([0, 1] : List Nat).map fun j => (s.d.get (R.CAN_LAY_IN_OFF k j),
        s.d.get (R.CAN_LAY_IN_COUNT k j) * (12 + room (s.d.get (R.CAN_LAY_IN_SIZE k j))))) ++
      [(s.d.get (R.CAN_LAY_OUT_OFF k), s.d.get (R.CAN_LAY_OUT_COUNT k) * (12 + room (s.d.get (R.CAN_LAY_OUT_SIZE k)))),
      (s.d.get (R.CAN_LAY_RCPT_OFF k), 12 * s.d.get (R.CAN_LAY_RCPT_COUNT k))]
    let all := ((List.range 4).filter fun k => k == n || s.d.get (R.CAN_CTRL_EN k) == 1).flatMap regions
    let fits : Prop := (∀ r ∈ all, r.1 + r.2 ≤ 0x10000) ∧
      all.Pairwise fun x y => x.2 = 0 ∨ y.2 = 0 ∨ x.1 + x.2 ≤ y.1 ∨ y.1 + y.2 ≤ x.1
    let refused (c : Instr) (more : List HEntry) : Prop := Gives c s fun t => t.d.get (R.CAN_STATUS_WERR n) = 1 ∧
      RegsBut [R.CAN_STATUS_WERR n] s.d t.d ∧ (∀ e ∈ more, e ∈ t.d.hoop) ∧
      t = { s with d := { s.d with regs := t.d.regs, hoop := t.d.hoop } }
    let off : Prop := s.d.get (R.CAN_CTRL_EN n) = 0
    let held (count level take idx freed : Nat) : Prop := idx < count ∧ freed ≤ level ∧ (take + freed) % count = (idx + 1) % count ∧
      1 ≤ freed ∧ freed ≤ count
    (¬off → Leads (.canEnable bus) s s) ∧ (off → s.d.mode < 3 → refused (.canEnable bus) []) ∧
    (off → 3 ≤ s.d.mode → ¬fits → refused (.canEnable bus) [reportOf s.d 12 146 n]) ∧
    (off → 3 ≤ s.d.mode → fits → Gives (.canEnable bus) s fun t => t.d.get (R.CAN_CTRL_EN n) = 1 ∧
      RegsBut [R.CAN_CTRL_EN n] s.d t.d ∧ (t.d.can n).tx = none ∧
      t = { s with d := { s.d with regs := t.d.regs, cans := t.d.cans } }) ∧
    (∀ key : BitVec 16, (key ≠ 0xA5C3 → Leads (.canRecover bus key) s s) ∧
      (key = 0xA5C3 → s.d.get (R.CAN_STATUS_BUSOFF n) = 0 → refused (.canRecover bus key) []) ∧
      (key = 0xA5C3 → s.d.get (R.CAN_STATUS_BUSOFF n) = 1 → Gives (.canRecover bus key) s fun t =>
        (t.d.can n).recovering = true ∧ t = { s with d := { s.d with cans := t.d.cans } })) ∧
    ((s.d.can n).recovering = false → Leads (.canRecoveryComplete bus) s s) ∧
    ((s.d.can n).recovering = true → Gives (.canRecoveryComplete bus) s fun t => tec t n = 0 ∧ rec' t n = 0 ∧
      t.d.get (R.CAN_STATUS_BUSOFF n) = 0 ∧ t.d.bit R.ACC_COND_SRC (136 + n) = false ∧ (t.d.can n).recovering = false ∧
      t.d.get (R.CAN_OUT_WAIT_SLOTS n) = s.d.get (R.CAN_OUT_WAIT_SLOTS n) ∧ t.mem = s.mem) ∧
    ((s.d.get R.CLK_STAT_ON_BYP).testBit 0 = true → Leads (.canRejoin bus) s s) ∧
    ((s.d.get R.CLK_STAT_ON_BYP).testBit 0 = false → Gives (.canRejoin bus) s fun t => (t.d.can n).off = false ∧
      (t.d.can n).tx = (s.d.can n).tx ∧ t = { s with d := { s.d with cans := t.d.cans } }) ∧
    (∀ (inbox : Fin 2) (idx : BitVec 6) (freed : Nat),
      let k := inbox.val
      let count := s.d.get (R.CAN_LAY_IN_COUNT n k)
      let take := s.d.get (R.CAN_IN_STAT_TAKE n k)
      take < count → 1 ≤ freed → freed ≤ count → (take + freed) % count = (idx.toNat + 1) % count →
      (¬held count (s.d.get (R.CAN_IN_STAT_LEVEL n k)) take idx.toNat freed → Leads (.inboxDone bus inbox idx) s s) ∧
      (held count (s.d.get (R.CAN_IN_STAT_LEVEL n k)) take idx.toNat freed → Gives (.inboxDone bus inbox idx) s fun t =>
        t.d.get (R.CAN_IN_STAT_TAKE n k) = (idx.toNat + 1) % count % 64 ∧
        t.d.get (R.CAN_IN_STAT_LEVEL n k) = s.d.get (R.CAN_IN_STAT_LEVEL n k) - freed ∧ t.d.get (R.CAN_IN_STAT_FULL n k) = 0 ∧
        k ∉ (t.d.can n).lost ∧ RegsBut [R.CAN_IN_STAT_TAKE n k, R.CAN_IN_STAT_LEVEL n k, R.CAN_IN_STAT_FULL n k] s.d t.d ∧
        t = { s with d := { s.d with regs := t.d.regs, cans := t.d.cans } })) ∧
    (∀ (idx : BitVec 5) (freed : Nat),
      let count := s.d.get (R.CAN_LAY_RCPT_COUNT n)
      let take := s.d.get (R.CAN_RCPT_STAT_TAKE n)
      take < count → 1 ≤ freed → freed ≤ count → (take + freed) % count = (idx.toNat + 1) % count →
      (¬held count (s.d.get (R.CAN_RCPT_STAT_LEVEL n)) take idx.toNat freed → Leads (.receiptDone bus idx) s s) ∧
      (held count (s.d.get (R.CAN_RCPT_STAT_LEVEL n)) take idx.toNat freed → Gives (.receiptDone bus idx) s fun t =>
        t.d.get (R.CAN_RCPT_STAT_TAKE n) = (idx.toNat + 1) % count % 32 ∧
        t.d.get (R.CAN_RCPT_STAT_LEVEL n) = s.d.get (R.CAN_RCPT_STAT_LEVEL n) - freed ∧
        RegsBut [R.CAN_RCPT_STAT_TAKE n, R.CAN_RCPT_STAT_LEVEL n] s.d t.d ∧
        t = { s with d := { s.d with regs := t.d.regs } }))) ∧
  -- Reception
  (∀ (bus : Fin 4) (code : Fin 8) (eights : Nat) (s : State),
    (¬on s bus.val → Leads (.canRxError bus code eights) s s) ∧
    (on s bus.val → Gives (.canRxError bus code eights) s fun t => t.d.get (R.CAN_STATUS_LASTERR bus.val) = code.val ∧ t.mem = s.mem ∧
      counts s t bus.val (tec s bus.val) (min 255 (rec' s bus.val + 1 + 8 * eights)))) ∧
  (∀ (bus : Fin 4) (f : CanFrame) (sof : Word) (s : State), f.id < (if f.xtd then 2 ^ 29 else 2 ^ 11) →
    let n := bus.val
    let c := Instr.canFrameReceived bus ⟨f, sof⟩
    let assist : Prop := s.d.get R.DPL_CFG_EN = 1 ∧ s.d.get R.DPL_CFG_BUS = n ∧ f.fdf = true ∧ f.xtd = true ∧ f.id % 256 = 0xD5
    let taken : Prop := on s n ∧ s.d.get (R.CAN_CTRL_MODE n) ≠ 2 ∧ s.d.padOff (53 + 2 * n) = false ∧
      (f.fdf = true → s.d.get (R.CAN_CTRL_FD_EN n) = 1)
    let good (t : State) : Prop := heard t n ∧ tec t n = tec s n ∧ (rec' s n ≤ 127 → rec' t n = rec' s n - 1) ∧
      (127 < rec' s n → 119 ≤ rec' t n ∧ rec' t n ≤ 127)
    let dropped : Prop := Gives c s fun t => good t ∧ t.mem = s.mem ∧
      ∀ k, k < 2 → t.d.get (R.CAN_IN_STAT_LEVEL n k) = s.d.get (R.CAN_IN_STAT_LEVEL n k) ∧
        t.d.get (R.CAN_IN_STAT_LOST n k) = s.d.get (R.CAN_IN_STAT_LOST n k)
    let stored (k : Nat) (gate : Option Nat) : Prop :=
      let count := s.d.get (R.CAN_LAY_IN_COUNT n k)
      let level := s.d.get (R.CAN_IN_STAT_LEVEL n k)
      let size := room (s.d.get (R.CAN_LAY_IN_SIZE n k))
      let a := base + s.d.get (R.CAN_LAY_IN_OFF n k) / 4 * 4 + (s.d.get (R.CAN_IN_STAT_TAKE n k) + level) % count * (12 + size)
      (count ≤ level → Gives c s fun t => good t ∧ t.mem = s.mem ∧ t.d.get (R.CAN_STATUS_LOST n) = 1 ∧
        t.d.get (R.CAN_IN_STAT_LOST n k) = min (s.d.get (R.CAN_IN_STAT_LOST n k) + 1) 0xFF ∧
        (k ∉ (s.d.can n).lost → reportOf s.d 12 145 (n + 4 * k) ∈ t.d.hoop ∧ k ∈ (t.d.can n).lost)) ∧
      (level < count → Gives c s fun t => good t ∧ t.d.get (R.CAN_IN_STAT_LEVEL n k) = level + 1 ∧
        (t.d.get (R.CAN_IN_STAT_FULL n k) = 1 ↔ count = level + 1) ∧
        t.d.get (if k = 0 then R.CAN_STATUS_IN0 n else R.CAN_STATUS_IN1 n) = 1 ∧
        Mem.word t.mem a = head f ∧ Mem.word t.mem (a + 8) = sof ∧
        Mem.word t.mem (a + 4) = BitVec.ofNat 32 (f.dlc.val + 16 * b2n f.fdf + 32 * b2n f.brs + (if size < len f then 64 else 0) +
          (match gate with | some i => i * 2 ^ 8 | none => 2 ^ 15)) ∧
        (∀ j, j < min (len f) size → ∀ b, f.data[j]? = some b → Mem.rd t.mem (a + 12 + j) = b) ∧
        (∀ x, x < a ∨ a + 12 + min (len f) size ≤ x → Mem.rd t.mem x = Mem.rd s.mem x))
    let goes (to' : Nat) (gate : Option Nat) : Prop :=
      (to' = 0 → stored 0 gate) ∧ (to' = 1 → stored 1 gate) ∧ (2 ≤ to' → dropped)
    let drop : Prop := f.rtr = true ∧ s.d.get (if f.xtd then R.CAN_NOMATCH_RTR_DROP_X n else R.CAN_NOMATCH_RTR_DROP_B n) = 1
    let count := if f.xtd then s.d.get (R.CAN_LAY_GX_COUNT n) else s.d.get (R.CAN_LAY_GB_COUNT n)
    let w (i j : Nat) : Nat := (Mem.word s.mem (base + (if f.xtd then s.d.get (R.CAN_LAY_GX_OFF n) / 4 * 4 + 8 * i + 4 * j
      else s.d.get (R.CAN_LAY_GB_OFF n) / 4 * 4 + 4 * i))).toNat
    let low (i : Nat) : Nat := if f.xtd then w i 0 % 2 ^ 29 else w i 0 % 2 ^ 11
    let high (i : Nat) : Nat := if f.xtd then w i 1 % 2 ^ 29 else w i 0 / 2 ^ 11 % 2 ^ 11
    let how (i : Nat) : Nat := if f.xtd then w i 1 / 2 ^ 29 % 4 else w i 0 / 2 ^ 22 % 4
    let to' (i : Nat) : Nat := if f.xtd then w i 0 / 2 ^ 29 % 8 else w i 0 / 2 ^ 24 % 8
    let fit (i : Nat) : Prop := i < count ∧ 1 ≤ to' i ∧ to' i ≤ 3 ∧ ((how i = 0 ∧ low i ≤ f.id ∧ f.id ≤ high i) ∨
      (how i = 1 ∧ (f.id = low i ∨ f.id = high i)) ∨ (how i = 2 ∧ (f.id ^^^ low i) &&& high i = 0))
    (¬taken → Leads c s s) ∧
    (taken → ¬assist → (drop → dropped) ∧
      (∀ i, ¬drop → fit i → (∀ j, j < i → ¬fit j) → goes (to' i - 1) (some i)) ∧
      (¬drop → (∀ i, ¬fit i) → goes (s.d.get (if f.xtd then R.CAN_NOMATCH_EXT_TO n else R.CAN_NOMATCH_BASE_TO n)) none))) ∧
  -- Transmission
  (∀ (bus : Fin 4) (slots : Word) (s : State),
    let n := bus.val
    let tx := (s.d.can n).tx
    let rank (b : Nat) : Nat :=
      let f := s.outFrame n b
      if f.xtd then f.id else f.id * 2 ^ 18
    let enter := Instr.canArbitrationEntry bus
    let noBeat : Prop := s.d.get R.DPL_CFG_EN = 0 ∨ s.d.get R.DPL_CFG_BUS ≠ n ∨ s.d.dpl.hb = none ∨ s.d.get (R.CAN_CTRL_FD_EN n) = 0
    (∀ b, let f := s.outFrame n b
      let w0 := (Mem.word s.mem (out s n b)).toNat
      let w1 := (Mem.word s.mem (out s n b + 4)).toNat
      f.fdf = (w1.testBit 4 && s.d.isSet (R.CAN_CTRL_FD_EN n)) ∧ f.brs = (w1.testBit 5 && f.fdf && s.d.isSet (R.CAN_CTRL_BRS_EN n)) ∧
        f.rtr = (w0.testBit 1 && !f.fdf) ∧ f.xtd = w0.testBit 0 ∧ f.dlc.val = w1 % 16 ∧
        f.id = (if w0.testBit 0 then w0 / 2 ^ 3 % 2 ^ 29 else w0 / 2 ^ 21 % 2 ^ 11)) ∧
    (Gives (.canTxRequest bus slots) s fun t => RegsBut [R.CAN_OUT_WAIT_SLOTS n] s.d t.d ∧
      (∀ b, b < 32 → wait t n b = (wait s n b || (slots.toNat.testBit b && decide (b < s.d.get (R.CAN_LAY_OUT_COUNT n))))) ∧
      t = { s with d := { s.d with regs := t.d.regs } }) ∧
    (Gives (.canTxAbort bus slots) s fun t => t.mem = s.mem ∧ RegsBut [R.CAN_OUT_WAIT_SLOTS n, R.CAN_OUT_ABORTED_SLOTS n] s.d t.d ∧
      ∀ b, b < 32 → let hit := slots.toNat.testBit b && wait s n b;
        (∀ x, tx = some x → x.slot = b → wait t n b = wait s n b ∧ (hit = true → (t.d.can n).tx = some { x with abort := true })) ∧
        ((∀ x, tx = some x → x.slot ≠ b) → wait t n b = (wait s n b && !hit) ∧
          (t.d.get (R.CAN_OUT_ABORTED_SLOTS n)).testBit b = ((s.d.get (R.CAN_OUT_ABORTED_SLOTS n)).testBit b || hit))) ∧
    (¬on s n ∨ s.d.get (R.CAN_CTRL_MODE n) = 1 ∨ tx ≠ none → Leads enter s s) ∧
    (noBeat → (∀ b, b < 32 → wait s n b = false) → Leads enter s s) ∧
    (∀ b, on s n → s.d.get (R.CAN_CTRL_MODE n) ≠ 1 → tx = none → noBeat → b < 32 → wait s n b = true →
      (∀ x, x < 32 → wait s n x = true → rank b < rank x ∨ (rank b = rank x ∧ b ≤ x)) →
      (Mem.word s.mem (out s n b + 8)).toNat % 2 = 0 → Gives enter s fun t =>
        (t.d.can n).tx = some ⟨b, false, BitVec.ofNat 32 s.d.time.short, s.outFrame n b⟩ ∧
        t = { s with d := { s.d with cans := t.d.cans } })) ∧
  (∀ (bus : Fin 4) (res : TxEnd) (s : State),
    let n := bus.val
    let c := Instr.canTxAttemptEnd bus res
    ((s.d.can n).tx = none → Leads c s s) ∧
    (∀ x, (s.d.can n).tx = some x → x.slot < 32 → x.slot ∉ (s.d.can n).prepared → tec s n ≤ 255 →
      let b := x.slot
      let a := out s n b
      let fails (t : State) : Prop := (t.d.can n).tx = none ∧ t.mem = s.mem ∧
        (x.abort = true → wait t n b = false ∧ (t.d.get (R.CAN_OUT_ABORTED_SLOTS n)).testBit b = true) ∧
        (x.abort = false → wait t n b = wait s n b ∧
          t.d.get (R.CAN_OUT_ABORTED_SLOTS n) = s.d.get (R.CAN_OUT_ABORTED_SLOTS n))
      let asked : Prop := (Mem.word s.mem (a + 4)).toNat.testBit 6 = true
      let level := s.d.get (R.CAN_RCPT_STAT_LEVEL n)
      let count := s.d.get (R.CAN_LAY_RCPT_COUNT n)
      let r := base + s.d.get (R.CAN_LAY_RCPT_OFF n) / 4 * 4 + 12 * ((s.d.get (R.CAN_RCPT_STAT_TAKE n) + level) % count)
      (res = .success → Gives c s fun t => (t.d.can n).tx = none ∧ heard t n ∧ tec t n = tec s n - 1 ∧ rec' t n = rec' s n ∧
        wait t n b = false ∧ (t.d.get (R.CAN_OUT_SENT_SLOTS n)).testBit b = true ∧ t.d.get (R.CAN_STATUS_SENT n) = 1 ∧
        t.d.get (R.CAN_OUT_ABORTED_SLOTS n) = s.d.get (R.CAN_OUT_ABORTED_SLOTS n) ∧
        (let loops : Prop := s.d.get (R.CAN_CTRL_MODE n) = 2
         (¬loops → ¬asked → t.mem = s.mem) ∧ (¬loops → asked → count ≤ level → t.mem = s.mem ∧
          t.d.get (R.CAN_RCPT_STAT_LOST n) = min (s.d.get (R.CAN_RCPT_STAT_LOST n) + 1) 0xFF) ∧
        (¬loops → asked → level < count → t.d.get (R.CAN_RCPT_STAT_LEVEL n) = level + 1 ∧ Mem.word t.mem r = Mem.word s.mem a ∧
          (let w := (Mem.word s.mem (a + 4)).toNat;
            Mem.word t.mem (r + 4) = BitVec.ofNat 32 (w % 64 + w / 256 % 256 * 256 + b * 2 ^ 16)) ∧ Mem.word t.mem (r + 8) = x.sof ∧
          ∀ y, y < r ∨ r + 12 ≤ y → Mem.rd t.mem y = Mem.rd s.mem y) ∧
         (loops → ¬asked → s.d.dplTakes n x.frame = false → x.frame.rtr = false →
          (if x.frame.xtd then s.d.get (R.CAN_LAY_GX_COUNT n) else s.d.get (R.CAN_LAY_GB_COUNT n)) = 0 →
          ∀ k, k < 2 → (if x.frame.xtd then s.d.get (R.CAN_NOMATCH_EXT_TO n) else s.d.get (R.CAN_NOMATCH_BASE_TO n)) = k →
            let full := s.d.get (R.CAN_LAY_IN_COUNT n k)
            let has := s.d.get (R.CAN_IN_STAT_LEVEL n k)
            has < full → t.d.get (R.CAN_IN_STAT_LEVEL n k) = has + 1 ∧
              Mem.word t.mem (base + s.d.get (R.CAN_LAY_IN_OFF n k) / 4 * 4 + (s.d.get (R.CAN_IN_STAT_TAKE n k) + has) % full *
                (12 + room (s.d.get (R.CAN_LAY_IN_SIZE n k))) + 8) = x.sof))) ∧
      (let steps (k : Nat) : Nat := min (tec s n + 8 * k) (tec s n + 8 * ((255 - tec s n) / 8 + 1))
      (res = .lostArb → Gives c s fun t => fails t ∧ tec t n = tec s n ∧ rec' t n = rec' s n) ∧
      (∀ dom eights, res = .ackErr dom eights → Gives c s fun t => fails t ∧ t.d.get (R.CAN_STATUS_LASTERR n) = 1 ∧
        t.d.get (R.CAN_ACKRUN_RUN n) = min (s.d.get (R.CAN_ACKRUN_RUN n) + 1) 255 ∧
        (15 ≤ s.d.get (R.CAN_ACKRUN_RUN n) → t.d.get (R.CAN_STATUS_ALONE n) = 1 ∧ t.d.bit R.ACC_COND_SRC (140 + n) = true) ∧
        counts s t n (steps ((if s.d.get (R.CAN_STATUS_PASSIVE n) = 1 ∧ dom = false then 0 else 1) + eights)) (rec' s n)) ∧
      (∀ code exempt eights, res = .err code exempt eights → Gives c s fun t => fails t ∧ t.d.get (R.CAN_STATUS_LASTERR n) = code.val ∧
        counts s t n (steps ((if exempt then 0 else 1) + eights)) (rec' s n)))))

/-- A frame of the assist on its controller (by whichever reception command) passes the checks of R479 in order and ends
at the first failure with that check's counter or source, its memory untouched: other destination, form, tag, own
node, entry, freshness, token, peer state. A passed one sets the freshness and uses a token; a message to store goes
to the inbox CFG.INBOX names; a heartbeat sets the entry's MODE, STATE, Colophon and version and makes it UP or
INCOMPATIBLE, taking the lowest FREE entry for a new node. A timeout makes an UP entry LOST; each refill adds RATE up
to BURST; FREE empties an entry; a write of PEERk_CTRL takes RATE and BURST and, of a FREE entry, NODE and LOCK; a key
word goes to the idle slot, else WERR. Enabling makes a heartbeat due; a due one replaces a pending one, counted. An
element with W2.DPL enters filled with SRC, marker, VERSION, KSEL, FRESH and TAG, TXFRESH going up, or is refused.
Clauses that the spec leaves open follow the model's choices: log entries 18, 44, 61, 124, 125, 126, 127, 128, 147 and
171. (R474, R475, R476, R477, R479, R481, R482, R483, R484, R485) -/
def Obligations.PeerLinkChecksTablesAndSends : Prop :=
  let state (d : Dev) (k : Nat) : Nat := d.get (R.DPL_PEER_STAT_STATE k)
  let node (d : Dev) (k : Nat) : Nat := d.get (R.DPL_PEER_CTRL_NODE k)
  let be (l : List Nat) (i n : Nat) : Nat := ((l.drop i).take n).foldl (fun a b => 256 * a + b) 0
  let bytes (n x : Nat) : List Nat := (List.range n).map fun i => x / 256 ^ (n - 1 - i) % 256
  let tag (d : Dev) (slot id dlc : Nat) (body : List Nat) : List Nat :=
    (Crypto.cmac (d.dplKey slot) (bytes 4 id ++ [dlc] ++ body)).take 8
  let dlc (x : Nat) : Nat := ([0, 1, 2, 3, 4, 5, 6, 7, 8, 12, 16, 20, 24, 32, 48, 64][x]?).getD 64
  let bus (s : State) : Nat := s.d.get R.DPL_CFG_BUS
  -- Reception
  (∀ (f : CanFrame) (sof : Word) (s : State) (c : Instr),
    let n := bus s
    (∀ b : Fin 4, b.val = n → exec (.canFrameReceived b ⟨f, sof⟩) s = exec (.dplFrameReceived ⟨f, sof⟩) s) ∧ (
    c = .dplFrameReceived ⟨f, sof⟩ ∨ (∃ b : Fin 4, b.val = n ∧ c = .canFrameReceived b ⟨f, sof⟩) →
    let taken : Prop := s.d.get (R.CAN_CTRL_EN n) = 1 ∧ s.d.get (R.CAN_STATUS_BUSOFF n) = 0 ∧ (s.d.can n).off = false ∧
      s.d.get (R.CAN_CTRL_MODE n) ≠ 2 ∧ s.d.padOff (53 + 2 * n) = false ∧ (f.fdf = true → s.d.get (R.CAN_CTRL_FD_EN n) = 1)
    let data := f.data.map fun b => b.toNat
    let len := dlc f.dlc.val
    let ty := f.id / 2 ^ 24 % 32
    let src := f.id / 2 ^ 16 % 256
    let dst := f.id / 2 ^ 8 % 256
    let own := s.d.get R.DPL_NODE_ID
    let ver := data.getD 0 0
    let formed : Prop := 16 ≤ len ∧ 1 ≤ ver ∧ ver ≤ 3 ∧ data.getD 1 0 / 2 = 0 ∧ ((ty = 2 ∧ len = 24) ∨ (ty = 4 ∧ len = 32) ∨
      (ty = 8 ∧ len = if ver = 3 then 48 else 32) ∨ ty = 0x0C ∨ ty = 0x0D ∨ 0x10 ≤ ty)
    let slot := data.getD 1 0 % 2
    let genuine : Prop := (s.d.get R.DPL_KEYSTAT_VALID).testBit slot = true ∧
      tag s.d slot f.id f.dlc.val (data.take (len - 8)) = (data.drop (len - 8)).take 8
    let strict : Prop := s.d.get R.DPL_CFG_ALLOWLIST = 1
    let known (k : Nat) : Prop := k < 32 ∧ state s.d k ≠ 0 ∧ node s.d k = src ∧
      ∀ j, j < k → state s.d j = 0 ∨ node s.d j ≠ src
    let unknown : Prop := ∀ k, k < 32 → state s.d k = 0 ∨ node s.d k ≠ src
    let fresh := be data 2 4
    let new (k : Nat) : Prop := match (s.d.peer k).fresh with | some x => x < fresh | none => True
    let late : Prop := ty = 8 ∧ s.d.get R.DPL_CFG_TIMECHK = 1 ∧
      (let x := (be data 18 4 + 2 ^ 32 - s.d.time.sec % 2 ^ 32) % 2 ^ 32; 2 < x ∧ x < 2 ^ 32 - 2)
    let counted (t : State) (g : Fld) : Prop := t.d.get g = min (s.d.get g + 1) 0xFF
    let ends (P : State → Prop) : Prop := Gives c s fun t => P t ∧ t.mem = s.mem ∧ t.d.dpl = s.d.dpl
    let used (t : State) (k : Nat) : Prop := (t.d.peer k).fresh = some fresh ∧ (t.d.peer k).tokens = (s.d.peer k).tokens - 1
    let bad (t : State) : Prop := counted t R.DPL_CNT2_MALFORMED ∧ reportOf s.d 12 154 (src + ty * 2 ^ 8) ∈ t.d.hoop
    let vmax := s.d.get R.DPL_VER_VMAX
    let agreed := min vmax (data.getD 17 0)
    (¬taken → Leads c s s) ∧
    (taken → s.d.get R.DPL_CFG_EN = 1 → f.fdf = true → f.rtr = false → f.xtd = true → f.id % 256 = 0xD5 → data.length = len →
      (dst ≠ own → dst ≠ 0xFF → ends fun t => counted t R.DPL_CNT_NOT_MINE) ∧
      (dst = own ∨ dst = 0xFF →
        (¬formed → ends bad) ∧
        (formed → ¬genuine → ends fun t => counted t R.DPL_CNT_TAGFAIL ∧ reportOf s.d 12 147 (src + ty * 2 ^ 8) ∈ t.d.hoop) ∧
        (formed → genuine → src = own → ends fun t => reportOf s.d 12 156 own ∈ t.d.hoop) ∧
        (formed → genuine → src ≠ own →
          (unknown → ty ≠ 8 → ends fun t => counted t R.DPL_CNT2_UNKNOWN) ∧
          (unknown → ty = 8 → strict ∨ (∀ k, k < 32 → state s.d k ≠ 0) → ends fun t => reportOf s.d 12 153 src ∈ t.d.hoop) ∧
          (∀ k, known k → (ty = 8 → strict → s.d.get (R.DPL_PEER_CTRL_LOCK k) = 1) →
            (¬new k → ends fun t => counted t R.DPL_CNT_REPLAY ∧ reportOf s.d 12 148 src ∈ t.d.hoop) ∧
            (new k → late → ends fun t => counted t R.DPL_CNT_REPLAY ∧ reportOf s.d 12 148 (src + 2 ^ 8) ∈ t.d.hoop) ∧
            (new k → ¬late → (s.d.peer k).tokens = 0 → Gives c s fun t => counted t R.DPL_CNT_RATED ∧ used t k ∧ t.mem = s.mem ∧
              ((s.d.peer k).rated = false → reportOf s.d 12 149 src ∈ t.d.hoop)) ∧
            (new k → ¬late → (s.d.peer k).tokens ≠ 0 → ty ≠ 8 →
              let up : Prop := state s.d k = 1 ∧ (if ty = 0x0C ∨ ty = 0x0D then 2 else 1) ≤ s.d.get (R.DPL_PEER_STAT_VER k)
              let box := s.d.get R.DPL_CFG_INBOX
              let level := s.d.get (R.CAN_IN_STAT_LEVEL n box)
              let size := ([8, 12, 16, 20, 24, 32, 48, 64][s.d.get (R.CAN_LAY_IN_SIZE n box)]?).getD 64
              let a := 0x38000000 + s.d.get (R.CAN_LAY_IN_OFF n box) / 4 * 4 +
                (s.d.get (R.CAN_IN_STAT_TAKE n box) + level) % s.d.get (R.CAN_LAY_IN_COUNT n box) * (12 + size);
              (¬up → Gives c s fun t => bad t ∧ used t k ∧ t.mem = s.mem) ∧
              (up → ty ≠ 2 → level < s.d.get (R.CAN_LAY_IN_COUNT n box) → Gives c s fun t => used t k ∧
                t.d.get (R.CAN_IN_STAT_LEVEL n box) = level + 1 ∧ Mem.word t.mem (a + 8) = sof ∧
                (∀ j, j < min len size → ∀ b, f.data[j]? = some b → Mem.rd t.mem (a + 12 + j) = b) ∧
                ∀ x, x < a ∨ a + 12 + min len size ≤ x → Mem.rd t.mem x = Mem.rd s.mem x) ∧
              (up → ty = 2 → s.d.get R.DPL_CFG_ARM_EN = 0 → Gives c s fun t => used t k ∧ t.mem = s.mem ∧ t.d.arch = s.d.arch) ∧
              (up → ty = 2 → s.d.get R.DPL_CFG_ARM_EN = 1 → s.d.time.sec * 10 ^ 9 + s.d.time.ns <
                (s.d.time.sec / 2 ^ 32 * 2 ^ 32 + be data 8 4) * 10 ^ 9 + be data 12 4 → Gives c s fun t => used t k ∧ t.mem = s.mem ∧
                  (be data 6 2, s.d.time.sec / 2 ^ 32 * 2 ^ 32 + be data 8 4, be data 12 4) ∈ t.d.arch.due)) ∧
            (new k → ¬late → (s.d.peer k).tokens ≠ 0 → ty = 8 → Gives c s fun t => used t k ∧
              (t.d.peer k).period = be data 22 2 ∧ t.d.get (R.DPL_PEER_STAT_MODE k) = data.getD 14 0 % 16 ∧
              t.d.get (R.DPL_PEER_STAT_PSTATE k) = data.getD 15 0 ∧ t.d.get (R.DPL_PEER_STAT_VER k) = agreed ∧
              t.d.get (R.DPL_PEER_COLO_HI_VAL k) = be data 6 4 ∧ t.d.get (R.DPL_PEER_COLO_LO_VAL k) = be data 10 4 ∧
              state t.d k = (if agreed < max (s.d.get R.DPL_VER_VMIN) (data.getD 16 0) then 3 else 1))) ∧
          (∀ k, unknown → ty = 8 → ¬strict → ¬late → k < 32 → state s.d k = 0 → (∀ j, j < k → state s.d j ≠ 0) →
            s.d.get R.DPL_CFG2_DEF_BURST ≠ 0 → Gives c s fun t => node t.d k = src ∧ (t.d.peer k).fresh = some fresh ∧
              (t.d.peer k).tokens = s.d.get R.DPL_CFG2_DEF_BURST - 1 ∧
              t.d.get (R.DPL_PEER_CTRL_RATE k) = s.d.get R.DPL_CFG2_DEF_RATE ∧
              state t.d k = (if agreed < max (s.d.get R.DPL_VER_VMIN) (data.getD 16 0) then 3 else 1))))))) ∧
  -- The table, keys and heartbeats
  (∀ (k : Fin 32) (key : Fin 2) (i : Fin 4) (v : Word) (s : State),
    (state s.d k.val ≠ 1 → Leads (.dplPeerTimeout k) s s) ∧
    (state s.d k.val = 1 → Gives (.dplPeerTimeout k) s fun t => state t.d k.val = 2 ∧ t.mem = s.mem ∧ t.d.dpl = s.d.dpl ∧
      reportOf s.d 12 150 (node s.d k.val + k.val * 2 ^ 8) ∈ t.d.hoop ∧ ∀ j, j < 32 → j ≠ k.val → state t.d j = state s.d j) ∧
    (Gives .dplTokenRefill s fun t => t.d.regs = s.d.regs ∧ t.mem = s.mem ∧ Sends s t [] ∧ ∀ j, j < 32 →
      let p := s.d.peer j
      let full := min (s.d.get (R.DPL_PEER_CTRL_BURST j)) (p.tokens + s.d.get (R.DPL_PEER_CTRL_RATE j))
      t.d.peer j = if state s.d j = 0 then p else { p with tokens := full }) ∧
    (Gives (.dplPeerFree k) s fun t => state t.d k.val = 0 ∧ t.d.peer k.val = {} ∧ t.d.get (R.DPL_PEER_STAT_VER k.val) = 0 ∧
      node t.d k.val = node s.d k.val ∧ t.mem = s.mem ∧
      ∀ j, j < 32 → j ≠ k.val → state t.d j = state s.d j ∧ t.d.peer j = s.d.peer j) ∧
    (∀ core : Fin 4, s.d.coreHeld core.val = false → s.d.gated (0x40060900 + 16 * k.val) = false →
      Gives (.registerWrite core (word (0x40060900 + 16 * k.val)) v) s fun t =>
      let rate := v.toNat / 2 ^ 8 % 256
      let burst := v.toNat / 2 ^ 16 % 256
      let named := v.toNat % 256
      let lock := v.toNat / 2 ^ 24 % 2
      let free := v.toNat / 2 ^ 25 % 2
      let empty : Prop := state s.d k.val = 0
      (rate ≠ 0 → t.d.get (R.DPL_PEER_CTRL_RATE k.val) = rate) ∧ (burst ≠ 0 → t.d.get (R.DPL_PEER_CTRL_BURST k.val) = burst) ∧
      (empty → named ≠ 0 → named ≠ 255 → node t.d k.val = named) ∧ (empty → t.d.get (R.DPL_PEER_CTRL_LOCK k.val) = lock) ∧
      state t.d k.val = (if free = 1 then 0 else if state s.d k.val = 0 then (if lock = 1 then 2 else 0) else state s.d k.val) ∧
      (¬empty → node t.d k.val = node s.d k.val ∧
        t.d.get (R.DPL_PEER_CTRL_LOCK k.val) = s.d.get (R.DPL_PEER_CTRL_LOCK k.val)) ∧
      (rate = 0 ∨ burst = 0 ∨ (empty ∧ (named = 0 ∨ named = 255)) ∨
        (¬empty ∧ (named ≠ node s.d k.val ∨ lock ≠ s.d.get (R.DPL_PEER_CTRL_LOCK k.val))) → t.d.get R.DPL_STATUS_WERR = 1)) ∧
    (s.d.get R.DPL_CFG_TXKEY = key.val → Gives (.dplKeyWrite key i v) s fun t => t.d.get R.DPL_STATUS_WERR = 1 ∧
      RegsBut [R.DPL_STATUS_WERR] s.d t.d ∧ t = { s with d := { s.d with regs := t.d.regs, hoop := t.d.hoop } }) ∧
    (s.d.get R.DPL_CFG_TXKEY ≠ key.val → Gives (.dplKeyWrite key i v) s fun t =>
      t.d.get (R.DPL_KEY_W_KEY key.val i.val) = v.toNat ∧ 4 * key.val + i.val ∈ t.d.dpl.keys ∧
      RegsBut [R.DPL_KEY_W_KEY key.val i.val, R.DPL_KEYSTAT_VALID] s.d t.d ∧
      ((∀ w, w < 4 → w = i.val ∨ 4 * key.val + w ∈ s.d.dpl.keys) → (t.d.get R.DPL_KEYSTAT_VALID).testBit key.val = true) ∧
      t = { s with d := { s.d with regs := t.d.regs, dpl := { s.d.dpl with keys := t.d.dpl.keys } } })) ∧
  (∀ s : State,
    let n := bus s
    let beat : Prop := ∃ x, (s.d.can n).tx = some x ∧ x.slot = 32
    (s.d.get R.DPL_CFG_EN = 1 → Leads .dplEnable s s) ∧
    (s.d.get R.DPL_CFG_EN = 0 → Gives .dplEnable s fun t => t.d.get R.DPL_CFG_EN = 1 ∧ t.d.dpl.hb = some none ∧
      t.d.dpl.hbNext = false ∧ t.d.dpl.peers = s.d.dpl.peers ∧ t.d.dpl.keys = s.d.dpl.keys ∧ t.mem = s.mem) ∧
    (s.d.get R.DPL_CFG_EN = 0 → Leads .dplHeartbeatDue s s) ∧
    (s.d.get R.DPL_CFG_EN = 1 → s.d.dpl.hb = none → Leads .dplHeartbeatDue s
      { s with d := { s.d with dpl := { s.d.dpl with hb := some none } } }) ∧
    (s.d.get R.DPL_CFG_EN = 1 → s.d.dpl.hb ≠ none → Gives .dplHeartbeatDue s fun t =>
      t.d.get R.DPL_HB_REPL = min (s.d.get R.DPL_HB_REPL + 1) 0xFFFF ∧ RegsBut [R.DPL_HB_REPL] s.d t.d ∧
      (¬beat → t.d.dpl.hb = some none) ∧
      (beat → t.d.dpl.hb = s.d.dpl.hb ∧ t.d.dpl.hbNext = true ∧ ∃ x, (t.d.can n).tx = some x ∧ x.slot = 32 ∧ x.abort = true) ∧
      t = { s with d := { s.d with regs := t.d.regs, dpl := t.d.dpl, cans := t.d.cans } })) ∧
  -- Elements sent
  (∀ (ctl : Fin 4) (s : State) (b : Nat),
    let n := ctl.val
    let a := s.d.outAddr n b
    let f := s.outFrame n b
    let dest := (Mem.word s.mem (a + 8)).toNat / 2 ^ 8 % 256
    let ty := f.id / 2 ^ 24 % 32
    let from' := if ty = 0x0C ∨ ty = 0x0D then 2 else 1
    let least (ver : Nat) : Nat := if ty = 2 then 24 else if ty = 4 then 32 else if ty = 8 then (if ver = 3 then 48 else 32) else 16
    let known : Prop := ty = 2 ∨ ty = 4 ∨ ty = 8 ∨ ty = 0x0C ∨ ty = 0x0D ∨ 0x10 ≤ ty
    let agreed (ver : Nat) : Prop := (dest = 0xFF ∧ ver = s.d.groupVersion) ∨
      (dest ≠ 0xFF ∧ ∃ k, s.d.peerOf dest = some k ∧ state s.d k = 1 ∧ ver = s.d.get (R.DPL_PEER_STAT_VER k))
    let fit (ver : Nat) : Prop := s.d.get R.DPL_CFG_EN = 1 ∧ bus s = n ∧ agreed ver ∧ known ∧ from' ≤ ver ∧ least ver ≤ frameLen f
    s.d.canOn n = true → s.d.get (R.CAN_CTRL_MODE n) ≠ 1 → (s.d.can n).tx = none → s.nextSlot n = some b → b < 32 →
    (Mem.word s.mem (a + 8)).toNat % 2 = 1 → b ∉ (s.d.can n).prepared →
    ((∀ ver, ¬fit ver) → Gives (.canArbitrationEntry ctl) s fun t => (t.d.can n).tx = none ∧ t.mem = s.mem ∧
      (t.d.get (R.CAN_OUT_ABORTED_SLOTS n)).testBit b = true ∧ (t.d.get (R.CAN_OUT_WAIT_SLOTS n)).testBit b = false ∧
      t.d.get R.DPL_CNT2_TXREF = min (s.d.get R.DPL_CNT2_TXREF + 1) 0xFF ∧ Sends s t [reportOf s.d 12 155 b]) ∧
    (∀ ver, fit ver → frameLen f = f.data.length → Gives (.canArbitrationEntry ctl) s fun t => ∃ x : CanTx, (t.d.can n).tx = some x ∧ x.slot = b ∧
      x.frame.id = ty * 2 ^ 24 + s.d.get R.DPL_NODE_ID * 2 ^ 16 + f.id / 2 ^ 8 % 256 * 2 ^ 8 + 0xD5 ∧
      (let old := f.data.map fun x => x.toNat
        let key := s.d.get R.DPL_CFG_TXKEY
        let body := [ver, key] ++ bytes 4 (s.d.get R.DPL_TXFRESH_CNT) ++ (old.take (old.length - 8)).drop 6;
        x.frame.data = (body ++ tag s.d key x.frame.id f.dlc.val body).map (BitVec.ofNat 8) ∧
        ∀ j y, x.frame.data[j]? = some y → Mem.rd t.mem (a + 12 + j) = y) ∧
      t.d.get R.DPL_TXFRESH_CNT = (s.d.get R.DPL_TXFRESH_CNT + 1) % 2 ^ 32 ∧ b ∈ (t.d.can n).prepared))

/-- A qualified crystal starts every PLL that is not locked; a lock takes its domains off BYP, records the band, counts,
ends the loss condition and, after a loss, reports the return, and in M0 the last one starts M1; a failed attempt sets
FAIL and from M3 reports; a loss moves the domains to BYP, counts and begins its condition. SSC.EN in M4 to M9 and a
gate of an enabled block only set WERR. An epoch updates the estimates and maxima, raises or lowers the stage with its
Archive level, counts epochs above stage 0 and drives OVER and the Tj condition. The Ledger's age tick adds A/3600 h
(one hour in 3600 ticks at 105 °C, to the model's 2^-64); a point stores HOURS and every valid x, and predictions are
the least-squares MONTHS with at least four points, EOL the smallest. A measurement starts, is refused, requests
pairs, fails by R507 in its order or completes with CAP and ESR of R506, rounded to a binary32 word; gains without a
quotient leave its end free. A repair run needs M11 and its key and with COMMIT programs the volatile bindings that
fit. Clauses that the spec leaves open follow the model's choices: log entries 10, 18, 129, 130, 131, 132, 133, 134
and 148. (R34, R492, R494, R495, R496, R497, R498, R499, R501, R502, R506, R516) -/
def Obligations.ClocksPowerLedgerAndRepairRuns : Prop :=
  let locked (d : Dev) (p : Nat) : Bool := (d.get R.CLK_STAT_LOCKED).testBit p
  let byp (d : Dev) (p : Nat) : Bool := (d.get R.CLK_STAT_ON_BYP).testBit p
  let loss (p : Nat) : Nat := if p = 0 then 84 else if p = 1 then 82 else 83
  let cond (d : Dev) (src : Nat) : Bool := d.bit R.ACC_COND_SRC src
  let held (s : State) : Prop := s.d.sys.held ≠ .none
  let sgn (x : Nat) : Int := (BitVec.ofNat 16 x).toInt
  let ledOn (s : State) : Prop := s.d.get R.LEDGER_CTRL_EN = 1
  let months (d : Dev) (k : Nat) : Nat := d.get (R.LEDGER_IND_MONTHS k)
  let sum (ps : List (Nat × Nat)) (f : Nat × Nat → Nat) : ℚ := (ps.map fun p => (f p : ℚ)).sum
  let det (ps : List (Nat × Nat)) : ℚ := ps.length * sum ps (fun p => p.1 * p.1) - sum ps (fun p => p.1) * sum ps (fun p => p.1)
  let slope (ps : List (Nat × Nat)) : ℚ :=
    (ps.length * sum ps (fun p => p.1 * p.2) - sum ps (fun p => p.1) * sum ps (fun p => p.2)) / det ps
  let life (ps : List (Nat × Nat)) (h : Nat) : Nat :=
    let b := slope ps
    let x := (sum ps (fun p => p.2) - b * sum ps (fun p => p.1)) / ps.length + b * h;
    if 4096 ≤ x then 0 else if b ≤ 0 then 0xFFFF else min ⌊(4096 - x) / b / 256 / (1461 / 2)⌋₊ 0xFFFE
  let predicted (t : State) : Prop :=
    (∀ k, k < 6 → ((t.d.samples k).length < 4 → months t.d k = 0xFFFF) ∧
      (4 ≤ (t.d.samples k).length → 0 < det (t.d.samples k) → months t.d k = life (t.d.samples k) (t.d.get R.LEDGER_HOURS_H)) ∧
      t.d.get R.LEDGER_EOL_MONTHS ≤ months t.d k) ∧
    t.d.get R.LEDGER_EOL_IND < 6 ∧ t.d.get R.LEDGER_EOL_MONTHS = months t.d (t.d.get R.LEDGER_EOL_IND) ∧
    (cond t.d 165 = true ↔ t.d.get R.LEDGER_EOL_MONTHS < t.d.get R.LEDGER_CTRL_EOL_WARN)
  -- Clocks
  (∀ (p : Fin 3) (band : BitVec 4) (s : State),
    let q := p.val
    let trying : Prop := q ∈ s.d.clk.trying
    let others (t : State) : Prop := ∀ j, j < 3 → j ≠ q → locked t.d j = locked s.d j ∧ byp t.d j = byp s.d j
    let last : Prop := s.d.mode = 0 ∧ s.d.sys.held = .none ∧ ∀ j, j < 3 → j ≠ q → locked s.d j = true ∧ byp s.d j = false
    (¬trying → Leads (.pllLock p band) s s ∧ Leads (.pllLockFail p) s s) ∧
    (trying → ¬last → Gives (.pllLock p band) s fun t => q ∉ t.d.clk.trying ∧ locked t.d q = true ∧ byp t.d q = false ∧ others t ∧
      t.d.get (R.CLK_PLL_BAND q) = band.toNat ∧ t.d.get (R.CLK_PLL_LOCKS q) = (s.d.get (R.CLK_PLL_LOCKS q) + 1) % 256 ∧
      cond t.d (loss q) = false ∧ ((∀ j, j < 3 → byp t.d j = false) → cond t.d 81 = false) ∧
      t.d.get R.TIME_STATUS_BYP = b2n (byp t.d 2) ∧ t.mem = s.mem ∧ t.d.mode = s.d.mode ∧
      q ∉ t.d.clk.lost ∧ loss q ∉ t.d.clk.conds ∧
      (q ∈ s.d.clk.lost → ¬held s → reportOf s.d 0 161 q ∈ t.d.hoop)) ∧
    (trying → last → Gives (.pllLock p band) s fun t => t.d.mode = 1 ∧ t.d.get R.SYSCTL_MODE_PREV = 0 ∧ t.mem = s.mem) ∧
    (trying → Gives (.pllLockFail p) s fun t => t.d.clk.trying = s.d.clk.trying.filter (fun x => x != q) ∧
      t.d.get R.CLK_STAT_FAIL = s.d.get R.CLK_STAT_FAIL ||| 2 ^ q ∧ RegsBut [R.CLK_STAT_FAIL] s.d t.d ∧
      (s.d.get R.CLK_STAT_FAIL = 0 → s.d.get R.CLK_STAT_WERR = 0 → flagOf 0 43 ∈ t.d.hoop) ∧
      (3 ≤ s.d.mode ↔ ∃ l, t.d.hoop = s.d.hoop ++ l ∧ reportOf s.d 0 160 q ∈ l) ∧
      t = { s with d := { s.d with regs := t.d.regs, hoop := t.d.hoop, clk := t.d.clk } }) ∧
    (s.d.get R.CLK_STAT_XTAL_OK = 1 → locked s.d q = false → Leads (.pllRetry p) s
      { s with d := { s.d with clk := { s.d.clk with trying := s.d.clk.trying.filter (fun x => x != q) ++ [q] } } }) ∧
    (s.d.get R.CLK_STAT_XTAL_OK = 0 ∨ locked s.d q = true → Leads (.pllRetry p) s s) ∧
    (locked s.d q = false → Leads (.lossOfLock p) s s) ∧
    (locked s.d q = true → Gives (.lossOfLock p) s fun t => locked t.d q = false ∧ byp t.d q = true ∧ others t ∧
      t.d.get (R.CLK_PLL_LOSSES q) = min (s.d.get (R.CLK_PLL_LOSSES q) + 1) 0xFFFF ∧ q ∈ t.d.clk.trying ∧
      t.d.get R.TIME_STATUS_BYP = b2n (byp t.d 2) ∧ t.mem = s.mem ∧
      (q = 0 → ∀ n, n < 4 → (t.d.can n).off = true ∧ (t.d.can n).tx = none) ∧ q ∈ t.d.clk.lost ∧ loss q ∈ t.d.clk.conds ∧
      (held s → cond t.d (loss q) = cond s.d (loss q)) ∧
      (¬held s → cond t.d (loss q) = true ∧ (cond s.d (loss q) = false → reportOf s.d 0 (loss q) 0 ∈ t.d.hoop)))) ∧
  (∀ s : State,
    (s.d.sys.held = .powerOn → Leads .xtalQualified s s) ∧
    (s.d.sys.held ≠ .powerOn → Gives .xtalQualified s fun t => t.d.get R.CLK_STAT_XTAL_OK = 1 ∧ RegsBut [R.CLK_STAT_XTAL_OK] s.d t.d ∧
      (∀ p, p < 3 → (p ∈ t.d.clk.trying ↔ p ∈ s.d.clk.trying ∨ locked s.d p = false)) ∧
      t = { s with d := { s.d with regs := t.d.regs, clk := t.d.clk } }) ∧
    (s.d.get R.CLK_STAT_XTAL_OK = 0 → Leads .referenceLoss s s) ∧
    (s.d.get R.CLK_STAT_XTAL_OK = 1 → Gives .referenceLoss s fun t => t.d.get R.CLK_STAT_XTAL_OK = 0 ∧ t.d.clk.trying = [] ∧
      t.d.get R.CLK_STAT_LOCKED = 0 ∧ t.d.get R.CLK_STAT_ON_BYP = 7 ∧ t.d.get R.TIME_STATUS_BYP = 1 ∧ t.mem = s.mem ∧
      (∀ p, p < 3 → t.d.get (R.CLK_PLL_LOSSES p) =
        if locked s.d p then min (s.d.get (R.CLK_PLL_LOSSES p) + 1) 0xFFFF else s.d.get (R.CLK_PLL_LOSSES p)) ∧
      (∀ p, p < 3 → (p ∈ t.d.clk.lost ↔ p ∈ s.d.clk.lost ∨ locked s.d p = true)) ∧ 81 ∈ t.d.clk.conds ∧
      (¬held s → cond t.d 81 = true ∧ (cond s.d 81 = false → reportOf s.d 0 81 0 ∈ t.d.hoop)))) ∧
  (∀ (en : Bool) (blocks : BitVec 10) (s : State),
    let busy : Prop := (blocks.getLsbD 0 = true ∧ (s.d.get (R.ETH_CTRL_EN 0) = 1 ∨ s.d.get (R.ETH_CTRL_EN 1) = 1)) ∨
      (blocks.getLsbD 1 = true ∧ (s.d.get R.DPL_CFG_EN = 1 ∨ ∃ n, n < 4 ∧ s.d.get (R.CAN_CTRL_EN n) = 1))
    let refused (c : Instr) : Prop := Gives c s fun t => t.d.get R.CLK_STAT_WERR = 1 ∧ RegsBut [R.CLK_STAT_WERR] s.d t.d ∧
      t = { s with d := { s.d with regs := t.d.regs, hoop := t.d.hoop } }
    (4 ≤ s.d.mode → s.d.mode ≤ 9 → refused (.sscEnable en)) ∧
    (s.d.mode < 4 ∨ 9 < s.d.mode → Gives (.sscEnable en) s fun t => t.d.get R.CLK_SSC_EN = b2n en ∧
      RegsBut [R.CLK_SSC_EN] s.d t.d ∧ t = { s with d := { s.d with regs := t.d.regs } }) ∧
    (busy → refused (.clockGateWrite blocks)) ∧
    (¬busy → Gives (.clockGateWrite blocks) s fun t => t.d.get R.CLK_GATE_BLOCKS = blocks.toNat ∧
      RegsBut [R.CLK_GATE_BLOCKS] s.d t.d ∧ t = { s with d := { s.d with regs := t.d.regs } })) ∧
  -- The power budget
  (∀ (power tj : BitVec 16) (s : State),
    let p := power.toNat
    let budget := 100 * s.d.get R.PWRB_CTRL_BUDGET
    let stage := s.d.get R.PWRB_STATUS_STAGE
    let below : Prop := p + 100 * s.d.get R.PWRB_CTRL_HYST < budget
    let hundred : Prop := below ∧ s.d.pwr.low + 1 = 100
    let above : Prop := budget < p ∧ stage = 7 ∧ 100 ≤ s.d.pwr.above + 1
    let lim : Int := 16 * s.d.get R.PWRB_CTRL_TJLIM
    (held s → Leads (.pwrbEpoch power tj) s s) ∧
    (¬held s → Gives (.pwrbEpoch power tj) s fun t =>
      t.d.get R.PWRB_EST_P = p ∧ t.d.get R.PWRB_EST_PMAX = max (s.d.get R.PWRB_EST_PMAX) p ∧ t.d.get R.PWRB_TJ_T = tj.toNat ∧
      sgn (t.d.get R.PWRB_TJ_TMAX) = max (sgn (s.d.get R.PWRB_TJ_TMAX)) tj.toInt ∧
      t.d.get R.PWRB_THR_EPOCHS = (if stage = 0 then s.d.get R.PWRB_THR_EPOCHS else min (s.d.get R.PWRB_THR_EPOCHS + 1) 0xFFFFFFFF) ∧
      (budget < p → stage < 7 → t.d.get R.PWRB_STATUS_STAGE = stage + 1 ∧ t.d.get R.PWRB_STATUS_UP = 1) ∧
      (hundred → 0 < stage → t.d.get R.PWRB_STATUS_STAGE = stage - 1) ∧
      ((budget < p ∧ stage = 7) ∨ (p ≤ budget ∧ (¬hundred ∨ stage = 0)) → t.d.get R.PWRB_STATUS_STAGE = stage) ∧
      (t.d.get R.PWRB_STATUS_STAGE ≠ stage → t.d.get R.ARCH_STATUS_THROTTLE =
        ([0, 0, 0, 1, 1, 2, 3, 3] : List Nat).getD (t.d.get R.PWRB_STATUS_STAGE) 0) ∧
      t.d.pwr.low = (if below ∧ ¬hundred then s.d.pwr.low + 1 else 0) ∧
      (above → t.d.get R.PWRB_STATUS_OVER = 1 ∧ cond t.d 162 = true) ∧
      (p ≤ budget → 100 ≤ s.d.pwr.under + 1 → t.d.get R.PWRB_STATUS_OVER = 0 ∧ cond t.d 162 = false) ∧
      (¬above → ¬(p ≤ budget ∧ 100 ≤ s.d.pwr.under + 1) → cond t.d 162 = cond s.d 162) ∧
      (lim < tj.toInt → cond t.d 163 = true) ∧ (tj.toInt ≤ lim - 32 → cond t.d 163 = false) ∧
      (lim - 32 < tj.toInt → tj.toInt ≤ lim → cond t.d 163 = cond s.d 163) ∧ t.mem = s.mem)) ∧
  -- The Ledger
  (∀ (now : Bool) (ro : List (BitVec 16)) (margin : BitVec 4) (s : State),
    let point := if now then Instr.ledgerPointNow ro margin else .ledgerPoint ro margin
    let age (d : Dev) : Nat := d.get R.LEDGER_AGE_EQ_H * 2 ^ 64 + d.led.ageFrac
    let i := s.d.led.next
    let tj := sgn (s.d.get R.PWRB_TJ_T);
    (ledOn s → Leads .ledgerEnable s s) ∧
    (¬ledOn s → Gives .ledgerEnable s fun t => ledOn t ∧ predicted t ∧ t.mem = s.mem ∧
      t.d.led = { s.d.led with hourAt := s.d.time.short }) ∧
    (¬ledOn s → Leads .ledgerAgeTick s s ∧ Leads point s s) ∧
    (ledOn s → -4370 < tj → Gives .ledgerAgeTick s fun t =>
      age t.d = (age s.d + expRatio 64 (81235 * (20 * (20 * tj + 87408) - 320 * 7563)) (75630 * (20 * tj + 87408)) * 256 / 3600) %
        2 ^ 96 ∧ (tj = 1680 → age t.d = (age s.d + 2 ^ 72 / 3600) % 2 ^ 96) ∧ RegsBut [R.LEDGER_AGE_EQ_H] s.d t.d ∧
      t = { s with d := { s.d with regs := t.d.regs, led := { s.d.led with ageFrac := t.d.led.ageFrac } } }) ∧
    (ledOn s → Gives point s fun t => ledOn t ∧ predicted t ∧ t.mem = s.mem ∧ t.d.led.next = (i + 1) % 64 ∧
      (∀ j (h : j < ro.length), j < 14 → t.d.get (R.LEDGER_RO_PPM j) = ro[j].toNat) ∧ t.d.get R.LEDGER_MARGIN_STEP = margin.toNat ∧
      t.d.get R.LEDGER_STATUS_POINT = 1 ∧ reportOf s.d 3 164 i ∈ t.d.hoop ∧
      (∀ j, j ≠ i → Sparse.at' {} t.d.led.ring j = Sparse.at' {} s.d.led.ring j) ∧
      (let e := Sparse.at' {} t.d.led.ring i
        let x (k : Nat) : Option Nat := Sparse.at' none e.x k
        let hours := s.d.get R.LEDGER_AGE_EQ_H
        e.hours = s.d.get R.LEDGER_HOURS_H ∧ (∀ k, k < 6 → t.d.get (R.LEDGER_IND_X k) = (x k).getD 0) ∧
        (hours < 15 * 56064000 → ∃ v, x 0 = some v ∧ v * 56064000 < hours * 4096 + 56064000 ∧ hours * 4096 < v * 56064000 + 56064000) ∧
        (s.d.otp.marginF = 0 → x 2 = none) ∧
        (margin.toNat ≤ s.d.otp.marginF → s.d.otp.marginF ≠ 0 → ∃ v, x 2 = some v ∧
          v * s.d.otp.marginF < (s.d.otp.marginF - margin.toNat) * 4096 + s.d.otp.marginF ∧
          (s.d.otp.marginF - margin.toNat) * 4096 < v * s.d.otp.marginF + s.d.otp.marginF)))) ∧
  (∀ (current : Bool) (survived : Nat) (vre vim ire iim : Int) (s : State),
    let c := s.d.get R.LEDGER_MCFG_CONV
    let away : Prop := s.d.mode < 5 ∨ 7 < s.d.mode ∨ s.d.act (R.ADC_INJ_CFG_EN c 2) = 1 ∨ s.d.act (R.ADC_INJ_CFG_EN c 3) = 1
    let done := Instr.ledgerMeasComplete survived vre vim ire iim
    let pairs := 16 * s.d.get R.LEDGER_MCFG_NSWEEP
    let gain : Int := if (s.d.rdw 0x400030D4).toNat.testBit 31 = (s.d.rdw 0x400030D8).toNat.testBit 31 then 1 else -1
    let finite (a : Nat) : Prop := (s.d.rdw a).toNat / 2 ^ 23 % 2 ^ 8 ≠ 255
    let quotient : Prop := finite 0x400030D4 ∧ finite 0x400030D8 ∧ (s.d.rdw 0x400030D8).toNat % 2 ^ 31 ≠ 0
    let few : Prop := survived * 4 < 3 * pairs
    let weak : Prop := ire * ire + iim * iim < 1000 * 1000
    let sign : Prop := 0 ≤ gain * (vim * ire - vre * iim) ∨ (s.d.rdw 0x400030D4).toNat % 2 ^ 31 = 0
    let stopped (cause : Nat) : Prop := Gives done s fun t => Sends s t [reportOf s.d 3 166 cause] ∧
      t = { s with d := { s.d with hoop := t.d.hoop, led := { s.d.led with meas := none } } };
    (away → Gives .ledgerMeasStart s fun t => t.d.get R.LEDGER_STATUS_MEAS_REF = 1 ∧ RegsBut [R.LEDGER_STATUS_MEAS_REF] s.d t.d ∧
      t = { s with d := { s.d with regs := t.d.regs, hoop := t.d.hoop } }) ∧
    (¬away → s.d.led.meas = none → Leads .ledgerMeasStart s { s with d := { s.d with led := { s.d.led with meas := some ⟨0⟩ } } }) ∧
    (¬away → s.d.led.meas ≠ none → Leads .ledgerMeasStart s s) ∧
    (s.d.led.meas = none → Leads (.ledgerMeasTrigger current) s s ∧ Leads done s s) ∧
    (∀ m, s.d.led.meas = some m →
      (Gives (.ledgerMeasTrigger current) s fun t => t.d.led = { s.d.led with meas := some ⟨m.requests + 1⟩ } ∧ t.mem = s.mem ∧
        ((s.d.adc c).inj = none → ((s.d.adc c).flights.any fun f => f.inj) = false → s.d.adcCal c = false → s.d.adcOut c = false →
          (t.d.adc c).inj = some (if current then (3, s.d.get R.LEDGER_MCFG_IAIN) else (2, s.d.get R.LEDGER_MCFG_VAIN)))) ∧
      (m.requests < 2 * pairs → Leads done s s) ∧
      (2 * pairs ≤ m.requests → (few → stopped 0) ∧ (¬few → weak → stopped 1) ∧ (¬few → ¬weak → quotient → sign → stopped 2) ∧
        (¬few → ¬weak → ¬quotient → Gives done s fun t => t.d.led = { s.d.led with meas := none } ∧ t.mem = s.mem) ∧
        (¬few → ¬weak → quotient → ¬sign → ∀ v i : Int, fp32Units (s.d.rdw 0x400030D4) = some v →
          fp32Units (s.d.rdw 0x400030D8) = some i → Gives done s fun t =>
          (let P : ℝ := s.d.livePeriod (s.d.get R.LEDGER_MCFG_LEG) * (5 / 64 / 10 ^ 9)
           let im : ℝ := v * (vim * ire - vre * iim) / (i * (ire * ire + iim * iim))
           let re : ℝ := v * (vre * ire + vim * iim) / (i * (ire * ire + iim * iim))
           let cap : ℝ := -(P * 10 ^ 6) / (2 * Real.pi * im)
           (∃ r fl, (r = .floor ∨ r = .ceil) ∧ realWord .fp32 r .wrap (1000 * re) (t.d.rdw 0x400030C4, fl)) ∧
           ((2 : ℝ) ^ (-126 : Int) ≤ |cap| → |cap| < (2 : ℝ) ^ (127 : Int) →
             ∃ y : ℚ, (readFmt .fp32 (t.d.rdw 0x400030C0)).Is y ∧ |(y : ℝ) - cap| ≤ |cap| / 2 ^ 22)) ∧
          t.d.led = { s.d.led with meas := none } ∧ t.mem = s.mem ∧
          t.d.get R.LEDGER_STATUS_MEAS_DONE = 1 ∧
          RegsBut [R.LEDGER_CAP_V, R.LEDGER_ESR_V, R.LEDGER_C0_V, R.LEDGER_ESR0_V, R.LEDGER_STATUS_MEAS_DONE] s.d t.d ∧
          (s.d.get R.LEDGER_C0_V = 0 → t.d.get R.LEDGER_C0_V = t.d.get R.LEDGER_CAP_V ∧
            t.d.get R.LEDGER_ESR0_V = t.d.get R.LEDGER_ESR_V) ∧
          (s.d.get R.LEDGER_C0_V ≠ 0 → t.d.get R.LEDGER_C0_V = s.d.get R.LEDGER_C0_V ∧
            t.d.get R.LEDGER_ESR0_V = s.d.get R.LEDGER_ESR0_V))))) ∧
  -- Service runs of BIST
  (∀ (commit : Bool) (key : BitVec 16) (bad : List BadUnit) (s : State),
    let run (x : Option Bool) : Dev := { s.d with sys := { s.d.sys with repairRun := x } }
    let b := ((run none).bist bad).1
    let vol := (b.repair.filter fun e => e.2).map (·.1)
    let room := 128 - s.d.otp.field.length;
    (s.d.mode ≠ 11 → Gives (.repairRun commit key) s fun t => t.d.get R.LEDGER_STATUS_WERR = 1 ∧
      RegsBut [R.LEDGER_STATUS_WERR] s.d t.d ∧ t = { s with d := { s.d with regs := t.d.regs, hoop := t.d.hoop } }) ∧
    (s.d.mode = 11 → key = 0xA5C3 → Leads (.repairRun commit key) s { s with d := run (some commit) }) ∧
    (s.d.mode = 11 → key ≠ 0xA5C3 → Leads (.repairRun commit key) s s) ∧
    (s.d.sys.repairRun = none → Leads (.repairRunComplete bad) s s) ∧
    (s.d.sys.repairRun = some false → Leads (.repairRunComplete bad) s { s with d := b } ∧ b.otp = s.d.otp ∧ b.sys = (run none).sys ∧
      ∀ (l : Fin 2) (p : Fin 34) (q : Nat), bad = [.stake l p] → s.d.weak = [] → s.d.stakeServes l.val p.val = true →
        ((({ s.d with dead := [] } : Dev).freeStakes l.val).filter fun x => x != p.val).head? = some q →
        (BitVec.ofNat 32 (2 ^ 28 + q * 2 ^ 8 + l.val * 2 ^ 7 + p.val), true) ∈ b.repair) ∧
    (s.d.sys.repairRun = some true → Gives (.repairRunComplete bad) s fun t => t.d.otp = { s.d.otp with field := s.d.otp.field ++ vol.take room } ∧
      t.d.sys.repairRun = none ∧ t.mem = s.mem ∧ (∀ e ∈ vol.take room, (e, true) ∉ t.d.repair ∧ (e, false) ∈ t.d.repair) ∧
      (room < vol.length → reportOf s.d 3 170 (vol.length - room) ∈ t.d.hoop)))
end

