-- ==== Sys2Proof/Laws/Crypto.lean ====
section
/-! SUPPORT. The constants of SHA-256 are what their definition says: the first 32 bits of the fractions of roots of
primes. -/

namespace Sys2Proof.Laws

open Sys2Proof.Machine.Crypto

/-- `n` is prime, by trial division. -/
def primeB (n : Nat) : Bool := decide (2 ≤ n) && (List.range n).all fun k => decide (k < 2) || n % k != 0

/-- The first primes up to 311, 64 of them. -/
def primes64 : List Nat := (List.range 312).filter primeB

/-- `x` is the first 32 bits of the fraction of the e-th root of `p`, whose whole part is below 20. -/
def rootFraction (e p x : Nat) : Bool :=
  (List.range 20).any fun w => decide ((w * 2 ^ 32 + x) ^ e ≤ p * 2 ^ (32 * e)) && decide (p * 2 ^ (32 * e) < (w * 2 ^ 32 + x + 1) ^ e)

theorem primes64_length : primes64.length = 64 := by decide +kernel

/-- The round constants. -/
theorem shaK_spec : (primes64.zip shaK).all (fun q => rootFraction 3 q.1 q.2) = true ∧ shaK.length = 64 := by decide +kernel

/-- The initial state. -/
theorem shaInit_spec :
    ((primes64.take 8).zip [shaInit.a, shaInit.b, shaInit.c, shaInit.d, shaInit.e, shaInit.f, shaInit.g, shaInit.h]).all
      (fun q => rootFraction 2 q.1 q.2) = true := by decide +kernel

end Sys2Proof.Laws
end

