-- ==== Sys2Proof/Laws/Sparse.lean ====
section
/-! SUPPORT. The laws of sparse tables: read after write, and that writes keep the canonical form. -/

namespace Sys2Proof.Machine.Sparse

variable {V : Type}

theorem find?_erase_self (l : List (Nat × V)) (a : Nat) : find? (erase l a) a = none := by
  induction l with
  | nil => rfl
  | cons p t ih =>
    obtain ⟨b, v⟩ := p
    by_cases h : b = a
    · subst h; simpa [erase] using ih
    · simp only [erase, List.filter_cons] at ih ⊢
      simp [h, find?, ih]

theorem find?_erase_of_ne (l : List (Nat × V)) {a b : Nat} (h : b ≠ a) : find? (erase l a) b = find? l b := by
  induction l with
  | nil => rfl
  | cons p t ih =>
    obtain ⟨c, v⟩ := p
    simp only [erase, List.filter_cons] at ih ⊢
    by_cases hc : c = a
    · subst hc; simp [find?, ih, Ne.symm h]
    · simp [hc, find?, ih]

theorem find?_insert_self (l : List (Nat × V)) (a : Nat) (v : V) (h : find? l a = none) :
    find? (insert a v l) a = some v := by
  induction l with
  | nil => simp [insert, find?]
  | cons p t ih =>
    obtain ⟨b, w⟩ := p
    simp only [find?] at h
    split at h
    · cases h
    · rename_i hb
      simp only [insert]
      split <;> simp [find?, hb, ih h]

theorem find?_insert_of_ne (l : List (Nat × V)) {a b : Nat} (v : V) (h : b ≠ a) :
    find? (insert a v l) b = find? l b := by
  induction l with
  | nil => simp [insert, find?, Ne.symm h]
  | cons p t ih =>
    obtain ⟨c, w⟩ := p
    simp only [insert]
    split <;> simp [find?, Ne.symm h, ih]

@[simp] theorem get_set_self [DecidableEq V] (d : Nat → V) (l : List (Nat × V)) (a : Nat) (v : V) : get d (set d l a v) a = v := by
  unfold get set
  split
  · rename_i h; simp [find?_erase_self, h]
  · simp [find?_insert_self _ _ _ (find?_erase_self l a)]

theorem get_set_of_ne [DecidableEq V] (d : Nat → V) (l : List (Nat × V)) {a b : Nat} (v : V) (h : b ≠ a) :
    get d (set d l a v) b = get d l b := by
  unfold get set
  split
  · rw [find?_erase_of_ne _ h]
  · rw [find?_insert_of_ne _ _ h, find?_erase_of_ne _ h]

theorem rising_cons {p : Nat × V} {t : List (Nat × V)} :
    rising (p :: t) = true ↔ (∀ q ∈ t.head?, p.1 < q.1) ∧ rising t = true := by
  cases t <;> simp [rising]

theorem rising_lt {p : Nat × V} {t : List (Nat × V)} (h : rising (p :: t) = true) : ∀ q ∈ t, p.1 < q.1 := by
  induction t generalizing p with
  | nil => intro q hq; cases hq
  | cons r t ih =>
    rw [rising_cons] at h
    obtain ⟨h1, h2⟩ := h
    have hr : p.1 < r.1 := h1 r rfl
    intro q hq
    cases hq with
    | head => exact hr
    | tail _ hq => exact Nat.lt_trans hr (ih h2 q hq)

theorem rising_of_lt {p : Nat × V} {t : List (Nat × V)} (h : ∀ q ∈ t, p.1 < q.1) (ht : rising t = true) :
    rising (p :: t) = true := by
  rw [rising_cons]
  refine ⟨fun q hq => h q ?_, ht⟩
  cases t with
  | nil => cases hq
  | cons r t => simp only [List.head?_cons, Option.mem_def, Option.some.injEq] at hq; subst hq; exact List.mem_cons_self ..

theorem rising_tail {p : Nat × V} {t : List (Nat × V)} (h : rising (p :: t) = true) : rising t = true :=
  (rising_cons.mp h).2

theorem rising_erase {l : List (Nat × V)} (a : Nat) (h : rising l = true) : rising (erase l a) = true := by
  induction l with
  | nil => rfl
  | cons p t ih =>
    have ht := ih (rising_tail h)
    simp only [erase, List.filter_cons] at ht ⊢
    split
    · exact rising_of_lt (fun q hq => rising_lt h q (List.mem_filter.mp hq).1) ht
    · exact ht

theorem mem_insert {l : List (Nat × V)} {a : Nat} {v : V} {q : Nat × V} :
    q ∈ insert a v l ↔ q = (a, v) ∨ q ∈ l := by
  induction l with
  | nil => simp [insert]
  | cons p t ih =>
    simp only [insert]
    split
    · simp
    · simp only [List.mem_cons, ih]
      constructor
      · rintro (h | h | h) <;> simp [h]
      · rintro (h | h | h) <;> simp [h]

theorem rising_insert {l : List (Nat × V)} {a : Nat} (v : V) (h : rising l = true) (ha : ∀ q ∈ l, q.1 ≠ a) :
    rising (insert a v l) = true := by
  induction l with
  | nil => rfl
  | cons p t ih =>
    simp only [insert]
    split
    · rename_i hlt
      refine rising_of_lt ?_ h
      intro q hq
      cases hq with
      | head => exact hlt
      | tail _ hq => exact Nat.lt_trans hlt (rising_lt h q hq)
    · rename_i hlt
      have hp : p.1 < a := Nat.lt_of_le_of_ne (Nat.le_of_not_lt hlt) (ha p (List.mem_cons_self ..))
      refine rising_of_lt ?_ (ih (rising_tail h) fun q hq => ha q (List.mem_cons_of_mem _ hq))
      intro q hq
      rcases mem_insert.mp hq with rfl | hq
      · exact hp
      · exact rising_lt h q hq

/-- A write keeps the canonical form. -/
theorem wf_set [DecidableEq V] (d : Nat → V) {l : List (Nat × V)} (a : Nat) (v : V) (h : wf d l = true) : wf d (set d l a v) = true := by
  simp only [wf, Bool.and_eq_true, List.all_eq_true, bne_iff_ne] at h ⊢
  obtain ⟨hr, hn⟩ := h
  have hmem : ∀ q ∈ erase l a, q ∈ l ∧ q.1 ≠ a := by
    intro q hq
    have := List.mem_filter.mp hq
    exact ⟨this.1, by simpa using this.2⟩
  unfold set
  split
  · exact ⟨rising_erase a hr, fun q hq => hn q (hmem q hq).1⟩
  · rename_i hv
    refine ⟨rising_insert v (rising_erase a hr) fun q hq => (hmem q hq).2, fun q hq => ?_⟩
    rcases mem_insert.mp hq with rfl | hq
    · exact hv
    · exact hn q (hmem q hq).1

end Sys2Proof.Machine.Sparse
end

