-- ==== Sys2Proof/Laws/Memory.lean ====
section
/-! SUPPORT. The laws of memory: what a read gives after each store, and that every memory operation keeps the canonical
form. -/

namespace Sys2Proof.Machine.Mem

/-! ### Reading back -/

@[simp] theorem rd_wr_self (m : Mem) (a : Nat) (v : Byte) : rd (wr m a v) a = v := by simp [rd, wr]

theorem rd_wr_of_ne (m : Mem) {a b : Nat} (v : Byte) (h : b ≠ a) : rd (wr m a v) b = rd m b := by
  simp [rd, wr, Sparse.get_set_of_ne _ _ _ h]

/-- Every byte after a store of a number. -/
theorem rd_wrNum (n : Nat) : ∀ (m : Mem) (a v b : Nat),
    rd (wrNum m a n v) b = if a ≤ b ∧ b < a + n then BitVec.ofNat 8 (v / 256 ^ (b - a)) else rd m b := by
  induction n with
  | zero => intro m a v b; simp [wrNum]
  | succ n ih =>
    intro m a v b
    rw [wrNum, ih]
    by_cases h : a = b
    · subst h; simp
    · rw [rd_wr_of_ne _ _ (Ne.symm h)]
      by_cases h2 : a + 1 ≤ b ∧ b < a + 1 + n
      · have h3 : a ≤ b ∧ b < a + (n + 1) := by omega
        have h5 : b - a = (b - (a + 1)) + 1 := by omega
        simp [h2, h3, h5, pow_succ, Nat.div_div_eq_div_mul, Nat.mul_comm]
      · have h3 : ¬ (a ≤ b ∧ b < a + (n + 1)) := by omega
        rw [if_neg h2, if_neg h3]

/-- Every byte after a store of a word. -/
theorem rd_wrWord (m : Mem) (a : Nat) (w : Word) (b : Nat) :
    rd (wrWord m a w) b = if a ≤ b ∧ b < a + 4 then BitVec.ofNat 8 (w.toNat / 256 ^ (b - a)) else rd m b :=
  rd_wrNum 4 m a w.toNat b

/-- A store of bytes leaves every byte outside it. -/
theorem rd_wrBytes_of_outside : ∀ (l : List Nat) (m : Mem) (a b : Nat), b < a ∨ a + l.length ≤ b →
    rd (wrBytes m a l) b = rd m b
  | [], _, _, _, _ => rfl
  | x :: t, m, a, b, h => by
    simp only [List.length_cons] at h
    rw [wrBytes, rd_wrBytes_of_outside t _ _ _ (by omega), rd_wr_of_ne _ _ (by omega)]

/-- A store of bytes puts each of them at its place. -/
theorem rd_wrBytes : ∀ (l : List Nat) (m : Mem) (a i : Nat) (h : i < l.length),
    rd (wrBytes m a l) (a + i) = BitVec.ofNat 8 l[i]
  | x :: t, m, a, 0, _ => by
    rw [wrBytes, rd_wrBytes_of_outside t _ _ _ (by omega)]; simp
  | x :: t, m, a, i + 1, h => by
    have h' : i < t.length := by simpa using h
    rw [wrBytes, show a + (i + 1) = a + 1 + i by omega, rd_wrBytes t _ _ i h']; rfl

/-- A store of words leaves every byte outside it. -/
theorem rd_wrWords_of_outside : ∀ (l : List Word) (m : Mem) (a b : Nat), b < a ∨ a + 4 * l.length ≤ b →
    rd (wrWords m a l) b = rd m b
  | [], _, _, _, _ => rfl
  | w :: t, m, a, b, h => by
    simp only [List.length_cons] at h
    rw [wrWords, rd_wrWords_of_outside t _ _ _ (by omega), rd_wrWord, if_neg (by omega)]

/-- A number depends on its own bytes alone. -/
theorem num_congr : ∀ (n : Nat) (m k : Mem) (a : Nat), (∀ b, a ≤ b → b < a + n → rd m b = rd k b) → num m a n = num k a n
  | 0, _, _, _, _ => rfl
  | n + 1, m, k, a, h => by
    rw [num, num, h a (by omega) (by omega), num_congr n m k (a + 1) fun b h1 h2 => h b (by omega) (by omega)]

/-- A stored number reads back, wrapped to its bytes. -/
theorem num_wrNum : ∀ (n : Nat) (m : Mem) (a v : Nat), num (wrNum m a n v) a n = v % 256 ^ n
  | 0, _, _, _ => by simp [num, Nat.mod_one]
  | n + 1, m, a, v => by
    rw [num, wrNum, num_wrNum n, rd_wrNum, if_neg (by omega), rd_wr_self, BitVec.toNat_ofNat]
    have h : v % 256 ^ (n + 1) = v % 256 + 256 * (v / 256 % 256 ^ n) := by
      rw [pow_succ, Nat.mul_comm, Nat.mod_mul]
    rw [h]

@[simp] theorem word_wrWord (m : Mem) (a : Nat) (w : Word) : word (wrWord m a w) a = w := by
  have h := num_wrNum 4 m a w.toNat
  apply BitVec.eq_of_toNat_eq
  simp only [word, wrWord, h, Sys2Proof.word, BitVec.toNat_ofNat]
  have := w.isLt
  omega

theorem word_wrWord_of_disjoint (m : Mem) {a b : Nat} (w : Word) (h : b + 4 ≤ a ∨ a + 4 ≤ b) :
    word (wrWord m a w) b = word m b := by
  unfold word
  rw [num_congr 4 (wrWord m a w) m b]
  intro c h1 h2
  rw [rd_wrWord, if_neg (by omega)]

/-! ### The canonical form -/

theorem wf_wr {m : Mem} (a : Nat) (v : Byte) (h : wf m = true) : wf (wr m a v) = true := Sparse.wf_set memDefault a v h

theorem wf_wrNum : ∀ (n : Nat) {m : Mem} (a v : Nat), wf m = true → wf (wrNum m a n v) = true
  | 0, _, _, _, h => h
  | n + 1, _, _, _, h => wf_wrNum n _ _ (wf_wr _ _ h)

theorem wf_wrWord {m : Mem} (a : Nat) (w : Word) (h : wf m = true) : wf (wrWord m a w) = true := wf_wrNum 4 a w.toNat h

theorem wf_wrBytes : ∀ (l : List Nat) {m : Mem} (a : Nat), wf m = true → wf (wrBytes m a l) = true
  | [], _, _, h => h
  | _ :: t, _, _, h => wf_wrBytes t _ (wf_wr _ _ h)

theorem wf_wrWords : ∀ (l : List Word) {m : Mem} (a : Nat), wf m = true → wf (wrWords m a l) = true
  | [], _, _, h => h
  | _ :: t, _, _, h => wf_wrWords t _ (wf_wrWord _ _ h)

theorem wf_filter (p : Host.Cell → Bool) {m : Mem} (h : wf m = true) : wf (m.filter p) = true := by
  simp only [wf, Sparse.wf, Bool.and_eq_true, List.all_eq_true] at h ⊢
  refine ⟨?_, fun q hq => h.2 q (List.mem_filter.mp hq).1⟩
  have hr := h.1
  clear h
  induction m with
  | nil => rfl
  | cons c t ih =>
    have ht := ih (Sparse.rising_tail hr)
    rw [List.filter_cons]
    split
    · exact Sparse.rising_of_lt (fun q hq => Sparse.rising_lt hr q (List.mem_filter.mp hq).1) ht
    · exact ht

theorem wf_foldl {α : Type} (f : Mem → α → Mem) (hf : ∀ m x, wf m = true → wf (f m x) = true) :
    ∀ (l : List α) {m : Mem}, wf m = true → wf (l.foldl f m) = true
  | [], _, h => h
  | x :: t, _, h => wf_foldl f hf t (hf _ x h)

theorem wf_copy {m : Mem} (src dst n : Nat) (h : wf m = true) : wf (copy m src dst n) = true :=
  wf_foldl _ (fun _ _ h => wf_wr _ _ h) _ (wf_filter _ h)

theorem wf_clearPattern {m : Mem} (h : wf m = true) : wf (clearPattern m) = true := wf_filter _ h

theorem wf_writeSlots {m : Mem} (lane stake : Nat) (outs : List (Nat × Word)) (h : wf m = true) :
    wf (writeSlots m lane stake outs) = true :=
  wf_foldl _ (fun _ _ h => wf_wrWord _ _ h) _ h

theorem wf_loadLaneMem {m : Mem} (secs : List Section) (prof straps lane : Nat) (h : wf m = true) :
    wf (loadLaneMem m secs prof straps lane) = true := by
  unfold loadLaneMem
  refine wf_wrBytes _ _ (wf_wrWord _ _ (wf_wrBytes _ _ (wf_foldl _ ?_ _ h)))
  exact fun _ _ h => wf_foldl _ (fun _ _ h => wf_wrWords _ _ h) _ h

theorem wf_reset : wf State.reset.mem = true := rfl

end Sys2Proof.Machine.Mem
end

