-- ==== Sys2Proof/Laws/State.lean ====
section
/-! SUPPORT. What the named operations leave unchanged, field by field of the device, and the laws of the register file:
a field reads back what was set, and every other bit of every register stays. -/

namespace Sys2Proof.Machine

namespace State

@[simp] theorem onDev_d (s : State) (f : Dev → Dev) : (s.onDev f).d = f s.d := rfl
@[simp] theorem onDev_mem (s : State) (f : Dev → Dev) : (s.onDev f).mem = s.mem := rfl
@[simp] theorem onDev_pending (s : State) (f : Dev → Dev) : (s.onDev f).pending = s.pending := rfl

end State

/-! ### Bits of words -/

theorem testBit_bits (n lo w j : Nat) : (bits n lo w).testBit j = (decide (j < w) && n.testBit (lo + j)) := by
  simp [bits, Nat.testBit_mod_two_pow, Nat.testBit_div_two_pow, Nat.add_comm]

theorem bits_lt (n lo w : Nat) : bits n lo w < 2 ^ w := Nat.mod_lt _ (Nat.two_pow_pos w)

theorem bits_ext {m n lo w : Nat} (h : ∀ j, lo ≤ j → j < lo + w → m.testBit j = n.testBit j) :
    bits m lo w = bits n lo w := by
  apply Nat.eq_of_testBit_eq
  intro j
  simp only [testBit_bits]
  by_cases hj : j < w
  · simp [hj, h (lo + j) (by omega) (by omega)]
  · simp [hj]

theorem setBits_nat (x lo w v : Nat) :
    x - bits x lo w * 2 ^ lo + v % 2 ^ w * 2 ^ lo = 2 ^ lo * (2 ^ w * (x / 2 ^ lo / 2 ^ w) + v % 2 ^ w) + x % 2 ^ lo := by
  have h1 := Nat.div_add_mod x (2 ^ lo)
  have h2 := Nat.div_add_mod (x / 2 ^ lo) (2 ^ w)
  unfold bits
  generalize hq : x / 2 ^ lo = q at *
  generalize q / 2 ^ w = p at *
  generalize q % 2 ^ w = m at *
  generalize v % 2 ^ w = u at *
  generalize x % 2 ^ lo = r at *
  have h3 : x = 2 ^ lo * (2 ^ w * p) + 2 ^ lo * m + r := by rw [← Nat.mul_add, h2, h1]
  rw [h3, Nat.mul_add, Nat.mul_comm m, Nat.mul_comm u]
  omega

/-- Which bits `setBits` gives a word. -/
theorem setBits_testBit (x : Word) (lo w v j : Nat) (h : lo + w ≤ 32) :
    (setBits x lo w v).toNat.testBit j =
      if lo ≤ j ∧ j < lo + w then v.testBit (j - lo) else x.toNat.testBit j := by
  have hx := x.isLt
  unfold setBits word
  rw [BitVec.toNat_ofNat, setBits_nat, Nat.testBit_mod_two_pow,
    Nat.testBit_two_pow_mul_add _ (Nat.mod_lt _ (Nat.two_pow_pos lo))]
  by_cases h1 : j < lo
  · have h2 : ¬ (lo ≤ j ∧ j < lo + w) := by omega
    simp [h1, h2, Nat.testBit_mod_two_pow]
    omega
  · rw [if_neg h1, Nat.testBit_two_pow_mul_add _ (Nat.mod_lt _ (Nat.two_pow_pos w))]
    by_cases h3 : j < lo + w
    · have h2 : lo ≤ j ∧ j < lo + w := by omega
      have h4 : j - lo < w := by omega
      have h5 : j < 32 := by omega
      simp [h2, h4, h5, Nat.testBit_mod_two_pow]
    · have h2 : ¬ (lo ≤ j ∧ j < lo + w) := by omega
      have h4 : ¬ j - lo < w := by omega
      have h6 : lo + (w + (j - lo - w)) = j := by omega
      rw [if_neg h2, if_neg h4]
      simp only [Nat.testBit_div_two_pow]
      have h7 : j - lo - w + w + lo = j := by omega
      rw [h7]
      by_cases h5 : j < 32
      · simp [h5]
      · have : x.toNat.testBit j = false :=
          Nat.testBit_lt_two_pow (Nat.lt_of_lt_of_le hx (Nat.pow_le_pow_right (by omega) (by omega)))
        simp [h5, this]

/-! ### What an operation leaves alone -/

namespace Dev

@[simp] theorem wrw_hoop (d : Dev) (a : Nat) (v : Word) : (d.wrw a v).hoop = d.hoop := (rfl)
@[simp] theorem wrw_sys (d : Dev) (a : Nat) (v : Word) : (d.wrw a v).sys = d.sys := (rfl)
@[simp] theorem wrw_cfg (d : Dev) (a : Nat) (v : Word) : (d.wrw a v).cfg = d.cfg := (rfl)
@[simp] theorem wrw_pat (d : Dev) (a : Nat) (v : Word) : (d.wrw a v).pat = d.pat := (rfl)
@[simp] theorem wrw_lanes (d : Dev) (a : Nat) (v : Word) : (d.wrw a v).lanes = d.lanes := (rfl)
@[simp] theorem wrw_lc (d : Dev) (a : Nat) (v : Word) : (d.wrw a v).lc = d.lc := (rfl)
@[simp] theorem wrw_legs (d : Dev) (a : Nat) (v : Word) : (d.wrw a v).legs = d.legs := (rfl)
@[simp] theorem wrw_gsup (d : Dev) (a : Nat) (v : Word) : (d.wrw a v).gsup = d.gsup := (rfl)
@[simp] theorem wrw_repair (d : Dev) (a : Nat) (v : Word) : (d.wrw a v).repair = d.repair := (rfl)
@[simp] theorem wrw_dead (d : Dev) (a : Nat) (v : Word) : (d.wrw a v).dead = d.dead := (rfl)
@[simp] theorem wrw_weak (d : Dev) (a : Nat) (v : Word) : (d.wrw a v).weak = d.weak := (rfl)
@[simp] theorem wrw_withdrawn (d : Dev) (a : Nat) (v : Word) : (d.wrw a v).withdrawn = d.withdrawn := (rfl)
@[simp] theorem wrw_acc (d : Dev) (a : Nat) (v : Word) : (d.wrw a v).acc = d.acc := (rfl)
@[simp] theorem wrw_time (d : Dev) (a : Nat) (v : Word) : (d.wrw a v).time = d.time := (rfl)
@[simp] theorem wrw_resp (d : Dev) (a : Nat) (v : Word) : (d.wrw a v).resp = d.resp := (rfl)
@[simp] theorem wrw_dbg (d : Dev) (a : Nat) (v : Word) : (d.wrw a v).dbg = d.dbg := (rfl)
@[simp] theorem wrw_cmps (d : Dev) (a : Nat) (v : Word) : (d.wrw a v).cmps = d.cmps := (rfl)
@[simp] theorem wrw_slotDue (d : Dev) (a : Nat) (v : Word) : (d.wrw a v).slotDue = d.slotDue := (rfl)
@[simp] theorem wrw_free (d : Dev) (a : Nat) (v : Word) : (d.wrw a v).free = d.free := (rfl)
@[simp] theorem wrw_adcs (d : Dev) (a : Nat) (v : Word) : (d.wrw a v).adcs = d.adcs := (rfl)
@[simp] theorem wrw_sds (d : Dev) (a : Nat) (v : Word) : (d.wrw a v).sds = d.sds := (rfl)
@[simp] theorem wrw_sdmCycle (d : Dev) (a : Nat) (v : Word) : (d.wrw a v).sdmCycle = d.sdmCycle := (rfl)
@[simp] theorem wrw_iso (d : Dev) (a : Nat) (v : Word) : (d.wrw a v).iso = d.iso := (rfl)
@[simp] theorem wrw_otp (d : Dev) (a : Nat) (v : Word) : (d.wrw a v).otp = d.otp := (rfl)
@[simp] theorem wrw_led (d : Dev) (a : Nat) (v : Word) : (d.wrw a v).led = d.led := (rfl)
@[simp] theorem wrw_arch (d : Dev) (a : Nat) (v : Word) : (d.wrw a v).arch = d.arch := (rfl)
@[simp] theorem wrw_circ (d : Dev) (a : Nat) (v : Word) : (d.wrw a v).circ = d.circ := (rfl)
@[simp] theorem wrw_eths (d : Dev) (a : Nat) (v : Word) : (d.wrw a v).eths = d.eths := (rfl)
@[simp] theorem wrw_cans (d : Dev) (a : Nat) (v : Word) : (d.wrw a v).cans = d.cans := (rfl)
@[simp] theorem wrw_dpl (d : Dev) (a : Nat) (v : Word) : (d.wrw a v).dpl = d.dpl := (rfl)
@[simp] theorem wrw_clk (d : Dev) (a : Nat) (v : Word) : (d.wrw a v).clk = d.clk := (rfl)
@[simp] theorem wrw_pwr (d : Dev) (a : Nat) (v : Word) : (d.wrw a v).pwr = d.pwr := (rfl)
@[simp] theorem wrw_caches (d : Dev) (a : Nat) (v : Word) : (d.wrw a v).caches = d.caches := (rfl)
@[simp] theorem wrw_resv (d : Dev) (a : Nat) (v : Word) : (d.wrw a v).resv = d.resv := (rfl)
@[simp] theorem wrw_rowHits (d : Dev) (a : Nat) (v : Word) : (d.wrw a v).rowHits = d.rowHits := (rfl)

@[simp] theorem set_hoop (d : Dev) (f : Fld) (v : Nat) : (d.set f v).hoop = d.hoop := (rfl)
@[simp] theorem set_sys (d : Dev) (f : Fld) (v : Nat) : (d.set f v).sys = d.sys := (rfl)
@[simp] theorem set_cfg (d : Dev) (f : Fld) (v : Nat) : (d.set f v).cfg = d.cfg := (rfl)
@[simp] theorem set_pat (d : Dev) (f : Fld) (v : Nat) : (d.set f v).pat = d.pat := (rfl)
@[simp] theorem set_lanes (d : Dev) (f : Fld) (v : Nat) : (d.set f v).lanes = d.lanes := (rfl)
@[simp] theorem set_lc (d : Dev) (f : Fld) (v : Nat) : (d.set f v).lc = d.lc := (rfl)
@[simp] theorem set_legs (d : Dev) (f : Fld) (v : Nat) : (d.set f v).legs = d.legs := (rfl)
@[simp] theorem set_gsup (d : Dev) (f : Fld) (v : Nat) : (d.set f v).gsup = d.gsup := (rfl)
@[simp] theorem set_repair (d : Dev) (f : Fld) (v : Nat) : (d.set f v).repair = d.repair := (rfl)
@[simp] theorem set_dead (d : Dev) (f : Fld) (v : Nat) : (d.set f v).dead = d.dead := (rfl)
@[simp] theorem set_weak (d : Dev) (f : Fld) (v : Nat) : (d.set f v).weak = d.weak := (rfl)
@[simp] theorem set_withdrawn (d : Dev) (f : Fld) (v : Nat) : (d.set f v).withdrawn = d.withdrawn := (rfl)
@[simp] theorem set_acc (d : Dev) (f : Fld) (v : Nat) : (d.set f v).acc = d.acc := (rfl)
@[simp] theorem set_time (d : Dev) (f : Fld) (v : Nat) : (d.set f v).time = d.time := (rfl)
@[simp] theorem set_resp (d : Dev) (f : Fld) (v : Nat) : (d.set f v).resp = d.resp := (rfl)
@[simp] theorem set_dbg (d : Dev) (f : Fld) (v : Nat) : (d.set f v).dbg = d.dbg := (rfl)
@[simp] theorem set_cmps (d : Dev) (f : Fld) (v : Nat) : (d.set f v).cmps = d.cmps := (rfl)
@[simp] theorem set_slotDue (d : Dev) (f : Fld) (v : Nat) : (d.set f v).slotDue = d.slotDue := (rfl)
@[simp] theorem set_free (d : Dev) (f : Fld) (v : Nat) : (d.set f v).free = d.free := (rfl)
@[simp] theorem set_adcs (d : Dev) (f : Fld) (v : Nat) : (d.set f v).adcs = d.adcs := (rfl)
@[simp] theorem set_sds (d : Dev) (f : Fld) (v : Nat) : (d.set f v).sds = d.sds := (rfl)
@[simp] theorem set_sdmCycle (d : Dev) (f : Fld) (v : Nat) : (d.set f v).sdmCycle = d.sdmCycle := (rfl)
@[simp] theorem set_iso (d : Dev) (f : Fld) (v : Nat) : (d.set f v).iso = d.iso := (rfl)
@[simp] theorem set_otp (d : Dev) (f : Fld) (v : Nat) : (d.set f v).otp = d.otp := (rfl)
@[simp] theorem set_led (d : Dev) (f : Fld) (v : Nat) : (d.set f v).led = d.led := (rfl)
@[simp] theorem set_arch (d : Dev) (f : Fld) (v : Nat) : (d.set f v).arch = d.arch := (rfl)
@[simp] theorem set_circ (d : Dev) (f : Fld) (v : Nat) : (d.set f v).circ = d.circ := (rfl)
@[simp] theorem set_eths (d : Dev) (f : Fld) (v : Nat) : (d.set f v).eths = d.eths := (rfl)
@[simp] theorem set_cans (d : Dev) (f : Fld) (v : Nat) : (d.set f v).cans = d.cans := (rfl)
@[simp] theorem set_dpl (d : Dev) (f : Fld) (v : Nat) : (d.set f v).dpl = d.dpl := (rfl)
@[simp] theorem set_clk (d : Dev) (f : Fld) (v : Nat) : (d.set f v).clk = d.clk := (rfl)
@[simp] theorem set_pwr (d : Dev) (f : Fld) (v : Nat) : (d.set f v).pwr = d.pwr := (rfl)
@[simp] theorem set_caches (d : Dev) (f : Fld) (v : Nat) : (d.set f v).caches = d.caches := (rfl)
@[simp] theorem set_resv (d : Dev) (f : Fld) (v : Nat) : (d.set f v).resv = d.resv := (rfl)
@[simp] theorem set_rowHits (d : Dev) (f : Fld) (v : Nat) : (d.set f v).rowHits = d.rowHits := (rfl)

@[simp] theorem setB_hoop (d : Dev) (f : Fld) (b : Bool) : (d.setB f b).hoop = d.hoop := (rfl)
@[simp] theorem setB_sys (d : Dev) (f : Fld) (b : Bool) : (d.setB f b).sys = d.sys := (rfl)
@[simp] theorem setB_cfg (d : Dev) (f : Fld) (b : Bool) : (d.setB f b).cfg = d.cfg := (rfl)
@[simp] theorem setB_pat (d : Dev) (f : Fld) (b : Bool) : (d.setB f b).pat = d.pat := (rfl)
@[simp] theorem setB_lanes (d : Dev) (f : Fld) (b : Bool) : (d.setB f b).lanes = d.lanes := (rfl)
@[simp] theorem setB_lc (d : Dev) (f : Fld) (b : Bool) : (d.setB f b).lc = d.lc := (rfl)
@[simp] theorem setB_legs (d : Dev) (f : Fld) (b : Bool) : (d.setB f b).legs = d.legs := (rfl)
@[simp] theorem setB_gsup (d : Dev) (f : Fld) (b : Bool) : (d.setB f b).gsup = d.gsup := (rfl)
@[simp] theorem setB_repair (d : Dev) (f : Fld) (b : Bool) : (d.setB f b).repair = d.repair := (rfl)
@[simp] theorem setB_dead (d : Dev) (f : Fld) (b : Bool) : (d.setB f b).dead = d.dead := (rfl)
@[simp] theorem setB_weak (d : Dev) (f : Fld) (b : Bool) : (d.setB f b).weak = d.weak := (rfl)
@[simp] theorem setB_withdrawn (d : Dev) (f : Fld) (b : Bool) : (d.setB f b).withdrawn = d.withdrawn := (rfl)
@[simp] theorem setB_acc (d : Dev) (f : Fld) (b : Bool) : (d.setB f b).acc = d.acc := (rfl)
@[simp] theorem setB_time (d : Dev) (f : Fld) (b : Bool) : (d.setB f b).time = d.time := (rfl)
@[simp] theorem setB_resp (d : Dev) (f : Fld) (b : Bool) : (d.setB f b).resp = d.resp := (rfl)
@[simp] theorem setB_dbg (d : Dev) (f : Fld) (b : Bool) : (d.setB f b).dbg = d.dbg := (rfl)
@[simp] theorem setB_cmps (d : Dev) (f : Fld) (b : Bool) : (d.setB f b).cmps = d.cmps := (rfl)
@[simp] theorem setB_slotDue (d : Dev) (f : Fld) (b : Bool) : (d.setB f b).slotDue = d.slotDue := (rfl)
@[simp] theorem setB_free (d : Dev) (f : Fld) (b : Bool) : (d.setB f b).free = d.free := (rfl)
@[simp] theorem setB_adcs (d : Dev) (f : Fld) (b : Bool) : (d.setB f b).adcs = d.adcs := (rfl)
@[simp] theorem setB_sds (d : Dev) (f : Fld) (b : Bool) : (d.setB f b).sds = d.sds := (rfl)
@[simp] theorem setB_sdmCycle (d : Dev) (f : Fld) (b : Bool) : (d.setB f b).sdmCycle = d.sdmCycle := (rfl)
@[simp] theorem setB_iso (d : Dev) (f : Fld) (b : Bool) : (d.setB f b).iso = d.iso := (rfl)
@[simp] theorem setB_otp (d : Dev) (f : Fld) (b : Bool) : (d.setB f b).otp = d.otp := (rfl)
@[simp] theorem setB_led (d : Dev) (f : Fld) (b : Bool) : (d.setB f b).led = d.led := (rfl)
@[simp] theorem setB_arch (d : Dev) (f : Fld) (b : Bool) : (d.setB f b).arch = d.arch := (rfl)
@[simp] theorem setB_circ (d : Dev) (f : Fld) (b : Bool) : (d.setB f b).circ = d.circ := (rfl)
@[simp] theorem setB_eths (d : Dev) (f : Fld) (b : Bool) : (d.setB f b).eths = d.eths := (rfl)
@[simp] theorem setB_cans (d : Dev) (f : Fld) (b : Bool) : (d.setB f b).cans = d.cans := (rfl)
@[simp] theorem setB_dpl (d : Dev) (f : Fld) (b : Bool) : (d.setB f b).dpl = d.dpl := (rfl)
@[simp] theorem setB_clk (d : Dev) (f : Fld) (b : Bool) : (d.setB f b).clk = d.clk := (rfl)
@[simp] theorem setB_pwr (d : Dev) (f : Fld) (b : Bool) : (d.setB f b).pwr = d.pwr := (rfl)
@[simp] theorem setB_caches (d : Dev) (f : Fld) (b : Bool) : (d.setB f b).caches = d.caches := (rfl)
@[simp] theorem setB_resv (d : Dev) (f : Fld) (b : Bool) : (d.setB f b).resv = d.resv := (rfl)
@[simp] theorem setB_rowHits (d : Dev) (f : Fld) (b : Bool) : (d.setB f b).rowHits = d.rowHits := (rfl)

@[simp] theorem incSat_hoop (d : Dev) (f : Fld) (k : Nat) : (d.incSat f k).hoop = d.hoop := (rfl)
@[simp] theorem incSat_sys (d : Dev) (f : Fld) (k : Nat) : (d.incSat f k).sys = d.sys := (rfl)
@[simp] theorem incSat_cfg (d : Dev) (f : Fld) (k : Nat) : (d.incSat f k).cfg = d.cfg := (rfl)
@[simp] theorem incSat_pat (d : Dev) (f : Fld) (k : Nat) : (d.incSat f k).pat = d.pat := (rfl)
@[simp] theorem incSat_lanes (d : Dev) (f : Fld) (k : Nat) : (d.incSat f k).lanes = d.lanes := (rfl)
@[simp] theorem incSat_lc (d : Dev) (f : Fld) (k : Nat) : (d.incSat f k).lc = d.lc := (rfl)
@[simp] theorem incSat_legs (d : Dev) (f : Fld) (k : Nat) : (d.incSat f k).legs = d.legs := (rfl)
@[simp] theorem incSat_gsup (d : Dev) (f : Fld) (k : Nat) : (d.incSat f k).gsup = d.gsup := (rfl)
@[simp] theorem incSat_repair (d : Dev) (f : Fld) (k : Nat) : (d.incSat f k).repair = d.repair := (rfl)
@[simp] theorem incSat_dead (d : Dev) (f : Fld) (k : Nat) : (d.incSat f k).dead = d.dead := (rfl)
@[simp] theorem incSat_weak (d : Dev) (f : Fld) (k : Nat) : (d.incSat f k).weak = d.weak := (rfl)
@[simp] theorem incSat_withdrawn (d : Dev) (f : Fld) (k : Nat) : (d.incSat f k).withdrawn = d.withdrawn := (rfl)
@[simp] theorem incSat_acc (d : Dev) (f : Fld) (k : Nat) : (d.incSat f k).acc = d.acc := (rfl)
@[simp] theorem incSat_time (d : Dev) (f : Fld) (k : Nat) : (d.incSat f k).time = d.time := (rfl)
@[simp] theorem incSat_resp (d : Dev) (f : Fld) (k : Nat) : (d.incSat f k).resp = d.resp := (rfl)
@[simp] theorem incSat_dbg (d : Dev) (f : Fld) (k : Nat) : (d.incSat f k).dbg = d.dbg := (rfl)
@[simp] theorem incSat_cmps (d : Dev) (f : Fld) (k : Nat) : (d.incSat f k).cmps = d.cmps := (rfl)
@[simp] theorem incSat_slotDue (d : Dev) (f : Fld) (k : Nat) : (d.incSat f k).slotDue = d.slotDue := (rfl)
@[simp] theorem incSat_free (d : Dev) (f : Fld) (k : Nat) : (d.incSat f k).free = d.free := (rfl)
@[simp] theorem incSat_adcs (d : Dev) (f : Fld) (k : Nat) : (d.incSat f k).adcs = d.adcs := (rfl)
@[simp] theorem incSat_sds (d : Dev) (f : Fld) (k : Nat) : (d.incSat f k).sds = d.sds := (rfl)
@[simp] theorem incSat_sdmCycle (d : Dev) (f : Fld) (k : Nat) : (d.incSat f k).sdmCycle = d.sdmCycle := (rfl)
@[simp] theorem incSat_iso (d : Dev) (f : Fld) (k : Nat) : (d.incSat f k).iso = d.iso := (rfl)
@[simp] theorem incSat_otp (d : Dev) (f : Fld) (k : Nat) : (d.incSat f k).otp = d.otp := (rfl)
@[simp] theorem incSat_led (d : Dev) (f : Fld) (k : Nat) : (d.incSat f k).led = d.led := (rfl)
@[simp] theorem incSat_arch (d : Dev) (f : Fld) (k : Nat) : (d.incSat f k).arch = d.arch := (rfl)
@[simp] theorem incSat_circ (d : Dev) (f : Fld) (k : Nat) : (d.incSat f k).circ = d.circ := (rfl)
@[simp] theorem incSat_eths (d : Dev) (f : Fld) (k : Nat) : (d.incSat f k).eths = d.eths := (rfl)
@[simp] theorem incSat_cans (d : Dev) (f : Fld) (k : Nat) : (d.incSat f k).cans = d.cans := (rfl)
@[simp] theorem incSat_dpl (d : Dev) (f : Fld) (k : Nat) : (d.incSat f k).dpl = d.dpl := (rfl)
@[simp] theorem incSat_clk (d : Dev) (f : Fld) (k : Nat) : (d.incSat f k).clk = d.clk := (rfl)
@[simp] theorem incSat_pwr (d : Dev) (f : Fld) (k : Nat) : (d.incSat f k).pwr = d.pwr := (rfl)
@[simp] theorem incSat_caches (d : Dev) (f : Fld) (k : Nat) : (d.incSat f k).caches = d.caches := (rfl)
@[simp] theorem incSat_resv (d : Dev) (f : Fld) (k : Nat) : (d.incSat f k).resv = d.resv := (rfl)
@[simp] theorem incSat_rowHits (d : Dev) (f : Fld) (k : Nat) : (d.incSat f k).rowHits = d.rowHits := (rfl)

@[simp] theorem incWrap_hoop (d : Dev) (f : Fld) (k : Nat) : (d.incWrap f k).hoop = d.hoop := (rfl)
@[simp] theorem incWrap_sys (d : Dev) (f : Fld) (k : Nat) : (d.incWrap f k).sys = d.sys := (rfl)
@[simp] theorem incWrap_cfg (d : Dev) (f : Fld) (k : Nat) : (d.incWrap f k).cfg = d.cfg := (rfl)
@[simp] theorem incWrap_pat (d : Dev) (f : Fld) (k : Nat) : (d.incWrap f k).pat = d.pat := (rfl)
@[simp] theorem incWrap_lanes (d : Dev) (f : Fld) (k : Nat) : (d.incWrap f k).lanes = d.lanes := (rfl)
@[simp] theorem incWrap_lc (d : Dev) (f : Fld) (k : Nat) : (d.incWrap f k).lc = d.lc := (rfl)
@[simp] theorem incWrap_legs (d : Dev) (f : Fld) (k : Nat) : (d.incWrap f k).legs = d.legs := (rfl)
@[simp] theorem incWrap_gsup (d : Dev) (f : Fld) (k : Nat) : (d.incWrap f k).gsup = d.gsup := (rfl)
@[simp] theorem incWrap_repair (d : Dev) (f : Fld) (k : Nat) : (d.incWrap f k).repair = d.repair := (rfl)
@[simp] theorem incWrap_dead (d : Dev) (f : Fld) (k : Nat) : (d.incWrap f k).dead = d.dead := (rfl)
@[simp] theorem incWrap_weak (d : Dev) (f : Fld) (k : Nat) : (d.incWrap f k).weak = d.weak := (rfl)
@[simp] theorem incWrap_withdrawn (d : Dev) (f : Fld) (k : Nat) : (d.incWrap f k).withdrawn = d.withdrawn := (rfl)
@[simp] theorem incWrap_acc (d : Dev) (f : Fld) (k : Nat) : (d.incWrap f k).acc = d.acc := (rfl)
@[simp] theorem incWrap_time (d : Dev) (f : Fld) (k : Nat) : (d.incWrap f k).time = d.time := (rfl)
@[simp] theorem incWrap_resp (d : Dev) (f : Fld) (k : Nat) : (d.incWrap f k).resp = d.resp := (rfl)
@[simp] theorem incWrap_dbg (d : Dev) (f : Fld) (k : Nat) : (d.incWrap f k).dbg = d.dbg := (rfl)
@[simp] theorem incWrap_cmps (d : Dev) (f : Fld) (k : Nat) : (d.incWrap f k).cmps = d.cmps := (rfl)
@[simp] theorem incWrap_slotDue (d : Dev) (f : Fld) (k : Nat) : (d.incWrap f k).slotDue = d.slotDue := (rfl)
@[simp] theorem incWrap_free (d : Dev) (f : Fld) (k : Nat) : (d.incWrap f k).free = d.free := (rfl)
@[simp] theorem incWrap_adcs (d : Dev) (f : Fld) (k : Nat) : (d.incWrap f k).adcs = d.adcs := (rfl)
@[simp] theorem incWrap_sds (d : Dev) (f : Fld) (k : Nat) : (d.incWrap f k).sds = d.sds := (rfl)
@[simp] theorem incWrap_sdmCycle (d : Dev) (f : Fld) (k : Nat) : (d.incWrap f k).sdmCycle = d.sdmCycle := (rfl)
@[simp] theorem incWrap_iso (d : Dev) (f : Fld) (k : Nat) : (d.incWrap f k).iso = d.iso := (rfl)
@[simp] theorem incWrap_otp (d : Dev) (f : Fld) (k : Nat) : (d.incWrap f k).otp = d.otp := (rfl)
@[simp] theorem incWrap_led (d : Dev) (f : Fld) (k : Nat) : (d.incWrap f k).led = d.led := (rfl)
@[simp] theorem incWrap_arch (d : Dev) (f : Fld) (k : Nat) : (d.incWrap f k).arch = d.arch := (rfl)
@[simp] theorem incWrap_circ (d : Dev) (f : Fld) (k : Nat) : (d.incWrap f k).circ = d.circ := (rfl)
@[simp] theorem incWrap_eths (d : Dev) (f : Fld) (k : Nat) : (d.incWrap f k).eths = d.eths := (rfl)
@[simp] theorem incWrap_cans (d : Dev) (f : Fld) (k : Nat) : (d.incWrap f k).cans = d.cans := (rfl)
@[simp] theorem incWrap_dpl (d : Dev) (f : Fld) (k : Nat) : (d.incWrap f k).dpl = d.dpl := (rfl)
@[simp] theorem incWrap_clk (d : Dev) (f : Fld) (k : Nat) : (d.incWrap f k).clk = d.clk := (rfl)
@[simp] theorem incWrap_pwr (d : Dev) (f : Fld) (k : Nat) : (d.incWrap f k).pwr = d.pwr := (rfl)
@[simp] theorem incWrap_caches (d : Dev) (f : Fld) (k : Nat) : (d.incWrap f k).caches = d.caches := (rfl)
@[simp] theorem incWrap_resv (d : Dev) (f : Fld) (k : Nat) : (d.incWrap f k).resv = d.resv := (rfl)
@[simp] theorem incWrap_rowHits (d : Dev) (f : Fld) (k : Nat) : (d.incWrap f k).rowHits = d.rowHits := (rfl)

theorem setBit_eq (d : Dev) (f : Nat → Fld) (i : Nat) (b : Bool) : d.setBit f i b = { d with regs := (d.setBit f i b).regs } := by simp only [setBit]; split <;> rfl
@[simp] theorem setBit_hoop (d : Dev) (f : Nat → Fld) (i : Nat) (b : Bool) : (d.setBit f i b).hoop = d.hoop := (congrArg Dev.hoop (d.setBit_eq f i b)).trans rfl
@[simp] theorem setBit_sys (d : Dev) (f : Nat → Fld) (i : Nat) (b : Bool) : (d.setBit f i b).sys = d.sys := (congrArg Dev.sys (d.setBit_eq f i b)).trans rfl
@[simp] theorem setBit_cfg (d : Dev) (f : Nat → Fld) (i : Nat) (b : Bool) : (d.setBit f i b).cfg = d.cfg := (congrArg Dev.cfg (d.setBit_eq f i b)).trans rfl
@[simp] theorem setBit_pat (d : Dev) (f : Nat → Fld) (i : Nat) (b : Bool) : (d.setBit f i b).pat = d.pat := (congrArg Dev.pat (d.setBit_eq f i b)).trans rfl
@[simp] theorem setBit_lanes (d : Dev) (f : Nat → Fld) (i : Nat) (b : Bool) : (d.setBit f i b).lanes = d.lanes := (congrArg Dev.lanes (d.setBit_eq f i b)).trans rfl
@[simp] theorem setBit_lc (d : Dev) (f : Nat → Fld) (i : Nat) (b : Bool) : (d.setBit f i b).lc = d.lc := (congrArg Dev.lc (d.setBit_eq f i b)).trans rfl
@[simp] theorem setBit_legs (d : Dev) (f : Nat → Fld) (i : Nat) (b : Bool) : (d.setBit f i b).legs = d.legs := (congrArg Dev.legs (d.setBit_eq f i b)).trans rfl
@[simp] theorem setBit_gsup (d : Dev) (f : Nat → Fld) (i : Nat) (b : Bool) : (d.setBit f i b).gsup = d.gsup := (congrArg Dev.gsup (d.setBit_eq f i b)).trans rfl
@[simp] theorem setBit_repair (d : Dev) (f : Nat → Fld) (i : Nat) (b : Bool) : (d.setBit f i b).repair = d.repair := (congrArg Dev.repair (d.setBit_eq f i b)).trans rfl
@[simp] theorem setBit_dead (d : Dev) (f : Nat → Fld) (i : Nat) (b : Bool) : (d.setBit f i b).dead = d.dead := (congrArg Dev.dead (d.setBit_eq f i b)).trans rfl
@[simp] theorem setBit_weak (d : Dev) (f : Nat → Fld) (i : Nat) (b : Bool) : (d.setBit f i b).weak = d.weak := (congrArg Dev.weak (d.setBit_eq f i b)).trans rfl
@[simp] theorem setBit_withdrawn (d : Dev) (f : Nat → Fld) (i : Nat) (b : Bool) : (d.setBit f i b).withdrawn = d.withdrawn := (congrArg Dev.withdrawn (d.setBit_eq f i b)).trans rfl
@[simp] theorem setBit_acc (d : Dev) (f : Nat → Fld) (i : Nat) (b : Bool) : (d.setBit f i b).acc = d.acc := (congrArg Dev.acc (d.setBit_eq f i b)).trans rfl
@[simp] theorem setBit_time (d : Dev) (f : Nat → Fld) (i : Nat) (b : Bool) : (d.setBit f i b).time = d.time := (congrArg Dev.time (d.setBit_eq f i b)).trans rfl
@[simp] theorem setBit_resp (d : Dev) (f : Nat → Fld) (i : Nat) (b : Bool) : (d.setBit f i b).resp = d.resp := (congrArg Dev.resp (d.setBit_eq f i b)).trans rfl
@[simp] theorem setBit_dbg (d : Dev) (f : Nat → Fld) (i : Nat) (b : Bool) : (d.setBit f i b).dbg = d.dbg := (congrArg Dev.dbg (d.setBit_eq f i b)).trans rfl
@[simp] theorem setBit_cmps (d : Dev) (f : Nat → Fld) (i : Nat) (b : Bool) : (d.setBit f i b).cmps = d.cmps := (congrArg Dev.cmps (d.setBit_eq f i b)).trans rfl
@[simp] theorem setBit_slotDue (d : Dev) (f : Nat → Fld) (i : Nat) (b : Bool) : (d.setBit f i b).slotDue = d.slotDue := (congrArg Dev.slotDue (d.setBit_eq f i b)).trans rfl
@[simp] theorem setBit_free (d : Dev) (f : Nat → Fld) (i : Nat) (b : Bool) : (d.setBit f i b).free = d.free := (congrArg Dev.free (d.setBit_eq f i b)).trans rfl
@[simp] theorem setBit_adcs (d : Dev) (f : Nat → Fld) (i : Nat) (b : Bool) : (d.setBit f i b).adcs = d.adcs := (congrArg Dev.adcs (d.setBit_eq f i b)).trans rfl
@[simp] theorem setBit_sds (d : Dev) (f : Nat → Fld) (i : Nat) (b : Bool) : (d.setBit f i b).sds = d.sds := (congrArg Dev.sds (d.setBit_eq f i b)).trans rfl
@[simp] theorem setBit_sdmCycle (d : Dev) (f : Nat → Fld) (i : Nat) (b : Bool) : (d.setBit f i b).sdmCycle = d.sdmCycle := (congrArg Dev.sdmCycle (d.setBit_eq f i b)).trans rfl
@[simp] theorem setBit_iso (d : Dev) (f : Nat → Fld) (i : Nat) (b : Bool) : (d.setBit f i b).iso = d.iso := (congrArg Dev.iso (d.setBit_eq f i b)).trans rfl
@[simp] theorem setBit_otp (d : Dev) (f : Nat → Fld) (i : Nat) (b : Bool) : (d.setBit f i b).otp = d.otp := (congrArg Dev.otp (d.setBit_eq f i b)).trans rfl
@[simp] theorem setBit_led (d : Dev) (f : Nat → Fld) (i : Nat) (b : Bool) : (d.setBit f i b).led = d.led := (congrArg Dev.led (d.setBit_eq f i b)).trans rfl
@[simp] theorem setBit_arch (d : Dev) (f : Nat → Fld) (i : Nat) (b : Bool) : (d.setBit f i b).arch = d.arch := (congrArg Dev.arch (d.setBit_eq f i b)).trans rfl
@[simp] theorem setBit_circ (d : Dev) (f : Nat → Fld) (i : Nat) (b : Bool) : (d.setBit f i b).circ = d.circ := (congrArg Dev.circ (d.setBit_eq f i b)).trans rfl
@[simp] theorem setBit_eths (d : Dev) (f : Nat → Fld) (i : Nat) (b : Bool) : (d.setBit f i b).eths = d.eths := (congrArg Dev.eths (d.setBit_eq f i b)).trans rfl
@[simp] theorem setBit_cans (d : Dev) (f : Nat → Fld) (i : Nat) (b : Bool) : (d.setBit f i b).cans = d.cans := (congrArg Dev.cans (d.setBit_eq f i b)).trans rfl
@[simp] theorem setBit_dpl (d : Dev) (f : Nat → Fld) (i : Nat) (b : Bool) : (d.setBit f i b).dpl = d.dpl := (congrArg Dev.dpl (d.setBit_eq f i b)).trans rfl
@[simp] theorem setBit_clk (d : Dev) (f : Nat → Fld) (i : Nat) (b : Bool) : (d.setBit f i b).clk = d.clk := (congrArg Dev.clk (d.setBit_eq f i b)).trans rfl
@[simp] theorem setBit_pwr (d : Dev) (f : Nat → Fld) (i : Nat) (b : Bool) : (d.setBit f i b).pwr = d.pwr := (congrArg Dev.pwr (d.setBit_eq f i b)).trans rfl
@[simp] theorem setBit_caches (d : Dev) (f : Nat → Fld) (i : Nat) (b : Bool) : (d.setBit f i b).caches = d.caches := (congrArg Dev.caches (d.setBit_eq f i b)).trans rfl
@[simp] theorem setBit_resv (d : Dev) (f : Nat → Fld) (i : Nat) (b : Bool) : (d.setBit f i b).resv = d.resv := (congrArg Dev.resv (d.setBit_eq f i b)).trans rfl
@[simp] theorem setBit_rowHits (d : Dev) (f : Nat → Fld) (i : Nat) (b : Bool) : (d.setBit f i b).rowHits = d.rowHits := (congrArg Dev.rowHits (d.setBit_eq f i b)).trans rfl

theorem setCond_eq (d : Dev) (src : Nat) (b : Bool) : d.setCond src b = { d with regs := (d.setCond src b).regs } := Dev.setBit_eq _ _ _ _
@[simp] theorem setCond_hoop (d : Dev) (src : Nat) (b : Bool) : (d.setCond src b).hoop = d.hoop := (congrArg Dev.hoop (d.setCond_eq src b)).trans rfl
@[simp] theorem setCond_sys (d : Dev) (src : Nat) (b : Bool) : (d.setCond src b).sys = d.sys := (congrArg Dev.sys (d.setCond_eq src b)).trans rfl
@[simp] theorem setCond_cfg (d : Dev) (src : Nat) (b : Bool) : (d.setCond src b).cfg = d.cfg := (congrArg Dev.cfg (d.setCond_eq src b)).trans rfl
@[simp] theorem setCond_pat (d : Dev) (src : Nat) (b : Bool) : (d.setCond src b).pat = d.pat := (congrArg Dev.pat (d.setCond_eq src b)).trans rfl
@[simp] theorem setCond_lanes (d : Dev) (src : Nat) (b : Bool) : (d.setCond src b).lanes = d.lanes := (congrArg Dev.lanes (d.setCond_eq src b)).trans rfl
@[simp] theorem setCond_lc (d : Dev) (src : Nat) (b : Bool) : (d.setCond src b).lc = d.lc := (congrArg Dev.lc (d.setCond_eq src b)).trans rfl
@[simp] theorem setCond_legs (d : Dev) (src : Nat) (b : Bool) : (d.setCond src b).legs = d.legs := (congrArg Dev.legs (d.setCond_eq src b)).trans rfl
@[simp] theorem setCond_gsup (d : Dev) (src : Nat) (b : Bool) : (d.setCond src b).gsup = d.gsup := (congrArg Dev.gsup (d.setCond_eq src b)).trans rfl
@[simp] theorem setCond_repair (d : Dev) (src : Nat) (b : Bool) : (d.setCond src b).repair = d.repair := (congrArg Dev.repair (d.setCond_eq src b)).trans rfl
@[simp] theorem setCond_dead (d : Dev) (src : Nat) (b : Bool) : (d.setCond src b).dead = d.dead := (congrArg Dev.dead (d.setCond_eq src b)).trans rfl
@[simp] theorem setCond_weak (d : Dev) (src : Nat) (b : Bool) : (d.setCond src b).weak = d.weak := (congrArg Dev.weak (d.setCond_eq src b)).trans rfl
@[simp] theorem setCond_withdrawn (d : Dev) (src : Nat) (b : Bool) : (d.setCond src b).withdrawn = d.withdrawn := (congrArg Dev.withdrawn (d.setCond_eq src b)).trans rfl
@[simp] theorem setCond_acc (d : Dev) (src : Nat) (b : Bool) : (d.setCond src b).acc = d.acc := (congrArg Dev.acc (d.setCond_eq src b)).trans rfl
@[simp] theorem setCond_time (d : Dev) (src : Nat) (b : Bool) : (d.setCond src b).time = d.time := (congrArg Dev.time (d.setCond_eq src b)).trans rfl
@[simp] theorem setCond_resp (d : Dev) (src : Nat) (b : Bool) : (d.setCond src b).resp = d.resp := (congrArg Dev.resp (d.setCond_eq src b)).trans rfl
@[simp] theorem setCond_dbg (d : Dev) (src : Nat) (b : Bool) : (d.setCond src b).dbg = d.dbg := (congrArg Dev.dbg (d.setCond_eq src b)).trans rfl
@[simp] theorem setCond_cmps (d : Dev) (src : Nat) (b : Bool) : (d.setCond src b).cmps = d.cmps := (congrArg Dev.cmps (d.setCond_eq src b)).trans rfl
@[simp] theorem setCond_slotDue (d : Dev) (src : Nat) (b : Bool) : (d.setCond src b).slotDue = d.slotDue := (congrArg Dev.slotDue (d.setCond_eq src b)).trans rfl
@[simp] theorem setCond_free (d : Dev) (src : Nat) (b : Bool) : (d.setCond src b).free = d.free := (congrArg Dev.free (d.setCond_eq src b)).trans rfl
@[simp] theorem setCond_adcs (d : Dev) (src : Nat) (b : Bool) : (d.setCond src b).adcs = d.adcs := (congrArg Dev.adcs (d.setCond_eq src b)).trans rfl
@[simp] theorem setCond_sds (d : Dev) (src : Nat) (b : Bool) : (d.setCond src b).sds = d.sds := (congrArg Dev.sds (d.setCond_eq src b)).trans rfl
@[simp] theorem setCond_sdmCycle (d : Dev) (src : Nat) (b : Bool) : (d.setCond src b).sdmCycle = d.sdmCycle := (congrArg Dev.sdmCycle (d.setCond_eq src b)).trans rfl
@[simp] theorem setCond_iso (d : Dev) (src : Nat) (b : Bool) : (d.setCond src b).iso = d.iso := (congrArg Dev.iso (d.setCond_eq src b)).trans rfl
@[simp] theorem setCond_otp (d : Dev) (src : Nat) (b : Bool) : (d.setCond src b).otp = d.otp := (congrArg Dev.otp (d.setCond_eq src b)).trans rfl
@[simp] theorem setCond_led (d : Dev) (src : Nat) (b : Bool) : (d.setCond src b).led = d.led := (congrArg Dev.led (d.setCond_eq src b)).trans rfl
@[simp] theorem setCond_arch (d : Dev) (src : Nat) (b : Bool) : (d.setCond src b).arch = d.arch := (congrArg Dev.arch (d.setCond_eq src b)).trans rfl
@[simp] theorem setCond_circ (d : Dev) (src : Nat) (b : Bool) : (d.setCond src b).circ = d.circ := (congrArg Dev.circ (d.setCond_eq src b)).trans rfl
@[simp] theorem setCond_eths (d : Dev) (src : Nat) (b : Bool) : (d.setCond src b).eths = d.eths := (congrArg Dev.eths (d.setCond_eq src b)).trans rfl
@[simp] theorem setCond_cans (d : Dev) (src : Nat) (b : Bool) : (d.setCond src b).cans = d.cans := (congrArg Dev.cans (d.setCond_eq src b)).trans rfl
@[simp] theorem setCond_dpl (d : Dev) (src : Nat) (b : Bool) : (d.setCond src b).dpl = d.dpl := (congrArg Dev.dpl (d.setCond_eq src b)).trans rfl
@[simp] theorem setCond_clk (d : Dev) (src : Nat) (b : Bool) : (d.setCond src b).clk = d.clk := (congrArg Dev.clk (d.setCond_eq src b)).trans rfl
@[simp] theorem setCond_pwr (d : Dev) (src : Nat) (b : Bool) : (d.setCond src b).pwr = d.pwr := (congrArg Dev.pwr (d.setCond_eq src b)).trans rfl
@[simp] theorem setCond_caches (d : Dev) (src : Nat) (b : Bool) : (d.setCond src b).caches = d.caches := (congrArg Dev.caches (d.setCond_eq src b)).trans rfl
@[simp] theorem setCond_resv (d : Dev) (src : Nat) (b : Bool) : (d.setCond src b).resv = d.resv := (congrArg Dev.resv (d.setCond_eq src b)).trans rfl
@[simp] theorem setCond_rowHits (d : Dev) (src : Nat) (b : Bool) : (d.setCond src b).rowHits = d.rowHits := (congrArg Dev.rowHits (d.setCond_eq src b)).trans rfl

@[simp] theorem answer_regs (d : Dev) (n : Nat) (r : Resp) : (d.answer n r).regs = d.regs := (rfl)
@[simp] theorem answer_hoop (d : Dev) (n : Nat) (r : Resp) : (d.answer n r).hoop = d.hoop := (rfl)
@[simp] theorem answer_sys (d : Dev) (n : Nat) (r : Resp) : (d.answer n r).sys = d.sys := (rfl)
@[simp] theorem answer_cfg (d : Dev) (n : Nat) (r : Resp) : (d.answer n r).cfg = d.cfg := (rfl)
@[simp] theorem answer_pat (d : Dev) (n : Nat) (r : Resp) : (d.answer n r).pat = d.pat := (rfl)
@[simp] theorem answer_lanes (d : Dev) (n : Nat) (r : Resp) : (d.answer n r).lanes = d.lanes := (rfl)
@[simp] theorem answer_lc (d : Dev) (n : Nat) (r : Resp) : (d.answer n r).lc = d.lc := (rfl)
@[simp] theorem answer_legs (d : Dev) (n : Nat) (r : Resp) : (d.answer n r).legs = d.legs := (rfl)
@[simp] theorem answer_gsup (d : Dev) (n : Nat) (r : Resp) : (d.answer n r).gsup = d.gsup := (rfl)
@[simp] theorem answer_repair (d : Dev) (n : Nat) (r : Resp) : (d.answer n r).repair = d.repair := (rfl)
@[simp] theorem answer_dead (d : Dev) (n : Nat) (r : Resp) : (d.answer n r).dead = d.dead := (rfl)
@[simp] theorem answer_weak (d : Dev) (n : Nat) (r : Resp) : (d.answer n r).weak = d.weak := (rfl)
@[simp] theorem answer_withdrawn (d : Dev) (n : Nat) (r : Resp) : (d.answer n r).withdrawn = d.withdrawn := (rfl)
@[simp] theorem answer_acc (d : Dev) (n : Nat) (r : Resp) : (d.answer n r).acc = d.acc := (rfl)
@[simp] theorem answer_time (d : Dev) (n : Nat) (r : Resp) : (d.answer n r).time = d.time := (rfl)
@[simp] theorem answer_dbg (d : Dev) (n : Nat) (r : Resp) : (d.answer n r).dbg = d.dbg := (rfl)
@[simp] theorem answer_cmps (d : Dev) (n : Nat) (r : Resp) : (d.answer n r).cmps = d.cmps := (rfl)
@[simp] theorem answer_slotDue (d : Dev) (n : Nat) (r : Resp) : (d.answer n r).slotDue = d.slotDue := (rfl)
@[simp] theorem answer_free (d : Dev) (n : Nat) (r : Resp) : (d.answer n r).free = d.free := (rfl)
@[simp] theorem answer_adcs (d : Dev) (n : Nat) (r : Resp) : (d.answer n r).adcs = d.adcs := (rfl)
@[simp] theorem answer_sds (d : Dev) (n : Nat) (r : Resp) : (d.answer n r).sds = d.sds := (rfl)
@[simp] theorem answer_sdmCycle (d : Dev) (n : Nat) (r : Resp) : (d.answer n r).sdmCycle = d.sdmCycle := (rfl)
@[simp] theorem answer_iso (d : Dev) (n : Nat) (r : Resp) : (d.answer n r).iso = d.iso := (rfl)
@[simp] theorem answer_otp (d : Dev) (n : Nat) (r : Resp) : (d.answer n r).otp = d.otp := (rfl)
@[simp] theorem answer_led (d : Dev) (n : Nat) (r : Resp) : (d.answer n r).led = d.led := (rfl)
@[simp] theorem answer_arch (d : Dev) (n : Nat) (r : Resp) : (d.answer n r).arch = d.arch := (rfl)
@[simp] theorem answer_circ (d : Dev) (n : Nat) (r : Resp) : (d.answer n r).circ = d.circ := (rfl)
@[simp] theorem answer_eths (d : Dev) (n : Nat) (r : Resp) : (d.answer n r).eths = d.eths := (rfl)
@[simp] theorem answer_cans (d : Dev) (n : Nat) (r : Resp) : (d.answer n r).cans = d.cans := (rfl)
@[simp] theorem answer_dpl (d : Dev) (n : Nat) (r : Resp) : (d.answer n r).dpl = d.dpl := (rfl)
@[simp] theorem answer_clk (d : Dev) (n : Nat) (r : Resp) : (d.answer n r).clk = d.clk := (rfl)
@[simp] theorem answer_pwr (d : Dev) (n : Nat) (r : Resp) : (d.answer n r).pwr = d.pwr := (rfl)
@[simp] theorem answer_caches (d : Dev) (n : Nat) (r : Resp) : (d.answer n r).caches = d.caches := (rfl)
@[simp] theorem answer_resv (d : Dev) (n : Nat) (r : Resp) : (d.answer n r).resv = d.resv := (rfl)
@[simp] theorem answer_rowHits (d : Dev) (n : Nat) (r : Resp) : (d.answer n r).rowHits = d.rowHits := (rfl)

@[simp] theorem send_regs (d : Dev) (ch recv : Nat) (w : HWord) : (d.send ch recv w).regs = d.regs := (rfl)
@[simp] theorem send_sys (d : Dev) (ch recv : Nat) (w : HWord) : (d.send ch recv w).sys = d.sys := (rfl)
@[simp] theorem send_cfg (d : Dev) (ch recv : Nat) (w : HWord) : (d.send ch recv w).cfg = d.cfg := (rfl)
@[simp] theorem send_pat (d : Dev) (ch recv : Nat) (w : HWord) : (d.send ch recv w).pat = d.pat := (rfl)
@[simp] theorem send_lanes (d : Dev) (ch recv : Nat) (w : HWord) : (d.send ch recv w).lanes = d.lanes := (rfl)
@[simp] theorem send_lc (d : Dev) (ch recv : Nat) (w : HWord) : (d.send ch recv w).lc = d.lc := (rfl)
@[simp] theorem send_legs (d : Dev) (ch recv : Nat) (w : HWord) : (d.send ch recv w).legs = d.legs := (rfl)
@[simp] theorem send_gsup (d : Dev) (ch recv : Nat) (w : HWord) : (d.send ch recv w).gsup = d.gsup := (rfl)
@[simp] theorem send_repair (d : Dev) (ch recv : Nat) (w : HWord) : (d.send ch recv w).repair = d.repair := (rfl)
@[simp] theorem send_dead (d : Dev) (ch recv : Nat) (w : HWord) : (d.send ch recv w).dead = d.dead := (rfl)
@[simp] theorem send_weak (d : Dev) (ch recv : Nat) (w : HWord) : (d.send ch recv w).weak = d.weak := (rfl)
@[simp] theorem send_withdrawn (d : Dev) (ch recv : Nat) (w : HWord) : (d.send ch recv w).withdrawn = d.withdrawn := (rfl)
@[simp] theorem send_acc (d : Dev) (ch recv : Nat) (w : HWord) : (d.send ch recv w).acc = d.acc := (rfl)
@[simp] theorem send_time (d : Dev) (ch recv : Nat) (w : HWord) : (d.send ch recv w).time = d.time := (rfl)
@[simp] theorem send_resp (d : Dev) (ch recv : Nat) (w : HWord) : (d.send ch recv w).resp = d.resp := (rfl)
@[simp] theorem send_dbg (d : Dev) (ch recv : Nat) (w : HWord) : (d.send ch recv w).dbg = d.dbg := (rfl)
@[simp] theorem send_cmps (d : Dev) (ch recv : Nat) (w : HWord) : (d.send ch recv w).cmps = d.cmps := (rfl)
@[simp] theorem send_slotDue (d : Dev) (ch recv : Nat) (w : HWord) : (d.send ch recv w).slotDue = d.slotDue := (rfl)
@[simp] theorem send_free (d : Dev) (ch recv : Nat) (w : HWord) : (d.send ch recv w).free = d.free := (rfl)
@[simp] theorem send_adcs (d : Dev) (ch recv : Nat) (w : HWord) : (d.send ch recv w).adcs = d.adcs := (rfl)
@[simp] theorem send_sds (d : Dev) (ch recv : Nat) (w : HWord) : (d.send ch recv w).sds = d.sds := (rfl)
@[simp] theorem send_sdmCycle (d : Dev) (ch recv : Nat) (w : HWord) : (d.send ch recv w).sdmCycle = d.sdmCycle := (rfl)
@[simp] theorem send_iso (d : Dev) (ch recv : Nat) (w : HWord) : (d.send ch recv w).iso = d.iso := (rfl)
@[simp] theorem send_otp (d : Dev) (ch recv : Nat) (w : HWord) : (d.send ch recv w).otp = d.otp := (rfl)
@[simp] theorem send_led (d : Dev) (ch recv : Nat) (w : HWord) : (d.send ch recv w).led = d.led := (rfl)
@[simp] theorem send_arch (d : Dev) (ch recv : Nat) (w : HWord) : (d.send ch recv w).arch = d.arch := (rfl)
@[simp] theorem send_circ (d : Dev) (ch recv : Nat) (w : HWord) : (d.send ch recv w).circ = d.circ := (rfl)
@[simp] theorem send_eths (d : Dev) (ch recv : Nat) (w : HWord) : (d.send ch recv w).eths = d.eths := (rfl)
@[simp] theorem send_cans (d : Dev) (ch recv : Nat) (w : HWord) : (d.send ch recv w).cans = d.cans := (rfl)
@[simp] theorem send_dpl (d : Dev) (ch recv : Nat) (w : HWord) : (d.send ch recv w).dpl = d.dpl := (rfl)
@[simp] theorem send_clk (d : Dev) (ch recv : Nat) (w : HWord) : (d.send ch recv w).clk = d.clk := (rfl)
@[simp] theorem send_pwr (d : Dev) (ch recv : Nat) (w : HWord) : (d.send ch recv w).pwr = d.pwr := (rfl)
@[simp] theorem send_caches (d : Dev) (ch recv : Nat) (w : HWord) : (d.send ch recv w).caches = d.caches := (rfl)
@[simp] theorem send_resv (d : Dev) (ch recv : Nat) (w : HWord) : (d.send ch recv w).resv = d.resv := (rfl)
@[simp] theorem send_rowHits (d : Dev) (ch recv : Nat) (w : HWord) : (d.send ch recv w).rowHits = d.rowHits := (rfl)

@[simp] theorem raise_regs (d : Dev) (isl src ctx lane : Nat) : (d.raise isl src ctx lane).regs = d.regs := (rfl)
@[simp] theorem raise_sys (d : Dev) (isl src ctx lane : Nat) : (d.raise isl src ctx lane).sys = d.sys := (rfl)
@[simp] theorem raise_cfg (d : Dev) (isl src ctx lane : Nat) : (d.raise isl src ctx lane).cfg = d.cfg := (rfl)
@[simp] theorem raise_pat (d : Dev) (isl src ctx lane : Nat) : (d.raise isl src ctx lane).pat = d.pat := (rfl)
@[simp] theorem raise_lanes (d : Dev) (isl src ctx lane : Nat) : (d.raise isl src ctx lane).lanes = d.lanes := (rfl)
@[simp] theorem raise_lc (d : Dev) (isl src ctx lane : Nat) : (d.raise isl src ctx lane).lc = d.lc := (rfl)
@[simp] theorem raise_legs (d : Dev) (isl src ctx lane : Nat) : (d.raise isl src ctx lane).legs = d.legs := (rfl)
@[simp] theorem raise_gsup (d : Dev) (isl src ctx lane : Nat) : (d.raise isl src ctx lane).gsup = d.gsup := (rfl)
@[simp] theorem raise_repair (d : Dev) (isl src ctx lane : Nat) : (d.raise isl src ctx lane).repair = d.repair := (rfl)
@[simp] theorem raise_dead (d : Dev) (isl src ctx lane : Nat) : (d.raise isl src ctx lane).dead = d.dead := (rfl)
@[simp] theorem raise_weak (d : Dev) (isl src ctx lane : Nat) : (d.raise isl src ctx lane).weak = d.weak := (rfl)
@[simp] theorem raise_withdrawn (d : Dev) (isl src ctx lane : Nat) : (d.raise isl src ctx lane).withdrawn = d.withdrawn := (rfl)
@[simp] theorem raise_acc (d : Dev) (isl src ctx lane : Nat) : (d.raise isl src ctx lane).acc = d.acc := (rfl)
@[simp] theorem raise_time (d : Dev) (isl src ctx lane : Nat) : (d.raise isl src ctx lane).time = d.time := (rfl)
@[simp] theorem raise_resp (d : Dev) (isl src ctx lane : Nat) : (d.raise isl src ctx lane).resp = d.resp := (rfl)
@[simp] theorem raise_dbg (d : Dev) (isl src ctx lane : Nat) : (d.raise isl src ctx lane).dbg = d.dbg := (rfl)
@[simp] theorem raise_cmps (d : Dev) (isl src ctx lane : Nat) : (d.raise isl src ctx lane).cmps = d.cmps := (rfl)
@[simp] theorem raise_slotDue (d : Dev) (isl src ctx lane : Nat) : (d.raise isl src ctx lane).slotDue = d.slotDue := (rfl)
@[simp] theorem raise_free (d : Dev) (isl src ctx lane : Nat) : (d.raise isl src ctx lane).free = d.free := (rfl)
@[simp] theorem raise_adcs (d : Dev) (isl src ctx lane : Nat) : (d.raise isl src ctx lane).adcs = d.adcs := (rfl)
@[simp] theorem raise_sds (d : Dev) (isl src ctx lane : Nat) : (d.raise isl src ctx lane).sds = d.sds := (rfl)
@[simp] theorem raise_sdmCycle (d : Dev) (isl src ctx lane : Nat) : (d.raise isl src ctx lane).sdmCycle = d.sdmCycle := (rfl)
@[simp] theorem raise_iso (d : Dev) (isl src ctx lane : Nat) : (d.raise isl src ctx lane).iso = d.iso := (rfl)
@[simp] theorem raise_otp (d : Dev) (isl src ctx lane : Nat) : (d.raise isl src ctx lane).otp = d.otp := (rfl)
@[simp] theorem raise_led (d : Dev) (isl src ctx lane : Nat) : (d.raise isl src ctx lane).led = d.led := (rfl)
@[simp] theorem raise_arch (d : Dev) (isl src ctx lane : Nat) : (d.raise isl src ctx lane).arch = d.arch := (rfl)
@[simp] theorem raise_circ (d : Dev) (isl src ctx lane : Nat) : (d.raise isl src ctx lane).circ = d.circ := (rfl)
@[simp] theorem raise_eths (d : Dev) (isl src ctx lane : Nat) : (d.raise isl src ctx lane).eths = d.eths := (rfl)
@[simp] theorem raise_cans (d : Dev) (isl src ctx lane : Nat) : (d.raise isl src ctx lane).cans = d.cans := (rfl)
@[simp] theorem raise_dpl (d : Dev) (isl src ctx lane : Nat) : (d.raise isl src ctx lane).dpl = d.dpl := (rfl)
@[simp] theorem raise_clk (d : Dev) (isl src ctx lane : Nat) : (d.raise isl src ctx lane).clk = d.clk := (rfl)
@[simp] theorem raise_pwr (d : Dev) (isl src ctx lane : Nat) : (d.raise isl src ctx lane).pwr = d.pwr := (rfl)
@[simp] theorem raise_caches (d : Dev) (isl src ctx lane : Nat) : (d.raise isl src ctx lane).caches = d.caches := (rfl)
@[simp] theorem raise_resv (d : Dev) (isl src ctx lane : Nat) : (d.raise isl src ctx lane).resv = d.resv := (rfl)
@[simp] theorem raise_rowHits (d : Dev) (isl src ctx lane : Nat) : (d.raise isl src ctx lane).rowHits = d.rowHits := (rfl)

@[simp] theorem request_regs (d : Dev) (isl n : Nat) : (d.request isl n).regs = d.regs := (rfl)
@[simp] theorem request_sys (d : Dev) (isl n : Nat) : (d.request isl n).sys = d.sys := (rfl)
@[simp] theorem request_cfg (d : Dev) (isl n : Nat) : (d.request isl n).cfg = d.cfg := (rfl)
@[simp] theorem request_pat (d : Dev) (isl n : Nat) : (d.request isl n).pat = d.pat := (rfl)
@[simp] theorem request_lanes (d : Dev) (isl n : Nat) : (d.request isl n).lanes = d.lanes := (rfl)
@[simp] theorem request_lc (d : Dev) (isl n : Nat) : (d.request isl n).lc = d.lc := (rfl)
@[simp] theorem request_legs (d : Dev) (isl n : Nat) : (d.request isl n).legs = d.legs := (rfl)
@[simp] theorem request_gsup (d : Dev) (isl n : Nat) : (d.request isl n).gsup = d.gsup := (rfl)
@[simp] theorem request_repair (d : Dev) (isl n : Nat) : (d.request isl n).repair = d.repair := (rfl)
@[simp] theorem request_dead (d : Dev) (isl n : Nat) : (d.request isl n).dead = d.dead := (rfl)
@[simp] theorem request_weak (d : Dev) (isl n : Nat) : (d.request isl n).weak = d.weak := (rfl)
@[simp] theorem request_withdrawn (d : Dev) (isl n : Nat) : (d.request isl n).withdrawn = d.withdrawn := (rfl)
@[simp] theorem request_acc (d : Dev) (isl n : Nat) : (d.request isl n).acc = d.acc := (rfl)
@[simp] theorem request_time (d : Dev) (isl n : Nat) : (d.request isl n).time = d.time := (rfl)
@[simp] theorem request_resp (d : Dev) (isl n : Nat) : (d.request isl n).resp = d.resp := (rfl)
@[simp] theorem request_dbg (d : Dev) (isl n : Nat) : (d.request isl n).dbg = d.dbg := (rfl)
@[simp] theorem request_cmps (d : Dev) (isl n : Nat) : (d.request isl n).cmps = d.cmps := (rfl)
@[simp] theorem request_slotDue (d : Dev) (isl n : Nat) : (d.request isl n).slotDue = d.slotDue := (rfl)
@[simp] theorem request_free (d : Dev) (isl n : Nat) : (d.request isl n).free = d.free := (rfl)
@[simp] theorem request_adcs (d : Dev) (isl n : Nat) : (d.request isl n).adcs = d.adcs := (rfl)
@[simp] theorem request_sds (d : Dev) (isl n : Nat) : (d.request isl n).sds = d.sds := (rfl)
@[simp] theorem request_sdmCycle (d : Dev) (isl n : Nat) : (d.request isl n).sdmCycle = d.sdmCycle := (rfl)
@[simp] theorem request_iso (d : Dev) (isl n : Nat) : (d.request isl n).iso = d.iso := (rfl)
@[simp] theorem request_otp (d : Dev) (isl n : Nat) : (d.request isl n).otp = d.otp := (rfl)
@[simp] theorem request_led (d : Dev) (isl n : Nat) : (d.request isl n).led = d.led := (rfl)
@[simp] theorem request_arch (d : Dev) (isl n : Nat) : (d.request isl n).arch = d.arch := (rfl)
@[simp] theorem request_circ (d : Dev) (isl n : Nat) : (d.request isl n).circ = d.circ := (rfl)
@[simp] theorem request_eths (d : Dev) (isl n : Nat) : (d.request isl n).eths = d.eths := (rfl)
@[simp] theorem request_cans (d : Dev) (isl n : Nat) : (d.request isl n).cans = d.cans := (rfl)
@[simp] theorem request_dpl (d : Dev) (isl n : Nat) : (d.request isl n).dpl = d.dpl := (rfl)
@[simp] theorem request_clk (d : Dev) (isl n : Nat) : (d.request isl n).clk = d.clk := (rfl)
@[simp] theorem request_pwr (d : Dev) (isl n : Nat) : (d.request isl n).pwr = d.pwr := (rfl)
@[simp] theorem request_caches (d : Dev) (isl n : Nat) : (d.request isl n).caches = d.caches := (rfl)
@[simp] theorem request_resv (d : Dev) (isl n : Nat) : (d.request isl n).resv = d.resv := (rfl)
@[simp] theorem request_rowHits (d : Dev) (isl n : Nat) : (d.request isl n).rowHits = d.rowHits := (rfl)

theorem note_eq (d : Dev) (f : Fld) (v : Nat) : d.note f v = { d with regs := (d.note f v).regs, hoop := (d.note f v).hoop } := by
  simp only [note]
  split
  · split <;> rfl
  · rfl
@[simp] theorem note_sys (d : Dev) (f : Fld) (v : Nat) : (d.note f v).sys = d.sys := (congrArg Dev.sys (d.note_eq f v)).trans rfl
@[simp] theorem note_cfg (d : Dev) (f : Fld) (v : Nat) : (d.note f v).cfg = d.cfg := (congrArg Dev.cfg (d.note_eq f v)).trans rfl
@[simp] theorem note_pat (d : Dev) (f : Fld) (v : Nat) : (d.note f v).pat = d.pat := (congrArg Dev.pat (d.note_eq f v)).trans rfl
@[simp] theorem note_lanes (d : Dev) (f : Fld) (v : Nat) : (d.note f v).lanes = d.lanes := (congrArg Dev.lanes (d.note_eq f v)).trans rfl
@[simp] theorem note_lc (d : Dev) (f : Fld) (v : Nat) : (d.note f v).lc = d.lc := (congrArg Dev.lc (d.note_eq f v)).trans rfl
@[simp] theorem note_legs (d : Dev) (f : Fld) (v : Nat) : (d.note f v).legs = d.legs := (congrArg Dev.legs (d.note_eq f v)).trans rfl
@[simp] theorem note_gsup (d : Dev) (f : Fld) (v : Nat) : (d.note f v).gsup = d.gsup := (congrArg Dev.gsup (d.note_eq f v)).trans rfl
@[simp] theorem note_repair (d : Dev) (f : Fld) (v : Nat) : (d.note f v).repair = d.repair := (congrArg Dev.repair (d.note_eq f v)).trans rfl
@[simp] theorem note_dead (d : Dev) (f : Fld) (v : Nat) : (d.note f v).dead = d.dead := (congrArg Dev.dead (d.note_eq f v)).trans rfl
@[simp] theorem note_weak (d : Dev) (f : Fld) (v : Nat) : (d.note f v).weak = d.weak := (congrArg Dev.weak (d.note_eq f v)).trans rfl
@[simp] theorem note_withdrawn (d : Dev) (f : Fld) (v : Nat) : (d.note f v).withdrawn = d.withdrawn := (congrArg Dev.withdrawn (d.note_eq f v)).trans rfl
@[simp] theorem note_acc (d : Dev) (f : Fld) (v : Nat) : (d.note f v).acc = d.acc := (congrArg Dev.acc (d.note_eq f v)).trans rfl
@[simp] theorem note_time (d : Dev) (f : Fld) (v : Nat) : (d.note f v).time = d.time := (congrArg Dev.time (d.note_eq f v)).trans rfl
@[simp] theorem note_resp (d : Dev) (f : Fld) (v : Nat) : (d.note f v).resp = d.resp := (congrArg Dev.resp (d.note_eq f v)).trans rfl
@[simp] theorem note_dbg (d : Dev) (f : Fld) (v : Nat) : (d.note f v).dbg = d.dbg := (congrArg Dev.dbg (d.note_eq f v)).trans rfl
@[simp] theorem note_cmps (d : Dev) (f : Fld) (v : Nat) : (d.note f v).cmps = d.cmps := (congrArg Dev.cmps (d.note_eq f v)).trans rfl
@[simp] theorem note_slotDue (d : Dev) (f : Fld) (v : Nat) : (d.note f v).slotDue = d.slotDue := (congrArg Dev.slotDue (d.note_eq f v)).trans rfl
@[simp] theorem note_free (d : Dev) (f : Fld) (v : Nat) : (d.note f v).free = d.free := (congrArg Dev.free (d.note_eq f v)).trans rfl
@[simp] theorem note_adcs (d : Dev) (f : Fld) (v : Nat) : (d.note f v).adcs = d.adcs := (congrArg Dev.adcs (d.note_eq f v)).trans rfl
@[simp] theorem note_sds (d : Dev) (f : Fld) (v : Nat) : (d.note f v).sds = d.sds := (congrArg Dev.sds (d.note_eq f v)).trans rfl
@[simp] theorem note_sdmCycle (d : Dev) (f : Fld) (v : Nat) : (d.note f v).sdmCycle = d.sdmCycle := (congrArg Dev.sdmCycle (d.note_eq f v)).trans rfl
@[simp] theorem note_iso (d : Dev) (f : Fld) (v : Nat) : (d.note f v).iso = d.iso := (congrArg Dev.iso (d.note_eq f v)).trans rfl
@[simp] theorem note_otp (d : Dev) (f : Fld) (v : Nat) : (d.note f v).otp = d.otp := (congrArg Dev.otp (d.note_eq f v)).trans rfl
@[simp] theorem note_led (d : Dev) (f : Fld) (v : Nat) : (d.note f v).led = d.led := (congrArg Dev.led (d.note_eq f v)).trans rfl
@[simp] theorem note_arch (d : Dev) (f : Fld) (v : Nat) : (d.note f v).arch = d.arch := (congrArg Dev.arch (d.note_eq f v)).trans rfl
@[simp] theorem note_circ (d : Dev) (f : Fld) (v : Nat) : (d.note f v).circ = d.circ := (congrArg Dev.circ (d.note_eq f v)).trans rfl
@[simp] theorem note_eths (d : Dev) (f : Fld) (v : Nat) : (d.note f v).eths = d.eths := (congrArg Dev.eths (d.note_eq f v)).trans rfl
@[simp] theorem note_cans (d : Dev) (f : Fld) (v : Nat) : (d.note f v).cans = d.cans := (congrArg Dev.cans (d.note_eq f v)).trans rfl
@[simp] theorem note_dpl (d : Dev) (f : Fld) (v : Nat) : (d.note f v).dpl = d.dpl := (congrArg Dev.dpl (d.note_eq f v)).trans rfl
@[simp] theorem note_clk (d : Dev) (f : Fld) (v : Nat) : (d.note f v).clk = d.clk := (congrArg Dev.clk (d.note_eq f v)).trans rfl
@[simp] theorem note_pwr (d : Dev) (f : Fld) (v : Nat) : (d.note f v).pwr = d.pwr := (congrArg Dev.pwr (d.note_eq f v)).trans rfl
@[simp] theorem note_caches (d : Dev) (f : Fld) (v : Nat) : (d.note f v).caches = d.caches := (congrArg Dev.caches (d.note_eq f v)).trans rfl
@[simp] theorem note_resv (d : Dev) (f : Fld) (v : Nat) : (d.note f v).resv = d.resv := (congrArg Dev.resv (d.note_eq f v)).trans rfl
@[simp] theorem note_rowHits (d : Dev) (f : Fld) (v : Nat) : (d.note f v).rowHits = d.rowHits := (congrArg Dev.rowHits (d.note_eq f v)).trans rfl

theorem beginCond_eq (d : Dev) (isl src ctx : Nat) : d.beginCond isl src ctx = { d with regs := (d.beginCond isl src ctx).regs, hoop := (d.beginCond isl src ctx).hoop } := by
  unfold Dev.beginCond
  split
  · rfl
  · rw [raise, setCond_eq]; rfl
@[simp] theorem beginCond_sys (d : Dev) (isl src ctx : Nat) : (d.beginCond isl src ctx).sys = d.sys := (congrArg Dev.sys (d.beginCond_eq isl src ctx)).trans rfl
@[simp] theorem beginCond_cfg (d : Dev) (isl src ctx : Nat) : (d.beginCond isl src ctx).cfg = d.cfg := (congrArg Dev.cfg (d.beginCond_eq isl src ctx)).trans rfl
@[simp] theorem beginCond_pat (d : Dev) (isl src ctx : Nat) : (d.beginCond isl src ctx).pat = d.pat := (congrArg Dev.pat (d.beginCond_eq isl src ctx)).trans rfl
@[simp] theorem beginCond_lanes (d : Dev) (isl src ctx : Nat) : (d.beginCond isl src ctx).lanes = d.lanes := (congrArg Dev.lanes (d.beginCond_eq isl src ctx)).trans rfl
@[simp] theorem beginCond_lc (d : Dev) (isl src ctx : Nat) : (d.beginCond isl src ctx).lc = d.lc := (congrArg Dev.lc (d.beginCond_eq isl src ctx)).trans rfl
@[simp] theorem beginCond_legs (d : Dev) (isl src ctx : Nat) : (d.beginCond isl src ctx).legs = d.legs := (congrArg Dev.legs (d.beginCond_eq isl src ctx)).trans rfl
@[simp] theorem beginCond_gsup (d : Dev) (isl src ctx : Nat) : (d.beginCond isl src ctx).gsup = d.gsup := (congrArg Dev.gsup (d.beginCond_eq isl src ctx)).trans rfl
@[simp] theorem beginCond_repair (d : Dev) (isl src ctx : Nat) : (d.beginCond isl src ctx).repair = d.repair := (congrArg Dev.repair (d.beginCond_eq isl src ctx)).trans rfl
@[simp] theorem beginCond_dead (d : Dev) (isl src ctx : Nat) : (d.beginCond isl src ctx).dead = d.dead := (congrArg Dev.dead (d.beginCond_eq isl src ctx)).trans rfl
@[simp] theorem beginCond_weak (d : Dev) (isl src ctx : Nat) : (d.beginCond isl src ctx).weak = d.weak := (congrArg Dev.weak (d.beginCond_eq isl src ctx)).trans rfl
@[simp] theorem beginCond_withdrawn (d : Dev) (isl src ctx : Nat) : (d.beginCond isl src ctx).withdrawn = d.withdrawn := (congrArg Dev.withdrawn (d.beginCond_eq isl src ctx)).trans rfl
@[simp] theorem beginCond_acc (d : Dev) (isl src ctx : Nat) : (d.beginCond isl src ctx).acc = d.acc := (congrArg Dev.acc (d.beginCond_eq isl src ctx)).trans rfl
@[simp] theorem beginCond_time (d : Dev) (isl src ctx : Nat) : (d.beginCond isl src ctx).time = d.time := (congrArg Dev.time (d.beginCond_eq isl src ctx)).trans rfl
@[simp] theorem beginCond_resp (d : Dev) (isl src ctx : Nat) : (d.beginCond isl src ctx).resp = d.resp := (congrArg Dev.resp (d.beginCond_eq isl src ctx)).trans rfl
@[simp] theorem beginCond_dbg (d : Dev) (isl src ctx : Nat) : (d.beginCond isl src ctx).dbg = d.dbg := (congrArg Dev.dbg (d.beginCond_eq isl src ctx)).trans rfl
@[simp] theorem beginCond_cmps (d : Dev) (isl src ctx : Nat) : (d.beginCond isl src ctx).cmps = d.cmps := (congrArg Dev.cmps (d.beginCond_eq isl src ctx)).trans rfl
@[simp] theorem beginCond_slotDue (d : Dev) (isl src ctx : Nat) : (d.beginCond isl src ctx).slotDue = d.slotDue := (congrArg Dev.slotDue (d.beginCond_eq isl src ctx)).trans rfl
@[simp] theorem beginCond_free (d : Dev) (isl src ctx : Nat) : (d.beginCond isl src ctx).free = d.free := (congrArg Dev.free (d.beginCond_eq isl src ctx)).trans rfl
@[simp] theorem beginCond_adcs (d : Dev) (isl src ctx : Nat) : (d.beginCond isl src ctx).adcs = d.adcs := (congrArg Dev.adcs (d.beginCond_eq isl src ctx)).trans rfl
@[simp] theorem beginCond_sds (d : Dev) (isl src ctx : Nat) : (d.beginCond isl src ctx).sds = d.sds := (congrArg Dev.sds (d.beginCond_eq isl src ctx)).trans rfl
@[simp] theorem beginCond_sdmCycle (d : Dev) (isl src ctx : Nat) : (d.beginCond isl src ctx).sdmCycle = d.sdmCycle := (congrArg Dev.sdmCycle (d.beginCond_eq isl src ctx)).trans rfl
@[simp] theorem beginCond_iso (d : Dev) (isl src ctx : Nat) : (d.beginCond isl src ctx).iso = d.iso := (congrArg Dev.iso (d.beginCond_eq isl src ctx)).trans rfl
@[simp] theorem beginCond_otp (d : Dev) (isl src ctx : Nat) : (d.beginCond isl src ctx).otp = d.otp := (congrArg Dev.otp (d.beginCond_eq isl src ctx)).trans rfl
@[simp] theorem beginCond_led (d : Dev) (isl src ctx : Nat) : (d.beginCond isl src ctx).led = d.led := (congrArg Dev.led (d.beginCond_eq isl src ctx)).trans rfl
@[simp] theorem beginCond_arch (d : Dev) (isl src ctx : Nat) : (d.beginCond isl src ctx).arch = d.arch := (congrArg Dev.arch (d.beginCond_eq isl src ctx)).trans rfl
@[simp] theorem beginCond_circ (d : Dev) (isl src ctx : Nat) : (d.beginCond isl src ctx).circ = d.circ := (congrArg Dev.circ (d.beginCond_eq isl src ctx)).trans rfl
@[simp] theorem beginCond_eths (d : Dev) (isl src ctx : Nat) : (d.beginCond isl src ctx).eths = d.eths := (congrArg Dev.eths (d.beginCond_eq isl src ctx)).trans rfl
@[simp] theorem beginCond_cans (d : Dev) (isl src ctx : Nat) : (d.beginCond isl src ctx).cans = d.cans := (congrArg Dev.cans (d.beginCond_eq isl src ctx)).trans rfl
@[simp] theorem beginCond_dpl (d : Dev) (isl src ctx : Nat) : (d.beginCond isl src ctx).dpl = d.dpl := (congrArg Dev.dpl (d.beginCond_eq isl src ctx)).trans rfl
@[simp] theorem beginCond_clk (d : Dev) (isl src ctx : Nat) : (d.beginCond isl src ctx).clk = d.clk := (congrArg Dev.clk (d.beginCond_eq isl src ctx)).trans rfl
@[simp] theorem beginCond_pwr (d : Dev) (isl src ctx : Nat) : (d.beginCond isl src ctx).pwr = d.pwr := (congrArg Dev.pwr (d.beginCond_eq isl src ctx)).trans rfl
@[simp] theorem beginCond_caches (d : Dev) (isl src ctx : Nat) : (d.beginCond isl src ctx).caches = d.caches := (congrArg Dev.caches (d.beginCond_eq isl src ctx)).trans rfl
@[simp] theorem beginCond_resv (d : Dev) (isl src ctx : Nat) : (d.beginCond isl src ctx).resv = d.resv := (congrArg Dev.resv (d.beginCond_eq isl src ctx)).trans rfl
@[simp] theorem beginCond_rowHits (d : Dev) (isl src ctx : Nat) : (d.beginCond isl src ctx).rowHits = d.rowHits := (congrArg Dev.rowHits (d.beginCond_eq isl src ctx)).trans rfl

@[simp] theorem raiseLane_regs (d : Dev) (lane src ctx : Nat) : (d.raiseLane lane src ctx).regs = d.regs := (rfl)
@[simp] theorem raiseLane_sys (d : Dev) (lane src ctx : Nat) : (d.raiseLane lane src ctx).sys = d.sys := (rfl)
@[simp] theorem raiseLane_cfg (d : Dev) (lane src ctx : Nat) : (d.raiseLane lane src ctx).cfg = d.cfg := (rfl)
@[simp] theorem raiseLane_pat (d : Dev) (lane src ctx : Nat) : (d.raiseLane lane src ctx).pat = d.pat := (rfl)
@[simp] theorem raiseLane_lanes (d : Dev) (lane src ctx : Nat) : (d.raiseLane lane src ctx).lanes = d.lanes := (rfl)
@[simp] theorem raiseLane_lc (d : Dev) (lane src ctx : Nat) : (d.raiseLane lane src ctx).lc = d.lc := (rfl)
@[simp] theorem raiseLane_legs (d : Dev) (lane src ctx : Nat) : (d.raiseLane lane src ctx).legs = d.legs := (rfl)
@[simp] theorem raiseLane_gsup (d : Dev) (lane src ctx : Nat) : (d.raiseLane lane src ctx).gsup = d.gsup := (rfl)
@[simp] theorem raiseLane_repair (d : Dev) (lane src ctx : Nat) : (d.raiseLane lane src ctx).repair = d.repair := (rfl)
@[simp] theorem raiseLane_dead (d : Dev) (lane src ctx : Nat) : (d.raiseLane lane src ctx).dead = d.dead := (rfl)
@[simp] theorem raiseLane_weak (d : Dev) (lane src ctx : Nat) : (d.raiseLane lane src ctx).weak = d.weak := (rfl)
@[simp] theorem raiseLane_withdrawn (d : Dev) (lane src ctx : Nat) : (d.raiseLane lane src ctx).withdrawn = d.withdrawn := (rfl)
@[simp] theorem raiseLane_acc (d : Dev) (lane src ctx : Nat) : (d.raiseLane lane src ctx).acc = d.acc := (rfl)
@[simp] theorem raiseLane_time (d : Dev) (lane src ctx : Nat) : (d.raiseLane lane src ctx).time = d.time := (rfl)
@[simp] theorem raiseLane_resp (d : Dev) (lane src ctx : Nat) : (d.raiseLane lane src ctx).resp = d.resp := (rfl)
@[simp] theorem raiseLane_dbg (d : Dev) (lane src ctx : Nat) : (d.raiseLane lane src ctx).dbg = d.dbg := (rfl)
@[simp] theorem raiseLane_cmps (d : Dev) (lane src ctx : Nat) : (d.raiseLane lane src ctx).cmps = d.cmps := (rfl)
@[simp] theorem raiseLane_slotDue (d : Dev) (lane src ctx : Nat) : (d.raiseLane lane src ctx).slotDue = d.slotDue := (rfl)
@[simp] theorem raiseLane_free (d : Dev) (lane src ctx : Nat) : (d.raiseLane lane src ctx).free = d.free := (rfl)
@[simp] theorem raiseLane_adcs (d : Dev) (lane src ctx : Nat) : (d.raiseLane lane src ctx).adcs = d.adcs := (rfl)
@[simp] theorem raiseLane_sds (d : Dev) (lane src ctx : Nat) : (d.raiseLane lane src ctx).sds = d.sds := (rfl)
@[simp] theorem raiseLane_sdmCycle (d : Dev) (lane src ctx : Nat) : (d.raiseLane lane src ctx).sdmCycle = d.sdmCycle := (rfl)
@[simp] theorem raiseLane_iso (d : Dev) (lane src ctx : Nat) : (d.raiseLane lane src ctx).iso = d.iso := (rfl)
@[simp] theorem raiseLane_otp (d : Dev) (lane src ctx : Nat) : (d.raiseLane lane src ctx).otp = d.otp := (rfl)
@[simp] theorem raiseLane_led (d : Dev) (lane src ctx : Nat) : (d.raiseLane lane src ctx).led = d.led := (rfl)
@[simp] theorem raiseLane_arch (d : Dev) (lane src ctx : Nat) : (d.raiseLane lane src ctx).arch = d.arch := (rfl)
@[simp] theorem raiseLane_circ (d : Dev) (lane src ctx : Nat) : (d.raiseLane lane src ctx).circ = d.circ := (rfl)
@[simp] theorem raiseLane_eths (d : Dev) (lane src ctx : Nat) : (d.raiseLane lane src ctx).eths = d.eths := (rfl)
@[simp] theorem raiseLane_cans (d : Dev) (lane src ctx : Nat) : (d.raiseLane lane src ctx).cans = d.cans := (rfl)
@[simp] theorem raiseLane_dpl (d : Dev) (lane src ctx : Nat) : (d.raiseLane lane src ctx).dpl = d.dpl := (rfl)
@[simp] theorem raiseLane_clk (d : Dev) (lane src ctx : Nat) : (d.raiseLane lane src ctx).clk = d.clk := (rfl)
@[simp] theorem raiseLane_pwr (d : Dev) (lane src ctx : Nat) : (d.raiseLane lane src ctx).pwr = d.pwr := (rfl)
@[simp] theorem raiseLane_caches (d : Dev) (lane src ctx : Nat) : (d.raiseLane lane src ctx).caches = d.caches := (rfl)
@[simp] theorem raiseLane_resv (d : Dev) (lane src ctx : Nat) : (d.raiseLane lane src ctx).resv = d.resv := (rfl)
@[simp] theorem raiseLane_rowHits (d : Dev) (lane src ctx : Nat) : (d.raiseLane lane src ctx).rowHits = d.rowHits := (rfl)

@[simp] theorem recordWerr_hoop (d : Dev) (a reason : Nat) : (d.recordWerr a reason).hoop = d.hoop := by
  simp only [recordWerr, incSat_hoop, set_hoop]
@[simp] theorem recordWerr_sys (d : Dev) (a reason : Nat) : (d.recordWerr a reason).sys = d.sys := by
  simp only [recordWerr, incSat_sys, set_sys]
@[simp] theorem recordWerr_cfg (d : Dev) (a reason : Nat) : (d.recordWerr a reason).cfg = d.cfg := by
  simp only [recordWerr, incSat_cfg, set_cfg]
@[simp] theorem recordWerr_pat (d : Dev) (a reason : Nat) : (d.recordWerr a reason).pat = d.pat := by
  simp only [recordWerr, incSat_pat, set_pat]
@[simp] theorem recordWerr_lanes (d : Dev) (a reason : Nat) : (d.recordWerr a reason).lanes = d.lanes := by
  simp only [recordWerr, incSat_lanes, set_lanes]
@[simp] theorem recordWerr_lc (d : Dev) (a reason : Nat) : (d.recordWerr a reason).lc = d.lc := by
  simp only [recordWerr, incSat_lc, set_lc]
@[simp] theorem recordWerr_legs (d : Dev) (a reason : Nat) : (d.recordWerr a reason).legs = d.legs := by
  simp only [recordWerr, incSat_legs, set_legs]
@[simp] theorem recordWerr_gsup (d : Dev) (a reason : Nat) : (d.recordWerr a reason).gsup = d.gsup := by
  simp only [recordWerr, incSat_gsup, set_gsup]
@[simp] theorem recordWerr_repair (d : Dev) (a reason : Nat) : (d.recordWerr a reason).repair = d.repair := by
  simp only [recordWerr, incSat_repair, set_repair]
@[simp] theorem recordWerr_dead (d : Dev) (a reason : Nat) : (d.recordWerr a reason).dead = d.dead := by
  simp only [recordWerr, incSat_dead, set_dead]
@[simp] theorem recordWerr_weak (d : Dev) (a reason : Nat) : (d.recordWerr a reason).weak = d.weak := by
  simp only [recordWerr, incSat_weak, set_weak]
@[simp] theorem recordWerr_withdrawn (d : Dev) (a reason : Nat) : (d.recordWerr a reason).withdrawn = d.withdrawn := by
  simp only [recordWerr, incSat_withdrawn, set_withdrawn]
@[simp] theorem recordWerr_acc (d : Dev) (a reason : Nat) : (d.recordWerr a reason).acc = d.acc := by
  simp only [recordWerr, incSat_acc, set_acc]
@[simp] theorem recordWerr_time (d : Dev) (a reason : Nat) : (d.recordWerr a reason).time = d.time := by
  simp only [recordWerr, incSat_time, set_time]
@[simp] theorem recordWerr_resp (d : Dev) (a reason : Nat) : (d.recordWerr a reason).resp = d.resp := by
  simp only [recordWerr, incSat_resp, set_resp]
@[simp] theorem recordWerr_dbg (d : Dev) (a reason : Nat) : (d.recordWerr a reason).dbg = d.dbg := by
  simp only [recordWerr, incSat_dbg, set_dbg]
@[simp] theorem recordWerr_cmps (d : Dev) (a reason : Nat) : (d.recordWerr a reason).cmps = d.cmps := by
  simp only [recordWerr, incSat_cmps, set_cmps]
@[simp] theorem recordWerr_slotDue (d : Dev) (a reason : Nat) : (d.recordWerr a reason).slotDue = d.slotDue := by
  simp only [recordWerr, incSat_slotDue, set_slotDue]
@[simp] theorem recordWerr_free (d : Dev) (a reason : Nat) : (d.recordWerr a reason).free = d.free := by
  simp only [recordWerr, incSat_free, set_free]
@[simp] theorem recordWerr_adcs (d : Dev) (a reason : Nat) : (d.recordWerr a reason).adcs = d.adcs := by
  simp only [recordWerr, incSat_adcs, set_adcs]
@[simp] theorem recordWerr_sds (d : Dev) (a reason : Nat) : (d.recordWerr a reason).sds = d.sds := by
  simp only [recordWerr, incSat_sds, set_sds]
@[simp] theorem recordWerr_sdmCycle (d : Dev) (a reason : Nat) : (d.recordWerr a reason).sdmCycle = d.sdmCycle := by
  simp only [recordWerr, incSat_sdmCycle, set_sdmCycle]
@[simp] theorem recordWerr_iso (d : Dev) (a reason : Nat) : (d.recordWerr a reason).iso = d.iso := by
  simp only [recordWerr, incSat_iso, set_iso]
@[simp] theorem recordWerr_otp (d : Dev) (a reason : Nat) : (d.recordWerr a reason).otp = d.otp := by
  simp only [recordWerr, incSat_otp, set_otp]
@[simp] theorem recordWerr_led (d : Dev) (a reason : Nat) : (d.recordWerr a reason).led = d.led := by
  simp only [recordWerr, incSat_led, set_led]
@[simp] theorem recordWerr_arch (d : Dev) (a reason : Nat) : (d.recordWerr a reason).arch = d.arch := by
  simp only [recordWerr, incSat_arch, set_arch]
@[simp] theorem recordWerr_circ (d : Dev) (a reason : Nat) : (d.recordWerr a reason).circ = d.circ := by
  simp only [recordWerr, incSat_circ, set_circ]
@[simp] theorem recordWerr_eths (d : Dev) (a reason : Nat) : (d.recordWerr a reason).eths = d.eths := by
  simp only [recordWerr, incSat_eths, set_eths]
@[simp] theorem recordWerr_cans (d : Dev) (a reason : Nat) : (d.recordWerr a reason).cans = d.cans := by
  simp only [recordWerr, incSat_cans, set_cans]
@[simp] theorem recordWerr_dpl (d : Dev) (a reason : Nat) : (d.recordWerr a reason).dpl = d.dpl := by
  simp only [recordWerr, incSat_dpl, set_dpl]
@[simp] theorem recordWerr_clk (d : Dev) (a reason : Nat) : (d.recordWerr a reason).clk = d.clk := by
  simp only [recordWerr, incSat_clk, set_clk]
@[simp] theorem recordWerr_pwr (d : Dev) (a reason : Nat) : (d.recordWerr a reason).pwr = d.pwr := by
  simp only [recordWerr, incSat_pwr, set_pwr]
@[simp] theorem recordWerr_caches (d : Dev) (a reason : Nat) : (d.recordWerr a reason).caches = d.caches := by
  simp only [recordWerr, incSat_caches, set_caches]
@[simp] theorem recordWerr_resv (d : Dev) (a reason : Nat) : (d.recordWerr a reason).resv = d.resv := by
  simp only [recordWerr, incSat_resv, set_resv]
@[simp] theorem recordWerr_rowHits (d : Dev) (a reason : Nat) : (d.recordWerr a reason).rowHits = d.rowHits := by
  simp only [recordWerr, incSat_rowHits, set_rowHits]
theorem werr_eq (d : Dev) (a : Nat) : d.werr a = { d with regs := (d.werr a).regs, hoop := (d.werr a).hoop } := by
  unfold Dev.werr
  split
  · exact note_eq _ _ _
  · rfl
@[simp] theorem werr_sys (d : Dev) (a : Nat) : (d.werr a).sys = d.sys := (congrArg Dev.sys (d.werr_eq a)).trans rfl
@[simp] theorem werr_cfg (d : Dev) (a : Nat) : (d.werr a).cfg = d.cfg := (congrArg Dev.cfg (d.werr_eq a)).trans rfl
@[simp] theorem werr_pat (d : Dev) (a : Nat) : (d.werr a).pat = d.pat := (congrArg Dev.pat (d.werr_eq a)).trans rfl
@[simp] theorem werr_lanes (d : Dev) (a : Nat) : (d.werr a).lanes = d.lanes := (congrArg Dev.lanes (d.werr_eq a)).trans rfl
@[simp] theorem werr_lc (d : Dev) (a : Nat) : (d.werr a).lc = d.lc := (congrArg Dev.lc (d.werr_eq a)).trans rfl
@[simp] theorem werr_legs (d : Dev) (a : Nat) : (d.werr a).legs = d.legs := (congrArg Dev.legs (d.werr_eq a)).trans rfl
@[simp] theorem werr_gsup (d : Dev) (a : Nat) : (d.werr a).gsup = d.gsup := (congrArg Dev.gsup (d.werr_eq a)).trans rfl
@[simp] theorem werr_repair (d : Dev) (a : Nat) : (d.werr a).repair = d.repair := (congrArg Dev.repair (d.werr_eq a)).trans rfl
@[simp] theorem werr_dead (d : Dev) (a : Nat) : (d.werr a).dead = d.dead := (congrArg Dev.dead (d.werr_eq a)).trans rfl
@[simp] theorem werr_weak (d : Dev) (a : Nat) : (d.werr a).weak = d.weak := (congrArg Dev.weak (d.werr_eq a)).trans rfl
@[simp] theorem werr_withdrawn (d : Dev) (a : Nat) : (d.werr a).withdrawn = d.withdrawn := (congrArg Dev.withdrawn (d.werr_eq a)).trans rfl
@[simp] theorem werr_acc (d : Dev) (a : Nat) : (d.werr a).acc = d.acc := (congrArg Dev.acc (d.werr_eq a)).trans rfl
@[simp] theorem werr_time (d : Dev) (a : Nat) : (d.werr a).time = d.time := (congrArg Dev.time (d.werr_eq a)).trans rfl
@[simp] theorem werr_resp (d : Dev) (a : Nat) : (d.werr a).resp = d.resp := (congrArg Dev.resp (d.werr_eq a)).trans rfl
@[simp] theorem werr_dbg (d : Dev) (a : Nat) : (d.werr a).dbg = d.dbg := (congrArg Dev.dbg (d.werr_eq a)).trans rfl
@[simp] theorem werr_cmps (d : Dev) (a : Nat) : (d.werr a).cmps = d.cmps := (congrArg Dev.cmps (d.werr_eq a)).trans rfl
@[simp] theorem werr_slotDue (d : Dev) (a : Nat) : (d.werr a).slotDue = d.slotDue := (congrArg Dev.slotDue (d.werr_eq a)).trans rfl
@[simp] theorem werr_free (d : Dev) (a : Nat) : (d.werr a).free = d.free := (congrArg Dev.free (d.werr_eq a)).trans rfl
@[simp] theorem werr_adcs (d : Dev) (a : Nat) : (d.werr a).adcs = d.adcs := (congrArg Dev.adcs (d.werr_eq a)).trans rfl
@[simp] theorem werr_sds (d : Dev) (a : Nat) : (d.werr a).sds = d.sds := (congrArg Dev.sds (d.werr_eq a)).trans rfl
@[simp] theorem werr_sdmCycle (d : Dev) (a : Nat) : (d.werr a).sdmCycle = d.sdmCycle := (congrArg Dev.sdmCycle (d.werr_eq a)).trans rfl
@[simp] theorem werr_iso (d : Dev) (a : Nat) : (d.werr a).iso = d.iso := (congrArg Dev.iso (d.werr_eq a)).trans rfl
@[simp] theorem werr_otp (d : Dev) (a : Nat) : (d.werr a).otp = d.otp := (congrArg Dev.otp (d.werr_eq a)).trans rfl
@[simp] theorem werr_led (d : Dev) (a : Nat) : (d.werr a).led = d.led := (congrArg Dev.led (d.werr_eq a)).trans rfl
@[simp] theorem werr_arch (d : Dev) (a : Nat) : (d.werr a).arch = d.arch := (congrArg Dev.arch (d.werr_eq a)).trans rfl
@[simp] theorem werr_circ (d : Dev) (a : Nat) : (d.werr a).circ = d.circ := (congrArg Dev.circ (d.werr_eq a)).trans rfl
@[simp] theorem werr_eths (d : Dev) (a : Nat) : (d.werr a).eths = d.eths := (congrArg Dev.eths (d.werr_eq a)).trans rfl
@[simp] theorem werr_cans (d : Dev) (a : Nat) : (d.werr a).cans = d.cans := (congrArg Dev.cans (d.werr_eq a)).trans rfl
@[simp] theorem werr_dpl (d : Dev) (a : Nat) : (d.werr a).dpl = d.dpl := (congrArg Dev.dpl (d.werr_eq a)).trans rfl
@[simp] theorem werr_clk (d : Dev) (a : Nat) : (d.werr a).clk = d.clk := (congrArg Dev.clk (d.werr_eq a)).trans rfl
@[simp] theorem werr_pwr (d : Dev) (a : Nat) : (d.werr a).pwr = d.pwr := (congrArg Dev.pwr (d.werr_eq a)).trans rfl
@[simp] theorem werr_caches (d : Dev) (a : Nat) : (d.werr a).caches = d.caches := (congrArg Dev.caches (d.werr_eq a)).trans rfl
@[simp] theorem werr_resv (d : Dev) (a : Nat) : (d.werr a).resv = d.resv := (congrArg Dev.resv (d.werr_eq a)).trans rfl
@[simp] theorem werr_rowHits (d : Dev) (a : Nat) : (d.werr a).rowHits = d.rowHits := (congrArg Dev.rowHits (d.werr_eq a)).trans rfl

@[simp] theorem setLane_regs (d : Dev) (n : Nat) (l : Lane) : (d.setLane n l).regs = d.regs := (rfl)
@[simp] theorem setLane_hoop (d : Dev) (n : Nat) (l : Lane) : (d.setLane n l).hoop = d.hoop := (rfl)
@[simp] theorem setLane_sys (d : Dev) (n : Nat) (l : Lane) : (d.setLane n l).sys = d.sys := (rfl)
@[simp] theorem setLane_cfg (d : Dev) (n : Nat) (l : Lane) : (d.setLane n l).cfg = d.cfg := (rfl)
@[simp] theorem setLane_pat (d : Dev) (n : Nat) (l : Lane) : (d.setLane n l).pat = d.pat := (rfl)
@[simp] theorem setLane_lc (d : Dev) (n : Nat) (l : Lane) : (d.setLane n l).lc = d.lc := (rfl)
@[simp] theorem setLane_legs (d : Dev) (n : Nat) (l : Lane) : (d.setLane n l).legs = d.legs := (rfl)
@[simp] theorem setLane_gsup (d : Dev) (n : Nat) (l : Lane) : (d.setLane n l).gsup = d.gsup := (rfl)
@[simp] theorem setLane_repair (d : Dev) (n : Nat) (l : Lane) : (d.setLane n l).repair = d.repair := (rfl)
@[simp] theorem setLane_dead (d : Dev) (n : Nat) (l : Lane) : (d.setLane n l).dead = d.dead := (rfl)
@[simp] theorem setLane_weak (d : Dev) (n : Nat) (l : Lane) : (d.setLane n l).weak = d.weak := (rfl)
@[simp] theorem setLane_withdrawn (d : Dev) (n : Nat) (l : Lane) : (d.setLane n l).withdrawn = d.withdrawn := (rfl)
@[simp] theorem setLane_acc (d : Dev) (n : Nat) (l : Lane) : (d.setLane n l).acc = d.acc := (rfl)
@[simp] theorem setLane_time (d : Dev) (n : Nat) (l : Lane) : (d.setLane n l).time = d.time := (rfl)
@[simp] theorem setLane_resp (d : Dev) (n : Nat) (l : Lane) : (d.setLane n l).resp = d.resp := (rfl)
@[simp] theorem setLane_dbg (d : Dev) (n : Nat) (l : Lane) : (d.setLane n l).dbg = d.dbg := (rfl)
@[simp] theorem setLane_cmps (d : Dev) (n : Nat) (l : Lane) : (d.setLane n l).cmps = d.cmps := (rfl)
@[simp] theorem setLane_slotDue (d : Dev) (n : Nat) (l : Lane) : (d.setLane n l).slotDue = d.slotDue := (rfl)
@[simp] theorem setLane_free (d : Dev) (n : Nat) (l : Lane) : (d.setLane n l).free = d.free := (rfl)
@[simp] theorem setLane_adcs (d : Dev) (n : Nat) (l : Lane) : (d.setLane n l).adcs = d.adcs := (rfl)
@[simp] theorem setLane_sds (d : Dev) (n : Nat) (l : Lane) : (d.setLane n l).sds = d.sds := (rfl)
@[simp] theorem setLane_sdmCycle (d : Dev) (n : Nat) (l : Lane) : (d.setLane n l).sdmCycle = d.sdmCycle := (rfl)
@[simp] theorem setLane_iso (d : Dev) (n : Nat) (l : Lane) : (d.setLane n l).iso = d.iso := (rfl)
@[simp] theorem setLane_otp (d : Dev) (n : Nat) (l : Lane) : (d.setLane n l).otp = d.otp := (rfl)
@[simp] theorem setLane_led (d : Dev) (n : Nat) (l : Lane) : (d.setLane n l).led = d.led := (rfl)
@[simp] theorem setLane_arch (d : Dev) (n : Nat) (l : Lane) : (d.setLane n l).arch = d.arch := (rfl)
@[simp] theorem setLane_circ (d : Dev) (n : Nat) (l : Lane) : (d.setLane n l).circ = d.circ := (rfl)
@[simp] theorem setLane_eths (d : Dev) (n : Nat) (l : Lane) : (d.setLane n l).eths = d.eths := (rfl)
@[simp] theorem setLane_cans (d : Dev) (n : Nat) (l : Lane) : (d.setLane n l).cans = d.cans := (rfl)
@[simp] theorem setLane_dpl (d : Dev) (n : Nat) (l : Lane) : (d.setLane n l).dpl = d.dpl := (rfl)
@[simp] theorem setLane_clk (d : Dev) (n : Nat) (l : Lane) : (d.setLane n l).clk = d.clk := (rfl)
@[simp] theorem setLane_pwr (d : Dev) (n : Nat) (l : Lane) : (d.setLane n l).pwr = d.pwr := (rfl)
@[simp] theorem setLane_caches (d : Dev) (n : Nat) (l : Lane) : (d.setLane n l).caches = d.caches := (rfl)
@[simp] theorem setLane_resv (d : Dev) (n : Nat) (l : Lane) : (d.setLane n l).resv = d.resv := (rfl)
@[simp] theorem setLane_rowHits (d : Dev) (n : Nat) (l : Lane) : (d.setLane n l).rowHits = d.rowHits := (rfl)

@[simp] theorem setLeg_regs (d : Dev) (n : Nat) (l : Leg) : (d.setLeg n l).regs = d.regs := (rfl)
@[simp] theorem setLeg_hoop (d : Dev) (n : Nat) (l : Leg) : (d.setLeg n l).hoop = d.hoop := (rfl)
@[simp] theorem setLeg_sys (d : Dev) (n : Nat) (l : Leg) : (d.setLeg n l).sys = d.sys := (rfl)
@[simp] theorem setLeg_cfg (d : Dev) (n : Nat) (l : Leg) : (d.setLeg n l).cfg = d.cfg := (rfl)
@[simp] theorem setLeg_pat (d : Dev) (n : Nat) (l : Leg) : (d.setLeg n l).pat = d.pat := (rfl)
@[simp] theorem setLeg_lanes (d : Dev) (n : Nat) (l : Leg) : (d.setLeg n l).lanes = d.lanes := (rfl)
@[simp] theorem setLeg_lc (d : Dev) (n : Nat) (l : Leg) : (d.setLeg n l).lc = d.lc := (rfl)
@[simp] theorem setLeg_gsup (d : Dev) (n : Nat) (l : Leg) : (d.setLeg n l).gsup = d.gsup := (rfl)
@[simp] theorem setLeg_repair (d : Dev) (n : Nat) (l : Leg) : (d.setLeg n l).repair = d.repair := (rfl)
@[simp] theorem setLeg_dead (d : Dev) (n : Nat) (l : Leg) : (d.setLeg n l).dead = d.dead := (rfl)
@[simp] theorem setLeg_weak (d : Dev) (n : Nat) (l : Leg) : (d.setLeg n l).weak = d.weak := (rfl)
@[simp] theorem setLeg_withdrawn (d : Dev) (n : Nat) (l : Leg) : (d.setLeg n l).withdrawn = d.withdrawn := (rfl)
@[simp] theorem setLeg_acc (d : Dev) (n : Nat) (l : Leg) : (d.setLeg n l).acc = d.acc := (rfl)
@[simp] theorem setLeg_time (d : Dev) (n : Nat) (l : Leg) : (d.setLeg n l).time = d.time := (rfl)
@[simp] theorem setLeg_resp (d : Dev) (n : Nat) (l : Leg) : (d.setLeg n l).resp = d.resp := (rfl)
@[simp] theorem setLeg_dbg (d : Dev) (n : Nat) (l : Leg) : (d.setLeg n l).dbg = d.dbg := (rfl)
@[simp] theorem setLeg_cmps (d : Dev) (n : Nat) (l : Leg) : (d.setLeg n l).cmps = d.cmps := (rfl)
@[simp] theorem setLeg_slotDue (d : Dev) (n : Nat) (l : Leg) : (d.setLeg n l).slotDue = d.slotDue := (rfl)
@[simp] theorem setLeg_free (d : Dev) (n : Nat) (l : Leg) : (d.setLeg n l).free = d.free := (rfl)
@[simp] theorem setLeg_adcs (d : Dev) (n : Nat) (l : Leg) : (d.setLeg n l).adcs = d.adcs := (rfl)
@[simp] theorem setLeg_sds (d : Dev) (n : Nat) (l : Leg) : (d.setLeg n l).sds = d.sds := (rfl)
@[simp] theorem setLeg_sdmCycle (d : Dev) (n : Nat) (l : Leg) : (d.setLeg n l).sdmCycle = d.sdmCycle := (rfl)
@[simp] theorem setLeg_iso (d : Dev) (n : Nat) (l : Leg) : (d.setLeg n l).iso = d.iso := (rfl)
@[simp] theorem setLeg_otp (d : Dev) (n : Nat) (l : Leg) : (d.setLeg n l).otp = d.otp := (rfl)
@[simp] theorem setLeg_led (d : Dev) (n : Nat) (l : Leg) : (d.setLeg n l).led = d.led := (rfl)
@[simp] theorem setLeg_arch (d : Dev) (n : Nat) (l : Leg) : (d.setLeg n l).arch = d.arch := (rfl)
@[simp] theorem setLeg_circ (d : Dev) (n : Nat) (l : Leg) : (d.setLeg n l).circ = d.circ := (rfl)
@[simp] theorem setLeg_eths (d : Dev) (n : Nat) (l : Leg) : (d.setLeg n l).eths = d.eths := (rfl)
@[simp] theorem setLeg_cans (d : Dev) (n : Nat) (l : Leg) : (d.setLeg n l).cans = d.cans := (rfl)
@[simp] theorem setLeg_dpl (d : Dev) (n : Nat) (l : Leg) : (d.setLeg n l).dpl = d.dpl := (rfl)
@[simp] theorem setLeg_clk (d : Dev) (n : Nat) (l : Leg) : (d.setLeg n l).clk = d.clk := (rfl)
@[simp] theorem setLeg_pwr (d : Dev) (n : Nat) (l : Leg) : (d.setLeg n l).pwr = d.pwr := (rfl)
@[simp] theorem setLeg_caches (d : Dev) (n : Nat) (l : Leg) : (d.setLeg n l).caches = d.caches := (rfl)
@[simp] theorem setLeg_resv (d : Dev) (n : Nat) (l : Leg) : (d.setLeg n l).resv = d.resv := (rfl)
@[simp] theorem setLeg_rowHits (d : Dev) (n : Nat) (l : Leg) : (d.setLeg n l).rowHits = d.rowHits := (rfl)

@[simp] theorem wrAct_regs (d : Dev) (a : Nat) (v : Word) : (d.wrAct a v).regs = d.regs := (rfl)
@[simp] theorem wrAct_hoop (d : Dev) (a : Nat) (v : Word) : (d.wrAct a v).hoop = d.hoop := (rfl)
@[simp] theorem wrAct_sys (d : Dev) (a : Nat) (v : Word) : (d.wrAct a v).sys = d.sys := (rfl)
@[simp] theorem wrAct_pat (d : Dev) (a : Nat) (v : Word) : (d.wrAct a v).pat = d.pat := (rfl)
@[simp] theorem wrAct_lanes (d : Dev) (a : Nat) (v : Word) : (d.wrAct a v).lanes = d.lanes := (rfl)
@[simp] theorem wrAct_lc (d : Dev) (a : Nat) (v : Word) : (d.wrAct a v).lc = d.lc := (rfl)
@[simp] theorem wrAct_legs (d : Dev) (a : Nat) (v : Word) : (d.wrAct a v).legs = d.legs := (rfl)
@[simp] theorem wrAct_gsup (d : Dev) (a : Nat) (v : Word) : (d.wrAct a v).gsup = d.gsup := (rfl)
@[simp] theorem wrAct_repair (d : Dev) (a : Nat) (v : Word) : (d.wrAct a v).repair = d.repair := (rfl)
@[simp] theorem wrAct_dead (d : Dev) (a : Nat) (v : Word) : (d.wrAct a v).dead = d.dead := (rfl)
@[simp] theorem wrAct_weak (d : Dev) (a : Nat) (v : Word) : (d.wrAct a v).weak = d.weak := (rfl)
@[simp] theorem wrAct_withdrawn (d : Dev) (a : Nat) (v : Word) : (d.wrAct a v).withdrawn = d.withdrawn := (rfl)
@[simp] theorem wrAct_acc (d : Dev) (a : Nat) (v : Word) : (d.wrAct a v).acc = d.acc := (rfl)
@[simp] theorem wrAct_time (d : Dev) (a : Nat) (v : Word) : (d.wrAct a v).time = d.time := (rfl)
@[simp] theorem wrAct_resp (d : Dev) (a : Nat) (v : Word) : (d.wrAct a v).resp = d.resp := (rfl)
@[simp] theorem wrAct_dbg (d : Dev) (a : Nat) (v : Word) : (d.wrAct a v).dbg = d.dbg := (rfl)
@[simp] theorem wrAct_cmps (d : Dev) (a : Nat) (v : Word) : (d.wrAct a v).cmps = d.cmps := (rfl)
@[simp] theorem wrAct_slotDue (d : Dev) (a : Nat) (v : Word) : (d.wrAct a v).slotDue = d.slotDue := (rfl)
@[simp] theorem wrAct_free (d : Dev) (a : Nat) (v : Word) : (d.wrAct a v).free = d.free := (rfl)
@[simp] theorem wrAct_adcs (d : Dev) (a : Nat) (v : Word) : (d.wrAct a v).adcs = d.adcs := (rfl)
@[simp] theorem wrAct_sds (d : Dev) (a : Nat) (v : Word) : (d.wrAct a v).sds = d.sds := (rfl)
@[simp] theorem wrAct_sdmCycle (d : Dev) (a : Nat) (v : Word) : (d.wrAct a v).sdmCycle = d.sdmCycle := (rfl)
@[simp] theorem wrAct_iso (d : Dev) (a : Nat) (v : Word) : (d.wrAct a v).iso = d.iso := (rfl)
@[simp] theorem wrAct_otp (d : Dev) (a : Nat) (v : Word) : (d.wrAct a v).otp = d.otp := (rfl)
@[simp] theorem wrAct_led (d : Dev) (a : Nat) (v : Word) : (d.wrAct a v).led = d.led := (rfl)
@[simp] theorem wrAct_arch (d : Dev) (a : Nat) (v : Word) : (d.wrAct a v).arch = d.arch := (rfl)
@[simp] theorem wrAct_circ (d : Dev) (a : Nat) (v : Word) : (d.wrAct a v).circ = d.circ := (rfl)
@[simp] theorem wrAct_eths (d : Dev) (a : Nat) (v : Word) : (d.wrAct a v).eths = d.eths := (rfl)
@[simp] theorem wrAct_cans (d : Dev) (a : Nat) (v : Word) : (d.wrAct a v).cans = d.cans := (rfl)
@[simp] theorem wrAct_dpl (d : Dev) (a : Nat) (v : Word) : (d.wrAct a v).dpl = d.dpl := (rfl)
@[simp] theorem wrAct_clk (d : Dev) (a : Nat) (v : Word) : (d.wrAct a v).clk = d.clk := (rfl)
@[simp] theorem wrAct_pwr (d : Dev) (a : Nat) (v : Word) : (d.wrAct a v).pwr = d.pwr := (rfl)
@[simp] theorem wrAct_caches (d : Dev) (a : Nat) (v : Word) : (d.wrAct a v).caches = d.caches := (rfl)
@[simp] theorem wrAct_resv (d : Dev) (a : Nat) (v : Word) : (d.wrAct a v).resv = d.resv := (rfl)
@[simp] theorem wrAct_rowHits (d : Dev) (a : Nat) (v : Word) : (d.wrAct a v).rowHits = d.rowHits := (rfl)

/-! ### The register file -/

@[simp] theorem rdw_wrw_self (d : Dev) (a : Nat) (v : Word) : (d.wrw a v).rdw a = v := by simp [rdw, wrw]

theorem rdw_wrw_of_ne (d : Dev) {a b : Nat} (v : Word) (h : b ≠ a) : (d.wrw a v).rdw b = d.rdw b := by
  simp [rdw, wrw, Sparse.get_set_of_ne _ _ _ h]

/-- A register reads the same where the register file is the same. -/
theorem rdw_congr {d e : Dev} (h : d.regs = e.regs) (a : Nat) : d.rdw a = e.rdw a := by simp [rdw, h]

theorem get_congr {d e : Dev} (h : d.regs = e.regs) (f : Fld) : d.get f = e.get f := by simp [get, rdw, h]

/-- Setting a field: its own bits, and no other bit of any register. -/
theorem rdw_set_testBit (d : Dev) (f : Fld) (v a j : Nat) (h : f.lo + f.w ≤ 32) :
    ((d.set f v).rdw a).toNat.testBit j =
      if a = f.addr ∧ f.lo ≤ j ∧ j < f.lo + f.w then v.testBit (j - f.lo) else (d.rdw a).toNat.testBit j := by
  unfold set
  by_cases ha : a = f.addr
  · subst ha
    rw [rdw_wrw_self, setBits_testBit _ _ _ _ _ h]
    simp
  · rw [rdw_wrw_of_ne _ _ ha]
    simp [ha]

theorem get_set_self (d : Dev) (f : Fld) (v : Nat) (h : f.lo + f.w ≤ 32) : (d.set f v).get f = v % 2 ^ f.w := by
  apply Nat.eq_of_testBit_eq
  intro j
  simp only [get, testBit_bits, rdw_set_testBit _ _ _ _ _ h, Nat.testBit_mod_two_pow]
  by_cases hj : j < f.w <;> simp [hj]

theorem get_set_of_disjoint (d : Dev) {f g : Fld} (v : Nat) (h : f.lo + f.w ≤ 32)
    (hd : g.addr ≠ f.addr ∨ g.lo + g.w ≤ f.lo ∨ f.lo + f.w ≤ g.lo) : (d.set f v).get g = d.get g := by
  apply bits_ext
  intro j h1 h2
  rw [rdw_set_testBit _ _ _ _ _ h, if_neg]
  omega

theorem rdw_set_of_ne (d : Dev) {f : Fld} (v : Nat) {a : Nat} (h : a ≠ f.addr) : (d.set f v).rdw a = d.rdw a :=
  rdw_wrw_of_ne _ _ h

@[simp] theorem get_answer (d : Dev) (n : Nat) (r : Resp) (f : Fld) : (d.answer n r).get f = d.get f := (rfl)
@[simp] theorem get_send (d : Dev) (ch recv : Nat) (w : HWord) (f : Fld) : (d.send ch recv w).get f = d.get f := (rfl)
@[simp] theorem get_raise (d : Dev) (isl src ctx lane : Nat) (f : Fld) :
    (d.raise isl src ctx lane).get f = d.get f := (rfl)
@[simp] theorem get_request (d : Dev) (isl n : Nat) (f : Fld) : (d.request isl n).get f = d.get f := (rfl)

/-- A report stands last on its island's channel (R346). -/
theorem raise_hoop (d : Dev) (isl src ctx lane : Nat) :
    (d.raise isl src ctx lane).hoop = d.hoop ++ [⟨0x30 + isl, 3, .report ⟨src, word ctx, lane, d.time.short, false⟩,
      false, false⟩] := rfl

/-- What `note` sends: a request where a request line rises, else nothing (R424). -/
theorem note_hoop (d : Dev) (f : Fld) (v : Nat) :
    (d.note f v).hoop = d.hoop ∨ ∃ isl n, (d.note f v).hoop = d.hoop ++ [⟨0x40 + isl, 1, .flag n, false, false⟩] := by
  unfold note
  split
  · simp only
    split
    · exact .inr ⟨_, _, rfl⟩
    · exact .inl rfl
  · exact .inl rfl

theorem note_regs (d : Dev) (f : Fld) (v : Nat) : (d.note f v).regs = (d.set f v).regs := by
  unfold note
  split
  · simp only
    split <;> rfl
  · rfl

end Dev

end Sys2Proof.Machine
end

