-- ==== Sys2Proof/Laws/Ops.lean ====
section
/-! SUPPORT. What the shared operations and the step can do, said once: the registers that a change leaves alone, the words
that it puts on the channels, and the front of the queue. -/

namespace Sys2Proof.Machine

/-! ### The step -/

theorem step_cons (s : State) (c : Instr) (rest : List Instr) :
    step { s with pending := c :: rest } = exec c { s with pending := rest } := rfl

theorem step_nil (s : State) (h : s.pending = []) : step s = .next (idle s) := by simp [step, h]

theorem withFetchWord_eq (s : State) (nbits w : Nat) : s.withFetchWord nbits w = s := rfl

theorem gives_of_next {c : Instr} {s t : State} {P : State → Prop} (h : exec c s = .next t) (hp : P t) : Gives c s P :=
  ⟨t, h, hp⟩

theorem Gives.mono {c : Instr} {s : State} {P Q : State → Prop} (h : Gives c s P) (hpq : ∀ t, P t → Q t) : Gives c s Q := by
  obtain ⟨t, ht, hp⟩ := h
  exact ⟨t, ht, hpq t hp⟩

theorem Gives.and {c : Instr} {s : State} {P Q : State → Prop} (h : Gives c s P) (g : Gives c s Q) :
    Gives c s fun t => P t ∧ Q t := by
  obtain ⟨t, ht, hp⟩ := h
  obtain ⟨u, hu, hq⟩ := g
  rw [ht] at hu
  cases hu
  exact ⟨t, ht, hp, hq⟩

/-! ### Registers left alone -/

theorem RegsBut.refl (fs : List Fld) (d : Dev) : RegsBut fs d d := fun _ _ _ => rfl

theorem RegsBut.of_regs {fs : List Fld} {d e : Dev} (h : e.regs = d.regs) : RegsBut fs d e := fun a j _ => by
  rw [Dev.rdw_congr h]

theorem RegsBut.trans {fs : List Fld} {d e f : Dev} (h : RegsBut fs d e) (g : RegsBut fs e f) : RegsBut fs d f :=
  fun a j hn => (g a j hn).trans (h a j hn)

theorem RegsBut.mono {fs gs : List Fld} {d e : Dev} (h : RegsBut fs d e) (hs : ∀ f ∈ fs, f ∈ gs) : RegsBut gs d e :=
  fun a j hn => h a j fun f hf => hn f (hs f hf)

/-- Setting a field leaves every other bit of every register. -/
theorem RegsBut.set {fs : List Fld} (d : Dev) (f : Fld) (v : Nat) (hf : f ∈ fs) (h : f.lo + f.w ≤ 32) :
    RegsBut fs d (d.set f v) := fun a j hn => by
  rw [Dev.rdw_set_testBit _ _ _ _ _ h, if_neg]
  rintro ⟨rfl, h1, h2⟩
  exact hn f hf ⟨rfl, h1, h2⟩

theorem RegsBut.note {fs : List Fld} (d : Dev) (f : Fld) (v : Nat) (hf : f ∈ fs) (h : f.lo + f.w ≤ 32) :
    RegsBut fs d (d.note f v) :=
  (RegsBut.set d f v hf h).trans (.of_regs (Dev.note_regs d f v))

/-- A field disjoint from every listed one reads as before. -/
theorem RegsBut.get {fs : List Fld} {d e : Dev} (h : RegsBut fs d e) (g : Fld)
    (hg : ∀ f ∈ fs, f.addr ≠ g.addr ∨ f.lo + f.w ≤ g.lo ∨ g.lo + g.w ≤ f.lo) : e.get g = d.get g := by
  apply bits_ext
  intro j h1 h2
  apply h
  rintro f hf ⟨ha, h3, h4⟩
  rcases hg f hf with h5 | h5 | h5
  · exact h5 ha
  · omega
  · omega

namespace Dev

/-! ### Shared operations -/

/-- A flag that is noted stands at its value (R424). -/
theorem get_note_self (d : Dev) (f : Fld) (v : Nat) (h : f.lo + f.w ≤ 32) : (d.note f v).get f = v % 2 ^ f.w := by
  rw [get_congr (note_regs d f v), get_set_self _ _ _ h]

/-- The bit of a bank after it is set or cleared. -/
theorem bit_setBit_self (d : Dev) (f : Nat → Fld) (i : Nat) (b : Bool) (hw : (f (i / 32)).w = 32) (hl : (f (i / 32)).lo = 0) :
    (d.setBit f i b).bit f i = b := by
  unfold setBit bit
  simp only
  split
  · assumption
  · rename_i h
    rw [get_set_self _ _ _ (by omega), hw, Nat.testBit_mod_two_pow]
    have hi : i % 32 < 32 := Nat.mod_lt _ (by decide)
    cases b
    · have hb : (d.get (f (i / 32))).testBit (i % 32) = true := by simpa using h
      simp only [hi, decide_true, Bool.true_and, Bool.false_eq_true, if_false]
      have hge : 2 ^ (i % 32) ≤ d.get (f (i / 32)) := Nat.ge_two_pow_of_testBit hb
      generalize d.get (f (i / 32)) = x at *
      rw [Nat.testBit_eq_decide_div_mod_eq] at hb ⊢
      have h2 : (x - 2 ^ (i % 32)) / 2 ^ (i % 32) = x / 2 ^ (i % 32) - 1 := by
        have := Nat.sub_mul_div x (2 ^ (i % 32)) 1
        simpa using this
      rw [h2]
      simp only [decide_eq_true_eq] at hb
      simp only [decide_eq_false_iff_not]
      omega
    · have hb : (d.get (f (i / 32))).testBit (i % 32) = false := by simpa using h
      simp only [hi, decide_true, Bool.true_and, if_true]
      generalize d.get (f (i / 32)) = x at *
      rw [Nat.testBit_eq_decide_div_mod_eq] at hb ⊢
      rw [Nat.add_div_right _ (Nat.two_pow_pos _)]
      simp only [decide_eq_false_iff_not] at hb
      simp only [decide_eq_true_eq]
      omega

/-- A condition of ACC stands after it is set, and not after it is cleared (R347). -/
theorem cond_setCond (d : Dev) (src : Nat) (b : Bool) : (d.setCond src b).bit R.ACC_COND_SRC src = b :=
  bit_setBit_self d _ src b rfl rfl

/-- A condition begins with one report, or stood already (R347). -/
theorem beginCond_cases (d : Dev) (isl src ctx : Nat) :
    (d.bit R.ACC_COND_SRC src = true ∧ d.beginCond isl src ctx = d) ∨
      (d.bit R.ACC_COND_SRC src = false ∧ d.beginCond isl src ctx = (d.setCond src true).raise isl src ctx) := by
  unfold beginCond
  cases h : d.bit R.ACC_COND_SRC src <;> simp

theorem cond_beginCond (d : Dev) (isl src ctx : Nat) : (d.beginCond isl src ctx).bit R.ACC_COND_SRC src = true := by
  rcases d.beginCond_cases isl src ctx with ⟨h, e⟩ | ⟨_, e⟩
  · rw [e, h]
  · rw [e]; exact d.cond_setCond src true

/-- What a receiver takes from a channel is the oldest word there for it, and the others keep their order (R13). -/
theorem takeFirst_eq_some {p : HEntry → Bool} : ∀ {l : List HEntry} {e : HEntry} {t : List HEntry},
    takeFirst p l = some (e, t) → ∃ a b, l = a ++ e :: b ∧ t = a ++ b ∧ p e = true ∧ ∀ x ∈ a, p x = false
  | [], _, _, h => by cases h
  | x :: l, e, t, h => by
    unfold takeFirst at h
    split at h
    · rename_i hp
      cases h
      exact ⟨[], _, rfl, rfl, hp, fun _ hx => by cases hx⟩
    · rename_i hp
      split at h
      · rename_i y r hr
        cases h
        obtain ⟨a, b, h1, h2, h3, h4⟩ := takeFirst_eq_some hr
        refine ⟨x :: a, b, by simp [h1], by simp [h2], h3, ?_⟩
        intro z hz
        cases hz with
        | head => simpa using hp
        | tail _ hz => exact h4 z hz
      · cases h

end Dev

end Sys2Proof.Machine
end

