-- ==== Sys2Proof/WellFormed.lean ====
section
/-! DEFINITION. When a command is well formed: what its operands must be to stand for something that can arrive from
outside. The meanings are total and answer for every operand; a sender of this block sends well-formed commands. -/

namespace Sys2Proof

/-- A rising list, no number twice. -/
def ascending : List Nat → Bool
  | a :: b :: t => decide (a < b) && ascending (b :: t)
  | _ => true

/-- Islands or channels named once each, in the order in which they are served. -/
def rising {n : Nat} (l : List (Fin n)) : Bool := ascending (l.map fun i => i.val)

/-- No element twice. -/
def once {α : Type} [DecidableEq α] : List α → Bool
  | [] => true
  | a :: t => !t.contains a && once t

/-- Data bytes that a data length code stands for (R461): at most 8 outside the FD format. -/
def CanFrame.bytes (f : CanFrame) : Nat :=
  if f.fdf then ([0, 1, 2, 3, 4, 5, 6, 7, 8, 12, 16, 20, 24, 32, 48, 64] : List Nat).getD f.dlc.val 64 else min f.dlc.val 8

/-- A frame of a CAN bus (R461, R465): an identifier of its width, as many data bytes as its code says, none in a remote
frame, no remote frame in the FD format, and a bit-rate switch or an error-state indicator only there. -/
def CanFrame.wellFormed (f : CanFrame) : Bool :=
  decide (f.id < if f.xtd then 2 ^ 29 else 2 ^ 11) && decide (f.data.length = if f.rtr then 0 else f.bytes) &&
    !(f.rtr && f.fdf) && (f.fdf || !f.brs) && (f.fdf || !f.esi)

/-- The base address of a withdrawn SRAM row lies on its 512 bytes (R512). -/
def BadUnit.wellFormed : BadUnit → Bool
  | .row _ _ base => base.toNat % 512 == 0
  | _ => true

/-- The units that a BIST finds: each once. -/
def badUnits (l : List BadUnit) : Bool := l.all BadUnit.wellFormed && once l

/-- A command is well formed. Commands without a case here have operands whose types already say all. -/
def Instr.wellFormed : Instr → Bool
  -- the host sends as many bytes as it announces, and a signature of 64 bytes (R86)
  | .hostBootImage patLen pattern fwLen _ firmware signature =>
    decide (pattern.length = patLen.toNat) && decide (firmware.length = fwLen.toNat) && decide (signature.length = 64)
  | .bistComplete bad => badUnits bad
  | .restartCheckComplete _ bad => badUnits bad
  | .repairRunComplete bad => badUnits bad
  -- one trim or estimate for each physical slice (R178, R189)
  | .calComplete _ trims => decide (trims.length = 9)
  | .trimBlockEnd _ estimates _ => decide (estimates.length = 8)
  -- voltages are fractions
  | .conversionComplete _ x y => decide (x.den ≠ 0) && decide (y.den ≠ 0)
  -- reports of one cycle are judged in source order, one of each channel (R361)
  | .faultReport chs => rising chs
  -- set requests of one cycle, one of each island (R424, R427)
  | .flagClear _ _ isls => rising isls
  | .shelfTick isls => rising isls
  -- destination, source and type (R453)
  | .ethFrameReceived _ frame _ => decide (14 ≤ frame.length)
  | .canFrameReceived _ f => f.frame.wellFormed
  | .dplFrameReceived f => f.frame.wellFormed
  -- LASTERR 0 is no error, 1 has its own outcome, 7 is reserved (R489)
  | .canTxAttemptEnd _ (.err code _ _) => decide (2 ≤ code.val) && decide (code.val ≤ 6)
  | .canRxError _ code _ => decide (2 ≤ code.val) && decide (code.val ≤ 6)
  -- fourteen ring oscillators and eight steps of the margin (R505)
  | .ledgerPoint ro margin => decide (ro.length = 14) && decide (margin.toNat ≤ 8)
  | .ledgerPointNow ro margin => decide (ro.length = 14) && decide (margin.toNat ≤ 8)
  | _ => true

end Sys2Proof
end

