-- ==== Sys2Proof/Tests/Slice0.lean ====
section
/-! SUPPORT. The author's tests: what the checks of WellFormed refuse, that the hypotheses of every statement are met by
concrete states and operands (`witness_<statement>`, its clauses in order, at the ends of their ranges where they have
some), and values of the manual's own tables and examples. -/

namespace Sys2Proof.Tests

set_option Elab.async false

open Sys2Proof.Machine

/-! ### Small states -/

/-- A device with these fields set. -/
def dev (l : List (Fld × Nat)) (d : Dev := {}) : Dev := l.foldl (fun d p => d.set p.1 p.2) d

/-- A state with these fields set, empty memory and no command waiting. -/
def st (l : List (Fld × Nat)) (d : Dev := {}) : State := ⟨dev l d, [], []⟩

/-- Such a state in M3, with the cores running. -/
def up (l : List (Fld × Nat)) (d : Dev := {}) : State :=
  st ((R.SYSCTL_MODE_CUR, 3) :: l) { d with sys := { d.sys with held := .none, coresOut := true } }

/-- The device out of reset. -/
def live : Dev := { sys := { held := .none } }

/-- The state after one command. -/
def run (c : Instr) (s : State) : State := after (exec c s) s

/-- A command answers a next state. -/
def goes (c : Instr) (s : State) : Bool :=
  match exec c s with
  | .next _ => true
  | _ => false

/-! ### Well-formed commands -/

theorem test_wf_hostBootImage : (Instr.hostBootImage 1 [] 0 0 [] []).wellFormed = false ∧
    (Instr.hostBootImage 0 [] 4 0 [] []).wellFormed = false ∧ (Instr.hostBootImage 0 [] 0 0 [] [1]).wellFormed = false := by decide +kernel
theorem test_wf_badUnits : (Instr.bistComplete [.tap 0 0, .tap 0 0]).wellFormed = false ∧
    (Instr.restartCheckComplete 0 [.row 0 0 4]).wellFormed = false ∧
    (Instr.repairRunComplete [.stake 0 3, .stake 0 3]).wellFormed = false ∧
    (Instr.bistComplete [.stake 0 3, .stake 1 3, .row 0 0 512]).wellFormed = true := by decide +kernel
theorem test_wf_trims : (Instr.calComplete 0 []).wellFormed = false ∧ (Instr.trimBlockEnd 0 [⟨0, 0, 0⟩] ⟨0, 0, 0⟩).wellFormed = false := by
  decide +kernel
theorem test_wf_conversionComplete : (Instr.conversionComplete 0 ⟨1, 0⟩ ⟨1, 1⟩).wellFormed = false := by decide +kernel
theorem test_wf_rising : (Instr.faultReport [3, 3]).wellFormed = false ∧ (Instr.flagClear 0 0 [5, 4]).wellFormed = false ∧
    (Instr.shelfTick [2, 1]).wellFormed = false ∧ (Instr.shelfTick [1, 2]).wellFormed = true := by decide +kernel
theorem test_wf_ethFrame : (Instr.ethFrameReceived 0 [1, 2] false).wellFormed = false := by decide +kernel

/-- A remote frame in the FD format. -/
def oddFrame : CanFrame := ⟨false, true, false, true, false, 0, 0, []⟩

theorem test_wf_canFrame : (Instr.canFrameReceived 0 ⟨oddFrame, 0⟩).wellFormed = false ∧
    (Instr.canFrameReceived 0 ⟨{ oddFrame with fdf := false, id := 2 ^ 11 }, 0⟩).wellFormed = false ∧
    (Instr.canFrameReceived 0 ⟨{ oddFrame with rtr := false, dlc := 9 }, 0⟩).wellFormed = false ∧
    (Instr.dplFrameReceived ⟨{ oddFrame with fdf := false, brs := true }, 0⟩).wellFormed = false ∧
    (Instr.canFrameReceived 0 ⟨{ oddFrame with fdf := false, esi := true }, 0⟩).wellFormed = false ∧
    (Instr.canFrameReceived 0 ⟨{ oddFrame with fdf := false }, 0⟩).wellFormed = true := by decide +kernel
theorem test_wf_canCodes : (Instr.canTxAttemptEnd 0 (.err 1 false 0)).wellFormed = false ∧
    (Instr.canRxError 0 7 0).wellFormed = false := by decide +kernel
theorem test_wf_ledger : (Instr.ledgerPoint [] 0).wellFormed = false ∧
    (Instr.ledgerPointNow (List.replicate 14 0) 9).wellFormed = false ∧
    (Instr.ledgerPoint (List.replicate 14 0) 8).wellFormed = true := by decide +kernel

/-! ### The host's questions -/

/-- No word spells a command, and a word put in front of the queue changes nothing. -/
theorem test_decode_none (s : State) : decodeTableWord 32 0 = none ∧ s.withFetchWord 32 0 = s := ⟨rfl, rfl⟩

/-! ### The standards' functions -/

/-- FIPS 180-4's example of one block, "abc". -/
theorem test_sha256 : Crypto.h64 [0x61, 0x62, 0x63] = 0xBA7816BF8F01CFEA := by decide +kernel
/-- RFC 4493's first example, the empty message. -/
theorem test_cmac :
    (Crypto.cmac [0x2B, 0x7E, 0x15, 0x16, 0x28, 0xAE, 0xD2, 0xA6, 0xAB, 0xF7, 0x15, 0x88, 0x09, 0xCF, 0x4F, 0x3C] []).take 8 =
      [0xBB, 0x1D, 0x69, 0x29, 0xE9, 0x59, 0x37, 0x28] := by decide +kernel
/-- RFC 6979's example of P-256 with SHA-256, message "sample". -/
theorem test_ecdsa :
    Crypto.ecdsaVerify 0x60FED4BA255A9D31C961EB74C6356D68C049B8923B61FA6CE669622E60F29FB6
      0x7903FE1008B8BC99A41AE9E95628BC64F2F1B20C2D7E9F5177A3C294D4462299
      0xEFD48B2AACB6A8FD1140DD9CD45E81D69D2C877B56AAF991C34D0EA84EAF3716
      0xF7CB1C942D657C41D436C7A1B6E29F65F3E900DBB9AFF4064DC4AB2F843ACDA8
      (Crypto.sha256 [0x73, 0x61, 0x6D, 0x70, 0x6C, 0x65]) = true := by decide +kernel

/-! ### The bus -/

theorem witness_StepRunsTheFrontCommand : ((st []).push .modeCommit).pending = [.modeCommit] ∧ (st []).pending = [] := by decide +kernel
theorem witness_CommandsLeaveTheQueueAlone :
    (∃ t, exec (.mcinval 0 0xFFFFFFFF) (st []) = .next t) ∧ ∃ t, step ((st []).push (.mcinval 0 0)) = .next t :=
  ⟨⟨_, rfl⟩, ⟨_, rfl⟩⟩
theorem witness_EveryStepKeepsMemoryCanonical : Mem.wf (st []).mem = true ∧ ∃ t, step ((st []).push (.mcinval 0 0)) = .next t :=
  ⟨rfl, _, rfl⟩

theorem witness_EveryStepKeepsTheRegisterFileCanonical :
    Sparse.wf resetWord (st [(R.ISO_CTRL_EN, 1)]).d.regs = true ∧ (st [(R.ISO_CTRL_EN, 1)]).d.regs ≠ [] ∧
    ∃ t, step ((st [(R.ISO_CTRL_EN, 1)]).push (.mcinval 0 0)) = .next t := ⟨by decide +kernel, by decide +kernel, _, rfl⟩

/-- A Stake requests bank 0 of lane B. -/
def laneBusy : State := up [] { lanes := [(1, { flight := [⟨0, 0, 0, 0, .memory, false, [], [], {}, .load 0x20000 1, true, 0⟩] })] }

def lineState : State := up [] { caches := [(6, [⟨1, 0x101FFFE0, [1, 2, 3, 4, 5, 6, 7, 8]⟩])] }

theorem witness_LoadsAndFetchesAnswerTheWord :
    (up []).d.coreHeld 3 = false ∧ (up []).d.bankWaits .sram 0x101FFFFC = false ∧ laneBusy.d.bankWaits (.lane 1) 0x20120000 = true ∧
      route 3 0x101FFFFC = some (.sram, 0x101FFFFC) ∧ (up []).d.permits .sram .load .word 0x101FFFFC = true ∧
      (up []).d.lineOf (Dev.cacheKey 3 false) 0x101FFFFC = none ∧ (up []).d.rowGone 0x101FFFFC = false ∧
      lineState.d.lineOf (Dev.cacheKey 3 false) 0x101FFFFC ≠ none ∧
      Sparse.at' .none (run (.coreMemoryAccess 3 .load .half 0x101FFFFE 0 .none 0 false 0) lineState).d.resp 3 = .data 0 ∧
      Sparse.at' .none (run (.coreMemoryAccess 3 .load .word 0x101FFFFC 0 .none 0 false 0) lineState).d.resp 3 = .data 8 := by decide +kernel
theorem witness_StoresChangeTheirBytesOnly :
    route 0 0x38000000 = some (.msgCan, 0x38000000) ∧ (up []).d.permits .msgCan .store .byte 0x38000000 = true ∧
      (up []).d.rowGone 0x38000000 = false ∧ (up []).d.outPending 0x38000000 = false ∧ route 4 0x38000000 = some (.msgCan, 0x38000000) ∧
      (run (.coreMemoryAccess 0 .store .half 0x10000002 0x8001 .none 0 false 0) (up [])).mem = [(0x10000002, 1), (0x10000003, 0x80)] := by
  decide +kernel
theorem witness_AtomicsActOnOneWord :
    (up []).d.coreHeld 0 = false ∧ route 0 0x08000000 = some (.own, 0x08100000) ∧ Place.own.atomic = true ∧ (up []).d.rowGone 0x08100000 = false ∧
      (∀ p a, route 0 0x20000000 = some (p, a) → p.atomic = false ∨ a % 4 ≠ 0) ∧
      (∀ p a, route 0 0x10000001 = some (p, a) → p.atomic = false ∨ a % 4 ≠ 0) ∧
      (run (.amoAccess 0 .add 0x08000000 0xFFFFFFFF .none 0 false) ⟨(up []).d, [(0x08100000, 1)], []⟩).mem = [] := by
  refine ⟨by decide +kernel, by decide +kernel, by decide +kernel, by decide +kernel, ?_, ?_, by decide +kernel⟩ <;> rintro p a h <;> cases h <;> decide
theorem witness_RefusedAccessesHaveNoEffect :
    route 0 0x10200000 = none ∧ route 4 0x08000000 = none ∧ route 0 0x1FFFC = none ∧
      route 0 0xFFFF = some (.rom, 0xFFFF) ∧ (up []).d.permits .rom .store .byte 0xFFFF = false ∧
      route 0 0x40051000 = some (.regs, 0x40051000) ∧ (up [(R.CLK_GATE_BLOCKS, 1)]).d.gated 0x40051000 = true := by decide +kernel
theorem witness_EccErrorsAreCountedAndReported :
    route 0 0x10000000 = some (.sram, 0x10000000) ∧ Place.sram.hasEcc = true ∧ (up []).d.permits .sram .load .byte 0x10000000 = true ∧
      (up []).d.rowGone 0x10000000 = false ∧ (up []).d.lineOf (Dev.cacheKey 0 false) 0x10000000 = none ∧
      route 4 0x201FFFFC = some (.lane 1, 0x201FFFFC) ∧ (up []).d.rowGone 0x201FFFFC = false ∧
      (run (.scrubWord 0x201FFFFC .double 99 127) (up [])).d.get (R.WV_ECC_DED 1) = 1 ∧
      route 4 0x3C03FFFC = some (.pattern, 0x3C03FFFC) ∧ scrubbed .tcm = false ∧ route 4 0x08100000 = some (.tcm, 0x08100000) ∧
      (run (.scrubWord 0x3C03FFFC .single 99 127) (up [])).d.get R.SYSCTL_ECC_CORR_MACRO = 99 := by decide +kernel

def logged : LogEntry := ⟨5, 3, 3, 2, false, false, 0, 7, 8, false, false, 0, 0, 0, false⟩
def logState : State := st [] { acc := { fifo := [logged] } }

/-- Stake 31's Strand of one word, with every Stake in its own place. -/
def strandState : State := up [] { pat := { strands := [⟨0, 31, [0xABCD00000001]⟩] } }

theorem witness_DebugReadsChangeNothingCoresSee :
    (∃ t, exec (.debugRead .word (.mem 0x40000020) .none) (up []) = .next t) ∧ route 4 0x3C03FFFC = some (.pattern, 0x3C03FFFC) ∧
      (up []).d.permits .pattern .load .word 0x3C03FFFC = true ∧ (up []).d.rowGone 0x3C03FFFC = false ∧
      logState.d.acc.latch = none ∧ logState.d.acc.fifo = [logged] ∧
      (run (.debugRead .word (.mem 0x4003000C) .none) logState).d.acc = logState.d.acc ∧
      strandState.d.servedBy 1 31 = 31 ∧ (List.range 31).all (fun j => strandState.d.servedBy 1 j != 31) = true ∧
      Sparse.at' .none (run (.debugRead .word (.strand ⟨1, 31, 0, true⟩) .none) strandState).d.resp 4 = .data 0xABCD := ⟨⟨_, rfl⟩, by decide +kernel⟩
theorem witness_RegisterAccessesFollowAccessCodes :
    (∃ r f, regSpec? 0x40002000 = some r ∧ f ∈ r.fields ∧ f.acc = .rw ∧ f.cls = .live ∧
      (up []).d.reserved 0x40002000 f 0x7D031D = true ∧ (up []).d.reserved 0x40002000 f 0x7D031E = false) ∧
    (∃ r f, regSpec? 0x40002004 = some r ∧ f ∈ r.fields ∧ f.acc = .w1c) ∧
    (∃ r f, regSpec? 0x40002008 = some r ∧ f ∈ r.fields ∧ f.acc = .rc) ∧
    (up []).d.coreHeld 3 = false ∧ (up []).d.gated 0x40063000 = false ∧ plainWrite 0x40063004 = true ∧ plainWrite 0x40020030 = true ∧
    plainWrite 0x40030400 = true ∧ plainWrite 0x40013020 = true ∧ plainWrite 0x40014108 = true ∧
    writeCommand 0x40013008 1 = some (.adcCommit 3) ∧ writeCommand 0x40004044 0x10F40 = some (.coefCommit 64 15) ∧
    plainWrite 0x40002000 = true ∧ plainWrite 0x40002004 = true ∧ plainWrite 0x40002008 = true := by
  exact ⟨⟨_, _, rfl, List.mem_cons_self, by decide +kernel⟩, ⟨_, _, rfl, List.mem_cons_of_mem _ (List.mem_cons_of_mem _ List.mem_cons_self), by decide +kernel⟩,
    ⟨_, _, rfl, List.mem_cons_of_mem _ List.mem_cons_self, by decide +kernel⟩, by decide +kernel⟩
theorem witness_readToClear :
    (∃ r, regSpec? 0x40002008 = some r ∧ (r.fields.any fun f => f.acc == .rc) = true) ∧ (up []).d.gated 0x40002008 = false ∧
      (run (.readToClear 3 0x40002008) (up [(R.PWRB_EST_P, 3), (R.PWRB_EST_PMAX, 9)])).d.rdw 0x40002008 = 3 := ⟨⟨_, rfl, by decide +kernel⟩, by decide +kernel⟩

def held (ch recv : Nat) (w : HWord) (stalled acked : Bool) : State := st [] { hoop := [⟨ch, recv, w, stalled, acked⟩] }

theorem witness_HandshakesStallOnceAndDeliver :
    (up []).d.handshake 255 13 = none ∧ (held 7 5 (.event 3 7 0) false false).d.handshake 7 5 = some ⟨7, 5, .event 3 7 0, false, false⟩ ∧
      (held 0x3D 3 (.report ⟨66, 0, 1, 0, false⟩) false false).d.handshake 0x3D 3 = some ⟨0x3D, 3, .report ⟨66, 0, 1, 0, false⟩, false, false⟩ ∧
      (held 7 4 (.flag 0) true false).d.handshake 7 4 = some ⟨7, 4, .flag 0, true, false⟩ ∧
      (held 9 7 (.wcState 3 7 true) false false).d.handshake 9 7 = some ⟨9, 7, .wcState 3 7 true, false, false⟩ ∧
      (run (.hoopStall 7 4) (run (.hoopStall 7 4) (held 7 4 (.flag 0) false false))).d.hoop.length = 2 := by decide +kernel
/-! ### Modes and resets -/

/-- A live device in a mode. -/
def inMode (m : Nat) (l : List (Fld × Nat) := []) (d : Dev := live) : State := st ((R.SYSCTL_MODE_CUR, m) :: l) d

theorem witness_RefusedModeRequestsSayWhy :
    -- 1 key, 3 busy, 2 not started, 4 strap, 6 condition, 5 pre-empted
    (run (.modeReqControl 0 5 false) (inMode 3)).d.get R.SYSCTL_MODE_STAT_REASON = 1 ∧
    (run (.modeReqStop 0xA5C3 false) (inMode 4 [(R.SYSCTL_MODE_STAT_BUSY, 1)])).d.get R.SYSCTL_MODE_STAT_REASON = 3 ∧
    (run (.modeReqForbidden 0xA5C3 15) (inMode 3)).d.get R.SYSCTL_MODE_STAT_REASON = 2 ∧
    (run (.modeReqControl 0xA5C3 4 false) (inMode 3)).d.get R.SYSCTL_MODE_STAT_REASON = 4 ∧
    (run (.modeReqCheck 0xA5C3 false) (inMode 10)).d.get R.SYSCTL_MODE_STAT_REASON = 6 ∧
    (inMode 10).d.safeNHigh = false ∧
    (run (.modeReqControl 0xA5C3 0 true) (inMode 3)).d.get R.SYSCTL_MODE_STAT_REASON = 5 ∧
    (run (.modeReqService 0x5E11 false) (inMode 3)).d.mode = 11 ∧ (inMode 3).d.relaysReadOpen = true ∧
    (inMode 3).d.stagedPending = false := by decide +kernel
theorem witness_AcceptedModeRequestsTakeEffect :
    Dev.requestable (inMode 3 [(R.ISO_SEAL_LATCHED, 128)]).d.mode 8 = true ∧
    ((inMode 3 [(R.ISO_SEAL_LATCHED, 128)]).d.get R.ISO_SEAL_LATCHED).testBit 7 = true ∧
    (run (.modeReqControl 0xA5C3 0 false) (inMode 7)).d.sys.slot = some 4 ∧
    (run (.modeReqStop 0xA5C3 false) (inMode 9)).d.sys.slot = some 3 ∧
    (run (.modeReqReload 0xA5C3 false) (inMode 3)).d.mode = 1 ∧ (inMode 3).d.stagedPending = false ∧
    (run (.modeReqCheck 0xA5C3 false) (inMode 11)).d.mode = 2 ∧
    (inMode 10 [] { live with time := { short := 10000 } }).d.safeNHigh = true ∧
    (inMode 10 [] { live with time := { short := 9999 } }).d.safeNHigh = false ∧ (inMode 10).d.accClear = true ∧
    (run .modeReqTimeout (inMode 3 [] { live with sys := { held := .none, slot := some 4 } })).d.sys.slot = none ∧
    (inMode 3).d.sys.slot = none := by decide +kernel

/-- A mode word of the mode Strand on its channel: mode m, cause c. -/
def modeWord (cur m c : Nat) : State := inMode cur [] { live with hoop := [⟨0x1C, 0, .mode (word (m + 256 * c)), false, false⟩] }

/-- The survivor's first mode word in M5, with the hold decided or not. -/
def heldWord (done : Bool) : State :=
  inMode 5 [(R.LANE_STATUS_HOLD, 1)] { live with
    hoop := [⟨0x1C, 0, .mode 6, false, false⟩], lc := { hold := some ⟨0, false, 0, true, 2, true, done⟩ } }

theorem witness_ModeCommitsFollowTheTable :
    ((modeWord 3 4 2).d.take 0x1C 0).isSome = true ∧ (modeWord 3 4 2).d.get R.LANE_STATUS_HOLD = 0 ∧
    (modeWord 3 4 2).d.lc.hold = none ∧ (run .modeCommit (modeWord 3 4 0)).d.get R.SYSCTL_MODE_CAUSE = 2 ∧
    (run .modeCommit (modeWord 10 4 2)).d.mode = 10 ∧ (run .modeCommit (modeWord 9 3 2)).d.mode = 3 ∧
    (run .modeCommit (modeWord 3 5 2)).d.mode = 3 ∧
    (run .modeCommit (heldWord true)).d.get R.LANE_STATUS_HOLD = 0 ∧ (run .modeCommit (heldWord true)).d.mode = 6 ∧
    (heldWord false).d.lc.hold.isSome = true ∧
    (run .modeCommit (modeWord 3 5 2)).d.hoop.map HEntry.w = [.report ⟨77, 0x253, 2, 0, false⟩] := by decide +kernel
theorem witness_WarmResetsKeepTheAonState : (inMode 5).d.sys.held ≠ .powerOn ∧ (0 : BitVec 16) ≠ 0xA5C3 ∧
    (run (.rstReqWarm 0xA5C3) (inMode 5)).d.get R.SYSCTL_RST_CAUSE_SW = 1 ∧
    (inMode 5 [] { live with sys := { held := .none, wdogFired := true } }).d.sys.wdogFired = true ∧
    (run .wdogWarmReset (inMode 5 [] { live with sys := { held := .none, wdogFired := true } })).d.get R.SYSCTL_RST_CAUSE_WDOG = 1 := by
  decide +kernel
theorem witness_PowerOnResetAndItsRelease : State.reset.d.sys.held = .powerOn ∧ State.reset.d.sys.testStuck = false ∧
    State.reset.d.mode = 0 ∧ (run (.resetRelease 0x85 4 ⟨false, true⟩) State.reset).d.mode = 1 ∧
    (run (.resetRelease 0x85 3 ⟨false, true⟩) State.reset).d.mode = 0 ∧ (run (.resetRelease 0x85 3 ⟨true, true⟩) State.reset).d.get R.SYSCTL_BOOT_PINS = 3 ∧ (run .vddaonBrownout (inMode 5)).d.rdw 0x40000020 = 2 := by decide +kernel
theorem witness_WatchdogSafeLineAndDebugHold :
    (inMode 3 [(R.SYSCTL_WDOG_EN, 1)]).d.get R.SYSCTL_WDOG_EN = 1 ∧ (inMode 3).d.sys.wdogFired = false ∧ (inMode 3).d.safeNFree = false ∧
    (inMode 10 [] { live with time := { short := 200 }, sys := { held := .none, safeDriven := true } }).d.safeNFree = true ∧
    (inMode 10 [] { live with time := { short := 199 }, sys := { held := .none, safeDriven := true } }).d.safeNFree = false ∧
    (inMode 0).d.mode = 0 ∧ (inMode 0).d.get R.CLK_STAT_XTAL_OK = 0 ∧
    (run .extSafe (run .extSafe (inMode 3))).d.hoop.length = 1 ∧ (run .extSafe (inMode 10)).d.hoop.length = 0 ∧
    (run .crystalNotQualified (inMode 0 [] { live with sys := { held := .none, debugHold := true } })).d.mode = 1 := by decide +kernel
/-- R107, R180: a spare takes a failed Stake's place; the partner carries a converter with two failed slices. -/
def bound : Dev := (run (.bistComplete [.stake 0 5, .slice 1 2, .slice 1 7]) (inMode 2)).d
theorem test_bindings :
    bound.get (R.WV_MAP_PHYS 0 5) = 32 ∧ bound.get (R.WV_MAP_SPARE 0 5) = 1 ∧ bound.get (R.WV_MAP_PHYS 1 31) = 31 ∧
    bound.get (R.WV_STATUS_FORMED 0) = 1 ∧ bound.get (R.WV_STATUS_SPARES_USED 0) = 1 ∧ bound.get (R.ADC_STATUS_HANDED 1) = 1 ∧
    bound.get (R.ADC_STATUS_CARRYING 0) = 1 ∧ bound.get (R.ADC_STATUS_HANDED 0) = 0 := by decide +kernel
/-- Lane A runs and waits for REQ and CUR; lane B is stopped. -/
def profState : State := inMode 3 [(R.CFG_STATUS_LOADED, 1), (R.LANE_STATUS_STATE_A, 1), (R.LANE_STATUS_STATE_B, 0)]
  { live with sys := { held := .none, profWait := [0, 1], slot := some 5 } }

theorem witness_CheckStandbyAndProfileWindow :
    (inMode 2).d.sys.bistDone = false ∧ ((inMode 2).d.bist []).2 = true ∧
    ((inMode 2).d.bist [.row 0 0 0x20000000, .row 0 1 0x20000200, .row 0 2 0x20000400, .row 0 3 0x20000600, .row 0 4 0x20000800]).2 =
      false ∧
    (inMode 2 [] { live with sys := { held := .none, bistDone := true } }).d.get R.CFG_STATUS_SPLIT = 0 ∧
    (run .standbyEntry (inMode 2 [] { live with sys := { held := .none, bistDone := true } })).d.mode = 3 ∧
    (run .standbyEntry (inMode 2 [] { live with sys := { held := .none, bistDone := true, startup := true, calDone := [0, 1, 2] } })).d.mode = 2 ∧
    (run .standbyEntry (inMode 2 [] { live with sys := { held := .none, bistDone := true, startup := true, calDone := [0, 1, 2, 3] } })).d.mode = 3 ∧
    (inMode 2 [] { live with pat := { inits := [(0x20000, 1)] } }).lanesEqual = true ∧
    State.lanesEqual ⟨{ live with pat := { inits := [(0x20000, 1)] } }, [(0x20020000, 1)], []⟩ = false ∧
    profState.d.sys.profWait = [0, 1] ∧ profState.d.laneState 0 = 1 ∧ profState.d.laneState 1 = 0 ∧
    (∀ n, n < 2 → ∀ r ∈ (profState.d.lane n).runs, r.ls ≠ 15) ∧ profState.d.pat.profOff < 0xFFF00 ∧
    (run .profileWindowUpdate profState).d.sys.profWait = [1] := by decide +kernel


/-- The pad ring (O19): the first fall of a rail holds the balls; with VDDIO_A gone they stay unpowered. -/
theorem test_powerDown :
    (run .powerDown State.reset).d.sys.ring = .hold ∧ (run .powerDown State.reset).d.rlyBall 0 = .pulledLow ∧
    (let s : State := { d := { sys := { ring := .gone } } }
     run .powerDown s = s ∧ s.d.softoffEnBall = .unpowered) := by decide +kernel
/-! ### Pattern and commits -/

def bootable : State := inMode 1 [(R.CLK_STAT_LOCKED, 7)]
def hostBootable : State := inMode 1 [(R.CLK_STAT_LOCKED, 7), (R.SYSCTL_BOOT_PINS, 2)]
/-- A boot directory (R60). -/
def directory : List Nat :=
  [0x44, 0x52, 0x53, 0x42, 1, 0, 0, 0, 0, 0x10, 0, 0, 64, 0, 0, 0, 0, 0x20, 0, 0, 4, 0, 0, 0, 0, 0x20, 0, 0x60, 0, 0, 0, 0]

theorem witness_PatternLoadsCheckThenApply :
    bootable.d.loads [0, 1] = true ∧ directoryFail (Mem.bytes bootable.mem 0x60000000 32) = some 2 ∧
    directoryFail (Mem.bytes (Mem.wrBytes [] 0x60000000 directory) 0x60000000 32) = none ∧ hostBootable.d.loads [2, 3] = true ∧
    (run .flashNoResponse bootable).d.get R.SYSCTL_BOOT_FAIL = 1 ∧
    ([1, 2, 3, 4] : List Byte).length = 4 ∧ (inMode 2).d.mode ≠ 1 := by decide +kernel

/-- The header of an image of 64 bytes, for the part `p` (R67). -/
def header (p : Nat) : List Nat :=
  [0x44, 0x52, 0x53, 0x50, 1, 0, 64, 0, 64, 0, 0, 0, 0, 0, 0, 0, 0, 0, 0, 0, 0, 0, 0, 0, p % 256, p / 256, 0, 0] ++ List.replicate 36 0

theorem witness_HeaderChecksComeInOrder :
    (∀ b ∈ header 0x9640, b < 256) ∧ (header 0x9640).length = 64 ∧ (header 0x9640).take 4 = [0x44, 0x52, 0x53, 0x50] ∧
    (leAt (header 0x9640) 4 2 = 1 ∧ leAt (header 0x9640) 6 2 = 64 ∧ leAt (header 0x9640) 0xE 2 = 0 ∧ byteAt (header 0x9640) 0x1B = 0) ∧
    (leAt (header 0x9640) 8 4 = 64 ∧ lengthOk 64 = true) ∧
    (leAt (header 0x9640) 0x18 2 = 0x9640 ∧ byteAt (header 0x9640) 0x1A ≤ Dev.stepCode) ∧
    leAt (header 0x9641) 0x18 2 ≠ 0x9640 ∧ ((∅ : List Nat) : List Nat).take 4 ≠ [0x44, 0x52, 0x53, 0x50] := by
  refine ⟨by decide +kernel, by decide +kernel, by decide +kernel, by decide +kernel, by decide +kernel, ⟨by decide +kernel, ?_⟩, by decide +kernel, by decide +kernel⟩
  rw [show byteAt (header 0x9640) 0x1A = 0 by decide +kernel]
  exact Nat.zero_le _
theorem witness_CommitsCaptureTheShadow :
    (run .archCommit (run .archCommit (inMode 3 [(R.ARCH_CTRL_EN, 1)]))).d.get R.CFG_WERR_INFO_REPLACED = 1 ∧
    plainWrite (R.ADC_INJ_CFG_EN 3 3).addr = true ∧
    (inMode 3).d.isSet R.GSUP_CTRL_EN = false ∧ (inMode 3 [(R.ADC_CTRL_EN 3, 1)]).d.isSet (R.ADC_CTRL_EN 3) = true ∧
    (inMode 3 [(R.SDF_CTRL_EN, 1)]).d.sdHold 0x40014000 = false ∧
    (regSpec? (R.ADC_INJ_CFG_EN 3 3).addr).map (fun r => r.fields.any fun f => f.cls == .staged && !inPair (R.ADC_INJ_CFG_EN 3 3).addr f.lo) =
      some true ∧
    (run (.adcCommit 3) (inMode 3 [(R.ADC_INJ_CFG_EN 3 3, 1)])).d.act (R.ADC_INJ_CFG_EN 3 3) = 1 ∧
    (run (.adcCommit 3) (inMode 3 [(R.ADC_CTRL_EN 3, 1), (R.ADC_INJ_CFG_EN 3 3, 1)])).d.act (R.ADC_INJ_CFG_EN 3 3) = 0 := by decide +kernel

/-- ACC with fresh writes of a paired group (R93). -/
def freshAcc (l : List (Nat × Nat)) : State := st [(R.ACC_SRC_CFG_N 191, 3), (R.ACC_SRC_WIN_W 191, 7)] { live with cfg := { fresh := l } }

theorem witness_PairedGroupsCommitWhole :
    ((R.ACC_SRC_CFG_N 191).addr, 8) ∈ (freshAcc [((R.ACC_SRC_CFG_N 191).addr, 8)]).d.cfg.fresh ∧
    (run .accCommit (freshAcc [((R.ACC_SRC_CFG_N 191).addr, 8)])).d.get R.CFG_WERR_ADDR_ADDR = (R.ACC_SRC_CFG_N 191).addr ∧
    (run .accCommit (freshAcc [((R.ACC_SRC_WIN_W 191).addr, 0)])).d.get R.CFG_WERR_ADDR_ADDR = (R.ACC_SRC_WIN_W 191).addr ∧
    (run .accCommit (freshAcc [((R.ACC_SRC_CFG_N 191).addr, 8), ((R.ACC_SRC_WIN_W 191).addr, 0)])).d.get R.ACC_STATUS_INCOMPLETE = 0 ∧
    (({ cfg := { pend := [(0x400304FC, 5), (0x40031000, 6)] } } : Dev).cfg.pend.map Prod.fst).Nodup ∧
    (run .accCommitApply (st [] { cfg := { pend := [(0x400304FC, 5), (0x40031000, 6)] } })).d.cfg.pend = [(0x40031000, 6)] := by decide +kernel

def coefState : State := st [(R.CFG_COEF_ADDR_OFF, 0x1000), (R.LANE_STATUS_STATE_A, 1)] { live with pat := { coefs := [(0x1000, 64)] } }

def stoppedCoef : State := st [(R.LANE_STATUS_STATE_A, 0), (R.LANE_STATUS_STATE_B, 0)] coefState.d

theorem witness_CoefficientCommitsCaptureOrRefuse :
    coefState.d.cfg.coef = none ∧ (∃ r ∈ coefState.d.pat.coefs, r.1 ≤ 0x1000 ∧ 0x1000 + 4 * 64 ≤ r.1 + 4 * r.2) ∧
    (coefState.d.laneState 0 ≠ 0 ∨ coefState.d.laneState 1 ≠ 0) ∧
    (run (.coefCommit 64 15) coefState).d.get R.CFG_COEF_CTRL_PENDING = 1 ∧
    (run (.coefCommit 64 15) stoppedCoef).d.get R.CFG_COEF_CTRL_PENDING = 0 ∧ stoppedCoef.d.laneState 0 = 0 ∧ stoppedCoef.d.laneState 1 = 0 ∧
    (run (.coefCommit 65 15) coefState).d.get R.CFG_WERR_INFO_REASON = 3 ∧
    (run (.coefCommit 0 15) coefState).d.get R.CFG_WERR_INFO_REASON = 3 := by decide +kernel
theorem witness_ColophonAccumulatorsSplitAndLatch :
    (held 0x13 4 (.colophon 5) false false).d.handshake 0x13 4 = some ⟨0x13, 4, .colophon 5, false, false⟩ ∧
    (held 0x1B 5 (.colophon 5) false false).d.handshake 0x1B 5 = some ⟨0x1B, 5, .colophon 5, false, false⟩ ∧
    (up []).d.coreHeld 3 = false ∧ (st [(R.CFG_STATUS_SPLIT, 1)]).d.get R.CFG_STATUS_SPLIT = 1 ∧ (st []).d.bit R.ACC_COND_SRC 87 = false ∧
    (st []).d.get R.CFG_STATUS_SPLIT = 0 ∧
    (run (.hoopHandshakeComplete 0x13 4) (held 0x13 4 (.colophon 5) false false)).d.get R.CFG_STATUS_SPLIT = 1 := by decide +kernel

/-! ### The fabric -/

/-- Loop Set 15, started by leg 47's period events, with a period of 100 cycles. -/
def set15 : LoopSet := ⟨15, 2, 47, 0, true, 100, 0, 0⟩
def fab (m : Nat) (l : Lane) : State := inMode m [] { live with pat := { loopsets := [set15] }, lanes := [(0, l)] }
def run15 : Run := { ls := 15, no := 9, snap := [], streams := [(31, [])], sent := [], refused := 41, refusedAt := some 0 }
def trig : HWord := .event 2 47 9
def flying (act : OpAct) : InFlight := ⟨255, 15, 31, 0, .memory, false, [3], [], {}, act, true, 0⟩

/-- An event on channel 7 at both forks, with lane A running and these words in its buffer. -/
def pairHeld (q : List HWord) : State := inMode 3 [(R.WV_STATUS_RUN 0, 1)]
  { live with hoop := [⟨7, 4, trig, false, false⟩, ⟨7, 5, trig, true, true⟩], lanes := if q = [] then [] else [(0, { forks := [(7, q)] })] }

theorem witness_ForksPortsAndTriggers :
    (pairHeld []).d.hoop = [] ++ ⟨7, 4, trig, false, false⟩ :: ⟨7, 5, trig, true, true⟩ :: [] ∧
    (run (.forkWord 7) (pairHeld [])).d.lanes = [(0, { forks := [(7, [trig])] })] ∧
    (run (.forkWord 7) (pairHeld [trig, trig, trig, trig])).d.hoop = [reportOf live 4 68 7 0] ∧
    (fab 3 { forks := [(4, [.sample 1 23 0 5 6])] }).d.forkFront 0 4 = some (.sample 1 23 0 5 6) ∧
    (fab 3 { forks := [(5, [trig])] }).d.forkFront 0 5 = some trig ∧
    ((fab 3 {}).d.pat.loopsets.filter fun x => x.kind == 2 && x.unit == 47) = [set15] ∧
    (fab 2 {}).d.lsTakes set15 = false ∧ (fab 10 {}).d.lsTakes set15 = true ∧ (fab 3 {}).d.laneState 0 ≠ 4 ∧
    (inMode 3 [(R.LANE_STATUS_STATE_B, 4)]).d.laneState 1 = 4 ∧
    (run (.loopsetTrigger 0 5) (fab 3 { forks := [(5, [trig])], runs := [run15], pend := [⟨15, 8, []⟩] })).d.get (R.WV_LS_CNT_LOST 0 15) = 1 ∧
    (run (.loopsetTrigger 0 5) (fab 3 { forks := [(5, [trig])], runs := [run15] })).d.get (R.WV_LS_CNT_OVERRUN 0 15) = 1 := by
  decide +kernel
theorem witness_RunsEndBanksGrantAndPortsTake :
    ([run15].find? fun x => x.ls == 15) = some run15 ∧ (fab 3 {}).d.loopSet 15 = some set15 ∧ (2 * set15.period + 4) / 5 < run15.refused ∧
    (run (.windowFull 0 15) (fab 3 { runs := [run15] })).d.get (R.WV_WINDOW_FULL_COUNT 0) = 1 ∧
    (run (.windowFull 0 15) (fab 3 { runs := [run15], cycle := 1 })).d.get (R.WV_WINDOW_FULL_COUNT 0) = 0 ∧
    (run (.windowFull 0 15) (fab 3 { runs := [{ run15 with refused := 40 }] })).d.get (R.WV_WINDOW_FULL_COUNT 0) = 0 ∧
    (run (.loopsetRunComplete 0 15 70000) (fab 3 { runs := [run15] })).d.get (R.WV_LS_TIME_LAST 0 15) = 0xFFFF ∧
    (fab 3 { flight := [flying (.load 0xFFFFC 1)] }).d.findTag 0 255 = some (flying (.load 0xFFFFC 1)) ∧
    (fab 3 { flight := [flying (.load 0xFFFFC 1)] }).d.granted 0 (flying (.load 0xFFFFC 1)) = true ∧
    (fab 3 { flight := [flying (.store 0 [1])] }).d.granted 0 (flying (.store 0 [1])) = true ∧
    (fab 3 { flight := [flying (.load 0 1), { flying (.load 0 1) with tag := 254, stake := 0 }] }).d.granted 0 (flying (.load 0 1)) = false ∧
    (fab 3 { flight := [flying (.chan 31 7 5)] }).d.findTag 0 255 = some (flying (.chan 31 7 5)) ∧
    (run (.portWriteComplete 0 255) (fab 3 { flight := [{ flying (.chan 31 7 5) with tag := 1 }, flying (.chan 31 7 5)] })).d.lanes.length = 1 ∧
    (run (.portWriteComplete 0 255) (fab 3 { flight := [flying (.chan 31 7 5)] })).d.lanes = [(0, { fifos := [(255, [5])] })] ∧
    (run (.memoryGrant 0 255 ⟨.double, true⟩) (fab 3 { flight := [flying (.load 0xFFFFC 1)] })).d.get (R.WV_ECC_DED 0) = 1 := by
  decide +kernel

/-! ### Stake operations -/

/-- A word of Stake operation `opc`: DST 30, SRCA 10, SRCB 11, SRCC or immediate 20, with its modifier bits (R147). -/
def opw (opc : Nat) (low : Nat := 0) (imm : Nat := 20) : BitVec 64 :=
  BitVec.ofNat 64 (opc * 2 ^ 57 + 30 * 2 ^ 47 + 10 * 2 ^ 37 + 11 * 2 ^ 27 + imm * 2 ^ 11 + low)
/-- Loop Set 15 runs in lane A with one operation of Stake 0 left; slots 10, 11, 20, 21, 30, 31 hold these words. -/
def opState (op : BitVec 64) (ws : List Word := []) (l : Lane := {}) : State :=
  let s := fab 3 { l with runs := [{ ls := 15, no := 9, snap := [], streams := [(0, [(0, op)])], sent := [] }] }
  { s with d := s.d.set (R.WV_STATUS_RUN 0) 1, mem := writeSlots [] 0 0 ([10, 11, 20, 21, 30, 31].zip ws) }
def issue0 (u : Upset := .none) : Issue := ⟨0, 15, 0, 0, 7, u⟩
/-- The operation whose turn comes and that gets a tag. -/
def taken (opc : Nat) (i : Issue) (s : State) : Option Issued := match s.turn opc i with | .take q _ => some q | _ => none
/-- The operation's turn comes, it gets a tag, and it is enabled. -/
def clear (opc : Nat) (s : State) : Bool :=
  (taken opc issue0 s).any Issued.enabled
/-- All 256 tags are taken by operations of another Stake. -/
def noTags (op : BitVec 64) : State :=
  opState op [] { flight := (List.range 256).map fun t => { flying .none with tag := t, stake := 1 } }
/-- What the operation has put in flight: slots with words, and flags. -/
def flown (c : Instr) (s : State) : Option (List (Nat × Word) × Flags) :=
  ((run c s).d.lane 0).flight.getLast?.map fun f => (f.outs, f.flags)

/-- The operation codes of R161. -/
def codes : List Nat :=
  [0, 1, 2, 3, 4, 5, 6, 7, 8] ++ (List.range 40).map (· + 0x10) ++ (List.range 21).map (· + 0x40) ++ (List.range 11).map (· + 0x58) ++
    (List.range 9).map (· + 0x68) ++ (List.range 6).map (· + 0x78)

/-- Each of the 96 operations is ready, enabled and gets a tag in some state: the hypotheses of every statement of its
issue. -/
theorem witness_everyOperationIssues : codes.length = 96 ∧ codes.all (fun c => clear c (opState (opw c))) = true := by decide +kernel
theorem witness_OperationsThatDoNotRun :
    (opState (opw 0x14)).turn 0x15 issue0 = .no ∧ (noTags (opw 0x14)).turn 0x14 issue0 = .refused [15] ∧
    ((noTags (opw 0)).turn 0 issue0 = .no) ∧ clear 0x14 (opState (opw 0x14)) = true ∧
    ((taken 0x14 (issue0 .storeDouble) (opState (opw 0x14 8))).map Issued.enabled) = some false ∧
    ((taken 0x14 (issue0 (.slotDouble 1)) (opState (opw 0x14))).bind fun q => Dev.upsetSlot q 1) = some 11 ∧
    (run (.opAdd issue0) (noTags (opw 0x14))).d.get (R.WV_STALL_CYCLES 0) = 1 ∧
    (run (.opAdd issue0) (run (.opAdd issue0) (noTags (opw 0x14)))).d.get (R.WV_STALL_CYCLES 0) = 1 ∧
    (run (.opNop issue0) (opState (opw 0 16))).d.get (R.WV_CHAIN_MISS 0) = 1 := by decide +kernel
theorem witness_OperandsComeFromSlotsAndResultsReachThem :
    (∀ f ∈ ((opState (opw 0x14)).d.lane 0).flight, f.stake ≠ 0) ∧
    ((opState (opw 0x14) [1, 2]).eligible 0 0 15 0 7).map (fun q => (q.x.a, q.x.b)) = some (1, 2) ∧
    ((fab 3 { flight := [{ flying .none with outs := [(1023, 5)], waiting := false }] }).d.findTag 0 255).isSome = true ∧
    ((fab 3 { flight := [flying (.load 0 1)] }).d.findTag 0 255).map InFlight.waiting = some true ∧
    (run (.operationComplete 0 255 false) (fab 3 { flight := [{ flying .none with outs := [(1023, 5)], waiting := false }] })).mem =
      [(0x2001FFFC, 5)] := by decide +kernel
theorem witness_RawWordAndIntegerOperationsWriteTheirWords :
    flown (.opBfx issue0) (opState (opw 0x4E 0 (4 + 32 * 7)) [0x12345678]) = some ([(30, 0x67)], {}) ∧
    flown (.opRor issue0) (opState (opw 0x4D 0 4) [0x12345678]) = some ([(30, 0x81234567)], {}) ∧
    flown (.opClz issue0) (opState (opw 0x53) []) = some ([(30, 32)], {}) := by decide +kernel
theorem witness_integerOperations :
    flown (.opIadd issue0) (opState (opw 0x40 0x100) [0x7FFFFFFF, 1]) = some ([(30, 0x7FFFFFFF)], { s := true }) ∧
    flown (.opIadd issue0) (opState (opw 0x40) [0x7FFFFFFF, 1]) = some ([(30, 0x80000000)], { v := true }) := by decide +kernel
theorem witness_integerDivision :
    flown (.opIdiv issue0) (opState (opw 0x7C) [0x80000000, 0]) = some ([(30, 0x80000000)], { z := true }) ∧
    flown (.opIdiv issue0) (opState (opw 0x7C) [0xFFFFFFF9, 2]) = some ([(30, 0xFFFFFFFD)], {}) ∧
    flown (.opIdivu issue0) (opState (opw 0x7D) [5, 0]) = some ([(30, 0xFFFFFFFF)], { z := true }) := by decide +kernel
theorem witness_WritingAValueRoundsItOnce : (Val.fin true 3 2).Is (-(3 / 2)) ∧ (2 : ℚ) ^ (0 : Int) ≤ |-(3 / 2)| ∧
    |-(3 / 2 : ℚ)| < (2 : ℚ) ^ ((0 : Int) + 1) ∧ writeVal .q16 .even .limit (.fin true 3 2) = (0xFFFE8000, {}) ∧
    writeVal .q31 .even .wrap (.fin false 1 1) = (0x80000000, { v := true }) ∧
    writeVal .fp32 .floor .sat (.fin true 3 2) = (0xBFC00000, {}) := by
  refine ⟨⟨⟨true, 3, 2, rfl, by decide⟩, by norm_num [Val.rat]⟩, by norm_num [abs_of_neg], by norm_num [abs_of_neg], by decide +kernel,
    by decide +kernel, by decide +kernel⟩
theorem witness_TypedOperationsRoundTheExactResult :
    (readFmt .fp32 0x3FC00000).finite = true ∧ (readFmt .fp32 0x40000000).rat ≠ 0 ∧ (readFmt .fp32 0x40000000).Is 2 ∧
    clear 0x78 (opState (opw 0x78) [0x3FC00000, 0x40000000]) = true ∧
    flown (.opDiv issue0) (opState (opw 0x78) [0x3FC00000, 0x40000000]) = some ([(30, 0x3F400000)], {}) ∧
    flown (.opMac issue0) (opState (opw 0x59 0x20) [0x40000000, 0x40000000, 0x20000000]) = some ([(30, 0x40000000)], {}) := by
  have h : readFmt .fp32 0x40000000 = .fin false 8388608 4194304 := by decide +kernel
  rw [h]
  exact ⟨by decide +kernel, by norm_num [Val.rat], ⟨⟨false, 8388608, 4194304, rfl, by decide⟩, by norm_num [Val.rat]⟩, by decide +kernel⟩
theorem witness_NanAndInfiniteOperands :
    readFmt .fp32 0x7FC00001 = .nan ∧ readFmt .fp32 0x7F800000 = .inf false ∧ readFmt .fp32 0xFF800000 = .inf true ∧
    flown (.opAdd issue0) (opState (opw 0x14) [0x7F800000, 0xFF800000]) = some ([(30, 0x7FC00000)], { n := true }) ∧
    flown (.opMin issue0) (opState (opw 0x1B) [0x7FC00000, 0x40000000]) = some ([(30, 0x40000000)], { n := true }) ∧
    flown (.opMul issue0) (opState (opw 0x58 0x100) [0x7F800000, 0xC0000000]) = some ([(30, 0xFF7FFFFF)], { s := true }) := by
  decide +kernel
theorem witness_ComparesAndLimiters :
    flown (.opCmplt issue0) (opState (opw 0x20) [0x80000000, 0]) = some ([(30, 0)], {}) ∧
    flown (.opSgn issue0) (opState (opw 0x26 0x20) [5]) = some ([(30, 0x7FFFFFFF)], {}) ∧
    flown (.opDzone issue0) (opState (opw 0x28 0x40) [0x10000, 0x10000]) = some ([(30, 0)], { s := true }) ∧
    flown (.opHyst issue0) (opState (opw 0x24) [0x3F800000, 0, 0x3F800000, 0x40000000, 7]) = some ([(30, 7)], {}) := by decide +kernel
theorem witness_ClampsActOnTheRoundedValue :
    flown (.opClamp issue0) (opState (opw 0x1E 0x40) [0x30000, 0, 0x10000, 0x20000]) = some ([(30, 0x20000)], { s := true }) ∧
    flown (.opClamp issue0) (opState (opw 0x1E 0x40) [0x30000, 0, 0x20000, 0x10000]) = some ([(30, 0x20000)], { s := true }) ∧
    flown (.opClamp issue0) (opState (opw 0x1E) [0, 0, 0x7FC00000, 0]) = some ([(30, 0x7FC00000)], { n := true }) := by decide +kernel
theorem witness_AnglesWrapAndIntegersConvert :
    flown (.opAngadd issue0) (opState (opw 0x2A 0x20) [0x7FFFFFFF, 1]) = some ([(30, 0x80000000)], {}) ∧
    flown (.opToi issue0) (opState (opw 0x31 0 0) [0x4F000000]) = some ([(30, 0x80000000)], { v := true }) ∧
    flown (.opTou issue0) (opState (opw 0x32 0x100 0) [0xBF800000]) = some ([(30, 0)], { s := true }) := by decide +kernel
theorem witness_DivisionRootsAndCordicResults :
    flown (.opDiv issue0) (opState (opw 0x78) [0xBF800000, 0]) = some ([(30, 0xFF800000)], { z := true }) ∧
    flown (.opSqrt issue0) (opState (opw 0x7A) [0x40800000]) = some ([(30, 0x40000000)], {}) ∧
    flown (.opLn issue0) (opState (opw 0x70 0x20) [0]) = some ([(30, 0x80000000)], { z := true }) := by decide +kernel
theorem witness_CordicResultsAreRealValuesRoundedOnce :
    (readFmt .q31 0x40000000).finite = true ∧ clear 0x6E (opState (opw 0x6E)) = true ∧
    flown (.opSin issue0) (opState (opw 0x69 0x20) [0x40000000]) = some ([(30, 0x7FFFFFFF)], { s := true }) ∧
    flown (.opSincos issue0) (opState (opw 0x68 0x20) [0x20000000]) = some ([(30, 0x5A82799A), (31, 0x5A82799A)], {}) ∧
    flown (.opExp issue0) (opState (opw 0x6F) [0x3F800000]) = some ([(30, 0x402DF854)], {}) ∧
    flown (.opAtan2 issue0) (opState (opw 0x6C) [0x3F800000, 0x3F800000]) = some ([(30, 0x3F490FDB)], {}) := by decide +kernel
theorem witness_SaturationTimersCountAndExpire :
    flown (.opSatt issue0) (opState (opw 0x36) [0, 5, 0, 0x3F800000, 4, 4]) = some ([(30, 9), (31, 9)], {}) ∧
    ((run (.opSatt issue0) (opState (opw 0x36) [0, 5, 0, 0x3F800000, 4, 4])).d.hoop.map HEntry.w =
      [.report ⟨69, word (30 + 15 * 2 ^ 16), 0, 0, false⟩]) ∧
    flown (.opSattl issue0) (opState (opw 0x37) [0x40000000, 5, 0, 0x40800000, 1, 5]) = some ([(30, 0), (31, 9)], {}) := by decide +kernel
theorem witness_PortMemoryAndFlagOperations :
    ((run (.opLd issue0) (opState (opw 0x04 0 0) [0x20000])).d.lane 0).flight.map InFlight.act = [.load 0x20000 1] ∧
    ((run (.opLdp issue0) (opState (opw 0x06 0 0) [0xFFFFC])).d.lane 0).flight.map InFlight.act = [.none] ∧
    ((run (.opStp issue0) (opState (opw 0x07 0 0) [0xFFFF8])).d.lane 0).flight.map InFlight.act = [.store 0xFFFF8 [0, 0]] ∧
    (run (.opRaise issue0) (opState (opw 0x08 0 0xFFFF))).d.hoop.map HEntry.w = [.report ⟨70, 0xFFFF, 0, 0, false⟩] ∧
    flown (.opPrd issue0) (opState (opw 0x01)) = some ([(30, 0)], {}) := by decide +kernel

/-! ### Converters and slices -/

/-- Converter `c` enabled, with a sequence of two inputs and one channel record, in a mode. -/
def conv (m c : Nat) (u : AdcU) (cls : Nat := 0) (l : List (Fld × Nat) := []) : State :=
  inMode m ((R.ADC_CTRL_EN 0, 1) :: (R.ADC_CTRL_EN 1, 1) :: (R.ADC_CTRL_EN 3, 1) :: l)
    { live with pat := { adc := [(c, { seq := [5, 6], chans := [⟨5, cls, 0⟩] })] }, adcs := Sparse.put {} [] c u }
/-- A conversion of input 5 in converter 0. -/
def shot (inj : Bool) : Conv := ⟨0, 5, inj, false, false, false, false, 3, 9, 0⟩

/-- A sealed conversion on its way, with a Tally window of `n`. -/
def tallied (n : Nat) : State :=
  let s := conv 3 0 { flights := [shot false] } 1
  { s with d := s.d.wrAct (R.ADC_T_WIN_WIN_N 0 0).addr (word n) }
/-- The pair converts input 38 together. -/
def pairShots : State :=
  let s := conv 3 0 { flights := [⟨0, 38, false, false, true, false, false, 3, 9, 0⟩] } 2
  { s with d := s.d.setAdc 1 { flights := [⟨1, 38, false, false, true, true, false, 3, 9, 0⟩] } }

theorem witness_ConvertersRunSequencesAndQueueResults :
    (conv 3 0 { trigIn := [9] }).d.adcAvail 0 = true ∧ (conv 3 0 {}).d.adcHanded 0 = false ∧ ((conv 3 0 {}).d.adcMap 0).seq ≠ [] ∧
    ((run (.adcSeqTrigger 0) (conv 3 0 { trigIn := [9] })).d.adc 0).running = true ∧
    (run (.adcSeqTrigger 0) (conv 3 0 { trigIn := [9], running := true, pend := true })).d.get (R.ADC_CNT_SEQ_LOST 0) = 1 ∧
    ((run (.adcSlotGrant 0) (conv 3 0 { running := true, inj := some (3, 7) })).d.adc 0).flights.map Conv.ain = [7] ∧
    (conv 3 0 {} 1).d.adcClass 0 5 = 1 ∧ (conv 3 0 {} 2).d.adcClass 0 5 = 2 ∧
    ((run (.adcSlotGrant 0) (conv 3 0 { running := true } 2)).d.adc 1).flights.map Conv.ain = [5] ∧
    ((run (.conversionComplete 0 ⟨3, 1⟩ ⟨0, 1⟩) (conv 3 0 { flights := [shot true] })).d.adc 0).queue.map Prod.fst =
      [word (0x7FFF + 5 * 2 ^ 16 + 2 ^ 22 + 2 ^ 24 + 3 * 2 ^ 26)] ∧
    (conv 3 0 { flights := [shot true] }).d.sliceBusy 0 = true ∧
    ((run (.adcSlotGrant 0) (conv 3 0 { running := true, rot := 7 })).d.adc 0).flights.map Conv.slice = [7] ∧
    ((run (.adcSlotGrant 0) (conv 3 0 { running := true, rot := 7 })).d.adc 0).rot = 0 ∧
    (conv 3 0 { flights := [shot false] } 1).d.tallyOf 0 5 = some 0 ∧
    ((run (.conversionComplete 0 ⟨9, 10⟩ ⟨0, 1⟩) (tallied 1)).d.tally 0 0).n = 1 ∧
    ((run (.conversionComplete 0 ⟨9, 10⟩ ⟨0, 1⟩) (tallied 0)).d.tally 0 0).n = 0 ∧
    Sparse.at' .none (run (.qtimeRead 0 0) (conv 3 0 { queue := [(1, 2)] })).d.resp 0 = .data 2 := by decide +kernel

def fullQueue : State := conv 3 0 { flights := [shot true], queue := List.replicate 1024 (0, 0) }

theorem witness_sharedPair :
    (run (.conversionComplete 0 ⟨9, 10⟩ ⟨1, 1⟩) pairShots).d.get (R.ADC_PAIRCNT_MISMATCH 1) = 1 ∧
    reportOf pairShots.d 8 54 38 ∈ (run (.conversionComplete 0 ⟨9, 10⟩ ⟨1, 1⟩) pairShots).d.hoop ∧
    ((run (.conversionComplete 0 ⟨9, 10⟩ ⟨1, 1⟩) pairShots).d.adc 1).queue.map Prod.fst = [word (2621 + 38 * 2 ^ 16 + 2 ^ 25 + 3 * 2 ^ 26)] := by
  decide +kernel
theorem witness_queueLoss : (fullQueue.d.adc 0).queue.length = 1024 ∧
    (run (.conversionComplete 0 ⟨9, 10⟩ ⟨0, 1⟩) fullQueue).d.get (R.ADC_QSTAT_QLOSS 0) = 1 := by decide +kernel
theorem witness_InjectionCalibrationTrimsAndTally :
    (conv 3 0 {}).d.led.meas = none ∧ (conv 3 0 {}).d.isSet (R.ADC_CTRL_EN 0) = true ∧
    ((run (.injSwRequest 0 8) { conv 3 0 {} with d := (conv 3 0 {}).d.wrAct (R.ADC_INJ_CFG_EN 0 3).addr (2 ^ 16) }).d.adc 0).inj = some (3, 0) ∧
    (conv 3 0 {}).d.act (R.ADC_INJ_CFG_EN 0 3) = 0 ∧
    ((run (.calStart 0) (conv 3 0 {})).d.adc 0).calWait = true ∧
    (run (.adcSlotGrant 0) (run (.calStart 0) (conv 3 0 {}))).d.get (R.ADC_STATUS_CAL_BUSY 0) = 1 ∧
    (run (.calStart 0) (conv 4 0 {} 1)).d.get (R.ADC_CAL_REASON 0) = 2 ∧
    (run (.calStart 2) (conv 3 0 {})).d.get (R.ADC_CAL_REASON 2) = 4 ∧
    (run (.calStart 0) (conv 3 0 {} 0 [(R.ADC_STATUS_CAL_BUSY 1, 1)])).d.get (R.ADC_CAL_REASON 0) = 1 ∧
    (run (.calStart 0) (conv 3 0 {} 0 [(R.ADC_STATUS_CAL_BUSY 0, 1)])).d.get (R.ADC_CAL_REASON 0) = 3 ∧
    Trim.inRange ⟨2047, -2047, 0⟩ = true ∧ Trim.inRange ⟨2048, 0, 0⟩ = false ∧
    (run (.calComplete 0 (List.replicate 9 ⟨1, 2, 3⟩)) (conv 3 0 {} 0 [(R.ADC_STATUS_CAL_BUSY 0, 1)])).d.trim 0 8 = ⟨1, 2, 3⟩ ∧
    (run (.trimBlockEnd 0 (List.replicate 8 ⟨5, 5, 5⟩) ⟨5, 5, 5⟩) (conv 3 0 { block := 2 ^ 20, blockSq := 2 ^ 40 })).d.trim 0 0 = ⟨1, 1, 1⟩ ∧
    (run (.trimBlockEnd 0 (List.replicate 8 ⟨5, 5, 5⟩) ⟨5, 5, 5⟩) (conv 3 0 { block := 2 ^ 20, blockSq := 2 ^ 36 })).d.trim 0 0 = ⟨0, 1, 1⟩ ∧
    ((conv 3 0 { injIn := [3] }).d.adc 0).injIn = [3] ∧
    (conv 3 0 {} 0 [(R.ADC_CAL_FREEZE 0, 1)]).d.isSet (R.ADC_CAL_FREEZE 0) = true := by decide +kernel
/-- A tally of five conversions with a window of five. -/
def counted : State :=
  let s := conv 3 0 { tally := [(3, { n := 5, sum := -3 })] }
  { s with d := s.d.wrAct (R.ADC_T_WIN_WIN_N 0 3).addr 5 }

theorem witness_tally :
    counted.d.act (R.ADC_T_WIN_WIN_N 0 3) = 5 ∧
    (run (.tallyWindowClose 0 3) counted).d.get (R.ADC_T_SUM_LO_SUM 0 3) = 0xFFFFFFFD ∧
    (conv 3 0 {}).d.iso.weld = none ∧
    (run (.tallyLimit 0 3) { conv 3 0 { tally := [(3, { run := 7 })] } with
      d := (conv 3 0 { tally := [(3, { run := 7 })] }).d.wrAct (R.ADC_T_WIN_EXCEED_N 0 3).addr (word (7 * 2 ^ (R.ADC_T_WIN_EXCEED_N 0 3).lo)) }).d.hoop.map
        HEntry.w = [.report ⟨59, 3, 2, 0, false⟩] := by decide +kernel

/-! ### Sigma-delta channels -/

/-- Channel 23 runs with a preset, its enables and divider set. -/
def sd (m preset : Nat) (u : SdCh) (l : List (Fld × Nat) := []) : State :=
  let s := inMode m ((R.SDF_CTRL_EN, 1) :: (R.SDF_CLK_FREQ 0, 20) :: (R.SDF_CH_CFG_EN 23, 1) :: l) { live with sds := Sparse.put {} [] 23 u }
  { s with d := s.d.wrAct (R.SDF_CH_FILT_PRESET 23).addr (word (preset * 2 ^ (R.SDF_CH_FILT_PRESET 23).lo)) }

theorem witness_SigmaDeltaWordsAreSincSums :
    (sd 3 0 {}).d.sdRuns 23 = true ∧ (inMode 3).d.sdRuns 23 = false ∧ (sd 3 2 {}).d.act (R.SDF_CH_FILT_PRESET 23) = 2 ∧
    ((sd 3 0 {}).d.sd 23).rs = none ∧ ((sd 3 0 {}).d.sd 23).hand = none ∧ (sd 3 0 {}).d.cfg.pend = [] ∧ (sd 3 0 {}).d.cfg.taken = [] ∧
    (sd 3 0 {}).d.act (R.SDF_CH_FILT_DCB_EN 23) = 0 ∧
    (sd 3 0 {}).d.isSet R.SDF_CTRL_EN = true ∧ (sd 3 0 {}).d.sdWaits = false ∧ (sd 3 0 {}).d.sdDiv 23 = 50 ∧
    (run (.s1WindowTrunc 2 7) (sd 3 3 { win := .whole, wbits := 2 ^ 20, wones := 2 ^ 20 })).d.get (R.SDF_CH_DATA_WORD 23) = 0x7FFFFFFF ∧
    (run (.s1WindowTrunc 2 7) (sd 3 3 { win := .whole, wbits := 2 ^ 20 - 1, wones := 5 })).d.get (R.SDF_CH_STAT_S1_TRUNC 23) = 0 ∧
    (run (.sdOutputWord 0 0 0) (sd 3 3 { win := .whole, wdue := true, wbits := 4, wones := 3 })).d.get (R.SDF_CH_DATA_WORD 23) = 0x40000000 ∧
    ((run (.sdOutputWord 0 0 0) (sd 3 3 { win := .whole, wdue := true, wbits := 4, wones := 3 })).d.sd 23).wbits = 1 ∧
    (run (.sdStuck 23) (sd 3 0 { run := 16 } [(R.SDF_CH_CFG_STUCK_N 23, 1)])).d.get (R.SDF_CH_STAT_STUCK 23) = 1 ∧
    (run (.sdStuck 23) (sd 3 0 { run := 15 } [(R.SDF_CH_CFG_STUCK_N 23, 1)])).d.get (R.SDF_CH_STAT_STUCK 23) = 0 ∧
    (run .sdfEnable (inMode 3)).d.get R.SDF_CTRL_EN = 1 := by decide +kernel

/-- 94 ones fill the FAST filter: full scale, saturated (R215, R223); under DC blocking the estimate is taken off (R219). -/
def fullScale (e : Int) (l : List (Fld × Nat)) : State :=
  let s := sd 3 0 { hist := List.replicate 93 true, e := e } l
  { s with d := { s.d with sdmCycle := 32 * 50 } }
theorem test_sd_fullScale : (run (.sdOutputWord 0x80 0 0) (fullScale 0 [])).d.get (R.SDF_CH_DATA_WORD 23) = 0x7FFFFFFF := by
  decide +kernel
theorem witness_dcBlocking :
    let s : State := { fullScale (2 ^ 46) [(R.SDF_CH_DCB_FREEZE 23, 1)] with
      d := (fullScale (2 ^ 46) [(R.SDF_CH_DCB_FREEZE 23, 1)]).d.wrAct (R.SDF_CH_FILT_DCB_EN 23).addr (word (2 ^ (R.SDF_CH_FILT_DCB_EN 23).lo)) }
    (run (.sdOutputWord 0x80 0 0) s).d.get (R.SDF_CH_DATA_WORD 23) = 0x3FFFFFFF := by decide +kernel
theorem witness_ResamplersAndDcEstimates :
    (run (.resamplerEnable 23 1) (sd 4 0 {})).d.get R.SDF_STATUS_WERR = 1 ∧
    (run (.resamplerEnable 23 0x3F01) (sd 1 0 {})).d.get (R.SDF_CH_RS_CTRL_PHASE 23) = 63 ∧
    ((run (.resamplerEnable 23 0) (sd 3 0 { tlast := some 7, rs := some ⟨false, 0, none, some (5, 1600), 0, 9⟩ })).d.sd 23).hand = some 1607 ∧
    (sd 3 0 {}).d.sdTin 23 ≠ 0 ∧
    (run (.resamplerOutput 23) (sd 3 0 { tlast := some 0, rs := some ⟨false, 0, some 1, some (0, 1600), 1, 0⟩ })).d.get
      (R.SDF_CH_CNT_RS_SKIP 23) = 1 ∧
    ((run (.resamplerOutput 23) (sd 3 0 { rs := some ⟨false, 0, none, some (0, 1600), 0, 2 ^ 24⟩ })).d.sd 23).rs =
      some ⟨false, 0, none, some (0, 1600), 0, 2 ^ 24⟩ ∧
    (sd 3 0 { past := List.replicate 20 5, rs := some ⟨false, 0, some 3, some (0, 1600), 0, 0⟩ }).d.rsDue 23 = true ∧
    (run (.dcbEstWrite 23 0x80000000) (sd 3 0 {} [(R.SDF_CH_DCB_FREEZE 23, 1)])).d.get (R.SDF_CH_DCB_EST_EST 23) = 0x80000000 ∧
    (run (.dcbEstWrite 23 5) (sd 3 0 {})).d.get R.SDF_STATUS_WERR = 1 := by decide +kernel


/-! ### PWM and gate supervision -/

/-- A commit word for leg 47 on lane B's channel to the high island. -/
def cw (field value : Nat) (fin : Bool) : HWord := .commit ⟨1, 15, 9, 0x10, 47, field, 0, fin, word value⟩
/-- Lane A or B is active, leg 47 has an owner, the block an enable, and a commit word waits. -/
def legWordState (owner field value : Nat) (fin : Bool) (b : Nat := 1) (l : Leg := {}) : State :=
  inMode 3 [(R.PWM_LEG_MAP_OWNER 47, owner), (R.LANE_STATUS_STATE_B, b), (R.PWM_CTRL_EN, 1)]
    { live with hoop := [⟨0x19, 7, cw field value fin, false, false⟩], legs := [(47, l)] }

theorem witness_CommitWordsAndLegCommits :
    ((legWordState 1 2 0xFFFFFF false).d.take 0x19 7).isSome = true ∧ (legWordState 1 2 0 false).d.laneState 1 = 1 ∧
    (legWordState 1 2 0 false).d.lc.hold = none ∧ (legWordState 1 2 0 false).d.legOwner 47 = 1 ∧
    (legWordState 2 2 0 false).d.legOwner 47 = 2 ∧ (legWordState 0 2 0 false).d.legOwner 47 = 0 ∧
    (legWordState 1 2 0 false 2).d.laneState 1 ≠ 1 ∧ (legWordState 1 2 0 true).d.isSet R.PWM_CTRL_EN = true ∧
    (run (.commitWordPeriod 1 true) (legWordState 1 2 0xFFFFFF false)).d.get (R.PWM_LEG_PERIOD_P 47) = 0xFFFFE0 ∧
    (run (.commitWordCmpa 1 true) (legWordState 1 0 5 true 1 { window := true })).d.get (R.PWM_LEG_CNT_COMMIT_LATE 47) = 1 ∧
    ((run (.commitWordCmpa 1 true) (legWordState 1 0 5 true)).d.leg 47).pend.map LegSet.cmpa = some (some 5) ∧
    (run (.commitWordReserved 1 true) (legWordState 1 15 0 true)).d.get R.PWM_WRITE_ERR_SRC = 2 ∧
    (run (.legCommit 47) (legWordState 1 0 0 false)).d.get R.PWM_WRITE_ERR_SRC = 0 ∧
    (run (.legCommit 47) (legWordState 3 0 0 false)).d.get R.PWM_WRITE_ERR_SRC = 3 ∧
    (run (.legCommit 47) (legWordState 2 0 0 false 1 { pend := some ⟨none, none, none, none, 0⟩ })).d.get R.CFG_WERR_INFO_REPLACED = 1 := by
  decide +kernel

/-- Leg 47 with a frozen set. -/
def legState (l : Leg) (f : List (Fld × Nat) := []) : State := inMode 3 ((R.PWM_CTRL_EN, 1) :: f) { live with legs := [(47, l)] }
def frozen (p ca : Option Nat) : Leg := { frozen := some ⟨p, ca, none, none, 0⟩ }

theorem witness_CountersReloadTheirSets :
    (inMode 3).d.isSet R.PWM_CTRL_EN = false ∧ (legState {}).d.isSet R.PWM_CTRL_EN = true ∧
    ((inMode 3).d.leg 47).trip = none ∧ (inMode 3).d.legState 47 = 2 ∧
    (legState {} [(R.PWM_LEG_STAT_STATE 47, 1)]).d.legState 47 = 1 ∧
    (run (.pwmResync 0xFFFF) (legState {} [(R.PWM_LEG_STAT_STATE 47, 1)])).d.get R.PWM_STATUS_WERR = 1 ∧
    (legState {} [(R.PWM_LEG_LIVE_PERIOD_P 47, 0xFFFFFF)]).d.act (R.PWM_LEG_EVT_POS 47) <
      (legState {} [(R.PWM_LEG_LIVE_PERIOD_P 47, 0xFFFFFF)]).d.livePeriod 47 ∧
    ¬(legState {}).d.act (R.PWM_LEG_EVT_POS 47) < (legState {}).d.livePeriod 47 ∧
    (run (.periodEvent 47) (legState {} [(R.PWM_LEG_LIVE_PERIOD_P 47, 0xFFFFFF)])).d.hoop.map HEntry.recv = [8, 9, 10] ∧
    (run (.guardWindowOpen 47) (legState { pend := (frozen none (some 3)).frozen })).d.get (R.PWM_LEG_STAT_FROZEN 47) = 1 := by
  decide +kernel
theorem witness_reload :
    (legState (frozen (some 0xFE0) none)).d.isSet R.PWM_CTRL_EN = true ∧ ((legState (frozen (some 0xFE0) none)).d.leg 47).badTap = [] ∧
    (run (.pwmReload 47 false) (legState (frozen (some 0xFE0) none))).d.get (R.PWM_LEG_STAT_SET_REJ 47) = 1 ∧
    (run (.pwmReload 47 false) (legState (frozen (some 0x1000) (some 0x900)))).d.get (R.PWM_LEG_LIVE_CMPA_C 47) = 0x900 ∧
    (run (.pwmReload 47 false) (legState (frozen (some 0x1000) none))).d.get (R.PWM_LEG_STAT_STALE_DUTY 47) = 1 ∧
    (run (.pwmReload 47 false) (legState (frozen (some 0x1000) (some 0x600001)) [(R.PWM_LEG_CFG_FMT 47, 1)])).d.get
      (R.PWM_LEG_LIVE_CMPA_C 47) = 0xC00 ∧
    (run (.pwmReload 47 false) (legState (frozen (some 0x1000) (some 0x800000)) [(R.PWM_LEG_CFG_FMT 47, 1)])).d.get
      (R.PWM_LEG_STAT_NEG_DUTY 47) = 1 ∧
    (run (.pwmReload 47 true) (legState {} [(R.PWM_LEG_STAT_STATE 47, 1)])).d.get (R.PWM_LEG_CNT_SHOOT 47) = 1 ∧
    (run (.pwmReload 47 false) (legState { wordA := 7 })).d.get (R.PWM_LEG_LIVE_CMPA_C 47) = 7 ∧
    (run (.pwmReload 47 false) (legState { enabling := true } [(R.PWM_LEG_STAT_STATE 47, 0)])).d.legState 47 = 1 := by decide +kernel

/-- Input 23 watches leg 47. -/
def gate (f : List (Fld × Nat) := []) (d : Dev := live) : State :=
  inMode 3 ([(R.PWM_CTRL_EN, 1), (R.GSUP_CTRL_EN, 1), (R.GSUP_OSV_CFG_EN 23, 1), (R.GSUP_OSV_CFG_LEG 23, 47), (R.GSUP_DRV_CFG_EN 23, 1),
    (R.GSUP_DRV_CFG_LEG 23, 47), (R.PWM_LEG_STAT_STATE 47, 1)] ++ f) d

theorem witness_LegsEnableTripAndSweep :
    (legState {} [(R.PWM_LEG_MAP_OWNER 47, 2)]).d.legOwner 47 = 2 ∧ (legState {}).d.legOwner 47 ≠ 2 ∧
    (legState {} [(R.PWM_LEG_STAT_STATE 47, 0)]).d.legState 47 = 0 ∧
    (inMode 4 [(R.PWM_CTRL_EN, 1), (R.PWM_LEG_MAP_GROUP 47, 8), (R.PWM_LEG_MAP_OWNER 47, 2)]).d.legPermitted 47 = true ∧
    (inMode 3 [(R.PWM_CTRL_EN, 1), (R.PWM_LEG_MAP_OWNER 47, 2)]).d.legPermitted 47 = false ∧
    ((run (.legEnableRequest 47 true) (inMode 4 [(R.PWM_CTRL_EN, 1), (R.PWM_LEG_MAP_GROUP 47, 8),
      (R.PWM_LEG_MAP_OWNER 47, 2), (R.PWM_LEG_STAT_STATE 47, 0)])).d.leg 47).enabling = true ∧
    (legWordState 1 5 1 false).d.legOwner 47 = 1 ∧ ((legWordState 1 5 1 false).d.take 0x19 7).isSome = true ∧
    (run (.legClrFault 47 true) (legState { trip := some 3 })).d.legState 47 = 0 ∧
    (run (.legClrFault 47 false) (legState { trip := some 3 })).d.get (R.PWM_LEG_STAT_WERR 47) = 1 ∧
    (run (.softoffDelayEnd 47) (legState { softoff := some (23, 7) })).d.get (R.PWM_LEG_STAT_HIZ_CAUSE 47) = 7 ∧
    (run (.tapDrift 47 31) (legState {})).d.get (R.PWM_LEG_STAT_TAP 47) = 1 := by decide +kernel
theorem witness_trips :
    (gate).d.osvLive 23 = true ∧ (inMode 3).d.osvLive 23 = false ∧ ((gate).d.leg 47).softoff = none ∧ (gate).d.gsup.first = none ∧
    (run (.desatConfirm 23) (gate)).d.get (R.PWM_LEG_STAT_HIZ_CAUSE 47) = 3 ∧
    (gate [(R.GSUP_OSV_CFG_GRP 23, 1)]).d.get (R.PWM_LEG_MAP_GROUP 46) = (gate).d.get (R.PWM_LEG_MAP_GROUP 47) ∧
    ((run (.desatConfirm 23) (gate [(R.GSUP_OSV_CFG_SOFTOFF 23, 1), (R.PWM_LEG_MAP_SOFTOFF 47, 1)])).d.leg 47).softoff = some (23, 3) ∧
    (run (.drvfltConfirm 23) (gate)).d.get (R.PWM_LEG_STAT_HIZ_CAUSE 47) = 5 ∧
    ((gate [] { live with hoop := [⟨0x21, 7, .wcState 0 0 true, false, false⟩] }).d.take 0x21 7).isSome = true ∧
    (run (.osvSweepStart 23 1 1) (gate)).d.get (R.GSUP_OSV_SWEEP_REFUSED 23) = 1 ∧ (gate).d.act (R.GSUP_OSV_GUARD_EN 23) = 0 ∧
    (run (.osvSweepSample 23 true) (gate [(R.GSUP_OSV_SWEEP_EN 23, 1)]
      { live with gsup := { sweeps := [(23, some ⟨127, 128, 7, 0, true, false⟩)] } })).d.get (R.GSUP_OSV_SWRES_CODE 23) = 128 ∧
    (run (.osvSweepSample 23 false) (gate [(R.GSUP_OSV_SWEEP_EN 23, 1)]
      { live with gsup := { sweeps := [(23, some ⟨127, 128, 6, 0, true, false⟩)] } })).d.gsup.sweeps =
      [(23, some ⟨127, 127, 7, 0, true, true⟩)] ∧
    (gate [(R.GSUP_OSV_SWEEP_EN 23, 1)] { live with gsup := { sweeps := [(23, some ⟨127, 128, 6, 0, true, false⟩)] } }).d.sweepPulse 23 = true := by decide +kernel

/-- A guard comparator's trip waits on its channel. -/
def guarded : State :=
  let s := gate [] { live with hoop := [⟨0x21, 7, .wcState 0 0 true, false, false⟩] }
  { s with d := s.d.wrAct (R.GSUP_OSV_GUARD_EN 23).addr (word (2 ^ (R.GSUP_OSV_GUARD_EN 23).lo)) }

theorem witness_guard : guarded.d.act (R.GSUP_OSV_GUARD_EN 23) = 1 ∧ guarded.d.act (R.GSUP_OSV_GUARD_ADC 23) = 0 ∧
    (run (.guardTrip 23) guarded).d.get (R.PWM_LEG_STAT_HIZ_CAUSE 47) = 4 ∧
    (run (.osvSweepStart 23 1 1) guarded).d.get (R.GSUP_OSV_SWEEP_EN 23) = 1 := by decide +kernel

/-! ### Lanes -/

/-- Commit words of lanes A and B for compare A of leg 0. -/
def wordOf (lane value : Nat) (fin : Bool := false) : CommitWord := ⟨lane, 15, 9, 0x10, 0, 0, 0, fin, word value⟩
/-- Lane A is active, lane B in state `b`; a word of lane A waits, with this comparator. -/
def paired (b value : Nat) (lc : LaneCmp) (f : List (Fld × Nat) := []) : State :=
  inMode 3 ([(R.LANE_STATUS_STATE_B, b), (R.LANE_CTRL_CMP_EN, 1)] ++ f)
    { live with hoop := [⟨0x12, 3, .commit (wordOf 0 value), false, false⟩], lc }
/-- A hold of a pair, of which lane A was active. -/
def holdOf (drained decided : Bool) : Hold := ⟨0, false, 0, true, 2, drained, decided⟩
def inHold (drained : Bool) (f : List (Fld × Nat) := []) (faults : List Nat := []) : State :=
  inMode 3 ([(R.LANE_STATUS_STATE_A, 4), (R.LANE_STATUS_STATE_B, 4)] ++ f)
    { live with lc := { hold := some (holdOf drained false) }, lanes := [(1, { faults })] }

theorem witness_LanesCompareHoldAndDecide :
    ((paired 2 5 {}).d.take 0x12 3).isSome = true ∧ (paired 2 5 {}).d.laneState 0 = 1 ∧ (paired 2 5 {}).d.laneState 1 = 2 ∧
    (paired 2 5 {}).d.isSet R.LANE_CTRL_CMP_EN = true ∧ (paired 2 5 {}).d.get R.LANE_STATUS_ACTIVE = 0 ∧
    ([wordOf 1 5].filter fun p => p.lane == 1 && p.sameKey (wordOf 0 5)) = [wordOf 1 5] ∧
    (run (.laneCommitWord 0) (paired 2 5 { table := [wordOf 1 5] })).d.lc.table = [] ∧
    (run (.laneCommitWord 0) (paired 2 5 { table := [wordOf 1 6] })).d.get R.LANE_CNT_MISMATCH = 1 ∧
    (run (.laneCommitWord 0) (paired 2 5 { table := [wordOf 1 7] } [(R.LANE_TOL_TOL0 0, 2)])).d.get R.LANE_CNT_MISMATCH = 0 ∧
    (run (.laneCommitWord 0) (paired 2 5 { table := [wordOf 1 5 true] })).d.get R.LANE_CNT_MISMATCH = 1 ∧
    (paired 0 5 {}).d.laneState 1 = 0 ∧ (paired 2 5 {} [(R.LANE_STATUS_STATE_A, 4)]).d.laneState 0 = 4 ∧
    ([wordOf 0 5].find? fun c => c.lane == 0) = some (wordOf 0 5) ∧ (∀ c ∈ [wordOf 1 5], c.lane ≠ 0) := by decide +kernel
theorem witness_faultsAndBlame :
    (inHold true).d.lc.hold = some (holdOf true false) ∧ ((inHold false).d.lane 0).runs = [] ∧ (inHold true).d.laneState 0 = 4 ∧
    (run (.checkVectorComplete 0 0) (inHold true [] [0])).d.get R.LANE_BLAME_RULE = 0 ∧
    (run (.checkVectorComplete 1 0) (inHold true)).d.laneState 1 = 1 ∧
    (run (.checkVectorComplete 0 0) (inHold true [(R.LANE_CFG_BENIGN_LIM, 0)])).d.get R.LANE_BLAME_RULE = 3 ∧
    (inHold true [] [0]).d.faulted 100000 1 = true ∧ (inHold true [] [0]).d.faulted 100001 1 = false ∧
    (run .holdDrainComplete (inHold false)).d.lc.hold = some (holdOf true false) ∧
    (run (.laneFault 1) (paired 2 5 { signals := [1] })).d.get R.LANE_STATUS_SIMPLEX = 1 ∧
    (run (.laneFault 0) (paired 2 5 { signals := [0] })).d.laneState 0 = 4 ∧
    (run (.laneFault 0) (paired 0 5 { signals := [0] })).d.laneState 1 = 4 ∧ (paired 2 5 {}).d.bankBusy 0 [0, 7] = false ∧
    (run (.laneFault 1) { paired 2 5 {} with d := { (paired 2 5 {}).d with lc := { signals := [1], hold := some (holdOf true true) } } }).d.laneState 1 = 0 ∧
    (run (.laneFault 1) (paired 3 5 { signals := [1] })).d.laneState 1 = 0 := by decide +kernel

/-- Lane B stands by with a buffer of Loop Set 15, whose mirrored range is the last word of lane memory. -/
def buffer (ready writing done : Bool) : MirrorBuf := ⟨15, 9, ready, [(0xFFFFC, 7)], writing, done⟩
def mirrored (b : MirrorBuf) : State :=
  let s := paired 2 5 { bufs := [b] }
  { s with d := { s.d with pat := { mirror := [⟨0xFFFFC, 4, 15⟩] } } }
/-- Lane B stopped, with this restart. -/
def restarting (r : Option Restart) (b : Nat := 0) : State := paired b 5 { restart := r }

theorem witness_MirrorsRestartsAndSwaps :
    (mirrored (buffer false false false)).d.standbyOf = some 1 ∧ [buffer false false false].map MirrorBuf.ls = [15] ∧
    (run (.mirrorCaptureComplete 15) (mirrored (buffer false false false))).d.lc.bufs.map MirrorBuf.ready = [true] ∧
    (run (.mirrorWriteStart 15) (mirrored (buffer true false true))).d.lc.bufs.map MirrorBuf.writing = [true] ∧
    (run (.mirrorWriteStart 15) (mirrored (buffer true false false))).d.lc.bufs.map MirrorBuf.writing = [false] ∧
    (run (.mirrorWriteComplete 15) (mirrored (buffer true true true))).mem = [(0x201FFFFC, 7)] ∧
    ([(0xFFFFC, (7 : Word))].map Prod.fst).Nodup ∧ 0xFFFFC % 4 = 0 := by decide +kernel
theorem witness_restarts :
    (run (.laneRestart true 0xA5C3) (restarting none)).d.lc.restart = some ⟨1, true, false, false⟩ ∧
    (run (.laneRestart true 0xA5C2) (restarting none)).d.get R.LANE_STATUS_WERR = 1 ∧
    (run (.laneSwap 0xA5C3) (restarting none 2)).d.get R.LANE_STATUS_HOLD = 1 ∧
    (run (.laneSwap 0xA5C3) (restarting none 3)).d.get R.LANE_STATUS_WERR = 1 ∧
    (run (.restartCheckComplete 8 []) (restarting (some ⟨1, true, false, false⟩))).d.rdw 0x4000A05C = 8 ∧
    (run (.restartCheckComplete 0 []) (restarting (some ⟨1, false, false, false⟩))).d.lc.copying = true ∧
    (restarting (some ⟨1, false, true, false⟩)).d.laneState 1 = 0 ∧ (restarting (some ⟨1, false, true, false⟩)).d.laneState 0 = 1 ∧
    (run .laneRestartFail (restarting (some ⟨1, false, true, true⟩) 3)).d.laneState 1 = 0 ∧
    (restarting (some ⟨1, false, true, true⟩) 0).d.laneState 1 ≠ 3 := by decide +kernel

/-! ### Fault collection -/

/-- A report of source 191 by island 13, from lane code `l`, with the source enabled by these acting fields. -/
def reported (m l time : Nat) (en n react : Nat) (a : AccS := {}) : State :=
  let s := inMode m [] { live with hoop := [⟨0x3D, 3, .report ⟨191, 7, l, time, false⟩, false, false⟩], acc := a }
  { s with d := (s.d.wrAct (R.ACC_SRC_CFG_EN 191).addr (word (en + 8 * react + 256 * n))).wrAct (R.ACC_SRC_WIN_W 191).addr 0 }

theorem witness_ReportsAreJudged :
    ((reported 3 2 9 1 3 1).d.take 0x3D 3).isSome = true ∧ (inMode 3).d.take 0x3D 3 = none ∧
    (reported 3 2 9 1 3 1).d.act (R.ACC_SRC_CFG_EN 191) = 1 ∧ (reported 3 2 9 0 3 1).d.act (R.ACC_SRC_CFG_EN 191) = 0 ∧
    (reported 3 2 9 1 3 1).d.act (R.ACC_SRC_CFG_N 191) = 3 ∧ (reported 3 2 9 1 3 3).d.act (R.ACC_SRC_CFG_REACTION 191) = 3 ∧
    (run (.faultReport [13]) (reported 3 1 9 1 3 1)).d.get (R.ACC_SRC_CNT_STANDBY 191) = 1 ∧
    (run (.faultReport [13]) (reported 3 0 9 0 3 1)).d.get (R.ACC_SRC_CNT_EVENTS 191) = 1 ∧
    (run (.faultReport [13]) (reported 3 0 9 1 3 1)).d.accWin 191 = some ⟨9, 1⟩ ∧
    (run (.faultReport [13]) (reported 3 0 9 1 3 1 { wins := [(191, some ⟨5, 3⟩)] })).d.bit R.ACC_PROMO_SRC 191 = true ∧
    (run (.faultReport [13]) (reported 3 0 9 1 3 1 { wins := [(191, some ⟨5, 2⟩)] })).d.bit R.ACC_PROMO_SRC 191 = false ∧
    ((run (.faultReport [13]) (reported 3 0 9 1 3 2)).d.timer 191).map Timer.running = some true ∧
    (run (.faultReport [13]) (reported 2 0 9 1 3 3)).d.get R.ACC_STATUS_SAFE_HELD = 1 ∧
    (reported 10 0 9 1 3 3).d.mode = 10 := by decide +kernel

/-- The staged entry of such a report, and a second report of it. -/
def entry191 (stamp : Word) : LogEntry := ⟨191, 0, 1, 0, false, false, 0, stamp, 7, false, false, 0, 0, 0, false⟩
theorem witness_staging :
    (run (.faultReport [13]) (reported 3 0 1000 1 3 1 { staged := [entry191 1] })).d.acc.staged.map LogEntry.rep = [1] ∧
    (run (.faultReport [13]) (reported 3 0 1001 1 3 1 { staged := [entry191 1] })).d.get R.ACC_LOGSTAT_LOST = 1 ∧
    (run (.faultReport [13]) (reported 3 0 1001 1 3 1 { fifo := [entry191 1] })).d.acc.staged.length = 1 ∧
    (run (.faultReport [13]) (reported 3 0 1000 1 3 1 { fifo := [entry191 1] })).d.acc.fifo.map LogEntry.lastDt = [999] := by decide +kernel

/-- Source 191 active, with an escalation timer. -/
def escalating (m : Nat) (a : AccS := { timers := [(191, some ⟨true, 0, 7, 0, false⟩)] }) (cond : Nat := 0) : State :=
  inMode m [(R.ACC_ACTIVE_SRC 5, 2 ^ 31), (R.ACC_COND_SRC 5, cond), (R.ACC_PROMO_SRC 5, 2 ^ 31)] { live with acc := a }

theorem witness_AcknowledgeForceExpiryAndLog :
    (run (.accAck 191 0xA5C3) (escalating 3)).d.bit R.ACC_ACTIVE_SRC 191 = false ∧
    (run (.accAck 191 0xA5C3) (escalating 3 {} (2 ^ 31))).d.get R.ACC_STATUS_WERR = 1 ∧
    (run (.accAck 192 0xA5C3) (escalating 3)).d.get R.ACC_STATUS_WERR = 1 ∧
    (run (.accForce 191 0) (escalating 3)).d.get R.ACC_STATUS_WERR = 1 ∧
    ((escalating 3).d.timer 191).map Timer.running = some true ∧ (escalating 3 {}).d.timer 191 = none ∧
    (run (.graceExpiry 191 true) (escalating 2)).d.bit R.ACC_SEV_SRC 191 = false ∧
    (run (.graceExpiry 191 false) (escalating 2)).d.bit R.ACC_SEV_SRC 191 = true ∧
    (run .logWrite (escalating 3 { staged := [entry191 1] })).d.acc.fifo.length = 1 ∧
    (run .logWrite (escalating 3 { ovfNext := some (5, 2) })).d.get R.ACC_STATUS_OVF = 1 ∧
    (run (.logW0Read 0) (escalating 3 { fifo := [entry191 1] })).d.acc.latch = some (entry191 1) ∧
    (run (.logW3Read 0) (escalating 3 { fifo := [entry191 1], latch := some (entry191 1) })).d.acc.fifo = [] := by decide +kernel
theorem witness_fullLog :
    (run .logWrite (escalating 3 { staged := [entry191 1], fifo := List.replicate 254 (entry191 0) })).d.acc.fifo.length = 255 ∧
    (run .logWrite (escalating 3 { staged := [entry191 1], fifo := List.replicate 255 (entry191 0) })).d.get R.ACC_LOGSTAT_LOST = 1 ∧
    ((run .logWrite (escalating 3 { staged := [entry191 1], fifo := List.replicate 254 (entry191 0) ++ [{ entry191 0 with src := 0xFF }] })).d.acc.fifo.getLast?.map
      LogEntry.ctx) = some 8 := by decide +kernel

/-! ### The Archive -/

/-- The Archive with channel 63 enabled (DECIM 1, a ring of two blocks from block 17), in a state. -/
def archive (state : Nat) (a : ArchS := {}) (f : List (Fld × Nat) := []) (en : Nat := 1) : State :=
  inMode 3 ([(R.ARCH_CTRL_EN, en), (R.ARCH_STATUS_STATE, state), (R.ARCH_CH_CFG_EN 63, 1), (R.ARCH_CH_CFG_DECIM 63, 1),
    (R.ARCH_CH_RING_BASE 63, 17), (R.ARCH_CH_RING_LEN 63, 2)] ++ f)
    { live with arch := a, hoop := [⟨0x2A, 2, .arch 0 0 0 0x12345678 5, false, false⟩], slotDue := [(63, 15, 9)] }

theorem witness_ArchiveCapturesTriggersAndArms :
    (archive 0 {} [] 0).d.get R.ARCH_CTRL_EN = 0 ∧ (archive 0).d.get (R.ARCH_CH_CFG_EN 63) = 1 ∧ ((archive 0).d.take 0x2A 2).isSome = true ∧
    (run .archEnable (archive 0 {} [(R.ARCH_CH_RING_BASE 63, 16)] 0)).d.get R.ARCH_STATUS_CFGERR = 1 ∧
    (run .archEnable (archive 0 {} [(R.ARCH_CH_RING_BASE 62, 18), (R.ARCH_CH_RING_LEN 62, 2), (R.ARCH_CH_CFG_EN 62, 1),
      (R.ARCH_CH_CFG_DECIM 62, 1)] 0)).d.get R.ARCH_STATUS_CFGERR = 2 ∧
    (run .archEnable (archive 0 {} [(R.ARCH_CH_CFG_DECIM 63, 0)] 0)).d.get R.ARCH_STATUS_CFGERR = 4 ∧
    (run .archEnable (archive 0 {} [(R.ARCH_CH_CFG_KIND 63, 1), (R.ARCH_CH_CFG_SEL 63, 24)] 0)).d.get R.ARCH_STATUS_CFGERR = 3 ∧
    (archive 0).d.archLegal 63 = true ∧ (run .archEnable (archive 0 {} [] 0)).d.get R.ARCH_CTRL_EN = 1 ∧
    (archive 0).d.slotDue.find? (fun e => e.1 == 63) = some (63, 15, 9) ∧
    (run (.archSample 2) (archive 1)).d.arch.chans.map (fun c => (c.1, c.2.blk)) = [(63, some ⟨5, 5, 0, 0, [(0, 0x12345678)]⟩)] := by
  decide +kernel

/-- A channel whose block holds `n` entries, the last of them at 1000. -/
def filling (n : Nat) (ended : Bool := false) : ArchS :=
  { chans := [(63, { words := 1, taken := 1, last := some 1000, ended, blk := some ⟨1000, 1000, 0, 0, List.replicate n (0, 0x10000)⟩ })] }
def trigd : ArchTrig := ⟨1000, 2, 0, 0, 0⟩
def word63 (s : State) (x : Nat) : State := s.archWord 63 0x20000 x

theorem witness_archChannels :
    (word63 (archive 1 (filling 1)) 1999).d.get R.ARCH_CNT2_RATE_SKIP = 1 ∧
    ((word63 (archive 1 (filling 1)) 2005).d.archCh 63).blk.map ArchBlk.ents = some [(0, 0x10000), (100, 0x20000)] ∧
    ((word63 (archive 1 (filling 1)) 2015).d.archCh 63).blk.map ArchBlk.ents = some [(0, 0x10000), (102, 0x20000)] ∧
    ((word63 (archive 1 (filling 13)) 2000).d.archCh 63).blk = none ∧
    ((word63 (archive 1 (filling 1)) 656360).d.archCh 63).blk.map ArchBlk.ents = some [(0, 0x20000)] ∧
    ((word63 (archive 2 { filling 1 with trig := some trigd }) 2000).d.archCh 63).ended = true ∧
    (archive 1).d.act (R.ARCH_TU_CFG_CH 0) ≠ 63 ∧ (archive 1).d.act R.ARCH_MASKCFG_ALIGN = 0 ∧
    (archive 2 (filling 1)).d.arch.complete = none ∧ (run .archRecordTimeout (archive 2 (filling 1))).d.arch.complete = some 0 ∧
    (run .archHeaderWritten (archive 2 { trig := some trigd, complete := some 9 })).d.get R.ARCH_STATUS_DONE = 1 := by decide +kernel

/-- An acting register of the Archive. -/
def archAct (s : State) (f : Fld) (v : Nat) : State := { s with d := s.d.wrAct f.addr (word (v * 2 ^ f.lo)) }

theorem witness_archTriggers :
    (archAct (archive 1) R.ARCH_TRIGSRC_SW 1).d.act R.ARCH_TRIGSRC_SW = 1 ∧
    (run .archSwtrig (archAct (archive 1) R.ARCH_TRIGSRC_SW 1)).d.get R.ARCH_STATUS_STATE = 2 ∧
    (run .archSwtrig (archAct (archive 2) R.ARCH_TRIGSRC_SW 1)).d.get R.ARCH_CNT_INPOST = 1 ∧
    (run .archSwtrig (archAct (archive 3) R.ARCH_TRIGSRC_SW 1)).d.get R.ARCH_CNT_MISSED = 1 ∧
    (run .trigioEdge (archAct (archive 1 {} [(R.ARCH_CTRL_TRIGIO_IN, 1)]) R.ARCH_TRIGSRC_TRIGIO 1)).d.get R.ARCH_STATUS_STATE = 2 ∧
    (word63 (archAct (archAct (archAct (archive 1 { tus := [(7, ⟨true, []⟩)] }) (R.ARCH_TU_CFG_CH 7) (63 + 64)) (R.ARCH_TU_LIM_LO 7)
      (0x20000 + 0x8000)) R.ARCH_TRIGSRC_UNITS 128) 2000).d.get R.ARCH_STATUS_STATE = 2 ∧
    (archive 1).d.bit R.ACC_COND_SRC 118 = false ∧ (run .archTrigioStuck (archive 1)).d.bit R.ACC_COND_SRC 118 = true := by decide +kernel
theorem witness_archArms :
    (run .archArm (archive 0)).d.get R.ARCH_STATUS_STATE = 1 ∧ (run .archArm (archive 0 {} [(R.ARCH_STATUS_DONE, 1)])).d.get R.ARCH_STATUS_STATE = 3 ∧
    (run .archArm (archive 2)).d.get R.ARCH_STATUS_ARM_PEND = 1 ∧ (run .archArm (archive 1)).d.get R.ARCH_STATUS_STATE = 1 ∧
    (run .armioEdge (archive 0 {} [(R.ARCH_CTRL_ARMIO_IN, 1)])).d.get R.ARCH_STATUS_STATE = 1 ∧
    (run .dplArmTime (archive 0 { due := [(0xFFFF, 0, 0)] })).d.get R.ARCH_ID_NEXT = 0 ∧
    (run .archDisarm (archive 1)).d.get R.ARCH_STATUS_STATE = 0 ∧ (run .archDisarm (archive 2)).d.get R.ARCH_STATUS_WERR = 1 ∧
    (run (.archRelease 8) (archive 0)).d.get R.ARCH_STATUS_WERR = 1 ∧
    (run (.archRelease 8) (archive 3 { pend := some (some 9) } [(R.ARCH_STATUS_DONE, 15), (R.ARCH_CTRL_NBANK, 2)])).d.get R.ARCH_STATUS_BANK = 3 := by
  decide +kernel

/-- Channels 62 and 63 enabled, channel 63 judged against an envelope entry 3 of 0 to 1, and unit 0 ready to fire on
channel 62. -/
def masked (state src : Nat) (a : ArchS := {}) : State :=
  let s := archive state { a with maskIdx := some 3, tus := [(0, ⟨true, []⟩)] } [(R.ARCH_MASK_LEN, 4), (R.ARCH_CH_CFG_EN 62, 1),
    (R.ARCH_CH_CFG_DECIM 62, 1), (R.ARCH_CH_RING_BASE 62, 19), (R.ARCH_CH_RING_LEN 62, 2)]
  let s := archAct (archAct (archAct s R.ARCH_MASKCFG_CH (63 + 64)) (R.ARCH_TU_CFG_CH 0) (62 + 64)) (R.ARCH_TU_LIM_LO 0) 0
  { archAct s R.ARCH_TRIGSRC_UNITS src with mem := Mem.wrWord [] (0x30000000 + 64 * 24575 + 12) 0x10000 }

theorem witness_archMask :
    (masked 1 0x101).d.act R.ARCH_MASKCFG_ALIGN = 1 ∧ (masked 1 0x101).d.act R.ARCH_MASKCFG_CH = 63 ∧ (masked 1 0x101).d.arch.maskIdx = some 3 ∧ (masked 1 0x101).d.act R.ARCH_TRIGSRC_MASK = 1 ∧
    (((masked 1 0x101).archWords [62, 63] 0x20000 9).d.arch.trig.map fun g => (g.t, g.cause)) = some (9, 1) ∧
    (((masked 1 0x101).archWords [62, 63] 0x10000 9).d.arch.trig.map fun g => (g.t, g.cause)) = some (9, 0) ∧
    ((masked 1 0x101).archWords [62, 63] 0x20000 9).d.arch.complete = some 0 ∧
    ((masked 1 0).archWords [62, 63] 0x20000 9).d.arch.trig = none ∧
    ((masked 1 0).archWords [62, 63] 0x20000 9).d.hoop.contains (reportOf (masked 1 0).d 2 115 3) = true ∧
    ((masked 2 0 { trig := some trigd }).archWords [62, 63] 0x20000 9).d.arch.maskFail = true ∧
    ((masked 2 0 { trig := some trigd }).archWords [62, 63] 0 9).d.arch.maskFail = false ∧
    ((run (.archSlotRead 63) (archive 1)).d.archCh 63).taken = 1 := by
  decide +kernel

/-! ### Relays, test pulses and seal -/

/-- ISO in a mode, with relay words, a weld test, and converter 0's Tally channel 0 with a full window of this sum of squares. -/
def iso (m : Nat) (relays : List (Nat × Word)) (i : IsoS) (f : List (Fld × Nat) := []) (sq : Nat := 0) : State :=
  inMode m f { live with iso := i, lc := { relays }, adcs := [(0, { tally := [(0, { n := 1024, sq, first := 5 })] })] }
def weldAt (n : Nat) (r : Option Nat := some 5) : IsoS := { weld := some ⟨n, r⟩, want := [0], settling := [0, 1] }

theorem witness_RelaysWeldTestPulsesAndSeal :
    (iso 3 [] {}).d.lc.hold = none ∧ (iso 3 [(1, 2)] {}).d.lc.relays = [(1, 2)] ∧
    (run .relayCommand (iso 3 [(1, 2)] {})).d.hoop.map HEntry.w = [.report ⟨100, 1, 2, 0, false⟩] ∧
    (run .relayCommand (iso 3 [(1, 1)] {})).d.hoop.map HEntry.w = [.report ⟨80, 1, 2, 0, false⟩] ∧
    (run .relayCommand (iso 4 [(1, 1)] {} [(R.ISO_STATUS_WELD_FAIL, 1)])).d.hoop.map HEntry.w = [.report ⟨99, 1, 2, 0, false⟩] ∧
    (run .relayCommand (iso 4 [(1, 1)] {})).d.get R.ISO_STATUS_STEP = 1 ∧
    (run .relayCommand (iso 4 [(1, 1)] {} [(R.ISO_STATUS_RB_A, 1)])).d.get R.ISO_WELD_REASON = 1 ∧
    (run .relayCommand (iso 5 [(1, 1)] {})).d.get R.ISO_STATUS_CMD_B = 1 ∧
    (run .relayCommand (iso 4 [(0, 0)] (weldAt 2))).d.get R.ISO_WELD_REASON = 5 ∧
    (run .relayCommand (iso 4 [(0, 0)] {} [(R.ISO_STATUS_CMD_A, 1)])).d.iso.settling = [0] ∧
    (iso 7 [] {}).d.sys.from8 = false ∧ (iso 4 [(1, 1)] {} [(R.ISO_STATUS_CMD_B, 1)]).d.get R.ISO_STATUS_CMD_B = 1 := by decide +kernel
theorem witness_weldSteps :
    (iso 4 [] (weldAt 1)).d.iso.weld = some ⟨1, some 5⟩ ∧ (iso 4 [] {}).d.get R.ISO_CFG_VCONV = 0 ∧
    5 ≤ ((iso 4 [] {}).d.tally 0 0).first ∧ (iso 4 [] {}).d.act (R.ADC_T_WIN_WIN_N 0 0) ≤ ((iso 4 [] {}).d.tally 0 0).n ∧
    (run (.tallyWindowClose 0 0) (iso 4 [] (weldAt 1))).d.get R.ISO_STATUS_STEP = 2 ∧
    (run (.tallyWindowClose 0 0) (iso 4 [] (weldAt 1) [] 1)).d.get R.ISO_WELD_REASON = 2 ∧
    (run (.tallyWindowClose 0 0) (iso 4 [] (weldAt 2) [(R.ISO_STATUS_RB_A, 3)] (0xFFFF ^ 2 * 1024))).d.get R.ISO_STATUS_STEP = 3 ∧
    (run (.tallyWindowClose 0 0) (iso 4 [] (weldAt 2) [(R.ISO_STATUS_RB_A, 3)] (0xFFFF ^ 2 * 1024 - 1))).d.get R.ISO_WELD_REASON = 3 ∧
    (run (.tallyWindowClose 0 0) (iso 4 [] (weldAt 3))).d.get R.ISO_STATUS_CMD_B = 1 ∧
    (run (.tallyWindowClose 0 0) (iso 4 [] (weldAt 3) [(R.ISO_STATUS_RB_A, 1)])).d.get R.ISO_WELD_RESULT = 2 ∧
    (run (.tallyWindowClose 0 0) (iso 4 [] (weldAt 4) [(R.ISO_STATUS_RB_B, 3)] (0xFFFF ^ 2 * 1024))).d.get R.ISO_STATUS_STEP = 5 ∧
    (run (.tallyWindowClose 0 0) (iso 4 [] (weldAt 5) [(R.ISO_STATUS_RB_B, 2)])).d.get R.ISO_WELD_RESULT = 3 ∧
    (run (.tallyWindowClose 0 0) (iso 4 [] (weldAt 5))).d.get R.ISO_STATUS_CMD_A = 1 := by decide +kernel
theorem witness_readbacksAndTimers :
    (run (.relaySettle 1) (iso 5 [] { settling := [1] } [(R.ISO_STATUS_CMD_B, 1)])).d.bit R.ACC_COND_SRC 96 = true ∧
    (run (.relaySettle 1) (iso 5 [] { settling := [1] })).d.bit R.ACC_COND_SRC 96 = false ∧
    (run (.relaySettle 0) (iso 4 [] (weldAt 3 none))).d.iso.weld = some ⟨3, some 0⟩ ∧
    (run (.relaySettle 1) (iso 4 [] (weldAt 3 none))).d.iso.weld = some ⟨3, none⟩ ∧
    (run (.relayReadbackChange 3 true) (iso 5 [] {})).d.get R.ISO_STATUS_RB_B = 2 ∧
    (run (.relayReadbackChange 3 true) (iso 5 [] {} [(R.ISO_CFG_RB_POL, 8)])).d.get R.ISO_STATUS_RB_B = 0 ∧
    (run .weldStepTimeout (iso 4 [] (weldAt 5))).d.get R.ISO_WELD_REASON = 4 ∧
    (run .isoWeldDue (iso 5 [] {} [(R.ISO_STATUS_CMD_B, 1)])).d.bit R.ACC_COND_SRC 97 = true ∧
    (run .isoWeldOverdue (iso 5 [] {} [(R.ACC_COND_SRC 3, 2)])).d.bit R.ACC_COND_SRC 98 = true ∧
    (run (.clrWeld 0xA5C3) (iso 11 [] {} [(R.ISO_STATUS_WELD_FAIL, 1)])).d.get R.ISO_STATUS_WELD_FAIL = 0 ∧
    (run (.clrWeld 0xA5C3) (iso 10 [] {} [(R.ISO_STATUS_WELD_FAIL, 1)])).d.get R.ISO_STATUS_WERR = 1 ∧
    (run (.setWeld 0xA5C3) (iso 5 [] {})).d.get R.ISO_STATUS_WELD_FAIL = 1 ∧
    (run (.setWeld 0xA5C2) (iso 5 [] {})).d.get R.ISO_STATUS_WERR = 1 := by decide +kernel

/-- Safety input 7 enabled on supply 0, its pre sample high. -/
def sin (cross : List (Nat × Nat)) (was : Nat) : State :=
  iso 3 [] { pre := 0x80, cross } [(R.ISO_CTRL_EN, 1), (R.ISO_SIN_EN 7, 1), (R.ISO_SINSTAT_CROSS, was)]

theorem witness_inputsAndSeal :
    (sin [] 0).d.get (R.ISO_SIN_SRC 7) = 0 ∧
    (run (.sinInSample 0 0x80) (sin [(7, 1)] 0)).d.get R.ISO_SINSTAT_CROSS = 0x80 ∧
    (run (.sinInSample 0 0x80) (sin [] 0)).d.iso.cross = [(7, 1)] ∧ (run (.sinInSample 0 0) (sin [(7, 2)] 0x80)).d.get R.ISO_SINSTAT_CROSS = 0 ∧
    (run (.sinInSample 1 0) (sin [(7, 1)] 0)).d.get R.ISO_SINSTAT_CROSS = 0x80 ∧
    (run (.testPulseStart 0) (sin [] 0)).d.iso.pulses = [0] ∧ (run (.testPulseStart 0) (iso 3 [] {})).d.iso.pulses = [] ∧
    (run (.sealSample 1) (iso 3 [] { sealRun := 1 })).d.bit R.ACC_COND_SRC 101 = true ∧
    (run (.sealSample 1) (iso 3 [] {})).d.bit R.ACC_COND_SRC 101 = false ∧ (run (.sealSample 0) (iso 3 [] { sealRun := 1 })).d.iso.sealRun = 0 ∧
    (iso 2 [] {}).d.mode < 3 := by decide +kernel
theorem witness_isoWrites :
    let s := run (.registerWrite 0 0x4003100C 0x181E30) (iso 1 [] { pins := 1 } [(R.ACC_COND_SRC 3, 0x80)])
    (iso 1 [] {}).d.coreHeld 0 = false ∧ (iso 1 [] {}).d.gated 0x4003100C = false ∧ (iso 1 [] {}).d.staticOpen 0x4003100C = true ∧
    s.d.get R.ISO_STATUS_RB_A = 2 ∧ s.d.bit R.ACC_COND_SRC 95 = true ∧
    (run (.registerWrite 0 0x4003105C 1) (iso 1 [] {} [(R.ISO_SIN_OPEN_SRC 7, 1), (R.ACC_COND_SRC 3, 0x4000)])).d.bit R.ACC_COND_SRC 110 = false ∧
    (run (.registerWrite 0 0x4003105C 5) (iso 1 [] {} [(R.ISO_SIN_OPEN_SRC 7, 1), (R.ACC_COND_SRC 3, 0x4000)])).d.bit R.ACC_COND_SRC 110 = true := by
  decide +kernel

/-! ### The Circulation Desk -/

/-- Slot 255 in state `n`, allowed on core 3; core 3 as given. -/
def deskAt (n : Nat) (core : CircCore := {}) (slot : CircSlot := {}) (f : List (Fld × Nat) := []) : State :=
  inMode 3 ([(R.CIRC_CTRL_EN, 1), (R.CIRC_SLOT_STAT_STATE 255, n), (R.CIRC_SLOT_CFG_AFF 255, 8)] ++ f)
    { live with sys := { held := .none, coresOut := true }, time := { shelf := 1 }, circ := { slots := Sparse.put {} [] 255 slot, cores := Sparse.put {} [] 3 core, ready := if n = 1 then [255] else [] } }
def onCore : CircCore := { cur := some 255 }

theorem witness_DeskGivesTakesWakesAndPreempts :
    (deskAt 1).d.coreHeld 3 = false ∧ (deskAt 1).d.get R.CIRC_CTRL_EN = 1 ∧ ((deskAt 1).d.ccore 3).cur = none ∧ (∀ c, c < 4 → ((deskAt 1).d.ccore c).waiting = false) ∧
    Sparse.at' .none (run (.take 3 2) (deskAt 1)).d.resp 3 = .data 0 ∧
    Sparse.at' .none (run (.take 3 3) (deskAt 1 {} { wake := 4 })).d.resp 3 = .data 0x800004FF ∧
    ((run (.take 3 3) (deskAt 0)).d.ccore 3).waiting = true ∧ ((run (.take 2 2) (deskAt 1)).d.ccore 2).waiting = true ∧
    (run (.giveYield 3) (deskAt 0)).d.get R.CIRC_STATUS_WERR = 1 ∧ ((deskAt 2 onCore).d.ccore 3).cur = some 255 ∧
    (run (.giveYield 3) (deskAt 2 onCore)).d.circ.ready = [255] ∧
    (run (.giveDelay 3 0) (deskAt 2 onCore)).d.get R.CIRC_STATUS_WERR = 1 ∧
    (run (.giveDelay 3 1) (deskAt 2 onCore)).d.get (R.CIRC_SLOT_STAT_STATE 255) = 4 ∧
    (run (.giveYield 3) (deskAt 2 onCore {} [(R.CIRC_SLOT_STAT_PEND_STOP 255, 1)])).d.get (R.CIRC_SLOT_STAT_STATE 255) = 0 ∧
    (run (.giveExit 3) (deskAt 2 onCore {} [(R.CIRC_SLOT_STAT_PEND_SUSP 255, 1)])).d.get (R.CIRC_SLOT_STAT_STATE 255) = 5 := by
  decide +kernel
theorem witness_givesAndCommands :
    (run (.giveWait 3 true 1 0) (deskAt 2 onCore {} [(R.CIRC_WAITMASK_MASK 3, 3), (R.CIRC_FLAG_BITS 1, 1)])).d.get
      (R.CIRC_SLOT_STAT_STATE 255) = 3 ∧
    (run (.giveWait 3 false 1 0) (deskAt 2 onCore {} [(R.CIRC_WAITMASK_MASK 3, 3), (R.CIRC_FLAG_BITS 1, 1)])).d.circ.ready = [255] ∧
    (run (.giveWait 3 false 1 0) (deskAt 2 onCore)).d.get R.CIRC_STATUS_WERR = 1 ∧
    ((run (.giveUntil 3 0x800000) (deskAt 2 onCore)).d.slot 255).expiry = some 0x800000 ∧
    (run (.giveUntil 3 0x800001) (deskAt 2 onCore)).d.get (R.CIRC_SLOT_STAT_LATE 255) = 1 ∧
    (run (.giveSuspend 3) (deskAt 2 onCore)).d.get (R.CIRC_SLOT_STAT_STATE 255) = 5 ∧
    (run (.cmdStart 0 255) (deskAt 0)).d.circ.ready = [255] ∧ (run (.cmdStart 0 255) (deskAt 1)).d.get R.CIRC_STATUS_WERR = 1 ∧
    (run (.cmdResume 0 255) (deskAt 5)).d.get (R.CIRC_SLOT_STAT_STATE 255) = 1 ∧ (deskAt 4).d.get (R.CIRC_SLOT_STAT_STATE 255) = 4 ∧
    (run (.cmdSuspend 0 255) (deskAt 2)).d.get (R.CIRC_SLOT_STAT_PEND_SUSP 255) = 1 ∧
    (run (.cmdStop 0 255) (deskAt 3)).d.get (R.CIRC_SLOT_STAT_STATE 255) = 0 ∧
    ((run (.cmdStart 0 255) (deskAt 0 { waiting := true })).d.ccore 3).cur = some 255 ∧
    ((run (.cmdStart 0 255) (deskAt 0 { cur := some 254 } {} [(R.CIRC_SLOT_CFG_PRIO 255, 1)])).d.ccore 3).req = some 255 := by decide +kernel
theorem witness_flagsShelfAndMonitors :
    (deskAt 3 {} { wait := some ⟨3, 0x80000000, true⟩ }).d.slot 255 = { wait := some ⟨3, 0x80000000, true⟩ } ∧
    (run (.flagSet 3 0x80000000) (deskAt 3 {} { wait := some ⟨3, 0x80000000, true⟩ })).d.circ.ready = [255] ∧
    (run (.flagSet 3 0x40000000) (deskAt 3 {} { wait := some ⟨3, 0x80000000, true⟩ })).d.circ.ready = [] ∧
    (run (.flagSet 3 1) (deskAt 0 {} {} [(R.CIRC_FLAG_BITS 3, 1)])).d.get R.CIRC_FLAGOVR_COUNT = 1 ∧
    (run (.flagClear 3 1 []) (deskAt 0 {} {} [(R.CIRC_FLAG_BITS 3, 3)])).d.get (R.CIRC_FLAG_BITS 3) = 2 ∧
    (held 0x4D 1 (.flag 127) false false).d.take 0x4D 1 ≠ none ∧
    (run (.flagRequest 13) (held 0x4D 1 (.flag 127) false false)).d.get (R.CIRC_FLAG_BITS 3) = 2 ^ 31 ∧
    Sparse.rising (deskAt 4 {} { expiry := some 1 }).d.circ.slots = true ∧
    (run (.shelfTick []) (deskAt 4 {} { expiry := some 1 })).d.circ.ready = [255] ∧
    (run (.shelfTick []) (deskAt 4 {} { expiry := some 2 })).d.circ.ready = [] ∧ (run (.shelfTick []) (deskAt 4)).d.time.shelf = 0 ∧
    (run (.circStarve 255) (deskAt 1 {} {} [(R.CIRC_SLOT_CFG_STARVE 255, 1)])).d.hoop.length = 1 ∧
    (run (.circRunLong 255) (deskAt 2 {} {} [(R.CIRC_SLOT_CFG_RUNMAX 255, 1)])).d.hoop.length = 1 ∧
    (run (.circStarve 255) (deskAt 1)).d.hoop.length = 0 ∧ (run (.coreDebugHalt 3) (inMode 4)).d.hoop.length = 1 := by decide +kernel

/-! ### TIME -/

/-- TIME as given, with comparator 7. -/
def timeAt (t : TimeS) (c : Cmp := {}) (f : List (Fld × Nat) := [(R.TIME_INCR_INCR, 0x04000000)]) : State :=
  inMode 3 f { live with time := t, cmps := Sparse.put {} [] 7 c }

theorem witness_TimeTicksStepsAndCompares :
    (timeAt {}).pending = [] ∧ (timeAt {}).d.sys.held = .none ∧ (run .secondCarry (timeAt { ns := 999999996 })).d.time.sec = 1 ∧
    (run .secondCarry (timeAt { ns := 999999995 })).d.time = { ns := 999999995 } ∧
    (run .secondCarry (timeAt { ns := 999999996 } {} [(R.TIME_INCR_INCR, 0x04000000), (R.TIME_PPSOUT_EN, 1)])).d.time.ppsOut = true ∧
    (run .timeAdjustEnd (timeAt { adj := 1 })).d.time.adj = 0 ∧ (run .timeAdjustEnd (timeAt { adj := 2 })).d.time.adj = 2 ∧
    (run .timeStep (timeAt { sec := 5, step := some ⟨-1, -1⟩ })).d.time.sec = 4 ∧
    (run .timeStep (timeAt { step := some ⟨-1, 0⟩ })).d.time.sec = 2 ^ 48 - 1 ∧
    (run (.timeAdjustStart 0xFFFFFF) (timeAt {})).d.time.adj = 0xFFFFFF ∧
    (run .timeStepRequest (timeAt {} {} [(R.TIME_STEP_SEC_SEC, 0xFFFF)])).d.time.step = some ⟨-1, 0⟩ ∧
    (run .secondCarry (timeAt { ns := 999999996 } {} [(R.TIME_INCR_INCR, 0x04000000), (R.CIRC_CTRL_EN, 1)])).d.time.shelf = 1 ∧
    (run .timeStep (timeAt { ns := 5, step := some ⟨3, 0⟩ } {} [(R.CIRC_CTRL_EN, 1)])).d.time.shelf = 1 ∧
    (run .timeStep (timeAt { sec := 3, ns := 5, step := some ⟨-1, 0⟩ } {} [(R.CIRC_CTRL_EN, 1)])).d.time.shelf = 0 ∧
    (timeAt {}).d.coreHeld 0 = false ∧ (timeAt {}).d.coreHeld 3 = true ∧
    Sparse.at' .none (run (.timeNsRead 0) (timeAt { ns := 999999999 })).d.resp 0 = .data 999999999 := by decide +kernel
theorem witness_comparatorsAndPulses :
    (run (.timeComparatorFire 7) (timeAt { short := 9 } { armed := true, at' := 9 })).d.get R.TIME_CMPSTAT_FIRED = 128 ∧
    ((run (.timeComparatorFire 7) (timeAt { short := 8 } { armed := true, at' := 9 })).d.cmp 7).armed = true ∧
    (run (.timeComparatorFire 7) (timeAt { short := 29 } { armed := true, at' := 9, period := 10 })).d.get R.TIME_CMPSTAT_MISSED = 2 ∧
    (run (.timeComparatorFire 7) (timeAt { sec := 1, ns := 5 } { armed := true, mode := true, at' := 5, sec := 1 })).d.get R.TIME_CMPSTAT_FIRED =
      128 ∧
    ((run (.comparatorArm 7 true) (timeAt {} {} [(R.TIME_CMP_PERIOD_NS 7, 5)])).d.cmp 7) = ⟨true, true, 0, 0, 5⟩ ∧
    (run .ppsInEdge (timeAt { ns := 7, sec := 1 })).d.get R.TIME_PPSIN_NS_NS = 999999999 ∧
    (run .ppsInEdge (timeAt { ns := 8, sec := 1 })).d.get R.TIME_PPSIN_NS_NS = 0 ∧
    (run .timePpsLoss (timeAt { ppsSeen := true })).d.bit R.ACC_COND_SRC 128 = true ∧
    (run .timePpsLoss (timeAt {})).d.bit R.ACC_COND_SRC 128 = false ∧ (run .ppsOutEnd (timeAt { ppsOut := true })).d.time.ppsOut = false := by
  decide +kernel

/-! ### Ethernet -/

/-- MAC 1 enabled with its link up, one receive descriptor at 0 and one transmit descriptor of queue 7 at 0x40; the message
RAM holds these words. -/
def eth (ws : List (Nat × Word)) (f : List (Fld × Nat) := []) (m : EthMac := {}) : State :=
  let s := inMode 3 ([(R.ETH_CTRL_EN 1, 1), (R.ETH_STATUS_LINK 1, 1), (R.ETH_RXQ_LEN_N 1, 1), (R.ETH_TXQ_LEN_N 1 7, 1),
    (R.ETH_TXQ_BASE_OFF 1 7, 0x40)] ++ f) { live with eths := Sparse.put {} [] 1 m }
  { s with mem := ws.foldl (fun x w => Mem.wrWord x (0x38010000 + w.1) w.2) [] }
/-- Descriptor words: the receive buffer of 64 bytes at 0x100, the transmit frame of 20 bytes at 0x200. -/
def rxd (w1 : Nat) : List (Nat × Word) := [(0, 0x100), (4, word w1)]
def txd (w1 : Nat) : List (Nat × Word) := [(0x40, 0x200), (0x44, word w1), (0x48, 100)]
def queue7 (h : Option EthHead) : EthMac := { qs := [(7, { head := h })] }
/-- A frame of 14 bytes, of type PTP. -/
def ptp : List Byte := List.replicate 12 0 ++ [0x88, 0xF7]

theorem witness_EthernetFramesRingsAndLink :
    (eth []).d.get (R.ETH_CTRL_EN 1) = 1 ∧ (run (.ethFrameReceived 1 ptp false) (eth [])).d.get (R.ETH_RXLOST_COUNT 1) = 1 ∧
    (run (.ethFrameReceived 1 ptp false) (eth [] [(R.ETH_STATUS_LINK 1, 0)])).d.get (R.ETH_RXLOST_COUNT 1) = 0 ∧
    (Mem.word (run (.ethFrameReceived 1 ptp false) (eth (rxd 0x80000040))).mem 0x38010004).toNat = 14 + 2 ^ 16 ∧
    (Mem.word (run (.ethFrameReceived 1 ptp false) (eth (rxd 0x8000000D))).mem 0x38010004).toNat = 14 + 3 * 2 ^ 16 ∧
    (run (.ethFrameReceived 1 ptp false) (eth [(0, 0x30000), (4, 0x80000040)])).d.get (R.ETH_STATUS_DESC_ERR 1) = 1 ∧
    (run (.ethFrameReceived 1 ptp false) (eth (rxd 0x80000040))).d.get (R.ETH_STATUS_RXF 1) = 1 ∧
    (run (.ethTxKick 1 7) (eth (txd 20))).d.ethQ 1 7 = ⟨true, none⟩ ∧
    (run (.ethTxKick 1 7) (eth (txd 0x80000014))).d.ethQ 1 7 = ⟨false, some ⟨true, false⟩⟩ ∧
    (run (.ethTxKick 1 7) (eth (txd 0x80040014))).d.ethQ 1 7 = ⟨false, some ⟨false, false⟩⟩ ∧
    (run (.ethTxKick 1 7) (eth [(0x40, 0x30000), (0x44, 0x80000014)])).d.get (R.ETH_STATUS_DESC_ERR 1) = 1 ∧
    (run (.ethTxKick 1 7) (eth (txd 0x80040014 ++ [(0x48, 0x80000001)]))).d.ethQ 1 7 = ⟨false, some ⟨true, true⟩⟩ ∧
    (run (.ethTxKick 1 7) (eth (txd 0x80040014 ++ [(0x48, 0x80000001)]) [(R.ETH_TXQ_CFG_LATE_POL 1 7, 1)])).d.get (R.ETH_STATUS_TXF 1) = 1 := by
  decide +kernel
theorem witness_ethTransmissionAndMdio :
    ((run (.ethLaunchTime 1 7) (eth (txd 0x80040014 ++ [(0x48, 0)]) [] (queue7 (some ⟨false, false⟩)))).d.ethQ 1 7).head = some ⟨true, false⟩ ∧
    ((run (.ethLaunchTime 1 7) (eth (txd 0x80040014) [] (queue7 (some ⟨false, false⟩)))).d.ethQ 1 7).head = some ⟨false, false⟩ ∧
    ((run (.ethTxStart 1) (eth (txd 0x80040014) [] (queue7 (some ⟨false, false⟩)))).d.eth 1).tx = none ∧
    ((run (.ethTxStart 1) (eth (txd 0x80040014 ++ [(0x48, 0)]) [] (queue7 (some ⟨false, false⟩)))).d.eth 1).tx.map EthTx.q = some 7 ∧
    ((run (.ethTxComplete 1) (eth (txd 0x80000014 ++ [(0x64, 0x80000000)]) [(R.ETH_TXQ_LEN_N 1 7, 2)]
      { queue7 none with tx := some ⟨7, [], 5, 6, 7, true⟩ })).d.ethQ 1 7).head = some ⟨true, false⟩ ∧
    ((run (.ethTxStart 1) (eth (txd 0x80000014) [] (queue7 (some ⟨true, false⟩)))).d.eth 1).tx.map EthTx.q = some 7 ∧
    ((run (.ethTxStart 1) (eth (txd 0x80000014) [(R.ETH_STATUS_LINK 1, 0)] (queue7 (some ⟨true, false⟩)))).d.eth 1).tx = none ∧
    (run (.ethTxComplete 1) (eth (txd 0x80010014) [] { queue7 none with tx := some ⟨7, [], 5, 6, 7, true⟩ })).d.get (R.ETH_STATUS_TXF 1) = 1 ∧
    Mem.word (run (.ethTxComplete 1) (eth (txd 0x80010014) [] { queue7 none with tx := some ⟨7, [], 5, 6, 7, true⟩ })).mem 0x3801005C = 5 ∧
    (run (.mdioGo 0xFFFF 31 31 3) (eth [])).d.get (R.ETH_MDIO_BUSY 0) = 1 ∧
    (run (.mdioGo 0xFFFF 31 31 3) (eth [] [(R.ETH_MDIO_BUSY 0, 1)])).d.get (R.ETH_MDIO_DATA 0) = 0xFFFF ∧
    (run (.mdioComplete (some 5)) (run (.mdioGo 9 1 2 3) (eth []))).d.get (R.ETH_MDIO_DATA 0) = 5 ∧
    (run .ethMdioTimeout (eth [] [(R.ETH_MDIO_BUSY 0, 1)])).d.get (R.ETH_MDIO_TIMEOUT 0) = 1 ∧
    (run (.ethLinkChange 1 false) (eth [] [(R.ETH_CTRL_INBAND 1, 1)])).d.bit R.ACC_COND_SRC 131 = true ∧
    (run (.ethLinkChange 1 true) (eth [] [(R.ETH_STATUS_LINK 1, 0), (R.ETH_CTRL_INBAND 1, 1)])).d.get (R.ETH_STATUS_LINK 1) = 1 := by
  decide +kernel

/-! ### CAN -/

/-- Controller 3 enabled: one base gate at 0x100, inbox 0 of one slot of 8 bytes at 0x200, two outbox slots of 8 bytes at
0x300, one receipt slot at 0x400; the message RAM holds these words. -/
def can (f : List (Fld × Nat) := []) (ws : List (Nat × Word) := []) (c : CanC := {}) : State :=
  let s := inMode 3 ([(R.CAN_CTRL_EN 3, 1), (R.CAN_LAY_GB_OFF 3, 0x100), (R.CAN_LAY_GB_COUNT 3, 1), (R.CAN_LAY_IN_OFF 3 0, 0x200),
    (R.CAN_LAY_IN_COUNT 3 0, 1), (R.CAN_LAY_OUT_OFF 3, 0x300), (R.CAN_LAY_OUT_COUNT 3, 2), (R.CAN_LAY_RCPT_OFF 3, 0x400),
    (R.CAN_LAY_RCPT_COUNT 3, 1)] ++ f) { live with cans := Sparse.put {} [] 3 c }
  { s with mem := ws.foldl (fun x w => Mem.wrWord x (0x38000000 + w.1) w.2) [] }
/-- A base frame of identifier 0x7FF with one byte; a gate word that takes identifiers 0x7F0 to 0x7FF into inbox 0. -/
def baseFrame : CanFrame := { oddFrame with rtr := false, fdf := false, id := 0x7FF, dlc := 1, data := [0x5A] }
def gateWord : Nat × Word := (0x100, word (0x7F0 + 0x7FF * 2 ^ 11 + 2 ^ 24))
/-- An outbox element of base identifier 5 in slot 1, which asks for a receipt. -/
def outWords : List (Nat × Word) := [(0x314, word (5 * 2 ^ 21)), (0x318, 0x40)]
def sending (abort : Bool) : CanC := { tx := some ⟨1, abort, 77, baseFrame⟩ }

theorem witness_CanGatesSendsAndCountsErrors :
    (run (.canEnable 3) (can [(R.CAN_CTRL_EN 3, 0)])).d.get (R.CAN_CTRL_EN 3) = 1 ∧
    (run (.canEnable 3) (can [(R.CAN_CTRL_EN 3, 0), (R.CAN_LAY_IN_OFF 3 0, 0x101)])).d.get (R.CAN_STATUS_WERR 3) = 1 ∧
    (run (.canEnable 3) (can [(R.CAN_CTRL_EN 3, 0), (R.CAN_LAY_RCPT_OFF 3, 0xFFF5)])).d.get (R.CAN_STATUS_WERR 3) = 1 ∧
    ((run (.canRecover 3 0xA5C3) (can [(R.CAN_STATUS_BUSOFF 3, 1)])).d.can 3).recovering = true ∧
    (run (.canRecover 3 0xA5C3) (can)).d.get (R.CAN_STATUS_WERR 3) = 1 ∧
    (run (.canRecoveryComplete 3) (can [(R.CAN_STATUS_BUSOFF 3, 1)] [] { recovering := true })).d.get (R.CAN_STATUS_BUSOFF 3) = 0 ∧
    ((run (.canRejoin 3) (can [] [] { off := true })).d.can 3).off = false ∧
    (run (.inboxDone 3 0 0) (can [(R.CAN_IN_STAT_LEVEL 3 0, 1)])).d.get (R.CAN_IN_STAT_LEVEL 3 0) = 0 ∧
    (run (.inboxDone 3 0 0) (can)).d.get (R.CAN_IN_STAT_LEVEL 3 0) = 0 ∧
    (run (.receiptDone 3 0) (can [(R.CAN_RCPT_STAT_LEVEL 3, 1)])).d.get (R.CAN_RCPT_STAT_LEVEL 3) = 0 ∧
    (run (.canRxError 3 5 1) (can [(R.CAN_ERRCNT_REC 3, 120)])).d.get (R.CAN_STATUS_PASSIVE 3) = 1 ∧
    (run (.canRxError 3 5 0) (can [(R.CAN_ERRCNT_REC 3, 255)])).d.get (R.CAN_ERRCNT_REC 3) = 255 := by decide +kernel
theorem witness_canReceives :
    (can).d.padOff 59 = false ∧
    (run (.canFrameReceived 3 ⟨baseFrame, 99⟩) (can [] [gateWord])).d.get (R.CAN_IN_STAT_LEVEL 3 0) = 1 ∧
    Mem.word (run (.canFrameReceived 3 ⟨baseFrame, 99⟩) (can [] [gateWord])).mem 0x38000200 = word (0x7FF * 2 ^ 21) ∧
    Mem.word (run (.canFrameReceived 3 ⟨baseFrame, 99⟩) (can [] [gateWord])).mem 0x38000208 = 99 ∧
    (run (.canFrameReceived 3 ⟨baseFrame, 99⟩) (can [(R.CAN_CTRL_MODE 3, 2)] [gateWord])).d.get (R.CAN_IN_STAT_LEVEL 3 0) = 0 ∧
    Mem.rd (run (.canFrameReceived 3 ⟨baseFrame, 99⟩) (can [] [gateWord])).mem 0x3800020C = 0x5A ∧
    (run (.canFrameReceived 3 ⟨baseFrame, 99⟩) (can [(R.CAN_IN_STAT_LEVEL 3 0, 1)] [gateWord])).d.get (R.CAN_IN_STAT_LOST 3 0) = 1 ∧
    (run (.canFrameReceived 3 ⟨{ baseFrame with id := 0x7EF }, 0⟩) (can [(R.CAN_NOMATCH_BASE_TO 3, 2)] [gateWord])).d.get (R.CAN_IN_STAT_LEVEL 3 0) =
      0 ∧
    (run (.canFrameReceived 3 ⟨{ baseFrame with rtr := true, data := [] }, 0⟩) (can [(R.CAN_NOMATCH_RTR_DROP_B 3, 1)] [gateWord])).d.get
      (R.CAN_IN_STAT_LEVEL 3 0) = 0 ∧
    (run (.canFrameReceived 3 ⟨baseFrame, 99⟩) (can [(R.CAN_ERRCNT_REC 3, 127)] [gateWord])).d.get (R.CAN_ERRCNT_REC 3) = 126 ∧
    (can [(R.CAN_STATUS_BUSOFF 3, 1)]).d.get (R.CAN_STATUS_BUSOFF 3) ≠ 0 := by decide +kernel
theorem witness_canSends :
    (run (.canTxRequest 3 0xFFFFFFFF) (can)).d.get (R.CAN_OUT_WAIT_SLOTS 3) = 3 ∧
    (run (.canTxAbort 3 2) (can [(R.CAN_OUT_WAIT_SLOTS 3, 2)])).d.get (R.CAN_OUT_ABORTED_SLOTS 3) = 2 ∧
    ((run (.canTxAbort 3 2) (can [(R.CAN_OUT_WAIT_SLOTS 3, 2)] [] (sending false))).d.can 3).tx = (sending true).tx ∧
    ((run (.canArbitrationEntry 3) (can [(R.CAN_OUT_WAIT_SLOTS 3, 3)] (outWords ++ [(0x300, word (6 * 2 ^ 21))]))).d.can 3).tx.map CanTx.slot =
      some 1 ∧
    ((run (.canArbitrationEntry 3) (can [(R.CAN_OUT_WAIT_SLOTS 3, 2), (R.CAN_CTRL_MODE 3, 1)] outWords)).d.can 3).tx = none ∧
    (run (.canTxAttemptEnd 3 .success) (can [(R.CAN_OUT_WAIT_SLOTS 3, 2)] outWords (sending false))).d.get (R.CAN_OUT_SENT_SLOTS 3) = 2 ∧
    Mem.word (run (.canTxAttemptEnd 3 .success) (can [(R.CAN_OUT_WAIT_SLOTS 3, 2)] outWords (sending false))).mem 0x38000408 = 77 ∧
    (run (.canTxAttemptEnd 3 .success) (can [(R.CAN_RCPT_STAT_LEVEL 3, 1)] outWords (sending false))).d.get (R.CAN_RCPT_STAT_LOST 3) = 1 ∧
    (run (.canTxAttemptEnd 3 .success) (can [(R.CAN_CTRL_MODE 3, 2), (R.CAN_LAY_GB_COUNT 3, 0)] [] (sending false))).d.get (R.CAN_IN_STAT_LEVEL 3 0) = 1 ∧
    (run (.canTxAttemptEnd 3 (.err 5 false 9)) (can [(R.CAN_ERRCNT_TEC 3, 247)] [] (sending false))).d.get (R.CAN_ERRCNT_TEC 3) = 263 ∧
    (run (.canTxAttemptEnd 3 .lostArb) (can [(R.CAN_OUT_WAIT_SLOTS 3, 2)] outWords (sending true))).d.get (R.CAN_OUT_ABORTED_SLOTS 3) = 2 ∧
    (run (.canTxAttemptEnd 3 (.ackErr false 0)) (can [(R.CAN_ACKRUN_RUN 3, 15)] [] (sending false))).d.bit R.ACC_COND_SRC 143 = true ∧
    (run (.canTxAttemptEnd 3 (.err 5 false 0)) (can [(R.CAN_ERRCNT_TEC 3, 248)] [] (sending false))).d.get (R.CAN_STATUS_BUSOFF 3) = 1 ∧
    (run (.canTxAttemptEnd 3 (.err 5 true 0)) (can [(R.CAN_ERRCNT_TEC 3, 248)] [] (sending false))).d.get (R.CAN_ERRCNT_TEC 3) = 248 := by
  decide +kernel

/-! ### The peer link -/

/-- The link on controller 3 as node 9, with key 0 valid (all zeros), and peer 31 as node 7. -/
def link (f : List (Fld × Nat) := []) (p : DplS := {}) (c : CanC := {}) (ws : List (Nat × Word) := []) : State :=
  let s := can ([(R.CAN_CTRL_FD_EN 3, 1), (R.DPL_CFG_EN, 1), (R.DPL_CFG_BUS, 3), (R.DPL_NODE_ID, 9), (R.DPL_KEYSTAT_VALID, 1)] ++ f) ws c
  { s with d := { s.d with dpl := p } }
/-- Peer 31 is up as node 7, with `n` tokens. -/
def peerUp (n : Nat) (fresh : Option Nat := none) : DplS := { peers := [(31, ⟨fresh, n, false, 9⟩)] }
def peer31 : List (Fld × Nat) := [(R.DPL_PEER_STAT_STATE 31, 1), (R.DPL_PEER_CTRL_NODE 31, 7), (R.DPL_PEER_STAT_VER 31, 1)]
/-- An element of type 0x10 and a heartbeat, both of freshness 5, from node 7 to node 9. -/
def element : CanFrame :=
  ⟨true, false, false, true, false, 0x100709D5, 10, [1, 0, 0, 0, 0, 5, 1, 2, 94, 44, 217, 84, 233, 225, 136, 14]⟩
def beat : CanFrame :=
  ⟨true, false, false, true, false, 0x080709D5, 13, [1, 0, 0, 0, 0, 5] ++ List.replicate 8 0 ++ [3, 0, 1, 1, 0, 0, 0, 0, 0, 9] ++
    [0, 61, 142, 185, 249, 35, 212, 11]⟩

theorem witness_PeerLinkChecksTablesAndSends :
    (link).d.get (R.CAN_CTRL_EN 3) = 1 ∧ (link).d.get R.DPL_CFG_EN = 1 ∧ (link).d.get R.DPL_CFG_ALLOWLIST = 0 ∧
    (run (.dplFrameReceived ⟨element, 77⟩) (link [(R.DPL_NODE_ID, 8)])).d.get R.DPL_CNT_NOT_MINE = 1 ∧
    (run (.dplFrameReceived ⟨{ element with data := List.replicate 16 0 }, 77⟩) (link)).d.get R.DPL_CNT2_MALFORMED = 1 ∧
    (run (.dplFrameReceived ⟨{ element with data := [1] ++ List.replicate 15 0 }, 77⟩) (link)).d.get R.DPL_CNT_TAGFAIL = 1 ∧
    (run (.dplFrameReceived ⟨element, 77⟩) (link)).d.get R.DPL_CNT2_UNKNOWN = 1 := by decide +kernel
theorem witness_knownPeers :
    (run (.dplFrameReceived ⟨element, 77⟩) (link peer31 (peerUp 1))).d.get (R.CAN_IN_STAT_LEVEL 3 0) = 1 ∧
    (run (.dplFrameReceived ⟨element, 77⟩) (link peer31 (peerUp 0))).d.get R.DPL_CNT_RATED = 1 ∧
    (run (.dplFrameReceived ⟨element, 77⟩) (link peer31 (peerUp 1 (some 5)))).d.get R.DPL_CNT_REPLAY = 1 ∧
    Mem.word (run (.canFrameReceived 3 ⟨element, 77⟩) (link peer31 (peerUp 1))).mem 0x38000208 = 77 ∧
    (link peer31 (peerUp 1 (some 4))).d.get (R.DPL_PEER_STAT_STATE 31) = 1 := by decide +kernel
theorem witness_heartbeats :
    ((run (.dplFrameReceived ⟨beat, 77⟩) (link peer31 (peerUp 1 (some 4)))).d.peer 31).fresh = some 5 := by decide +kernel
theorem witness_newPeer :
    (run (.dplFrameReceived ⟨beat, 77⟩) (link)).d.get (R.DPL_PEER_CTRL_NODE 0) = 7 := by decide +kernel
theorem witness_peerTableKeysAndBeats :
    (run (.dplPeerTimeout 31) (link peer31)).d.get (R.DPL_PEER_STAT_STATE 31) = 2 ∧ (link).d.get (R.DPL_PEER_STAT_STATE 31) ≠ 1 ∧
    ((run .dplTokenRefill (link (peer31 ++ [(R.DPL_PEER_CTRL_RATE 31, 9), (R.DPL_PEER_CTRL_BURST 31, 4)]) (peerUp 1))).d.peer 31).tokens = 4 ∧
    (run (.dplPeerFree 31) (link peer31 (peerUp 1))).d.get (R.DPL_PEER_STAT_STATE 31) = 0 ∧
    (run (.registerWrite 0 0x40060AF0 0x2040307) (link peer31)).d.get (R.DPL_PEER_CTRL_RATE 31) = 3 ∧
    (run (.registerWrite 0 0x40060AF0 0x1040307) (link)).d.get (R.DPL_PEER_STAT_STATE 31) = 2 ∧
    (run (.registerWrite 0 0x40060AF0 0x2040307) (link peer31)).d.get (R.DPL_PEER_STAT_STATE 31) = 0 ∧
    (run (.registerWrite 0 0x40060AF0 0x40308) (link peer31)).d.get R.DPL_STATUS_WERR = 1 ∧
    (link).d.coreHeld 0 = false ∧ (link).d.gated 0x40060AF0 = false ∧
    (run (.dplKeyWrite 0 3 5) (link)).d.get R.DPL_STATUS_WERR = 1 ∧
    (run (.dplKeyWrite 1 3 5) (link [] { keys := [4, 5, 6] })).d.get R.DPL_KEYSTAT_VALID = 3 ∧
    (run (.dplKeyWrite 1 3 5) (link [] { keys := [4, 5] })).d.get R.DPL_KEYSTAT_VALID = 1 ∧
    (run .dplEnable (link [(R.DPL_CFG_EN, 0)])).d.dpl.hb = some none ∧ (run .dplHeartbeatDue (link)).d.dpl.hb = some none ∧
    (run .dplHeartbeatDue (link [] { hb := some none })).d.get R.DPL_HB_REPL = 1 ∧
    (run .dplHeartbeatDue (link [] { hb := some (some beat) } { tx := some ⟨32, false, 0, beat⟩ })).d.dpl.hbNext = true := by decide +kernel

/-- An element of 16 bytes of type 0x10 to `dest` waits in outbox slot 1, of 16-byte slots. -/
def waiting (dest : Nat) : State :=
  link (peer31 ++ [(R.CAN_OUT_WAIT_SLOTS 3, 2), (R.CAN_LAY_OUT_SIZE 3, 2)]) {} {}
    [(0x31C, word (1 + 0x1000000 * 2 ^ 4 * 8)), (0x320, word (10 + 16)), (0x324, word (1 + dest * 2 ^ 8))]

theorem witness_elementsSent :
    (waiting 7).d.canOn 3 = true ∧ (waiting 7).nextSlot 3 = some 1 ∧
    ((run (.canArbitrationEntry 3) (waiting 7)).d.can 3).tx.map CanTx.slot = some 1 ∧
    (run (.canArbitrationEntry 3) (waiting 8)).d.get R.DPL_CNT2_TXREF = 1 := by decide +kernel

/-! ### Clocks, power, the Ledger -/

/-- Clocks in a mode, with the crystal qualified and these PLLs trying. -/
def clk (m : Nat) (f : List (Fld × Nat) := []) (trying : List Nat := []) : State :=
  inMode m ((R.CLK_STAT_XTAL_OK, 1) :: f) { live with clk := { trying } }

theorem witness_ClocksPowerLedgerAndRepairRuns :
    (run (.pllLock 2 15) (clk 3 [(R.CLK_STAT_ON_BYP, 4)] [2])).d.get (R.CLK_PLL_BAND 2) = 15 ∧
    (run (.pllLock 2 15) (clk 3)).d.get (R.CLK_PLL_BAND 2) = 0 ∧
    (run (.pllLock 2 15) (inMode 3 [] { live with clk := { trying := [2], lost := [2] } })).d.hoop.map HEntry.w = [.report ⟨161, 2, 2, 0, false⟩] ∧
    (run (.pllLock 2 0) (clk 0 [(R.CLK_STAT_LOCKED, 3)] [2])).d.mode = 1 ∧
    (run (.pllLockFail 2) (clk 3 [] [2])).d.get R.CLK_STAT_FAIL = 4 ∧ (run (.pllRetry 2) (clk 3)).d.clk.trying = [2] ∧
    (run (.pllRetry 2) (clk 3 [(R.CLK_STAT_LOCKED, 4)])).d.clk.trying = [] ∧
    (run (.lossOfLock 0) (clk 3 [(R.CLK_STAT_LOCKED, 1)])).d.bit R.ACC_COND_SRC 84 = true ∧
    (run (.lossOfLock 2) (clk 3 [(R.CLK_STAT_LOCKED, 4)])).d.get R.TIME_STATUS_BYP = 1 ∧
    (run .xtalQualified (clk 3 [(R.CLK_STAT_XTAL_OK, 0), (R.CLK_STAT_LOCKED, 2)])).d.clk.trying = [0, 2] ∧
    (run .referenceLoss (clk 3 [(R.CLK_STAT_LOCKED, 7)])).d.get (R.CLK_PLL_LOSSES 2) = 1 ∧
    (run (.sscEnable true) (clk 4)).d.get R.CLK_STAT_WERR = 1 ∧ (run (.sscEnable true) (clk 10)).d.get R.CLK_SSC_EN = 1 ∧
    (run (.clockGateWrite 1) (clk 3 [(R.ETH_CTRL_EN 1, 1)])).d.get R.CLK_STAT_WERR = 1 ∧
    (run (.clockGateWrite 0x3FD) (clk 3 [(R.DPL_CFG_EN, 1)])).d.get R.CLK_GATE_BLOCKS = 0x3FD := by decide +kernel

/-- The power budget at 70 * 100, at a throttle stage, with counts of epochs. -/
def pwr (stage : Nat) (p : PwrS := {}) : State := inMode 3 [(R.PWRB_STATUS_STAGE, stage)] { live with pwr := p }

theorem witness_power :
    (run (.pwrbEpoch 7001 0) (pwr 6)).d.get R.PWRB_STATUS_STAGE = 7 ∧ (run (.pwrbEpoch 7000 0) (pwr 6)).d.get R.PWRB_STATUS_STAGE = 6 ∧
    (run (.pwrbEpoch 6699 0) (pwr 7 { low := 99 })).d.get R.PWRB_STATUS_STAGE = 6 ∧
    (run (.pwrbEpoch 6699 0) (pwr 7 { low := 98 })).d.get R.PWRB_STATUS_STAGE = 7 ∧
    (run (.pwrbEpoch 7001 0) (pwr 7 { above := 99 })).d.bit R.ACC_COND_SRC 162 = true ∧
    (run (.pwrbEpoch 0 2001) (pwr 0)).d.bit R.ACC_COND_SRC 163 = true ∧ (run (.pwrbEpoch 0 2000) (pwr 0)).d.bit R.ACC_COND_SRC 163 = false ∧
    (run (.pwrbEpoch 0 0xFFFF) (pwr 0)).d.get R.PWRB_TJ_TMAX = 0xFFFF := by decide +kernel

/-- The Ledger enabled, in a mode. -/
def ledger (m : Nat) (f : List (Fld × Nat) := []) (l : Led := {}) (o : Otp := {}) : State :=
  inMode m ((R.LEDGER_CTRL_EN, 1) :: f) { live with led := l, otp := o }

/-- VGAIN and IGAIN of 1.0. -/
def gains : List (Fld × Nat) := [(R.LEDGER_VGAIN_V, 0x3F800000), (R.LEDGER_IGAIN_V, 0x3F800000)]

theorem witness_ledger :
    (run .ledgerEnable (inMode 3)).d.get R.LEDGER_CTRL_EN = 1 ∧
    (run .ledgerAgeTick (ledger 3 [(R.PWRB_TJ_T, 1680)])).d.led.ageFrac = 2 ^ 72 / 3600 % 2 ^ 64 ∧
    (ledger 3).d.get R.LEDGER_CTRL_EN = 1 ∧ goes (.ledgerPoint (List.replicate 14 9) 8) (ledger 3) = true ∧
    goes (.ledgerPointNow (List.replicate 14 9) 4) (ledger 3 [] { next := 63 } { marginF := 8 }) = true ∧
    (run .ledgerMeasStart (ledger 4)).d.get R.LEDGER_STATUS_MEAS_REF = 1 ∧ (run .ledgerMeasStart (ledger 5)).d.led.meas = some ⟨0⟩ ∧
    ((run (.ledgerMeasTrigger true) (ledger 5 [(R.LEDGER_MCFG_IAIN, 63)] { meas := some ⟨0⟩ })).d.adc 0).inj = some (3, 63) ∧
    (run (.ledgerMeasComplete 767 0 1 1000 0) (ledger 5 [] { meas := some ⟨2048⟩ })).d.hoop.map HEntry.w = [.report ⟨166, 0, 2, 0, false⟩] ∧
    (run (.ledgerMeasComplete 768 0 1 999 0) (ledger 5 [] { meas := some ⟨2048⟩ })).d.hoop.map HEntry.w = [.report ⟨166, 1, 2, 0, false⟩] ∧
    (run (.ledgerMeasComplete 768 0 1 1000 0) (ledger 5 gains { meas := some ⟨2048⟩ })).d.hoop.map HEntry.w = [.report ⟨166, 2, 2, 0, false⟩] ∧
    goes (.ledgerMeasComplete 768 0 (-1) 1000 0) (ledger 5 [] { meas := some ⟨2048⟩ }) = true ∧
    goes (.ledgerMeasComplete 768 0 (-1) 1000 0) (ledger 5 gains { meas := some ⟨2048⟩ }) = true ∧
    (run (.ledgerMeasComplete 768 0 (-1) 1000 0) (ledger 5 [] { meas := some ⟨2047⟩ })).d.led.meas = some ⟨2047⟩ := by decide +kernel
theorem witness_repairRuns :
    (run (.repairRun true 0xA5C3) (inMode 11)).d.sys.repairRun = some true ∧ (run (.repairRun true 0) (inMode 11)).d.sys.repairRun = none ∧
    (run (.repairRun true 0xA5C3) (inMode 10)).d.get R.LEDGER_STATUS_WERR = 1 ∧ live.stakeServes 1 31 = true ∧
    ((live.freeStakes 1).filter fun x => x != 31).head? = some 32 ∧
    ((run (.repairRunComplete [.stake 1 31]) (inMode 11 [] { live with sys := { held := .none, repairRun := some false } })).d.repair.map
      Prod.snd) = [true] ∧
    ((run (.repairRunComplete [.stake 1 31]) (inMode 11 [] { live with sys := { held := .none, repairRun := some true } })).d.otp.field.length) =
      1 := by decide +kernel

end Sys2Proof.Tests
end

section
namespace Sys2Proof.Machine

/-- Settles O1: the three equations of `step`, one for each shape of the queue. -/
theorem stepRunsTheFrontCommand : Obligations.StepRunsTheFrontCommand := by
  refine ⟨fun s c rest h => ?_, fun s c => rfl, fun s h => step_nil s h⟩
  obtain ⟨d, mem, pending⟩ := s
  subst h
  rfl

/-- A register that nothing has written reads as its reset word. -/
theorem Dev.rdw_of_nil {d : Dev} (h : d.regs = []) (a : Nat) : d.rdw a = resetWord a := by
  simp [Dev.rdw, h, Sparse.get, Sparse.find?]

/-- Settles O5: the register file is empty at reset, so that each field named is that of its reset word; the rest is
the initial value of the state's fields. -/
theorem resetLeavesTheSpecsValues : Obligations.ResetLeavesTheSpecsValues := by
  unfold Obligations.ResetLeavesTheSpecsValues
  have hrdw : ∀ a, State.reset.d.rdw a = resetWord a := Dev.rdw_of_nil rfl
  simp only [Dev.mode, Dev.laneState, Dev.get, hrdw]
  refine ⟨by decide +kernel, rfl, by decide +kernel, by decide +kernel, by decide +kernel, by decide +kernel,
    by decide +kernel, rfl, rfl, rfl, by decide +kernel, by decide +kernel, by decide +kernel, by decide +kernel, rfl,
    rfl, Mem.wf_reset, rfl⟩

end Sys2Proof.Machine
end

section
/-! ## The register file stays canonical

`Dev.wrw` is the only operation of the model that changes the register file of a device, and `Sparse.wf_set` says that
it keeps the canonical form; a reset begins with an empty file. One lemma for each operation that answers a device, a
state or an outcome says that the form is kept, in the order of the definitions; each cites the lemmas of the
operations that it calls. -/

namespace Sys2Proof.Machine

/-- The register file stands in canonical form. -/
def Dev.Canon (d : Dev) : Prop := Sparse.wf resetWord d.regs = true

/-- The register file of the state's device stands in canonical form. -/
def State.Canon (s : State) : Prop := s.d.Canon

/-- Where the outcome is a next state, its register file stands in canonical form. -/
def CanonNext (o : Host.Outcome State Fault Refusal) : Prop := ∀ t, o = .next t → t.Canon

variable {d e : Dev} {s t : State} {c : Prop} [Decidable c] {α : Type}

namespace Dev.Canon

theorem ofNil (h : d.regs = []) : d.Canon := by simp [Canon, h, Sparse.wf, Sparse.rising]

/-- The other fields of a device do not matter. -/
theorem sameRegs (h : d.Canon) (he : e.regs = d.regs) : e.Canon := by rwa [Canon, he]

theorem withSys {x : Sys} (h : d.Canon) : ({ d with sys := x } : Dev).Canon := h

theorem ofState (h : s.Canon) : s.d.Canon := h

protected theorem ite (h : d.Canon) (h' : e.Canon) : (if c then d else e).Canon := by split <;> assumption

theorem when (h : d.Canon) (k : d.Canon → e.Canon) : (if c then e else d).Canon := .ite (k h) h

theorem whenNot (h : d.Canon) (k : d.Canon → e.Canon) : (if c then d else e).Canon := .ite h (k h)

theorem foldl {f : Dev → α → Dev} {l : List α} (h : d.Canon) (hf : ∀ d x, d.Canon → (f d x).Canon) :
    (l.foldl f d).Canon :=
  List.foldlRecOn (motive := Dev.Canon) l f h fun d hd x _ => hf d x hd

theorem wrw {a : Nat} {v : Word} (h : d.Canon) : (d.wrw a v).Canon := Sparse.wf_set resetWord a v h

end Dev.Canon

namespace State.Canon

theorem ofDev (h : s.d.Canon) : s.Canon := h

protected theorem ite (h : s.Canon) (h' : t.Canon) : (if c then s else t).Canon := by split <;> assumption

theorem when (h : s.Canon) (k : s.Canon → t.Canon) : (if c then t else s).Canon := .ite (k h) h

theorem whenNot (h : s.Canon) (k : s.Canon → t.Canon) : (if c then s else t).Canon := .ite h (k h)

theorem foldl {f : State → α → State} {l : List α} (h : s.Canon) (hf : ∀ s x, s.Canon → (f s x).Canon) :
    (l.foldl f s).Canon :=
  List.foldlRecOn (motive := State.Canon) l f h fun s hs x _ => hf s x hs

theorem onDev {f : Dev → Dev} (h : (f s.d).Canon) : (s.onDev f).Canon := h

theorem coreDev {core : Nat} {f : Dev → Dev} (h : s.Canon) (hf : s.d.Canon → (f s.d).Canon) :
    (s.coreDev core f).Canon := by
  unfold State.coreDev
  exact .ite h (.onDev (hf h))

theorem after {o : Host.Outcome State Fault Refusal} (ho : CanonNext o) (h : s.Canon) : (after o s).Canon := by
  unfold Machine.after
  split
  · exact ho _ rfl
  · exact h

end State.Canon

namespace CanonNext

theorem next (h : s.Canon) : CanonNext (.next s) := fun _ e => by cases e; exact h

theorem onDev {f : Dev → Dev} (h : (f s.d).Canon) : CanonNext (.next (s.onDev f)) := .next (.onDev h)

theorem refused {r : Refusal} : CanonNext (.refused r) := fun _ e => by cases e

protected theorem ite {o p : Host.Outcome State Fault Refusal} (h : CanonNext o) (h' : CanonNext p) :
    CanonNext (if c then o else p) := by
  split <;> assumption

theorem byCore {core : Nat} {f : State → Host.Outcome State Fault Refusal} (h : s.Canon) (hf : CanonNext (f s)) :
    CanonNext (s.byCore core f) := by
  unfold State.byCore
  exact .ite (.next h) hf

end CanonNext


/-! ### Registers, channels and reports -/

theorem Dev.Canon.set {f : Fld} {v : Nat} (h : d.Canon) : (d.set f v).Canon := .wrw h

theorem Dev.Canon.setB {f : Fld} {b : Bool} (h : d.Canon) : (d.setB f b).Canon := .set h

theorem Dev.Canon.incSat {f : Fld} {k : Nat} (h : d.Canon) : (d.incSat f k).Canon := .set h

theorem Dev.Canon.incWrap {f : Fld} {k : Nat} (h : d.Canon) : (d.incWrap f k).Canon := .set h

theorem Dev.Canon.setBit {f : Nat → Fld} {i : Nat} {b : Bool} (h : d.Canon) : (d.setBit f i b).Canon :=
  .ite h (.set h)

theorem Dev.Canon.wrAct {a : Nat} {v : Word} (h : d.Canon) : (d.wrAct a v).Canon := h

theorem Dev.Canon.answer {agent : Nat} {r : Resp} (h : d.Canon) : (d.answer agent r).Canon := h

theorem Dev.Canon.send {ch recv : Nat} {w : HWord} (h : d.Canon) : (d.send ch recv w).Canon := h

theorem Dev.Canon.sendFork {ch : Nat} {w : HWord} (h : d.Canon) : (d.sendFork ch w).Canon := .send (.send h)

theorem Dev.Canon.takeEntry {ch recv : Nat} {x : HEntry × Dev} (h : d.Canon) (hx : d.takeEntry ch recv = some x) :
    x.2.Canon := by
  unfold Dev.takeEntry at hx
  split at hx
  · cases hx
    exact h
  · cases hx

theorem Dev.Canon.take {ch recv : Nat} {x : HWord × Dev} (h : d.Canon) (hx : d.take ch recv = some x) :
    x.2.Canon := by
  obtain ⟨y, hy, rfl⟩ := Option.map_eq_some_iff.mp hx
  exact h.takeEntry hy

theorem Dev.Canon.raise {isl src ctx lane : Nat} (h : d.Canon) : (d.raise isl src ctx lane).Canon := .send h

theorem Dev.Canon.raiseLane {lane src ctx : Nat} (h : d.Canon) : (d.raiseLane lane src ctx).Canon := .raise h

theorem Dev.Canon.laneSignal {r : Report} (h : d.Canon) : (d.laneSignal r).Canon := .ite h h

theorem Dev.Canon.setCond {src : Nat} {b : Bool} (h : d.Canon) : (d.setCond src b).Canon := .setBit h

theorem Dev.Canon.beginCond {isl src ctx : Nat} (h : d.Canon) : (d.beginCond isl src ctx).Canon :=
  .ite h (.raise (.setCond h))

theorem Dev.Canon.request {isl n : Nat} (h : d.Canon) : (d.request isl n).Canon := .send h

theorem Dev.Canon.note {f : Fld} {v : Nat} (h : d.Canon) : (d.note f v).Canon := by
  unfold Dev.note
  split
  · extract_lets +onlyGivenNames d1
    have h1 : d1.Canon := .set h
    exact .ite (.request h1) h1
  · exact .set h

theorem Dev.Canon.maskAlign {kind unit : Nat} (h : d.Canon) : (d.maskAlign kind unit).Canon := .ite h h

theorem Dev.Canon.event {kind unit time : Nat} (h : d.Canon) : (d.event kind unit time).Canon :=
  .when (.when (.ite (.sendFork h) h) fun h => .maskAlign (.send (.send h))) fun h => .send h

theorem Dev.Canon.archFeed {kind conv sel : Nat} {value : Word} {time : Nat} (h : d.Canon) :
    (d.archFeed kind conv sel value time).Canon :=
  .ite (.send h) h

theorem Dev.Canon.setLane {n : Nat} {l : Lane} (h : d.Canon) : (d.setLane n l).Canon := h

theorem Dev.Canon.setLeg {n : Nat} {l : Leg} (h : d.Canon) : (d.setLeg n l).Canon := h

theorem Dev.Canon.freeWord (h : d.Canon) : (d.freeWord).2.Canon := h

theorem Dev.Canon.werr {a : Nat} (h : d.Canon) : (d.werr a).Canon := by
  unfold Dev.werr
  split
  · exact .note h
  · exact h

theorem Dev.Canon.recordWerr {a reason : Nat} (h : d.Canon) : (d.recordWerr a reason).Canon :=
  .incSat (.set (.set (.set h)))

/-! ### Repair and the self test -/

theorem Dev.Canon.mapSync (h : d.Canon) : d.mapSync.Canon :=
  .foldl h fun _ _ h => .foldl h fun _ _ h => .setB (.set h)

theorem Dev.Canon.formSync {n : Nat} (h : d.Canon) : (d.formSync n).Canon := .set (.setB h)

theorem Dev.Canon.stakesTested {mine : Nat → Bool} {bad : List BadUnit} (h : d.Canon) :
    (d.stakesTested mine bad).Canon :=
  h

theorem Dev.Canon.sliceSync {c : Nat} (h : d.Canon) : (d.sliceSync c).Canon :=
  .when (.when (.setB (.setB (.setB (.set (.set h))))) fun h => .setB h) fun h => .setB h

theorem Dev.Canon.spareSync (h : d.Canon) : d.spareSync.Canon :=
  .foldl (.set (.set (.set (.set (.set (.set (.set h))))))) fun _ _ h => .sliceSync h

theorem Dev.Canon.spareGone {entry : Nat} (h : d.Canon) : (d.spareGone entry).Canon := .set (.raise h)

theorem Dev.Canon.bindSpare {entry : Nat} {lastOne : Bool} (h : d.Canon) : (d.bindSpare entry lastOne).Canon :=
  .when (.raise h) fun h => .spareGone h

theorem Dev.Canon.tapRepair {leg t : Nat} (h : d.Canon) : (d.tapRepair leg t).Canon := by
  unfold Dev.tapRepair
  split
  · exact .spareSync (.bindSpare h)
  · exact .spareSync (.spareGone (.raise (.setLeg h)))

theorem Dev.Canon.bistUnit {r : Dev × Bool} {u : BadUnit} (h : r.1.Canon) : (Dev.bistUnit r u).1.Canon := by
  unfold Dev.bistUnit
  extract_lets +onlyGivenNames d1
  have h1 : d1.Canon := h
  clear_value d1
  split
  · dsimp only
    split
    · split
      · dsimp only
        exact .spareSync (.bindSpare h1)
      · dsimp only
        exact .spareSync (.spareGone h1)
    · split
      · dsimp only
        exact .spareSync (.spareGone h1)
      · dsimp only
        exact .spareSync h1
  · extract_lets +onlyGivenNames _
    split
    · exact h
    · extract_lets +onlyGivenNames d2 _ d3
      have h2 : d2.Canon := .sameRegs h1 rfl
      have h3 : d3.Canon := .ite (.bindSpare h2) (.spareGone h2)
      dsimp only
      exact .spareSync h3
  · split
    · dsimp only
      exact .spareSync (.bindSpare h1)
    · extract_lets +onlyGivenNames _ d2
      have h2 : d2.Canon := .spareGone h1
      clear_value d2
      split
      · dsimp only
        exact .spareSync h2
      · dsimp only
        exact .spareSync (.sameRegs h2 rfl)
  · exact .tapRepair h1

theorem Dev.Canon.bistUnits {us : List BadUnit} {r : Dev × Bool} (h : r.1.Canon) :
    (us.foldl Dev.bistUnit r).1.Canon := by
  induction us generalizing r with
  | nil => exact h
  | cons u us ih => exact ih h.bistUnit

theorem Dev.Canon.forgetHits {us : List BadUnit} (h : d.Canon) : (d.forgetHits us).Canon := h

theorem Dev.Canon.bist {bad : List BadUnit} (h : d.Canon) : (d.bist bad).1.Canon := by
  unfold Dev.bist
  extract_lets units src start r r1 d1
  have hsrc : src.Canon := .forgetHits (.stakesTested h)
  have hstart : start.Canon := .sameRegs hsrc rfl
  clear_value start
  have hr : r.1.Canon := .bistUnits hstart
  have hr1 : r1.Canon := .foldl hr fun _ _ h => .spareGone h
  have h1 : d1.Canon := .formSync (.formSync (.mapSync (.spareSync hr1)))
  dsimp only
  exact .ite (.set h1) h1

/-! ### Commits and the Colophon -/

theorem Dev.Canon.sendColophon {delta : BitVec 64} (h : d.Canon) : (d.sendColophon delta).Canon :=
  .ite (.send (.send h)) h

theorem Dev.Canon.covered {a : Nat} {f : Dev → Dev} (h : d.Canon) (hf : d.Canon → (f d).Canon) :
    (d.covered a f).Canon :=
  .ite (hf h) (.sendColophon (hf h))

theorem Dev.Canon.coloPeers (h : d.Canon) : d.coloPeers.Canon :=
  .ite (.beginCond (.foldl h fun _ _ h => .setB h)) (.setCond (.foldl h fun _ _ h => .setB h))

theorem Dev.Canon.syncSplit (h : d.Canon) : d.syncSplit.Canon :=
  .coloPeers (.when (.setB (.setB h)) fun h => .setCond h)

theorem Dev.Canon.takeColophon {lane : Nat} {delta : BitVec 64} (h : d.Canon) : (d.takeColophon lane delta).Canon :=
  .syncSplit (.ite (.set (.set h)) (.set (.set h)))

theorem Dev.Canon.capture {lo hi : Nat} {mark : Option Nat} {inc : Option Fld} {hold : Nat → Bool} (h : d.Canon) :
    (d.capture lo hi mark inc hold).Canon := by
  unfold Dev.capture
  extract_lets +onlyGivenNames _ _ _ _ _ _ _ _ _ d1 d2 d3
  have h1 : d1.Canon := h
  have h2 : d2.Canon := .ite (.incSat h1) h1
  have h3 : d3.Canon := .foldl h2 fun _ _ h => .recordWerr h
  split
  · exact .ite h3 (.note h3)
  · exact h3

theorem Dev.Canon.applyReg {p : Nat × Word} (h : d.Canon) : (d.applyReg p).Canon := .covered h fun h => .wrAct h

theorem Dev.Canon.applyPend {p : Nat → Bool} (h : d.Canon) : (d.applyPend p).Canon :=
  .foldl h fun _ _ h => .applyReg h

theorem Dev.Canon.commit {lo hi : Nat} {mark : Option Nat} {inc : Option Fld} {hold : Nat → Bool}
    {en : Bool} (h : d.Canon) :
    (d.commit lo hi mark inc hold en).Canon :=
  .whenNot (.capture h) fun h => .applyPend h

theorem Dev.Canon.coefSettle (h : d.Canon) : d.coefSettle.Canon := by
  unfold Dev.coefSettle
  split
  · exact h
  · exact .ite h (.request (.set h))

theorem Dev.Canon.coefColophon {c : CoefSet} (h : d.Canon) : (d.coefColophon c).Canon :=
  .foldl h fun _ _ h => .ite h (.sendColophon h)

theorem State.Canon.takeCoefs {lane ls : Nat} (h : s.Canon) : (s.takeCoefs lane ls).Canon := by
  unfold State.takeCoefs
  split
  · exact h
  · split
    · extract_lets +onlyGivenNames _ d1
      have h1 : d1.Canon := .ite (.coefColophon h) h
      exact .ofDev (.coefSettle h1)
    · exact h

theorem State.Canon.takeProfile {lane : Nat} (h : s.Canon) : (s.takeProfile lane).Canon := .ite h h

theorem execCoefCommit_canon {count : BitVec 7} {ls : Fin 16} (h : s.Canon) :
    CanonNext (execCoefCommit count ls s) := by
  unfold execCoefCommit
  refine .onDev ?_
  extract_lets +onlyGivenNames _ d1 _
  have h1 : d1.Canon := .set (.set h)
  exact .ite (.recordWerr h1) (.coefSettle (.set h1))

theorem execColophonSplit_canon (h : s.Canon) : CanonNext (execColophonSplit s) := .onDev (.ite (.beginCond h) h)

theorem Dev.Canon.readColoLo {agent which : Nat} (h : d.Canon) : (d.readColoLo agent which).Canon := .answer h

theorem execColophonLoRead_canon {core : Fin 4} {which : Fin 3} (h : s.Canon) :
    CanonNext (execColophonLoRead core which s) :=
  .next (.coreDev h fun h => .readColoLo h)

/-! ### Converters -/

theorem Dev.Canon.setAdc {c : Nat} {u : AdcU} (h : d.Canon) : (d.setAdc c u).Canon := h

theorem Dev.Canon.adcSync {c : Nat} (h : d.Canon) : (d.adcSync c).Canon := by
  unfold Dev.adcSync
  extract_lets +onlyGivenNames _ d1 d2 d3
  have h1 : d1.Canon := .setB h
  have h2 : d2.Canon := .setB h1
  have h3 : d3.Canon := .set h2
  split <;> exact .wrw (.wrw h3)

theorem Dev.Canon.adcApply {c : Nat} (h : d.Canon) : (d.adcApply c).Canon := .applyPend h

theorem Dev.Canon.seqEnd {c time : Nat} (h : d.Canon) : (d.seqEnd c time).Canon :=
  .adcApply (.foldl (.event h) fun _ _ h => .ite (.setAdc h) h)

theorem Dev.Canon.seqAt {c pos : Nat} (h : d.Canon) : (d.seqAt c pos).Canon :=
  .ite (.setAdc h) (.ite (.setAdc h) (.setAdc h))

theorem Dev.Canon.seqTrigger {c : Nat} (h : d.Canon) : (d.seqTrigger c).Canon := by
  unfold Dev.seqTrigger
  extract_lets +onlyGivenNames _
  split
  · exact h
  · split
    · exact .ite (.incSat h) (.raise (.incSat (.setAdc h)))
    · extract_lets +onlyGivenNames d1 d2
      have h1 : d1.Canon := .setAdc h
      have h2 : d2.Canon := .seqAt h1
      exact .ite h2 (.seqEnd h2)

theorem Dev.Canon.injTake {c k ain : Nat} (h : d.Canon) : (d.injTake c k ain).Canon :=
  .ite (.incSat h) (.adcSync (.setAdc h))

theorem Dev.Canon.injRequest {c k : Nat} (h : d.Canon) : (d.injRequest c k).Canon := .ite h (.injTake h)

theorem Dev.Canon.adcEvent {isl kind unit time : Nat} (h : d.Canon) : (d.adcEvent isl kind unit time).Canon :=
  .foldl h fun _ _ h => .foldl (.ite (.setAdc h) h) fun _ _ h => .ite (.setAdc h) h

theorem Dev.Canon.hold {c : Nat} {f : Conv} (h : d.Canon) : (d.hold c f).Canon := .setAdc h

theorem Dev.Canon.holdEntry {c owner : Nat} {shared : Bool} (h : d.Canon) : (d.holdEntry c owner shared).Canon :=
  .seqAt (.hold h)

theorem Dev.Canon.grant {c : Nat} {g : Grant} {lead : Nat} (h : d.Canon) : (d.grant c g lead).Canon := by
  unfold Dev.grant
  extract_lets +onlyGivenNames _
  split
  · exact .setAdc h
  · split
    · extract_lets +onlyGivenNames d1
      have h1 : d1.Canon := .hold h
      exact .setAdc h1
    · exact h
  · exact .setAdc (.holdEntry h)
  · exact .setAdc (.holdEntry h)
  · exact .setAdc (.holdEntry h)
  · exact .hold h
  · exact .setAdc (.holdEntry h)

theorem Dev.Canon.calBegin {c : Nat} (h : d.Canon) : (d.calBegin c).Canon := by
  unfold Dev.calBegin
  extract_lets +onlyGivenNames d1 _ d2 _ _ _ _ d3
  have h1 : d1.Canon := .set (.set (.set h))
  have h2 : d2.Canon := .setAdc h1
  have h3 : d3.Canon := .ite (.when (.seqAt h2) fun h => .ite (.setAdc h) (.seqEnd h)) h2
  exact .adcSync (.adcSync h3)

theorem Dev.Canon.calDue {c : Nat} (h : d.Canon) : (d.calDue c).Canon := .ite (.calBegin h) h

theorem Dev.Canon.pairSlot {p : Nat} (h : d.Canon) : (d.pairSlot p).Canon :=
  .ite h (.adcSync (.adcSync (.grant (.grant (.calDue (.calDue (.foldl h fun _ _ h => .ite h (.adcApply h))))))))

theorem Dev.Canon.blockTake {c : Nat} {code : Int} (h : d.Canon) : (d.blockTake c code).Canon := .setAdc h

theorem Dev.Canon.enqueue {c : Nat} {tag stamp : Word} (h : d.Canon) : (d.enqueue c tag stamp).Canon :=
  .ite (.whenNot (.incSat (.setAdc h)) fun h => .raise h) (.setAdc h)

theorem Dev.Canon.windows {c ain : Nat} {code : Int} (h : d.Canon) : (d.windows c ain code).Canon :=
  .foldl h fun _ _ h => .ite (.send (.send (.when (.setBit h) fun h => .setBit h))) h

theorem Dev.Canon.deliver {f : Conv} {code : Int} {ovr : Bool} (h : d.Canon) : (d.deliver f code ovr).Canon :=
  .when (.archFeed (.windows (.when (.enqueue h) fun h => .sendFork h))) fun h => .seqEnd h

theorem Dev.Canon.setTally {c j : Nat} {t : Tally} (h : d.Canon) : (d.setTally c j t).Canon := .setAdc h

theorem Dev.Canon.tallyTake {c j : Nat} {code : Int} {time : Nat} (h : d.Canon) :
    (d.tallyTake c j code time).Canon :=
  .setTally h

theorem Dev.Canon.pairCheck {c ain : Nat} {x y : Int} (h : d.Canon) : (d.pairCheck c ain x y).Canon :=
  .ite (.raise (.incSat (.incSat h))) h

theorem Dev.Canon.refCheck {c ain : Nat} {x : Int} (h : d.Canon) : (d.refCheck c ain x).Canon := .ite (.raise h) h

theorem Dev.Canon.popFlight {c : Nat} (h : d.Canon) : (d.popFlight c).Canon := .setAdc h

theorem Dev.Canon.sampleEnd {c : Nat} {x y : Int} (h : d.Canon) : (d.sampleEnd c x y).Canon := by
  unfold Dev.sampleEnd
  split
  · exact h
  · extract_lets +onlyGivenNames _ _
    split
    · split
      · split
        · extract_lets +onlyGivenNames _ d1 d2 d3
          have h1 : d1.Canon := .blockTake (.blockTake (.popFlight (.popFlight h)))
          have h2 : d2.Canon := .deliver (.deliver h1)
          have h3 : d3.Canon := .pairCheck h2
          exact .adcSync (.adcSync (.refCheck (.refCheck h3)))
        · exact h
      · exact h
    · split
      · exact h
      · split
        · split
          · split
            · exact h
            · extract_lets +onlyGivenNames d1 d2
              have h1 : d1.Canon := .tallyTake (.blockTake (.popFlight h))
              have h2 : d2.Canon := .ite (.seqEnd h1) h1
              exact .adcSync (.adcSync h2)
          · exact h
        · extract_lets +onlyGivenNames _ d1 d2
          have h1 : d1.Canon := .deliver (.blockTake (.popFlight h))
          have h2 : d2.Canon := .ite (.refCheck (.incSat (.incSat h1))) h1
          exact .adcSync (.adcSync h2)

theorem Dev.Canon.setTrim {c p : Nat} {t : Trim} (h : d.Canon) : (d.setTrim c p t).Canon := .set (.set (.set h))

theorem Dev.Canon.calEnd {c : Nat} {trims : List Trim} (h : d.Canon) : (d.calEnd c trims).Canon := by
  unfold Dev.calEnd
  extract_lets _ d1 d2 d3 _ d4
  have h1 : d1.Canon := by
    refine .ite (.foldl h fun d p h => ?_) (.raise (.set h))
    split
    · exact .setTrim h
    · exact h
  have h2 : d2.Canon := .set h1
  have h3 : d3.Canon := .ite h2 (.set (.set h2))
  have h4 : d4.Canon := .ite (.sameRegs h3 rfl) h3
  exact .adcSync (.adcSync h4)

theorem Dev.Canon.trimSlice {c p : Nat} {est : Trim} {rms : Bool} (h : d.Canon) : (d.trimSlice c p est rms).Canon :=
  .when (.setTrim h) fun h => .raise h

theorem Dev.Canon.tallyLatch {c j : Nat} (h : d.Canon) : (d.tallyLatch c j).Canon :=
  .setTally (.incWrap (.set (.set (.set (.set (.set (.set (.set h))))))))

theorem Dev.Canon.qtimeRead {core c : Nat} (h : d.Canon) : (d.qtimeRead core c).Canon := by
  unfold Dev.qtimeRead
  split
  · exact .answer h
  · exact .answer (.adcSync (.setAdc h))

theorem execAdcCommit_canon {c : Fin 4} (h : s.Canon) : CanonNext (execAdcCommit c s) := .onDev (.commit h)

theorem execAdcSeqTrigger_canon {c : Fin 4} (h : s.Canon) : CanonNext (execAdcSeqTrigger c s) := by
  unfold execAdcSeqTrigger
  refine .onDev ?_
  split
  · exact .adcSync (.seqTrigger (.setAdc h))
  · exact .ite (.adcSync (.seqTrigger h)) h

theorem execAdcSlotGrant_canon {pair : Fin 2} (h : s.Canon) : CanonNext (execAdcSlotGrant pair s) :=
  .onDev (.pairSlot h)

theorem execConversionComplete_canon {c : Fin 4} {x y : Volts} (h : s.Canon) :
    CanonNext (execConversionComplete c x y s) :=
  .onDev (.sampleEnd h)

theorem execInjSwRequest_canon {c : Fin 4} {req : BitVec 4} (h : s.Canon) : CanonNext (execInjSwRequest c req s) :=
  .onDev (.foldl h fun _ _ h => .ite (.injRequest h) h)

theorem execInjectedTrigger_canon {c k : Fin 4} (h : s.Canon) : CanonNext (execInjectedTrigger c k s) := by
  unfold execInjectedTrigger
  refine .onDev ?_
  extract_lets +onlyGivenNames _
  split
  · exact .ite (.injRequest (.setAdc h)) h
  · exact h

theorem execCalStart_canon {c : Fin 4} (h : s.Canon) : CanonNext (execCalStart c s) :=
  .onDev (.ite h (.ite (.setAdc h) (.set (.set h))))

theorem execCalComplete_canon {c : Fin 4} {trims : List Trim} (h : s.Canon) :
    CanonNext (execCalComplete c trims s) :=
  .onDev (.ite (.calEnd h) h)

theorem execTrimBlockEnd_canon {c : Fin 4} {estimates : List Trim} {spare : Trim} (h : s.Canon) :
    CanonNext (execTrimBlockEnd c estimates spare s) := by
  unfold execTrimBlockEnd
  refine .onDev ?_
  split
  · exact h
  · extract_lets +onlyGivenNames _ _ d1
    have h1 : d1.Canon := .setAdc h
    split
    · exact h1
    · exact .foldl h1 fun _ _ h => (by split; exacts [.trimSlice h, h])

theorem execTallyLimit_canon {c j : Fin 4} (h : s.Canon) : CanonNext (execTallyLimit c j s) :=
  .onDev (.ite (.raise (.setTally h)) h)

theorem execQtimeRead_canon {core c : Fin 4} (h : s.Canon) : CanonNext (execQtimeRead core c s) :=
  .next (.coreDev h fun h => .qtimeRead h)

/-! ### Sigma-delta channels -/

theorem Dev.Canon.setSd {n : Nat} {u : SdCh} (h : d.Canon) : (d.setSd n u).Canon := h

theorem Dev.Canon.sdBit {n : Nat} {b : Bool} (h : d.Canon) : (d.sdBit n b).Canon := .setSd h

theorem Dev.Canon.setEst {n : Nat} {e : Int} (h : d.Canon) : (d.setEst n e).Canon := .set (.setSd h)

theorem Dev.Canon.dcb {n : Nat} {x : Int} {cycles : Nat} (h : d.Canon) : (d.dcb n x cycles).1.Canon := by
  unfold Dev.dcb
  split
  · exact h
  · extract_lets _ _ _ d1
    have h1 : d1.Canon := .ite (.set h) h
    exact Dev.Canon.ite h1 (.setEst h1)

theorem Dev.Canon.sdLimit {n : Nat} {w : Word} (h : d.Canon) : (d.sdLimit n w).Canon :=
  .when (.setB h) fun h => .raise (.set h)

theorem Dev.Canon.sdDeliver {n : Nat} {w : Word} {time : Nat} (h : d.Canon) : (d.sdDeliver n w time).Canon := by
  unfold Dev.sdDeliver
  extract_lets +onlyGivenNames d1 d2 _ d3 d4 d5 d6
  have h1 : d1.Canon := .sdLimit h
  have h2 : d2.Canon := .incWrap (.set h1)
  have h3 : d3.Canon := .setSd h2
  have h4 : d4.Canon := .ite (.sendFork h3) h3
  have h5 : d5.Canon := .event h4
  have h6 : d6.Canon := .foldl h5 fun _ _ h => .ite (.setAdc h) h
  exact .archFeed h6

theorem Dev.Canon.sdStream {n : Nat} {x : Int} {cycles time : Nat} (h : d.Canon) :
    (d.sdStream n x cycles time).Canon := by
  unfold Dev.sdStream
  extract_lets +onlyGivenNames _ d1 r _ d3 _ _
  have h1 : d1.Canon := .ite (.set h) h
  have h2 : r.1.Canon := .dcb h1
  have h3 : d3.Canon := h2
  split
  · exact .setSd h3
  · extract_lets +onlyGivenNames _ d4
    have h4 : d4.Canon := .setSd h3
    exact .ite (.sdDeliver h4) h4

theorem Dev.Canon.sdApply {n : Nat} (h : d.Canon) : (d.sdApply n).Canon := .when (.applyPend h) fun h => .setSd h

theorem Dev.Canon.sdApplyLim {n : Nat} (h : d.Canon) : (d.sdApplyLim n).Canon := .applyPend h

theorem Dev.Canon.sdClose {n : Nat} {gives : Bool} (h : d.Canon) : (d.sdClose n gives).Canon :=
  .when (.setSd h) fun h => .sdStream h

theorem Dev.Canon.sdBoundary {n : Nat} (h : d.Canon) : (d.sdBoundary n).Canon := .sdClose (.ite (.sdApply h) h)

theorem Dev.Canon.sdPeriod {leg : Nat} (h : d.Canon) : (d.sdPeriod leg).Canon :=
  .foldl h fun _ _ h => .ite (.ite (.setSd h) (.setSd h)) h

theorem Dev.Canon.rsStart {n : Nat} {claimed : Bool} {phase : Nat} {ratio : Option Nat} (h : d.Canon) :
    (d.rsStart n claimed phase ratio).Canon :=
  .set (.setSd h)

theorem Dev.Canon.rsStop {n : Nat} (h : d.Canon) : (d.rsStop n).Canon := .ite h (.set (.set (.setSd h)))

theorem Dev.Canon.sdClaim {n ratio phase : Nat} (h : d.Canon) : (d.sdClaim n ratio phase).Canon :=
  .set (.when (.rsStart h) fun h => .set h)

theorem Dev.Canon.claimEnd {n : Nat} (h : d.Canon) : (d.claimEnd n).Canon := by
  unfold Dev.claimEnd
  split
  · exact .ite (.setB (.rsStop h)) h
  · exact h

theorem Dev.Canon.sdInstant {n counter : Nat} (h : d.Canon) : (d.sdInstant n counter).Canon :=
  .ite (.when (.when (.claimEnd h) fun h => .sdApply h) fun h => .sdStream h) h

theorem Dev.Canon.sdCycle {n : Nat} {level : Bool} (h : d.Canon) : (d.sdCycle n level).Canon := by
  unfold Dev.sdCycle
  extract_lets +onlyGivenNames d1
  have h1 : d1.Canon := .ite (.sdBoundary h) h
  split
  · exact .sdInstant (.sdBit h1)
  · exact h1

theorem Dev.Canon.sdmStep {pins : Nat} (h : d.Canon) : (d.sdmStep pins).Canon := by
  unfold Dev.sdmStep
  split
  · exact h
  · extract_lets +onlyGivenNames d1
    have h1 : d1.Canon := .foldl h fun _ _ h => .sdCycle h
    exact h1

theorem Dev.Canon.sdModeLeave (h : d.Canon) : d.sdModeLeave.Canon := by
  unfold Dev.sdModeLeave
  exact .foldl h fun _ _ h => (by split; exacts [.ite (.set h) (.rsStop h), h])

theorem Dev.Canon.rsWrite {n : Nat} {v : Word} (h : d.Canon) : (d.rsWrite n v).Canon := by
  unfold Dev.rsWrite
  extract_lets +onlyGivenNames _
  split
  · exact .note h
  · extract_lets +onlyGivenNames d1 d2 _
    have h1 : d1.Canon := .set h
    have h2 : d2.Canon := .ite (.set h1) h1
    exact .ite (.setB h2) (.ite (.whenNot (.set h2) fun h => .rsStart h) (.rsStop h2))

theorem Dev.Canon.rsOutput {n : Nat} (h : d.Canon) : (d.rsOutput n).Canon := by
  unfold Dev.rsOutput
  split
  · exact h
  · split
    · exact h
    · split
      · exact h
      · extract_lets +onlyGivenNames _ _ _ _ d1
        have h1 : d1.Canon := .setSd h
        exact .ite (.incSat h1) (.sdDeliver (.setSd (.when (.sdApplyLim h1) fun h => .set h)))

theorem Dev.Canon.estWrite {n : Nat} {v : Word} (h : d.Canon) : (d.estWrite n v).Canon := .ite (.setEst h) (.note h)

theorem Dev.Canon.sdRead {agent n : Nat} (h : d.Canon) : (d.sdRead agent n).Canon := .answer (.set h)

theorem Dev.Canon.sdStart {n : Nat} (h : d.Canon) : (d.sdStart n).Canon := .setSd h

theorem Dev.Canon.sdfEnable {en : Bool} (h : d.Canon) : (d.sdfEnable en).Canon := by
  unfold Dev.sdfEnable
  split
  · split
    · exact h
    · extract_lets +onlyGivenNames _ d1
      have h1 : d1.Canon := (.set h : Dev.Canon (d.set R.SDF_CTRL_EN 1))
      exact .foldl h1 fun _ _ h => .setSd h
  · exact .ite (.note h) (.set h)

theorem execSdfCommit_canon (h : s.Canon) : CanonNext (execSdfCommit s) := .onDev (.commit h)

theorem execSdfEnable_canon (h : s.Canon) : CanonNext (execSdfEnable s) := .onDev (.sdfEnable h)

theorem execSdOutputWord_canon {high mid low : BitVec 8} (h : s.Canon) :
    CanonNext (execSdOutputWord high mid low s) :=
  .onDev (.sdmStep h)

theorem execS1WindowTrunc_canon {group : Fin 3} {k : Fin 8} (h : s.Canon) :
    CanonNext (execS1WindowTrunc group k s) :=
  .onDev (.ite (.ite (.sdClose (.set h)) (.sdBoundary (.set h))) h)

theorem execSdStuck_canon {n : Fin 24} (h : s.Canon) : CanonNext (execSdStuck n s) :=
  .onDev (.ite (.raise (.set (.setSd h))) h)

theorem execResamplerEnable_canon {n : Fin 24} {value : Word} (h : s.Canon) :
    CanonNext (execResamplerEnable n value s) :=
  .onDev (.rsWrite h)

theorem execResamplerOutput_canon {n : Fin 24} (h : s.Canon) : CanonNext (execResamplerOutput n s) :=
  .onDev (.rsOutput h)

theorem execDcbEstWrite_canon {n : Fin 24} {value : Word} (h : s.Canon) : CanonNext (execDcbEstWrite n value s) :=
  .onDev (.estWrite h)

theorem execSdDataRead_canon {core : Fin 4} {n : Fin 24} (h : s.Canon) : CanonNext (execSdDataRead core n s) :=
  .next (.coreDev h fun h => .sdRead h)

/-! ### The Weave -/

theorem Dev.Canon.laneSync {n : Nat} (h : d.Canon) : (d.laneSync n).Canon :=
  .set (.set (.when (.set h) fun h => .set h))

theorem Dev.Canon.stopLane {n : Nat} (h : d.Canon) : (d.stopLane n).Canon := .laneSync (.set (.setLane h))

theorem Dev.Canon.startLane {n : Nat} (h : d.Canon) : (d.startLane n).Canon := .laneSync (.set (.set (.setLane h)))

theorem Dev.Canon.onTag {n tag : Nat} {f : InFlight → InFlight} (h : d.Canon) : (d.onTag n tag f).Canon := .setLane h

theorem Dev.Canon.dropTag {n tag : Nat} (h : d.Canon) : (d.dropTag n tag).Canon := .laneSync (.setLane h)

theorem State.Canon.grant {n tag : Nat} {ecc : Ecc} {second : Bool} (h : s.Canon) :
    (s.grant n tag ecc second).Canon := by
  unfold State.grant
  split
  · exact h
  · split
    · exact h
    · extract_lets +onlyGivenNames _
      split
      · extract_lets +onlyGivenNames _
        split
        · exact .onDev (.onTag (.raiseLane (.incSat h)))
        · exact .onDev (.onTag (.ite (.incSat h) h))
      · exact .ofDev (.onTag h)
      · exact h

theorem State.Canon.drainBanks {n k : Nat} (h : s.Canon) : (State.drainBanks n k s).Canon := by
  induction k generalizing s with
  | zero => exact h
  | succ k ih =>
    unfold State.drainBanks
    split
    · exact ih (.grant h)
    · exact h

theorem Dev.Canon.forkTo {ch : Nat} {w : HWord} {n : Nat} (h : d.Canon) : (d.forkTo ch w n).Canon :=
  .ite h (.ite (.raiseLane h) (.setLane h))

theorem Dev.Canon.forkPop {n ch : Nat} (h : d.Canon) : (d.forkPop n ch).Canon := .setLane h

theorem Dev.Canon.samplePorts {n kind unit item : Nat} {v : Word} (h : d.Canon) :
    (d.samplePorts n kind unit item v).Canon :=
  .setLane h

theorem Dev.Canon.archRunDone {ls time : Nat} (h : d.Canon) : (d.archRunDone ls time).Canon := .ite h h

theorem Dev.Canon.archSkip {ch n : Nat} (h : d.Canon) : (d.archSkip ch n).Canon :=
  .whenNot (.incSat h) fun h => .raise h

theorem Dev.Canon.archLate {ls : Nat} (h : d.Canon) : (d.archLate ls).Canon := by
  unfold Dev.archLate
  dsimp only
  split
  · exact h
  · exact .archSkip (.sameRegs h rfl)

theorem Dev.Canon.mirrorSkip {ls : Nat} (h : d.Canon) : (d.mirrorSkip ls).Canon := .ite (.raise (.incSat h)) h

theorem Dev.Canon.refill {n st : Nat} (h : d.Canon) : (d.refill n st).Canon := .setLane h

theorem Dev.Canon.refillAll {n ls : Nat} (h : d.Canon) : (d.refillAll n ls).Canon :=
  .foldl (.ite h (.setLane h)) fun _ _ h => .refill h

theorem Dev.Canon.beginRun {n : Nat} {l : LoopSet} {no : Nat} {snap : List (Nat × Word)} (h : d.Canon) :
    (d.beginRun n l no snap).Canon :=
  .laneSync (.incWrap (.refillAll (.setLane h)))

theorem State.Canon.beginRun {n : Nat} {l : LoopSet} {no : Nat} {snap : List (Nat × Word)} (h : s.Canon) :
    (s.beginRun n l no snap).Canon :=
  .onDev (.beginRun (.ofState (.when (.takeCoefs (.ite (.drainBanks h) h)) fun h => .takeProfile h)))

theorem State.Canon.trigger {n : Nat} {l : LoopSet} {time : Nat} (h : s.Canon) : (s.trigger n l time).Canon := by
  unfold State.trigger
  split
  · exact h
  · split
    · exact .onDev (.incSat h)
    · extract_lets +onlyGivenNames s1 _ _ _
      have h1 : s1.Canon := .ite (.onDev (.mirrorSkip (.archLate h))) h
      split
      · refine .onDev ?_
        extract_lets +onlyGivenNames _ d2 d3
        have h2 : d2.Canon := .setLane h1
        have h3 : d3.Canon := .ite h2 (.ite (.incSat h2) (.raiseLane (.incSat h2)))
        exact .laneSync h3
      · exact .beginRun h1

theorem State.Canon.startPending {n ls : Nat} (h : s.Canon) : (s.startPending n ls).Canon := by
  unfold State.startPending
  extract_lets +onlyGivenNames _ _
  split
  · split
    · exact h
    · extract_lets +onlyGivenNames s1 s2
      have h1 : s1.Canon := .onDev (.setLane h)
      have h2 : s2.Canon := .ite (.onDev (.mirrorSkip (.archLate h1))) h1
      exact .beginRun h2
  · exact h

theorem Dev.Canon.withdraw (h : d.Canon) : d.withdraw.Canon := .foldl h fun _ _ h => .laneSync (.setLane h)

theorem Dev.Canon.abandon {n ls : Nat} (h : d.Canon) : (d.abandon n ls).Canon := .laneSync (.refillAll (.setLane h))

theorem Dev.Canon.convOne {k : Nat × Nat} (h : d.Canon) : (d.convOne k).Canon := .ite h (.setLane h)

theorem Dev.Canon.setLaneState {n code : Nat} (h : d.Canon) : (d.setLaneState n code).Canon :=
  .ite h (.coefSettle (.request (.set h)))

theorem Dev.Canon.laneStatus (h : d.Canon) : d.laneStatus.Canon :=
  .setB (.whenNot (.ite (.set h) (.ite (.set h) h)) fun h => .coloPeers h)

theorem Dev.Canon.converge (h : d.Canon) : d.converge.Canon :=
  .ite h (.when (.foldl h fun _ _ h => .convOne h) fun h => .laneStatus (.setLaneState h))

theorem Dev.Canon.convRun {n ls no : Nat} (h : d.Canon) : (d.convRun n ls no).Canon := .ite h (.ite (.converge h) h)

theorem Dev.Canon.endRun {n : Nat} {r : Run} {cycles : Nat} (h : d.Canon) : (d.endRun n r cycles).Canon := by
  unfold Dev.endRun
  extract_lets +onlyGivenNames _ _ d1 d2 d3 _ _ d4 _ _ _ _ d5
  have h1 : d1.Canon := .refillAll (.setLane h)
  have h2 : d2.Canon := .set h1
  have h3 : d3.Canon := .ite (.set h2) h2
  have h4 : d4.Canon := .ite (.archRunDone h3) h3
  have h5 : d5.Canon := h4
  exact .laneSync (.convRun h5)

theorem Dev.Canon.onRun {n ls : Nat} {f : Run → Run} (h : d.Canon) : (d.onRun n ls f).Canon := .setLane h

theorem Dev.Canon.dropOp {n ls stake idx : Nat} (h : d.Canon) : (d.dropOp n ls stake idx).Canon :=
  .refill (.onRun (.ite (.setLane h) h))

theorem Dev.Canon.refuse {n cycle : Nat} {lss : List Nat} (h : d.Canon) : (d.refuse n cycle lss).Canon :=
  .ite h (.foldl (.ite h (.setLane (.incSat h))) fun _ _ h => .onRun h)

theorem Dev.Canon.chainMiss {n stake : Nat} {q : Issued} (h : d.Canon) : (d.chainMiss n stake q).Canon :=
  .ite (.incSat h) h

theorem Dev.Canon.spend {n stake cycle : Nat} {q : Issued} (h : d.Canon) : (d.spend n stake cycle q).Canon :=
  .setLane h

theorem Dev.Canon.takeTag {n stake : Nat} {q : Issued} {f : InFlight} (h : d.Canon) :
    (d.takeTag n stake q f).Canon :=
  .laneSync (.dropOp (.onRun (.setLane h)))

theorem Dev.Canon.storeUpset {n ls stake idx : Nat} (h : d.Canon) : (d.storeUpset n ls stake idx).Canon :=
  .dropOp (.raiseLane (.setBit (.incSat h)))

theorem Dev.Canon.slotUpset {n stake slot : Nat} (h : d.Canon) : (d.slotUpset n stake slot).Canon :=
  .raiseLane (.incSat h)

theorem Dev.Canon.enter {n st opc cycle : Nat} {upset : Upset} {q : Issued} {eff : Issued → Dev → Dev × Effect}
    (h : d.Canon) (he : ∀ q d, d.Canon → (eff q d).1.Canon) : (d.enter n st opc cycle upset q eff).Canon := by
  unfold Dev.enter
  extract_lets +onlyGivenNames bad r d1
  have hr : r.1.Canon := by
    dsimp only [r]
    split
    · exact he q d h
    · exact h
  have h1 : d1.Canon := by
    dsimp only [d1]
    generalize bad = b
    split
    · exact .slotUpset hr
    · exact hr
  exact .takeTag h1

theorem State.Canon.issue {opc : Nat} {i : Issue} {eff : Issued → Dev → Dev × Effect} (h : s.Canon)
    (he : ∀ q d, d.Canon → (eff q d).1.Canon) : (s.issue opc i eff).Canon := by
  unfold State.issue
  split
  · exact h
  · exact .onDev (.refuse h)
  · refine .onDev ?_
    extract_lets +onlyGivenNames _ _ d1
    have h1 : d1.Canon := .refuse h
    split
    · exact .storeUpset h1
    · extract_lets +onlyGivenNames d2 d3
      have h2 : d2.Canon := .ite (.incSat h1) h1
      have h3 : d3.Canon := .spend (.chainMiss h2)
      exact .ite (.dropOp h3) (.enter h3 he)

theorem Dev.Canon.loadEffect {n stake k : Nat} {q : Issued} (h : d.Canon) :
    (Machine.loadEffect n stake k q d).1.Canon := by
  unfold Machine.loadEffect
  extract_lets
  split
  · exact h
  · exact .raiseLane h

theorem Dev.Canon.storeEffect {n stake : Nat} {ws : List Word} {q : Issued} (h : d.Canon) :
    (Machine.storeEffect n stake ws q d).1.Canon := by
  unfold Machine.storeEffect
  extract_lets
  split
  · exact h
  · exact .raiseLane h

theorem Dev.Canon.portWrite {n stake : Nat} {q : Issued} (h : d.Canon) :
    (Machine.portWrite n stake q d).1.Canon := by
  unfold Machine.portWrite
  split
  · exact h
  · split
    · exact h
    · extract_lets +onlyGivenNames _ _ _ _ d1 _ d2
      have h1 : d1.Canon := .onRun h
      have h2 : d2.Canon := .ite (.send h1) h1
      exact .send h2

theorem Dev.Canon.orFlags {n stake ls : Nat} {f : Flags} (h : d.Canon) : (d.orFlags n stake ls f).Canon := .setLane h

theorem Dev.Canon.residue {n stake : Nat} (h : d.Canon) : (d.residue n stake).Canon := .raiseLane (.setBit h)

theorem State.Canon.complete {n tag : Nat} {residueFails : Bool} (h : s.Canon) :
    (s.complete n tag residueFails).Canon := by
  unfold State.complete
  split
  · exact h
  · exact .ite h (.ofDev (.when (.dropTag (.orFlags h)) fun h => .residue h))

theorem execForkWord_canon {ch : Fin 8} (h : s.Canon) : CanonNext (execForkWord ch s) := by
  unfold execForkWord
  refine .onDev ?_
  split
  · rename_i w d1 hw
    have h1 : d1.Canon := Dev.Canon.take h hw
    extract_lets d2
    have h2 : d2.Canon := by
      dsimp only [d2]
      split
      · rename_i x hx
        exact h1.take hx
      · exact h1
    exact .forkTo (.forkTo h2)
  · exact h

theorem execSamplePortWord_canon {lane : Fin 2} {ch : Fin 8} (h : s.Canon) :
    CanonNext (execSamplePortWord lane ch s) := by
  unfold execSamplePortWord
  refine .onDev ?_
  split
  · exact .samplePorts (.forkPop h)
  · exact h

theorem execLoopsetTrigger_canon {lane : Fin 2} {ch : Fin 8} (h : s.Canon) :
    CanonNext (execLoopsetTrigger lane ch s) := by
  unfold execLoopsetTrigger
  refine .next ?_
  split
  · extract_lets +onlyGivenNames _
    exact .foldl (.onDev (.forkPop h)) fun _ _ h => .trigger h
  · exact h

theorem execLoopsetRunComplete_canon {lane : Fin 2} {ls : Fin 16} {cycles : Nat} (h : s.Canon) :
    CanonNext (execLoopsetRunComplete lane ls cycles s) := by
  unfold execLoopsetRunComplete
  refine .next ?_
  extract_lets +onlyGivenNames _
  split
  · exact .ite (.startPending (.onDev (.endRun h))) h
  · exact h

theorem execLoopsetHung_canon {lane : Fin 2} {ls : Fin 16} (h : s.Canon) : CanonNext (execLoopsetHung lane ls s) := by
  unfold execLoopsetHung
  refine .next ?_
  split
  · exact .ite h (.startPending (.onDev (.raiseLane (.abandon h))))
  · exact h

theorem execWindowFull_canon {lane : Fin 2} {ls : Fin 16} (h : s.Canon) : CanonNext (execWindowFull lane ls s) := by
  unfold execWindowFull
  refine .onDev ?_
  extract_lets +onlyGivenNames _
  split
  · exact .ite (.raiseLane (.incSat (.set (.onRun h)))) h
  · exact h

theorem execOperationComplete_canon {lane : Fin 2} {tag : Fin 256} {residueFails : Bool} (h : s.Canon) :
    CanonNext (execOperationComplete lane tag residueFails s) :=
  .next (.complete h)

theorem execPortWriteComplete_canon {lane : Fin 2} {tag : Fin 256} (h : s.Canon) :
    CanonNext (execPortWriteComplete lane tag s) := by
  unfold execPortWriteComplete
  refine .onDev ?_
  extract_lets +onlyGivenNames _
  split
  · split
    · extract_lets +onlyGivenNames _ _ _
      exact .ite (.dropTag (.setLane h)) h
    · exact .ite (.dropTag h) h
    · exact h
  · exact h

theorem execMemoryGrant_canon {lane : Fin 2} {tag : Fin 256} {ecc : GrantEcc} (h : s.Canon) :
    CanonNext (execMemoryGrant lane tag ecc s) :=
  .next (.grant h)

/-! ### The Archive -/

theorem Dev.Canon.setArchCh {k : Nat} {c : ArchCh} (h : d.Canon) : (d.setArchCh k c).Canon := h

theorem Dev.Canon.setArchTu {u : Nat} {t : ArchTu} (h : d.Canon) : (d.setArchTu u t).Canon := h

theorem Dev.Canon.archFresh (h : d.Canon) : d.archFresh.Canon := h

theorem Dev.Canon.archEnable (h : d.Canon) : d.archEnable.Canon := by
  unfold Dev.archEnable
  split
  · exact h
  · split
    · exact .raise (.set (.set h))
    · extract_lets +onlyGivenNames d1
      have h1 : d1.Canon := .set (.set h)
      exact .archFresh (.set (.set (.set h1)))

theorem Dev.Canon.archDisable (h : d.Canon) : d.archDisable.Canon := .ite (.archFresh (.set (.set (.set h)))) h

theorem Dev.Canon.archTrunc {k : Nat} (h : d.Canon) : (d.archTrunc k).Canon := by
  unfold Dev.archTrunc
  extract_lets +onlyGivenNames _
  split
  · exact .ite (.raise (.incSat (.setArchCh h))) h
  · exact h

theorem State.Canon.archFlush {k : Nat} (h : s.Canon) : (s.archFlush k).Canon := by
  unfold State.archFlush
  extract_lets +onlyGivenNames d1 _
  have h1 : d1.Canon := h
  split
  · exact h
  · extract_lets +onlyGivenNames _ _ _ _
    exact .ofDev (.archTrunc (.setArchCh h1))

theorem State.Canon.archStore {k : Nat} {w : Word} {time : Nat} (h : s.Canon) : (s.archStore k w time).Canon := by
  unfold State.archStore
  extract_lets new s1 cap
  have hnew {s : State} (h : s.Canon) : (new s).Canon := .onDev (.setArchCh h)
  have h1 : s1.Canon := by
    dsimp only [s1]
    split
    · exact hnew h
    · exact .ite (hnew (.archFlush h)) (.onDev (.setArchCh h))
  split
  · exact .ite (.archFlush h1) h1
  · exact h1

theorem State.Canon.archEnd {k : Nat} {noEnd : Bool} (h : s.Canon) : (s.archEnd k noEnd).Canon :=
  .ite h (.onDev (.setArchCh (.ofState (.archFlush h))))

theorem State.Canon.archEndAll {noEnd : Bool} (h : s.Canon) : (s.archEndAll noEnd).Canon :=
  .foldl h fun _ _ h => .archEnd h

theorem Dev.Canon.archComplete (h : d.Canon) : d.archComplete.Canon := .ite h h

theorem Dev.Canon.archDirectory {t k : Nat} (h : d.Canon) : (d.archDirectory t k).2.Canon := by
  unfold Dev.archDirectory
  extract_lets +onlyGivenNames _ _ _ _ f0 f1 f2
  have h2 : f2.2.Canon := .freeWord (.freeWord (.freeWord h))
  extract_lets
  split <;> exact h2

theorem Dev.Canon.archDirectories {t : Nat} {l : List Nat} (h : d.Canon) : (d.archDirectories t l).2.Canon := by
  induction l generalizing d with
  | nil => exact h
  | cons k l ih => exact ih h.archDirectory

theorem Dev.Canon.archDead (h : d.Canon) : d.archDead.Canon := by
  unfold Dev.archDead
  split
  · exact h
  · extract_lets +onlyGivenNames _ _ d1
    have h1 : d1.Canon := .set h
    exact .ite (.set h1) h1

theorem Dev.Canon.archApply (h : d.Canon) : d.archApply.Canon := .whenNot (.applyPend h) fun h => h

theorem Dev.Canon.archStart {b : Nat} {id : Option Nat} (h : d.Canon) : (d.archStart b id).Canon := by
  unfold Dev.archStart
  extract_lets +onlyGivenNames d1 _ d2 d3 _ _ _
  have h1 : d1.Canon := .archDead (.archApply h)
  have h2 : d2.Canon := .set (.set (.set h1))
  have h3 : d3.Canon := .set h2
  exact .foldl h3 fun _ _ h => .setArchCh h

theorem State.Canon.archArm {b : Nat} {id : Option Nat} (h : s.Canon) : (s.archArm b id).Canon :=
  .ofDev (.archStart h)

theorem State.Canon.archRequest {id : Option Nat} (h : s.Canon) : (s.archRequest id).Canon := by
  unfold State.archRequest
  extract_lets +onlyGivenNames _
  split
  · exact h
  · split
    · split
      · exact .archArm h
      · exact .onDev (.set (.set h))
    · exact h
    · exact .onDev (.set (.set h))

theorem State.Canon.archNext (h : s.Canon) : (s.archNext).Canon := by
  unfold State.archNext
  split
  · split
    · exact .archArm h
    · exact .onDev (.set h)
  · exact h

theorem State.Canon.archFinish {g : ArchTrig} {done : Nat} (h : s.Canon) : (s.archFinish g done).Canon := by
  unfold State.archFinish
  extract_lets +onlyGivenNames d1 _ _ dir _ _ d2 d3 _ d4 _ _ d5
  have h3 : d3.Canon := .request (.set (.archDirectories h))
  have h4 : d4.Canon := .set (.sameRegs h3 rfl)
  have h5 : d5.Canon := .ite (.set (.sameRegs h4 rfl)) h4
  exact .archNext h5

theorem Dev.Canon.archRecord {cause unit t : Nat} (h : d.Canon) : (d.archRecord cause unit t).Canon :=
  .archComplete (.foldl (.raise (.incWrap (.set h))) fun _ _ h => .archTrunc h)

theorem Dev.Canon.archFire {cause unit t : Nat} (h : d.Canon) : (d.archFire cause unit t).Canon := by
  unfold Dev.archFire
  split
  · exact .archRecord h
  · exact .incSat h
  · exact .raise (.incSat h)

theorem Dev.Canon.archTrigger {cause t : Nat} (h : d.Canon) : (d.archTrigger cause t).Canon := .ite (.archFire h) h

theorem Dev.Canon.archUnit {u : Nat} {v : Int} {t : Nat} (h : d.Canon) : (d.archUnit u v t).Canon :=
  .ite h (.when (.setArchTu h) fun h => .archFire h)

theorem State.Canon.archMaskTest {k : Nat} {v : Int} {t : Nat} {judged : Bool} (h : s.Canon) :
    (s.archMaskTest k v t judged).Canon := by
  unfold State.archMaskTest
  extract_lets +onlyGivenNames d1
  have h1 : d1.Canon := h
  split
  · exact h
  · split
    · exact h
    · extract_lets +onlyGivenNames _ s2 _ _ _
      have h2 : s2.Canon := h1
      split
      · exact h2
      · extract_lets +onlyGivenNames s3
        have h3 : s3.Canon := .onDev (.raise h2)
        split
        · split
          · exact h3
          · exact .onDev (.archComplete (.ofState (.archEndAll (.onDev (.archRecord h3)))))
        · extract_lets +onlyGivenNames s4
          have h4 : s4.Canon := .onDev h3
          exact .onDev (.archComplete (.ofState (.archEndAll h4)))

theorem State.Canon.archTake {k : Nat} {w : Word} {time : Nat} (h : s.Canon) : (s.archTake k w time).Canon := by
  unfold State.archTake
  extract_lets +onlyGivenNames d1 _ s2
  have h1 : d1.Canon := h
  have h2 : s2.Canon := .onDev (.setArchCh h)
  split
  · exact .ite (.archStore h2) h2
  · exact .ite h2 (.ite (.onDev (.archComplete (.ofState (.archEnd h2)))) (.archStore h2))
  · exact h2

theorem State.Canon.archOffer {k : Nat} {w : Word} {time : Nat} (h : s.Canon) : (s.archOffer k w time).Canon :=
  .whenNot (.onDev (.setArchCh h)) fun h => .ite (.onDev (.archSkip h)) (.archTake h)

theorem State.Canon.archWords {ks : List Nat} {w : Word} {time : Nat} (h : s.Canon) :
    (s.archWords ks w time).Canon := by
  unfold State.archWords
  extract_lets +onlyGivenNames _ _ s1 s2
  have h1 : s1.Canon := .foldl h fun _ _ h => .archOffer h
  have h2 : s2.Canon := .foldl h1 fun _ _ h => .archMaskTest h
  exact .onDev (.foldl h2 fun _ _ h => .ite (.archUnit h) h)

theorem State.Canon.archWord {k : Nat} {w : Word} {time : Nat} (h : s.Canon) : (s.archWord k w time).Canon :=
  .archWords h

theorem execArchCommit_canon (h : s.Canon) : CanonNext (execArchCommit s) := .onDev (.commit h)

theorem execArchEnable_canon (h : s.Canon) : CanonNext (execArchEnable s) := .onDev (.archEnable h)

theorem execArchSample_canon {ch : Fin 3} (h : s.Canon) : CanonNext (execArchSample ch s) := by
  unfold execArchSample
  split
  · rename_i hx
    extract_lets s1
    have h1 : s1.Canon := Dev.Canon.take h hx
    exact .ite (.next (.archWords h1)) (.next h1)
  · exact .next h

theorem execArchSlotRead_canon {ch : Fin 64} (h : s.Canon) : CanonNext (execArchSlotRead ch s) := by
  unfold execArchSlotRead
  refine .next ?_
  split
  · exact h
  · extract_lets +onlyGivenNames _
    exact .ite h (.whenNot (.onDev h) fun h => .archWord h)

theorem execArchRecordTimeout_canon (h : s.Canon) : CanonNext (execArchRecordTimeout s) :=
  .next (.ite (.onDev (.archComplete (.ofState (.archEndAll h)))) h)

theorem execArchHeaderWritten_canon (h : s.Canon) : CanonNext (execArchHeaderWritten s) := by
  unfold execArchHeaderWritten
  refine .next ?_
  split
  · exact .archFinish h
  · exact h

theorem State.Canon.armWrite (h : s.Canon) : (s.armWrite).Canon :=
  .onDev (.when (.ofState (.archRequest h)) fun h => h)

theorem Dev.Canon.archDisarm (h : d.Canon) : d.archDisarm.Canon := .ite (.set h) (.set h)

theorem State.Canon.releaseWrite {banks : Nat} (h : s.Canon) : (s.releaseWrite banks).Canon :=
  .when (.ofDev (.foldl h fun _ _ h => .ite h (.ite (.set h) (.set h)))) fun h => .archNext h

theorem execArchArm_canon (h : s.Canon) : CanonNext (execArchArm s) := .next (.armWrite h)

theorem execArchDisarm_canon (h : s.Canon) : CanonNext (execArchDisarm s) := .onDev (.archDisarm h)

theorem execArchSwtrig_canon (h : s.Canon) : CanonNext (execArchSwtrig s) := .onDev (.archTrigger h)

theorem execArchRelease_canon {banks : BitVec 4} (h : s.Canon) : CanonNext (execArchRelease banks s) :=
  .next (.releaseWrite h)

theorem execArmioEdge_canon (h : s.Canon) : CanonNext (execArmioEdge s) := .next (.ite (.archRequest h) h)

theorem State.Canon.dplArm {id sec ns : Nat} (h : s.Canon) : (s.dplArm id sec ns).Canon :=
  .ite (.archRequest (.onDev (.raise h))) (.onDev h)

theorem execDplArmTime_canon (h : s.Canon) : CanonNext (execDplArmTime s) := by
  unfold execDplArmTime
  refine .next ?_
  split
  · exact h
  · exact .archRequest (.onDev h)

theorem execTrigioEdge_canon (h : s.Canon) : CanonNext (execTrigioEdge s) := .onDev (.ite (.archTrigger h) h)

theorem execArchTrigioStuck_canon (h : s.Canon) : CanonNext (execArchTrigioStuck s) := .onDev (.beginCond h)

theorem execTrigioReadsHigh_canon (h : s.Canon) : CanonNext (execTrigioReadsHigh s) := .onDev (.setCond h)

theorem execTrigioPulseEnd_canon (h : s.Canon) : CanonNext (execTrigioPulseEnd s) := .onDev h

theorem execArmioPulseEnd_canon (h : s.Canon) : CanonNext (execArmioPulseEnd s) := .onDev h

/-! ### Legs -/

theorem Dev.Canon.softoffBall (h : d.Canon) : d.softoffBall.Canon := .setB h

theorem Dev.Canon.shoot {leg : Nat} (h : d.Canon) : (d.shoot leg).Canon :=
  .when (.setBit (.set (.incSat h))) fun h => .raise h

theorem Dev.Canon.legCut {leg : Nat} (h : d.Canon) : (d.legCut leg).Canon :=
  .ite (.when (.setLeg h) fun h => .shoot h) h

theorem Dev.Canon.legOff {leg : Nat} (h : d.Canon) : (d.legOff leg).Canon := .setLeg h

theorem Dev.Canon.toState {leg state cause : Nat} (h : d.Canon) : (d.toState leg state cause).Canon :=
  .softoffBall (.setBit (.set (.set (.ite h (.legOff (.legCut h))))))

theorem Dev.Canon.disarm {leg : Nat} (h : d.Canon) : (d.disarm leg).Canon := .set (.setLeg h)

theorem Dev.Canon.legSync {leg : Nat} (h : d.Canon) : (d.legSync leg).Canon := by
  unfold Dev.legSync
  extract_lets +onlyGivenNames _
  split
  · exact h
  · split
    · exact .toState (.disarm h)
    · exact .ite (.toState (.disarm h)) (.ite (.toState (.disarm h)) (.ite (.toState h) h))

theorem Dev.Canon.legRequest {leg : Nat} {en : Bool} (h : d.Canon) : (d.legRequest leg en).Canon :=
  .ite (.when (.disarm h) fun h => .toState h) (.ite (.raise h) (.ite (.set (.setLeg h)) h))

theorem Dev.Canon.clearTrips (h : d.Canon) : d.clearTrips.Canon := .foldl h fun _ _ h => .legSync (.setLeg h)

theorem Dev.Canon.legsMode (h : d.Canon) : d.legsMode.Canon := .foldl h fun _ _ h => .legSync (.ite h (.legRequest h))

theorem Dev.Canon.legWriteErr {leg src : Nat} (h : d.Canon) : (d.legWriteErr leg src).Canon := .incSat (.set (.set h))

theorem Dev.Canon.setSync {leg : Nat} (h : d.Canon) : (d.setSync leg).Canon := .setB (.setB h)

theorem Dev.Canon.liveCompare {leg word p : Nat} {f : Fld} (h : d.Canon) : (d.liveCompare leg word p f).Canon :=
  .when (.set h) fun h => .set h

theorem Dev.Canon.recompute {leg : Nat} (h : d.Canon) : (d.recompute leg).Canon :=
  .liveCompare (.liveCompare (.set h))

theorem Dev.Canon.applyGroup {leg : Nat} {x : LegSet} (h : d.Canon) : (d.applyGroup leg x).Canon :=
  .ite (.raise (.set h)) (.recompute (.set (.setLeg (.ite (.incSat (.set h)) h))))

theorem Dev.Canon.applySet {leg : Nat} {x : LegSet} (h : d.Canon) : (d.applySet leg x).Canon :=
  .applyReg (.applyGroup h)

theorem Dev.Canon.legField {leg code v : Nat} (h : d.Canon) : (d.legField leg code v).Canon := by
  unfold Dev.legField
  extract_lets _ d1 _
  have h1 : d1.Canon := by
    dsimp only [d1]
    split <;> exact .set h
  exact .ite (.setLeg h1) h1

theorem Dev.Canon.legCommit {leg : Nat} (h : d.Canon) : (d.legCommit leg).Canon := by
  unfold Dev.legCommit
  extract_lets +onlyGivenNames _ _ d1
  have h1 : d1.Canon := .setLeg h
  split
  · exact .setSync (.applySet h1)
  · extract_lets +onlyGivenNames _ d2 d3
    have h2 : d2.Canon := .ite (.incSat h1) h1
    have h3 : d3.Canon := .ite (.incSat h2) h2
    exact .setSync (.setLeg h3)

theorem Dev.Canon.legWindow {leg : Nat} (h : d.Canon) : (d.legWindow leg).Canon := by
  unfold Dev.legWindow
  extract_lets +onlyGivenNames _
  split
  · exact h
  · split
    · exact .setSync (.setLeg h)
    · exact .setLeg h

theorem Dev.Canon.periodEnd {leg : Nat} {misplaced : Bool} (h : d.Canon) : (d.periodEnd leg misplaced).Canon := by
  unfold Dev.periodEnd
  extract_lets +onlyGivenNames _ _ _ _ _ d1 _ d2 _
  have h1 : d1.Canon := .ite (.shoot h) h
  have h2 : d2.Canon := .setLeg h1
  split
  · exact .setLeg h2
  · extract_lets +onlyGivenNames _
    split
    · extract_lets +onlyGivenNames d3
      have h3 : d3.Canon := .incWrap (.setLeg h2)
      exact .ite (.set h3) h3
    · exact .ite (.setLeg h2) (.setLeg h2)

theorem Dev.Canon.tapBind {leg : Nat} (h : d.Canon) : (d.tapBind leg).Canon :=
  .ite h (.foldl (.setLeg h) fun _ _ h => .tapRepair h)

theorem Dev.Canon.sweepPeriod {leg : Nat} (h : d.Canon) : (d.sweepPeriod leg).Canon := by
  unfold Dev.sweepPeriod
  exact .foldl h fun _ _ h => (by dsimp only; split; exacts [.ite h h, h])

theorem Dev.Canon.reload {leg : Nat} {misplaced : Bool} (h : d.Canon) : (d.reload leg misplaced).Canon := by
  unfold Dev.reload
  refine .ite h ?_
  extract_lets +onlyGivenNames d1 l d2 d3
  have h1 : d1.Canon := .tapBind (.periodEnd h)
  have h2 : d2.Canon := .setLeg h1
  have h3 : d3.Canon := by
    dsimp only [d3]
    split
    · exact .applySet h2
    · exact h2
  extract_lets +onlyGivenNames d4 _ d5
  have h4 : d4.Canon := .sweepPeriod (.applyPend (.recompute h3))
  have h5 : d5.Canon := .ite (.toState (.setLeg h4)) h4
  exact .setSync h5

theorem Dev.Canon.holdRelease (h : d.Canon) : d.holdRelease.Canon := by
  unfold Dev.holdRelease
  split
  · exact h
  · split
    · exact h
    · extract_lets +onlyGivenNames _ d1 _ d2 d3 _
      have h1 : d1.Canon := .request (.set h)
      have h2 : d2.Canon := .set h1
      have h3 : d3.Canon := .ite (.set h2) h2
      exact .ite (.raise (.incSat h3)) h3

theorem Dev.Canon.frontCommit {lane : Nat} {hi : Bool} {p : Nat → Bool} {x : CommitWord × Dev} (h : d.Canon)
    (hx : d.frontCommit lane hi p = some x) : x.2.Canon := by
  unfold Dev.frontCommit at hx
  extract_lets at hx
  split at hx
  · rename_i hw
    split at hx
    · cases hx
      exact h.take hw
    · cases hx
  · cases hx

theorem Dev.Canon.legWord {lane : Nat} {c : CommitWord} {eff : Dev → Dev} (h : d.Canon)
    (he : ∀ d, d.Canon → (eff d).Canon) : (d.legWord lane c eff).Canon := by
  unfold Dev.legWord
  split
  · exact h
  · extract_lets d1
    have h1 : d1.Canon := .holdRelease h
    split
    · exact .when (he _ h1) fun h => .legCommit h
    · exact .legWriteErr h1
    · exact .legWriteErr h1

theorem Dev.Canon.commitField {lane : Nat} {hi : Bool} {code : Nat} (h : d.Canon) :
    (d.commitField lane hi code).Canon := by
  unfold Dev.commitField
  split
  · rename_i hx
    exact .legWord (h.frontCommit hx) fun _ h => .legField h
  · exact h

theorem Dev.Canon.markConcurrent {src time : Nat} (h : d.Canon) : (d.markConcurrent src time).Canon := h

theorem Dev.Canon.gsupRaise {isl src ctx : Nat} (h : d.Canon) : (d.gsupRaise isl src ctx).Canon := by
  unfold Dev.gsupRaise
  extract_lets +onlyGivenNames _ _
  split
  · exact .ite (.raise h) (.send (.markConcurrent h))
  · exact .raise h

theorem Dev.Canon.tripLeg {leg cause : Nat} (h : d.Canon) : (d.tripLeg leg cause).Canon :=
  .ite h (.legSync (.setLeg h))

theorem Dev.Canon.groupTrip {leg : Nat} (h : d.Canon) : (d.groupTrip leg).Canon :=
  .foldl h fun _ _ h => .ite (.tripLeg h) h

theorem Dev.Canon.confirm {k cause : Nat} (h : d.Canon) : (d.confirm k cause).Canon := by
  unfold Dev.confirm
  extract_lets +onlyGivenNames _ _ _ _ _ d1 d2 _ src _ d3 _ d4
  have h1 : d1.Canon := .gsupRaise (.setBit h)
  have h2 : d2.Canon := .ite (.setCond h1) h1
  have hsrc : src.Canon := .legCut h2
  have h3 : d3.Canon := .sameRegs hsrc rfl
  have h4 : d4.Canon := .tripLeg h2
  clear_value d2 d3
  exact .ite (.setLeg h2) (.ite (.set (.setLeg h3)) (.ite (.groupTrip h4) h4))

theorem Dev.Canon.ledgerSweep {k code : Nat} (h : d.Canon) : (d.ledgerSweep k code).Canon := by
  unfold Dev.ledgerSweep
  split
  · exact h
  · split
    · extract_lets +onlyGivenNames d1
      have h1 : d1.Canon := .set h
      exact h1
    · extract_lets +onlyGivenNames d1
      have h1 : d1.Canon := .set h
      exact h1

theorem Dev.Canon.osvWritten {k : Nat} (h : d.Canon) : (d.osvWritten k).Canon := .ite h h

theorem Dev.Canon.sweepRead {k : Nat} {active : Bool} (h : d.Canon) : (d.sweepRead k active).Canon := by
  unfold Dev.sweepRead
  split
  · exact h
  · extract_lets +onlyGivenNames _ _ _
    exact .ite h (.ledgerSweep (.set (.incWrap (.set (.set h)))))

theorem Dev.Canon.legStart {n : Nat} (h : d.Canon) : (d.legStart n).Canon := .setLeg h

theorem Dev.Canon.pwmEnable (h : d.Canon) : d.pwmEnable.Canon :=
  .ite h (.foldl (.set h) fun _ _ h => .legSync (.legStart h))

theorem Dev.Canon.inputsQuiet {leg : Nat} (h : d.Canon) : (d.inputsQuiet leg).Canon :=
  .foldl h fun _ _ h => .when (.ite (.setCond h) h) fun h => .setCond h

theorem execLegCommit_canon {leg : Fin 48} (h : s.Canon) : CanonNext (execLegCommit leg s) := by
  unfold execLegCommit
  refine .onDev ?_
  split
  · exact .legCommit h
  · exact .legWriteErr h
  · exact .legWriteErr h

theorem execGsupCommit_canon (h : s.Canon) : CanonNext (execGsupCommit s) := .onDev (.commit h)

theorem execPwmBlockEnable_canon (h : s.Canon) : CanonNext (execPwmBlockEnable s) := .onDev (.pwmEnable h)

theorem execPwmResync_canon {groups : BitVec 16} (h : s.Canon) : CanonNext (execPwmResync groups s) :=
  .onDev (.foldl h fun _ _ h => .ite (.ite (.note h) (.legStart h)) h)

theorem execPeriodEvent_canon {leg : Fin 48} (h : s.Canon) : CanonNext (execPeriodEvent leg s) :=
  .onDev (.ite (.event h) h)

theorem execGuardWindowOpen_canon {leg : Fin 48} (h : s.Canon) : CanonNext (execGuardWindowOpen leg s) :=
  .onDev (.legWindow h)

theorem execPwmReload_canon {leg : Fin 48} {misplacedEdge : Bool} (h : s.Canon) :
    CanonNext (execPwmReload leg misplacedEdge s) :=
  .onDev (.reload h)

theorem execCommitWordCmpa_canon {lane : Fin 2} {hi : Bool} (h : s.Canon) :
    CanonNext (execCommitWordCmpa lane hi s) :=
  .onDev (.commitField h)

theorem execCommitWordCmpb_canon {lane : Fin 2} {hi : Bool} (h : s.Canon) :
    CanonNext (execCommitWordCmpb lane hi s) :=
  .onDev (.commitField h)

theorem execCommitWordPeriod_canon {lane : Fin 2} {hi : Bool} (h : s.Canon) :
    CanonNext (execCommitWordPeriod lane hi s) :=
  .onDev (.commitField h)

theorem execCommitWordDt_canon {lane : Fin 2} {hi : Bool} (h : s.Canon) : CanonNext (execCommitWordDt lane hi s) :=
  .onDev (.commitField h)

theorem execCommitWordEvt_canon {lane : Fin 2} {hi : Bool} (h : s.Canon) :
    CanonNext (execCommitWordEvt lane hi s) :=
  .onDev (.commitField h)

theorem execCommitWordEnable_canon {lane : Fin 2} {hi : Bool} (h : s.Canon) :
    CanonNext (execCommitWordEnable lane hi s) := by
  unfold execCommitWordEnable
  refine .onDev ?_
  split
  · rename_i hx
    exact .legWord (Dev.Canon.frontCommit h hx) fun _ h => .legRequest h
  · exact h

theorem execCommitWordReserved_canon {lane : Fin 2} {hi : Bool} (h : s.Canon) :
    CanonNext (execCommitWordReserved lane hi s) := by
  unfold execCommitWordReserved
  refine .onDev ?_
  split
  · rename_i d1 hx
    have h1 : d1.Canon := Dev.Canon.frontCommit h hx
    exact .ite (.legWriteErr (.holdRelease h1)) h1
  · exact h

theorem execLegEnableRequest_canon {leg : Fin 48} {en : Bool} (h : s.Canon) :
    CanonNext (execLegEnableRequest leg en s) := by
  unfold execLegEnableRequest
  refine .onDev ?_
  split
  · exact .legRequest h
  · exact .legWriteErr h
  · exact .legWriteErr h

theorem execLegClrFault_canon {leg : Fin 48} {inputsInactive : Bool} (h : s.Canon) :
    CanonNext (execLegClrFault leg inputsInactive s) := by
  unfold execLegClrFault
  refine .onDev ?_
  extract_lets +onlyGivenNames _ _ d1
  have h1 : d1.Canon := .ite (.inputsQuiet h) h
  exact .ite (.legSync (.setLeg h1)) (.set h1)

theorem execTapDrift_canon {leg : Fin 48} {tap : Fin 32} (h : s.Canon) : CanonNext (execTapDrift leg tap s) :=
  .onDev (.raise (.set (.setLeg h)))

theorem execDesatConfirm_canon {k : Fin 24} (h : s.Canon) : CanonNext (execDesatConfirm k s) :=
  .onDev (.ite (.confirm h) h)

theorem execGuardTrip_canon {k : Fin 24} (h : s.Canon) : CanonNext (execGuardTrip k s) := by
  unfold execGuardTrip
  refine .onDev ?_
  extract_lets
  split
  · rename_i hx
    exact .ite (.confirm (Dev.Canon.take h hx)) h
  · exact h

theorem execSoftoffDelayEnd_canon {leg : Fin 48} (h : s.Canon) : CanonNext (execSoftoffDelayEnd leg s) := by
  unfold execSoftoffDelayEnd
  refine .onDev ?_
  extract_lets +onlyGivenNames _ _
  split
  · exact h
  · extract_lets +onlyGivenNames d1 d2
    have h1 : d1.Canon := .legSync (.setLeg h)
    have h2 : d2.Canon := .set h1
    exact .ite (.groupTrip h2) h2

theorem execDrvfltConfirm_canon {k : Fin 24} (h : s.Canon) : CanonNext (execDrvfltConfirm k s) := by
  unfold execDrvfltConfirm
  refine .onDev ?_
  split
  · extract_lets +onlyGivenNames _ d1 d2 _ _
    have h1 : d1.Canon := .gsupRaise (.setBit h)
    have h2 : d2.Canon := .setCond h1
    exact .ite (.setLeg h2) (.when (.tripLeg h2) fun h => .groupTrip h)
  · exact h

theorem execOsvSweepStart_canon {k : Fin 24} {every sample : BitVec 8} (h : s.Canon) :
    CanonNext (execOsvSweepStart k every sample s) := by
  unfold execOsvSweepStart
  refine .onDev ?_
  extract_lets +onlyGivenNames _ d1 d2
  have h1 : d1.Canon := .set h
  have h2 : d2.Canon := .ite (.note h1) (.set h1)
  exact .ite (.set (.set h2)) (.set (.set h2))

theorem execOsvSweepSample_canon {k : Fin 24} {active : Bool} (h : s.Canon) :
    CanonNext (execOsvSweepSample k active s) :=
  .onDev (.ite (.sweepRead h) h)

/-! ### Lane comparison -/

theorem Dev.Canon.passOn {c : CommitWord} (h : d.Canon) : (d.passOn c).Canon := .ite h (.ite (.send h) h)

theorem Dev.Canon.dropTable (h : d.Canon) : d.dropTable.Canon := .foldl h fun _ _ h => .passOn h

theorem Dev.Canon.claimAll (h : d.Canon) : d.claimAll.Canon := .foldl h fun _ _ h => .ite (.sdClaim h) h

theorem Dev.Canon.holdLane {n : Nat} (h : d.Canon) : (d.holdLane n).Canon :=
  .setLaneState (.laneSync (.setLane (.incSat h)))

theorem Dev.Canon.holdStart {swap : Bool} (h : d.Canon) : (d.holdStart swap).Canon :=
  .claimAll (.holdLane (.holdLane (.set h)))

theorem Dev.Canon.recordMismatch {kind : Nat} {c : CommitWord} {va vb : Word} (h : d.Canon) :
    (d.recordMismatch kind c va vb).Canon :=
  .set (.set (.set (.set (.set (.set (.set (.set h)))))))

theorem Dev.Canon.mismatch {kind : Nat} {c : CommitWord} {va vb : Word} (h : d.Canon) :
    (d.mismatch kind c va vb).Canon := by
  unfold Dev.mismatch
  extract_lets +onlyGivenNames d1 syncing n l src _ d2 d3
  have h1 : d1.Canon := .recordMismatch h
  have hsrc : src.Canon := .setLane h1
  have h2 : d2.Canon := .ite (.sameRegs hsrc rfl) h1
  clear_value d2
  exact .ite (.incSat h2) (.ite (.incSat h2) (.when (.incSat h2) fun h => .raise (.holdStart h)))

theorem Dev.Canon.untable {c : CommitWord} (h : d.Canon) : (d.untable c).Canon := h

theorem Dev.Canon.laneWord {n : Nat} {c : CommitWord} (h : d.Canon) : (d.laneWord n c).Canon := by
  unfold Dev.laneWord
  extract_lets +onlyGivenNames _ _ _
  split
  · exact h
  · split
    · exact .ite (.passOn h) h
    · extract_lets +onlyGivenNames _ d1
      have h1 : d1.Canon := .ite (.passOn h) h
      split
      · extract_lets +onlyGivenNames _
        exact h1
      · extract_lets +onlyGivenNames _ d2 d3
        have h2 : d2.Canon := .untable h1
        have h3 : d3.Canon := .ite (.ite h2 (.passOn h2)) (.ite (.mismatch h2) (.mismatch h2))
        exact .ite (.converge h3) h3

theorem Dev.Canon.toStopped {n : Nat} (h : d.Canon) : (d.toStopped n).Canon :=
  .laneStatus (.setLaneState (.stopLane h))

theorem Dev.Canon.standbyStop {n : Nat} (h : d.Canon) : (d.standbyStop n).Canon := by
  unfold Dev.standbyStop
  extract_lets +onlyGivenNames d1 _ d2
  have h1 : d1.Canon := .dropTable h
  have h2 : d2.Canon := h1
  exact .raise (.toStopped h2)

theorem Dev.Canon.laneFault {n : Nat} (h : d.Canon) : (d.laneFault n).Canon := by
  unfold Dev.laneFault
  extract_lets +onlyGivenNames _ d1 _ d2
  have h1 : d1.Canon := .setLane h
  have h2 : d2.Canon := .ite (.incSat h1) h1
  split
  · exact .ite h2 (.holdStart h2)
  · exact .standbyStop h2
  · exact .standbyStop h2
  · exact h2

theorem Dev.Canon.benign {standby : Nat} (h : d.Canon) : (d.benign standby).Canon :=
  .when (.incSat h) fun h => .standbyStop h

theorem Dev.Canon.toActive {n : Nat} (h : d.Canon) : (d.toActive n).Canon := .setLaneState (.ite h (.startLane h))

theorem Dev.Canon.decide' {o : Hold} {ca cb : Bool} (h : d.Canon) : (d.decide' o ca cb).Canon := by
  unfold Dev.decide'
  extract_lets +onlyGivenNames _ _ _ _ _ _ d1 _ d2 _ _ d3 d4
  have h1 : d1.Canon := .set (.set h)
  have h2 : d2.Canon := h1
  have h3 : d3.Canon := .ite (.raise (.toActive (.toStopped h2))) (.ite (.toActive (.ite (.setLaneState (.ite h2
    (.raise h2))) (.toStopped (.ite h2 (.raise h2))))) (.ite (.toActive (.toStopped h2)) (.toActive (.setLaneState
    h2))))
  have h4 : d4.Canon := .laneStatus h3
  exact .ite (.benign h4) h4

theorem Dev.Canon.onBuf {p : MirrorBuf → Bool} {f : MirrorBuf → MirrorBuf} (h : d.Canon) : (d.onBuf p f).Canon := h

theorem Dev.Canon.mirrorStart {ls : Nat} (h : d.Canon) : (d.mirrorStart ls).Canon := by
  unfold Dev.mirrorStart
  split
  · exact h
  · extract_lets +onlyGivenNames _ _
    exact .ite (.onBuf (.setLane h)) h

theorem Dev.Canon.restartFail {n step : Nat} (h : d.Canon) : (d.restartFail n step).Canon :=
  .raise (.ite h (.toStopped (.dropTable h)))

theorem Dev.Canon.restartCheck {r : Restart} {fails : Word} {bad : List BadUnit} (h : d.Canon) :
    (d.restartCheck r fails bad).Canon := by
  unfold Dev.restartCheck
  extract_lets _ t d1 d2
  have ht : t.1.Canon := by
    dsimp only [t]
    split
    · exact .bistUnits (.stakesTested h)
    · exact h
  have h1 : d1.Canon := .ite (.spareSync (.formSync (.mapSync ht))) ht
  have h2 : d2.Canon := .set h1
  exact .ite (.restartFail h2) h2

theorem Dev.Canon.restartStart {r : Restart} (h : d.Canon) : (d.restartStart r).Canon :=
  .converge (.laneStatus (.setLaneState (.startLane h)))

theorem execLaneCommitWord_canon {lane : Fin 2} (h : s.Canon) : CanonNext (execLaneCommitWord lane s) := by
  unfold execLaneCommitWord
  refine .onDev ?_
  split
  · rename_i hx
    exact .laneWord (Dev.Canon.take h hx)
  · exact h

theorem execPartnerMissing_canon {lane : Fin 2} (h : s.Canon) : CanonNext (execPartnerMissing lane s) := by
  unfold execPartnerMissing
  refine .onDev ?_
  split
  · extract_lets +onlyGivenNames d1
    have h1 : d1.Canon := .untable h
    exact .ite (.mismatch h1) (.mismatch h1)
  · exact h

theorem execLaneFault_canon {lane : Fin 2} (h : s.Canon) : CanonNext (execLaneFault lane s) :=
  .onDev (.ite (.laneFault h) h)

theorem execHoldDrainComplete_canon (h : s.Canon) : CanonNext (execHoldDrainComplete s) := by
  unfold execHoldDrainComplete
  refine .onDev ?_
  split
  · exact .ite h h
  · exact h

theorem execHoldDrainTimeout_canon (h : s.Canon) : CanonNext (execHoldDrainTimeout s) := by
  unfold execHoldDrainTimeout
  refine .onDev ?_
  split
  · split
    · exact h
    · extract_lets +onlyGivenNames d1
      have h1 : d1.Canon := .foldl h fun _ _ h => .foldl h fun _ _ h => .abandon h
      exact h1
  · exact h

theorem execCheckVectorComplete_canon {failA failB : Word} (h : s.Canon) :
    CanonNext (execCheckVectorComplete failA failB s) := by
  unfold execCheckVectorComplete
  refine .onDev ?_
  split
  · exact .ite (.decide' (.set (.set h))) h
  · exact h

theorem execMirrorCaptureComplete_canon {ls : Fin 16} (h : s.Canon) : CanonNext (execMirrorCaptureComplete ls s) := by
  unfold execMirrorCaptureComplete
  refine .onDev ?_
  split
  · exact .ite h (.onBuf h)
  · exact h

theorem execMirrorWriteStart_canon {ls : Fin 16} (h : s.Canon) : CanonNext (execMirrorWriteStart ls s) :=
  .onDev (.mirrorStart h)

theorem execMirrorWriteComplete_canon {ls : Fin 16} (h : s.Canon) : CanonNext (execMirrorWriteComplete ls s) := by
  unfold execMirrorWriteComplete
  refine .next ?_
  split
  · split
    · exact h
    · extract_lets +onlyGivenNames _ d1 _ d2
      have h1 : d1.Canon := .setLane h
      have h2 : d2.Canon := h1
      exact .startPending h2
  · exact h

theorem execLaneRestart_canon {test : Bool} {key : BitVec 16} (h : s.Canon) :
    CanonNext (execLaneRestart test key s) := by
  unfold execLaneRestart
  refine .onDev ?_
  split
  · exact .ite h (.note h)
  · exact .note h

theorem execRestartCheckComplete_canon {fails : Word} {bad : List BadUnit} (h : s.Canon) :
    CanonNext (execRestartCheckComplete fails bad s) := by
  unfold execRestartCheckComplete
  refine .onDev ?_
  split
  · exact .ite h (.restartCheck h)
  · exact h

theorem execRestartCopyComplete_canon (h : s.Canon) : CanonNext (execRestartCopyComplete s) := by
  unfold execRestartCopyComplete
  refine .next ?_
  split
  · exact .ite (.ofDev (.restartStart h)) h
  · exact h

theorem execLaneRestartFail_canon (h : s.Canon) : CanonNext (execLaneRestartFail s) := by
  unfold execLaneRestartFail
  refine .onDev ?_
  split
  · exact .ite (.restartFail h) h
  · exact h

theorem execLaneSwap_canon {key : BitVec 16} (h : s.Canon) : CanonNext (execLaneSwap key s) :=
  .onDev (.ite (.holdStart h) (.note h))

/-! ### Relays and seals -/

theorem Dev.Canon.rbCheck {chain : Nat} (h : d.Canon) : (d.rbCheck chain).Canon := by
  unfold Dev.rbCheck
  split
  · exact h
  · extract_lets +onlyGivenNames _ _
    split
    · exact .beginCond h
    · exact .setCond h

theorem Dev.Canon.rbSync (h : d.Canon) : d.rbSync.Canon := .rbCheck (.rbCheck (.set (.set h)))

theorem Dev.Canon.drive {chain : Nat} {on : Bool} (h : d.Canon) : (d.drive chain on).Canon := by
  unfold Dev.drive
  split
  · exact h
  · extract_lets +onlyGivenNames d1
    have h1 : d1.Canon := .setB h
    exact h1

theorem Dev.Canon.openBoth (h : d.Canon) : d.openBoth.Canon := .drive (.drive h)

theorem Dev.Canon.rbResume (h : d.Canon) : d.rbResume.Canon := .rbCheck (.rbCheck h)

theorem Dev.Canon.weldEnd {result : Nat} (h : d.Canon) : (d.weldEnd result).Canon := .set (.set h)

theorem Dev.Canon.weldAbort {reason : Nat} (h : d.Canon) : (d.weldAbort reason).Canon :=
  .rbResume (.raise (.set (.weldEnd (.openBoth h))))

theorem Dev.Canon.weldAbandon {reason : Nat} (h : d.Canon) : (d.weldAbandon reason).Canon := .ite (.weldAbort h) h

theorem Dev.Canon.weldFail {chain step : Nat} (h : d.Canon) : (d.weldFail chain step).Canon :=
  .rbResume (.raise (.set (.weldEnd (.openBoth h))))

theorem Dev.Canon.weldPass (h : d.Canon) : d.weldPass.Canon := by
  unfold Dev.weldPass
  extract_lets +onlyGivenNames _ d1 _ d2 d3
  have h1 : d1.Canon := .weldEnd h
  have h2 : d2.Canon := .set h1
  have h3 : d3.Canon := .setCond (.setCond (.set h2))
  exact .rbResume (.foldl (.set h3) fun _ _ h => .drive h)

theorem Dev.Canon.weldStep {step chain : Nat} {on : Bool} (h : d.Canon) : (d.weldStep step chain on).Canon :=
  .drive (.set h)

theorem Dev.Canon.weldStart (h : d.Canon) : d.weldStart.Canon := .when (.set h) fun h => .weldAbort h

theorem Dev.Canon.weldJudge {step sq n : Nat} (h : d.Canon) : (d.weldJudge step sq n).Canon := by
  unfold Dev.weldJudge
  extract_lets +onlyGivenNames _ _
  split
  · exact .ite (.weldStep h) (.weldAbort h)
  · exact .ite (.weldStep h) (.weldAbort h)
  · exact .ite (.weldStep h) (.weldFail h)
  · exact .ite (.weldStep h) (.weldAbort h)
  · exact .ite (.weldPass h) (.weldFail h)

theorem Dev.Canon.tallyClose {c j : Nat} (h : d.Canon) : (d.tallyClose c j).Canon := by
  unfold Dev.tallyClose
  extract_lets +onlyGivenNames _ d1
  have h1 : d1.Canon := .tallyLatch h
  split
  · split
    · exact .ite (.weldJudge h1) h1
    · exact h1
  · exact h1

theorem Dev.Canon.relayCommand {chain : Nat} {v : Word} (h : d.Canon) : (d.relayCommand chain v).Canon := by
  unfold Dev.relayCommand
  split
  · exact .raise h
  · split
    · exact .ite (.weldAbort h) (.drive h)
    · split
      · exact .raise h
      · exact .ite (.raise h) (.ite h (.ite (.ite h (.weldStart h)) (.drive h)))

theorem Dev.Canon.isoMode (h : d.Canon) : d.isoMode.Canon := .when (.ite h (.weldAbandon h)) fun h => .openBoth h

theorem Dev.Canon.isoSafe (h : d.Canon) : d.isoSafe.Canon := .openBoth (.weldAbandon h)

theorem Dev.Canon.settle' {chain : Nat} (h : d.Canon) : (d.settle' chain).Canon := by
  unfold Dev.settle'
  split
  · exact h
  · extract_lets +onlyGivenNames _ d1
    have h1 : d1.Canon := h
    split
    · extract_lets +onlyGivenNames _
      exact .ite h1 h1
    · extract_lets +onlyGivenNames d2
      have h2 : d2.Canon := .ite (.set h1) h1
      exact .rbCheck h2

theorem Dev.Canon.sinState {k : Nat} {v : Bool} (h : d.Canon) : (d.sinState k v).Canon :=
  .ite (.setCond (.setBit h)) (.beginCond (.setBit h))

theorem Dev.Canon.sinOpenEnd (h : d.Canon) : d.sinOpenEnd.Canon := .foldl h fun _ _ h => .ite h (.setCond h)

theorem Dev.Canon.sinCross {k : Nat} {b : Bool} (h : d.Canon) : (d.sinCross k b).Canon :=
  .ite (.beginCond (.setBit (.setBit h))) (.when (.setBit h) fun h => .setCond h)

theorem Dev.Canon.sinCheck {supply k : Nat} {now : Bool} (h : d.Canon) : (d.sinCheck supply k now).Canon :=
  .ite (.sinState (.sinCross h)) (.when (.ite (.sinCross h) h) fun h => .sinState h)

theorem Dev.Canon.sealSample {x : Nat} (h : d.Canon) : (d.sealSample x).Canon := by
  unfold Dev.sealSample
  extract_lets +onlyGivenNames d1 _
  have h1 : d1.Canon := .set h
  exact .ite (.setCond h1) (.ite (.beginCond (.set h1)) h1)

theorem execTallyWindowClose_canon {c j : Fin 4} (h : s.Canon) : CanonNext (execTallyWindowClose c j s) :=
  .onDev (.ite (.tallyClose h) h)

theorem execIsoCommit_canon (h : s.Canon) : CanonNext (execIsoCommit s) := .onDev (.commit h)

theorem execRelayCommand_canon (h : s.Canon) : CanonNext (execRelayCommand s) := by
  unfold execRelayCommand
  refine .onDev ?_
  split
  · exact h
  · exact .relayCommand (.holdRelease h)

theorem execRelaySettle_canon {chain : Fin 2} (h : s.Canon) : CanonNext (execRelaySettle chain s) :=
  .onDev (.settle' h)

theorem execRelayReadbackChange_canon {relay : Fin 4} {level : Bool} (h : s.Canon) :
    CanonNext (execRelayReadbackChange relay level s) :=
  .onDev (.rbSync h)

theorem execWeldStepTimeout_canon (h : s.Canon) : CanonNext (execWeldStepTimeout s) := .onDev (.weldAbandon h)

theorem execIsoWeldDue_canon (h : s.Canon) : CanonNext (execIsoWeldDue s) := .onDev (.ite (.beginCond (.set h)) h)

theorem execIsoWeldOverdue_canon (h : s.Canon) : CanonNext (execIsoWeldOverdue s) := .onDev (.ite (.beginCond h) h)

theorem execClrWeld_canon {key : BitVec 16} (h : s.Canon) : CanonNext (execClrWeld key s) :=
  .onDev (.ite (.set h) (.note h))

theorem execSetWeld_canon {key : BitVec 16} (h : s.Canon) : CanonNext (execSetWeld key s) :=
  .onDev (.ite (.set h) (.note h))

theorem execTestPulseStart_canon {supply : Fin 2} (h : s.Canon) : CanonNext (execTestPulseStart supply s) :=
  .onDev (.ite (.ite (.applyPend h) h) h)

theorem execTestPulseEnd_canon {supply : Fin 2} (h : s.Canon) : CanonNext (execTestPulseEnd supply s) := .onDev h

theorem execSinPreSample_canon {levels : BitVec 8} (h : s.Canon) : CanonNext (execSinPreSample levels s) :=
  .onDev (.ite h h)

theorem execSinInSample_canon {supply : Fin 2} {levels : BitVec 8} (h : s.Canon) :
    CanonNext (execSinInSample supply levels s) :=
  .onDev (.ite (.foldl h fun _ _ h => .ite (.sinCheck h) h) h)

theorem execSealSample_canon {levels : BitVec 8} (h : s.Canon) : CanonNext (execSealSample levels s) :=
  .onDev (.ite (.sealSample h) h)

/-! ### Time -/

theorem Dev.Canon.weldAge (h : d.Canon) : d.weldAge.Canon := by
  unfold Dev.weldAge
  split
  · exact .set h
  · exact h

theorem Dev.Canon.ledgerHours (h : d.Canon) : d.ledgerHours.Canon := by
  unfold Dev.ledgerHours
  split
  · exact .incWrap (.sameRegs h rfl)
  · exact h

theorem Dev.Canon.tick (h : d.Canon) : d.tick.Canon := by
  unfold Dev.tick
  split
  · exact h
  · extract_lets +onlyGivenNames _ d1
    have h1 : d1.Canon := .ledgerHours (.weldAge (.set h))
    split
    · exact h1
    · extract_lets +onlyGivenNames d2
      have h2 : d2.Canon := .incWrap (.set h1)
      exact .raise (.set h2)

theorem Dev.Canon.adjust {k : Nat} (h : d.Canon) : (d.adjust k).Canon := by
  unfold Dev.adjust
  extract_lets +onlyGivenNames d1
  have h1 : d1.Canon := .set h
  exact h1

theorem Dev.Canon.latchTime (h : d.Canon) : d.latchTime.Canon := .set (.set (.set (.set h)))

theorem Dev.Canon.setCmp {k : Nat} {c : Cmp} (h : d.Canon) : (d.setCmp k c).Canon := h

theorem Dev.Canon.cmpWrite {k : Nat} {en mode : Bool} (h : d.Canon) : (d.cmpWrite k en mode).Canon :=
  .ite (.setCmp (.setB (.setB h))) (.setCmp (.setB (.setB h)))

theorem Dev.Canon.cmpFire {k : Nat} (h : d.Canon) : (d.cmpFire k).Canon := by
  unfold Dev.cmpFire
  extract_lets +onlyGivenNames _
  split
  · extract_lets +onlyGivenNames _ _ d1 d2
    have h1 : d1.Canon := .incSat (.setCmp h)
    have h2 : d2.Canon := .setB h1
    exact .request (.event (.setBit h2))
  · exact h

theorem Dev.Canon.ppsEdge (h : d.Canon) : d.ppsEdge.Canon := by
  unfold Dev.ppsEdge
  extract_lets z d1 d2
  have h1 : d1.Canon := .set (.set h)
  have h2 : d2.Canon := .set h1
  exact .request (.setCond (.sameRegs h2 rfl))

theorem State.Canon.idle (h : s.Canon) : (idle s).Canon := .onDev (.tick h)

theorem execTimeNsRead_canon {core : Fin 4} (h : s.Canon) : CanonNext (execTimeNsRead core s) :=
  .next (.coreDev h fun h => .answer (.latchTime h))

theorem execTimeAdjustStart_canon {k : BitVec 24} (h : s.Canon) : CanonNext (execTimeAdjustStart k s) :=
  .onDev (.adjust h)

theorem execTimeAdjustEnd_canon (h : s.Canon) : CanonNext (execTimeAdjustEnd s) := .onDev (.ite (.tick h) h)

theorem execTimeStepRequest_canon (h : s.Canon) : CanonNext (execTimeStepRequest s) := .onDev (.set h)

theorem execTimeStep_canon (h : s.Canon) : CanonNext (execTimeStep s) := .onDev (.ite (.tick h) h)

theorem execComparatorArm_canon {k : Fin 8} {mode : Bool} (h : s.Canon) : CanonNext (execComparatorArm k mode s) :=
  .onDev (.cmpWrite h)

theorem execTimeComparatorFire_canon {k : Fin 8} (h : s.Canon) : CanonNext (execTimeComparatorFire k s) :=
  .onDev (.cmpFire h)

theorem execSecondCarry_canon (h : s.Canon) : CanonNext (execSecondCarry s) := .onDev (.ite (.tick h) h)

theorem execPpsOutEnd_canon (h : s.Canon) : CanonNext (execPpsOutEnd s) := .onDev h

theorem execPpsInEdge_canon (h : s.Canon) : CanonNext (execPpsInEdge s) := .onDev (.ppsEdge h)

theorem execTimePpsLoss_canon (h : s.Canon) : CanonNext (execTimePpsLoss s) := .onDev (.ite (.beginCond h) h)

/-! ### The Ledger -/

theorem Dev.Canon.coded {num den : Nat} (h : d.Canon) : (d.coded num den).2.Canon := by
  unfold Dev.coded
  dsimp only
  split
  · exact h
  · split <;> exact .freeWord h

theorem Dev.Canon.codedDiff {a b den : Nat} (h : d.Canon) : (d.codedDiff a b den).2.Canon := by
  unfold Dev.codedDiff
  split
  · exact .coded h
  · exact .freeWord h

theorem Dev.Canon.indicator {k : Nat} (h : d.Canon) : (d.indicator k).2.Canon := by
  unfold Dev.indicator
  extract_lets some'
  have hs {r : Nat × Dev} (h : r.2.Canon) : (some' r).2.Canon := h
  clear_value some'
  split
  · exact hs (.coded h)
  · exact hs (.coded h)
  · split
    · exact h
    · exact hs (.codedDiff h)
  · split
    · exact hs (.codedDiff h)
    · exact h
  · split
    · exact hs (.codedDiff h)
    · exact h
  · split
    · exact h
    · split
      · exact hs (.freeWord h)
      · exact hs (.codedDiff h)

theorem Dev.Canon.pointPort (h : d.Canon) : d.pointPort.Canon := by
  unfold Dev.pointPort
  extract_lets +onlyGivenNames _ d1
  have h1 : d1.Canon := .set h
  split <;> exact .set (.set h1)

theorem Dev.Canon.predict {k : Nat} (h : d.Canon) : (d.predict k).Canon := by
  unfold Dev.predict
  split
  · exact .set h
  · exact .ite (.set (.freeWord h)) (.set h)

theorem Dev.Canon.eol (h : d.Canon) : d.eol.Canon := by
  unfold Dev.eol
  extract_lets _ _ _ _ d1 d2
  have h1 : d1.Canon := .set (.set h)
  have h2 : d2.Canon := by
    dsimp only [d2]
    split <;> exact .set (.set h1)
  exact .ite (.beginCond h2) (.setCond h2)

theorem Dev.Canon.predictions (h : d.Canon) : d.predictions.Canon := .eol (.foldl h fun _ _ h => .predict h)

theorem Dev.Canon.takePoint {ro : List (BitVec 16)} {margin : BitVec 4} (h : d.Canon) :
    (d.takePoint ro margin).Canon := by
  unfold Dev.takePoint
  extract_lets d1 d2 r d3 i p _ d4
  have h1 : d1.Canon := by
    refine .foldl h fun d i h => ?_
    split
    · exact .set h
    · exact h
  have h2 : d2.Canon := .set h1
  have h3 : r.2.Canon :=
    List.foldlRecOn (motive := fun r : List (Nat × Option Nat) × Dev => r.2.Canon) _ _ h2 fun _ h _ _ =>
      .set (.indicator h)
  exact .raise (.note (.predictions (.pointPort (.sameRegs h3 rfl))))

theorem Dev.Canon.pointWrite (h : d.Canon) : d.pointWrite.Canon := h

theorem Dev.Canon.ageTick (h : d.Canon) : d.ageTick.Canon := .ite h (.incWrap h)

theorem Dev.Canon.measFail {cause : Nat} (h : d.Canon) : (d.measFail cause).Canon := .raise h

theorem Dev.Canon.ledgerMode (h : d.Canon) : d.ledgerMode.Canon := .ite (.measFail h) h

theorem Dev.Canon.fp32Near {v : Val} (h : d.Canon) : (d.fp32Near v).2.Canon := .freeWord h

theorem Dev.Canon.measStore {cap esr : Word} (h : d.Canon) : (d.measStore cap esr).Canon := by
  unfold Dev.measStore
  extract_lets +onlyGivenNames d1 d2
  have h1 : d1.Canon := .wrw (.wrw h)
  have h2 : d2.Canon := .ite (.wrw (.wrw h1)) h1
  exact .note h2

theorem Dev.Canon.measDone {re im norm : Int} (h : d.Canon) : (d.measDone re im norm).Canon := by
  unfold Dev.measDone
  split
  · exact .ite (.measFail h) (.measStore (.fp32Near (.fp32Near h)))
  · extract_lets +onlyGivenNames f e c
    have h1 : f.2.Canon := .freeWord h
    have h2 : e.2.Canon := .freeWord h1
    have h3 : c.2.Canon := .freeWord h2
    exact .ite (.measFail h1) (.measStore h3)

theorem execLedgerEnable_canon (h : s.Canon) : CanonNext (execLedgerEnable s) :=
  .onDev (.ite h (.predictions (.set h)))

theorem execLedgerAgeTick_canon (h : s.Canon) : CanonNext (execLedgerAgeTick s) := .onDev (.ite (.ageTick h) h)

theorem execLedgerPoint_canon {ro : List (BitVec 16)} {margin : BitVec 4} (h : s.Canon) :
    CanonNext (execLedgerPoint ro margin s) :=
  .onDev (.ite (.takePoint h) h)

theorem execLedgerPointNow_canon {ro : List (BitVec 16)} {margin : BitVec 4} (h : s.Canon) :
    CanonNext (execLedgerPointNow ro margin s) :=
  .onDev (.ite (.takePoint h) h)

theorem execLedgerMeasStart_canon (h : s.Canon) : CanonNext (execLedgerMeasStart s) :=
  .onDev (.ite (.note h) (.ite h h))

theorem execLedgerMeasTrigger_canon {current : Bool} (h : s.Canon) : CanonNext (execLedgerMeasTrigger current s) := by
  unfold execLedgerMeasTrigger
  refine .onDev ?_
  split
  · extract_lets +onlyGivenNames _ _ d1
    have h1 : d1.Canon := h
    exact .ite (.injTake h1) (.injTake h1)
  · exact h

theorem execLedgerMeasComplete_canon {survived : Nat} {v1re v1im i1re i1im : Int} (h : s.Canon) :
    CanonNext (execLedgerMeasComplete survived v1re v1im i1re i1im s) := by
  unfold execLedgerMeasComplete
  refine .onDev ?_
  split
  · extract_lets +onlyGivenNames _ _
    exact .ite h (.ite (.measFail h) (.ite (.measFail h) (.measDone h)))
  · exact h

theorem execRepairRun_canon {commit : Bool} {key : BitVec 16} (h : s.Canon) :
    CanonNext (execRepairRun commit key s) :=
  .onDev (.ite (.ite h h) (.note h))

theorem execRepairRunComplete_canon {bad : List BadUnit} (h : s.Canon) :
    CanonNext (execRepairRunComplete bad s) := by
  unfold execRepairRunComplete
  refine .onDev ?_
  split
  · extract_lets +onlyGivenNames _ d1 vol room _ d2
    have h1 : d1.Canon :=
      Dev.Canon.bist (d := { s.d with sys := { s.d.sys with repairRun := none } }) (.sameRegs h rfl)
    clear_value d1
    have h2 : d2.Canon := .sameRegs h1 rfl
    exact .ite (.ite (.raise h2) h2) h1
  · exact h

/-! ### Modes, resets and clocks of the start -/

theorem Dev.Canon.lanesStop (h : d.Canon) : d.lanesStop.Canon := .stopLane (.stopLane (.set h))

theorem Dev.Canon.lanesStart (h : d.Canon) : d.lanesStart.Canon :=
  .laneStatus (.setLaneState (.setLaneState (.startLane (.startLane h))))

theorem Dev.Canon.modeStart {old m : Nat} (h : d.Canon) : (d.modeStart old m).Canon := by
  unfold Dev.modeStart
  split
  · extract_lets +onlyGivenNames _ _ d1 d2
    have h1 : d1.Canon := (.lanesStop h : Dev.Canon d.lanesStop)
    have h2 : d2.Canon := .set (.set h1)
    exact .set (.set (.set h2))
  · split
    · extract_lets +onlyGivenNames d1
      have h1 : d1.Canon := .lanesStop h
      exact h1
    · split
      · extract_lets +onlyGivenNames _ d1
        have h1 : d1.Canon := h
        exact .ite (.foldl (.lanesStart (.clearTrips h1)) fun _ _ h => .ite (.raise h) h) h1
      · split
        · extract_lets +onlyGivenNames d1
          have h1 : d1.Canon := .setCond h
          exact h1
        · exact h

theorem Dev.Canon.enterMode {m cause : Nat} (h : d.Canon) : (d.enterMode m cause).Canon := by
  unfold Dev.enterMode
  extract_lets +onlyGivenNames _ d1 d2 d3 d4 d5 d6 d7
  have h1 : d1.Canon := h
  have h2 : d2.Canon := .set (.set (.set h1))
  have h3 : d3.Canon := .ite (.set h2) h2
  have h4 : d4.Canon := .withdraw (.modeStart h3)
  have h5 : d5.Canon := .isoMode (.legsMode h4)
  have h6 : d6.Canon := .ite h5 (.sdModeLeave h5)
  have h7 : d7.Canon := .ledgerMode h6
  exact .request h7

theorem Dev.Canon.safeLines (h : d.Canon) : d.safeLines.Canon := by
  unfold Dev.safeLines
  extract_lets +onlyGivenNames d1
  have h1 : d1.Canon := .setCond (.isoSafe h)
  exact h1

theorem Dev.Canon.safeDecide {src : Nat} (h : d.Canon) : (d.safeDecide src).Canon := by
  unfold Dev.safeDecide
  extract_lets +onlyGivenNames d1 d2 d3
  have h1 : d1.Canon := .ite h (.set (.set h))
  have h2 : d2.Canon := .send (.request h1)
  have h3 : d3.Canon := .safeLines h2
  exact .ite (.set h3) (.ite h3 (.enterMode h3))

theorem Dev.Canon.heldResolve (h : d.Canon) : d.heldResolve.Canon := by
  unfold Dev.heldResolve
  split
  · exact .safeDecide h
  · exact h

theorem Dev.Canon.failInto10 {cause : Nat} (h : d.Canon) : (d.failInto10 cause).Canon := .enterMode h

theorem Dev.Canon.refuseReq {reason : Nat} (h : d.Canon) : (d.refuseReq reason).Canon := .set (.set h)

theorem Dev.Canon.forward {target : Nat} (h : d.Canon) : (d.forward target).Canon := .set h

theorem Dev.Canon.unslot (h : d.Canon) : d.unslot.Canon := .set h

theorem Dev.Canon.modeRequest {key target : Nat} {preempted : Bool} (h : d.Canon) :
    (d.modeRequest key target preempted).Canon := by
  unfold Dev.modeRequest
  extract_lets d1
  have h1 : d1.Canon := .set (.set h)
  refine .ite (.refuseReq h1) (.ite (.refuseReq h1) ?_)
  extract_lets
  exact .ite (.refuseReq h1) (.ite (.refuseReq h1) (.ite (.enterMode h1) (.forward h1)))

theorem Dev.Canon.modeCommit {v : Nat} (h : d.Canon) : (d.modeCommit v).Canon :=
  .ite h (.ite (.when (.enterMode h) fun h => .unslot h) (.raise h))

theorem Dev.Canon.keepFields {fs : List Fld} (h : e.Canon) : (Dev.keepFields d e fs).Canon :=
  .foldl h fun _ _ h => .set h

theorem Dev.Canon.bypSync (h : d.Canon) : d.bypSync.Canon := .setB h

theorem Dev.Canon.powerOnReset {brownout : Bool} : (d.powerOnReset brownout).Canon :=
  .when (.ofNil rfl) fun h => .set (.set h)

theorem Dev.Canon.warmReset {cause : Fld} (h : d.Canon) : (d.warmReset cause).Canon :=
  .ite h (.mapSync (.spareSync (.bypSync (.set (.keepFields (.ofNil rfl))))))

theorem Dev.Canon.latchPins {straps : BitVec 8} {boot : BitVec 3} {pins : ReleasePins} (h : d.Canon) :
    (d.latchPins straps boot pins).Canon :=
  .setB (.set (.set (.set h)))

theorem Dev.Canon.release {straps : BitVec 8} {boot : BitVec 3} {pins : ReleasePins} (h : d.Canon) :
    (d.release straps boot pins).Canon := by
  unfold Dev.release
  extract_lets +onlyGivenNames _
  split
  · exact h
  · split
    · exact h
    · extract_lets +onlyGivenNames d1
      have h1 : d1.Canon := .latchPins h
      split
      · exact h1
      · extract_lets +onlyGivenNames _ d2 d3
        have h2 : d2.Canon := h1
        have h3 : d3.Canon := .rbSync (.mapSync (.spareSync (.bypSync (.set h2))))
        exact .ite (.enterMode h3) h3
  · extract_lets +onlyGivenNames _ d1 d2
    have h1 : d1.Canon := h
    have h2 : d2.Canon := .rbSync (.foldl (.set h1) fun _ _ h => .setCond h)
    exact .ite (.enterMode h2) h2

theorem State.Canon.warm {cause : Fld} (h : s.Canon) : (s.warm cause).Canon := .ite h (.ofDev (.warmReset h))

theorem execModeReqControl_canon {key : BitVec 16} {target : Fin 6} {preempted : Bool} (h : s.Canon) :
    CanonNext (execModeReqControl key target preempted s) :=
  .onDev (.modeRequest h)

theorem execModeReqStop_canon {key : BitVec 16} {preempted : Bool} (h : s.Canon) :
    CanonNext (execModeReqStop key preempted s) :=
  .onDev (.modeRequest h)

theorem execModeReqReload_canon {key : BitVec 16} {preempted : Bool} (h : s.Canon) :
    CanonNext (execModeReqReload key preempted s) :=
  .onDev (.modeRequest h)

theorem execModeReqCheck_canon {key : BitVec 16} {preempted : Bool} (h : s.Canon) :
    CanonNext (execModeReqCheck key preempted s) :=
  .onDev (.modeRequest h)

theorem execModeReqService_canon {key : BitVec 16} {preempted : Bool} (h : s.Canon) :
    CanonNext (execModeReqService key preempted s) :=
  .onDev (.modeRequest h)

theorem execModeReqForbidden_canon {key : BitVec 16} {target : Fin 16} (h : s.Canon) :
    CanonNext (execModeReqForbidden key target s) :=
  .onDev (.modeRequest h)

theorem execModeReqTimeout_canon (h : s.Canon) : CanonNext (execModeReqTimeout s) :=
  .onDev (.ite (.refuseReq (.unslot h)) h)

theorem execModeCommit_canon (h : s.Canon) : CanonNext (execModeCommit s) := by
  unfold execModeCommit
  refine .onDev ?_
  split
  · rename_i hx
    exact .modeCommit (.holdRelease (Dev.Canon.take h hx))
  · exact h

theorem execProfileWindowUpdate_canon (h : s.Canon) : CanonNext (execProfileWindowUpdate s) :=
  .next (.takeProfile (.takeProfile h))

theorem execPowerOnReset_canon : CanonNext (execPowerOnReset s) := .next (.ofDev .powerOnReset)

theorem execVddaonBrownout_canon : CanonNext (execVddaonBrownout s) := .next (.ofDev .powerOnReset)

theorem execWarmResetPin_canon (h : s.Canon) : CanonNext (execWarmResetPin s) := .next (.warm h)

theorem execRstReqWarm_canon {key : BitVec 16} (h : s.Canon) : CanonNext (execRstReqWarm key s) :=
  .next (.ite (.warm h) h)

theorem execDebugReset_canon (h : s.Canon) : CanonNext (execDebugReset s) := .next (.warm h)

theorem execResetRelease_canon {straps : BitVec 8} {boot : BitVec 3} {pins : ReleasePins} (h : s.Canon) :
    CanonNext (execResetRelease straps boot pins s) :=
  .onDev (.release h)

theorem execWdogKick_canon {value : Word} (h : s.Canon) : CanonNext (execWdogKick value s) := .onDev (.ite h h)

theorem execWdogExpire_canon (h : s.Canon) : CanonNext (execWdogExpire s) := .onDev (.ite (.raise h) h)

theorem execWdogWarmReset_canon (h : s.Canon) : CanonNext (execWdogWarmReset s) := .next (.ite (.warm h) h)

theorem execBistComplete_canon {bad : List BadUnit} (h : s.Canon) : CanonNext (execBistComplete bad s) := by
  unfold execBistComplete
  refine .onDev ?_
  split
  · exact h
  · extract_lets r
    have hr : r.1.Canon := Dev.Canon.bist h
    clear_value r
    exact .ite (.failInto10 hr) (.ite (.foldl hr fun _ _ h => .ite h (.set h)) hr)

theorem execStandbyEntry_canon (h : s.Canon) : CanonNext (execStandbyEntry s) :=
  .onDev (.ite (.heldResolve (.enterMode h)) h)

theorem execExtSafe_canon (h : s.Canon) : CanonNext (execExtSafe s) := .onDev (.ite (.beginCond h) h)

theorem execSafeNRelease_canon (h : s.Canon) : CanonNext (execSafeNRelease s) := .onDev (.ite h h)

theorem execSafeNLineChange_canon {low : Bool} (h : s.Canon) : CanonNext (execSafeNLineChange low s) := by
  unfold execSafeNLineChange
  refine .onDev ?_
  extract_lets +onlyGivenNames _ d1
  have h1 : d1.Canon := .ite h (.setCond h)
  exact h1

theorem execPowerDown_canon (h : s.Canon) : CanonNext (execPowerDown s) := by
  unfold execPowerDown
  refine .onDev ?_
  extract_lets
  split
  · exact h
  · exact .sameRegs (d := s.d.freeWord.2) (.freeWord h) rfl
  · exact h

theorem execCrystalNotQualified_canon (h : s.Canon) : CanonNext (execCrystalNotQualified s) :=
  .onDev (.ite (.enterMode h) h)

/-! ### Faults -/

theorem Dev.Canon.setWin {src : Nat} {w : Option Win} (h : d.Canon) : (d.setWin src w).Canon := h

theorem Dev.Canon.setTimer {src : Nat} {t : Option Timer} (h : d.Canon) : (d.setTimer src t).Canon := .setBit h

theorem Dev.Canon.promote {src time : Nat} (h : d.Canon) : (d.promote src time).Canon :=
  .ite h (.ite (.incSat (.setBit (.setWin h))) (.setWin h))

theorem Dev.Canon.logLevel (h : d.Canon) : d.logLevel.Canon := .set h

theorem Dev.Canon.setFifo {f : List LogEntry} (h : d.Canon) : (d.setFifo f).Canon := .logLevel h

theorem Dev.Canon.addLost {k : Nat} (h : d.Canon) : (d.addLost k).Canon := .setFifo h

theorem Dev.Canon.stageLost {stamp : Word} (h : d.Canon) : (d.stageLost stamp).Canon := by
  unfold Dev.stageLost
  extract_lets +onlyGivenNames d1
  have h1 : d1.Canon := .incSat h
  split
  · exact h1
  · exact .ite (.addLost h1) h1

theorem Dev.Canon.stage {r : LogEntry} (h : d.Canon) : (d.stage r).Canon := by
  unfold Dev.stage
  extract_lets +onlyGivenNames _ _ d1
  have h1 : d1.Canon := .ite (.stageLost h) h
  split
  · exact .ite h h1
  · split
    · exact .ite (.setFifo h) h1
    · exact h1

theorem Dev.Canon.reactNotify {src : Nat} (h : d.Canon) : (d.reactNotify src).Canon := .request (.set (.setBit h))

theorem Dev.Canon.severe {src : Nat} (h : d.Canon) : (d.severe src).Canon := .setBit (.setBit h)

theorem Dev.Canon.judge {r : Report} (h : d.Canon) : (d.judge r).1.Canon := by
  unfold Dev.judge
  extract_lets +onlyGivenNames _ _ d1
  have h1 : d1.Canon := .incSat h
  split
  · exact h1
  · extract_lets +onlyGivenNames _
    split
    · exact .stage h1
    · extract_lets +onlyGivenNames d2 _ _ _ d3 d4 d5 _ d6
      have h2 : d2.Canon := .promote h1
      have h3 : d3.Canon := .ite (.severe h2) h2
      have h4 : d4.Canon := .ite h3 (.reactNotify h3)
      have h5 : d5.Canon := .ite (.setTimer h4) h4
      have h6 : d6.Canon := .ite h5 h5
      exact .stage h6

theorem Dev.Canon.judgeAll {rs : List Report} (h : d.Canon) : (Dev.judgeAll rs d).1.Canon := by
  induction rs generalizing d with
  | nil => exact h
  | cons r rs ih => exact ih h.judge

theorem Dev.Canon.takeReports {chs : List (Fin 14)} (h : d.Canon) : (d.takeReports chs).2.Canon := by
  induction chs generalizing d with
  | nil => exact h
  | cons c chs ih =>
    unfold Dev.takeReports
    split
    · rename_i hx
      have h1 := h.takeEntry hx
      exact ih (.ite h1 (.laneSignal h1))
    · exact ih h

theorem execFaultReport_canon {chs : List (Fin 14)} (h : s.Canon) : CanonNext (execFaultReport chs s) := by
  unfold execFaultReport
  refine .onDev ?_
  extract_lets +onlyGivenNames t x
  have h1 : t.2.Canon := .takeReports h
  have h2 : x.1.Canon := .judgeAll h1
  split
  · exact .safeDecide h2
  · exact h2

theorem Dev.Canon.ackSource {src : Nat} (h : d.Canon) : (d.ackSource src).Canon := by
  unfold Dev.ackSource
  extract_lets +onlyGivenNames d1
  have h1 : d1.Canon := .setWin (.setBit (.setTimer h))
  split
  · exact .set h1
  · extract_lets +onlyGivenNames d2
    have h2 : d2.Canon := .setBit (.setBit h1)
    exact h2

theorem Dev.Canon.ackWrite {key src : Nat} {all : Bool} (h : d.Canon) : (d.ackWrite key src all).Canon :=
  .ite (.set h) (.ite (.foldl h fun _ _ h => .ackSource h) (.ackSource h))

theorem Dev.Canon.forceWrite {key src : Nat} (h : d.Canon) : (d.forceWrite key src).Canon := .ite (.set h) (.send h)

theorem Dev.Canon.escalate {src : Nat} {t : Timer} (h : d.Canon) : (d.escalate src t).Canon :=
  .safeDecide (.stage (.whenNot (.when (.setBit (.setTimer h)) fun h => .setBit h) fun h => h))

theorem execGraceExpiry_canon {src : Fin 192} {ack : Bool} (h : s.Canon) : CanonNext (execGraceExpiry src ack s) := by
  unfold execGraceExpiry
  refine .onDev ?_
  split
  · exact .ite (.escalate (.ite (.ackSource h) h)) h
  · exact h

theorem execAccAck_canon {src : BitVec 8} {key : BitVec 16} (h : s.Canon) : CanonNext (execAccAck src key s) :=
  .onDev (.ackWrite h)

theorem execAccAckAll_canon {key : BitVec 16} (h : s.Canon) : CanonNext (execAccAckAll key s) := .onDev (.ackWrite h)

theorem execAccForce_canon {src : BitVec 8} {key : BitVec 16} (h : s.Canon) : CanonNext (execAccForce src key s) :=
  .onDev (.forceWrite h)

theorem Dev.Canon.logPush {e : LogEntry} (h : d.Canon) : (d.logPush e).Canon := by
  unfold Dev.logPush
  extract_lets +onlyGivenNames d1
  have h1 : d1.Canon := .setFifo h
  exact h1

theorem Dev.Canon.logOverflow {stamp : Word} {count : Nat} (h : d.Canon) : (d.logOverflow stamp count).Canon :=
  .set (.logPush h)

theorem Dev.Canon.logWrite (h : d.Canon) : d.logWrite.Canon := by
  unfold Dev.logWrite
  extract_lets +onlyGivenNames _
  split
  · exact .ite h (.logOverflow h)
  · split
    · exact h
    · extract_lets +onlyGivenNames _ d1
      have h1 : d1.Canon := h
      split
      · exact .logPush h1
      · extract_lets +onlyGivenNames d2
        have h2 : d2.Canon := .incSat h1
        exact .ite (.addLost h2) (.ite (.logOverflow h2) h2)

theorem Dev.Canon.logLatch (h : d.Canon) : d.logLatch.Canon := by
  unfold Dev.logLatch
  split
  · exact .setFifo h
  · exact h

theorem Dev.Canon.logRemove (h : d.Canon) : d.logRemove.Canon := by
  unfold Dev.logRemove
  split
  · exact .setFifo h
  · exact h

theorem execLogWrite_canon (h : s.Canon) : CanonNext (execLogWrite s) := .onDev (.logWrite h)

theorem execLogW0Read_canon {core : Fin 4} (h : s.Canon) : CanonNext (execLogW0Read core s) :=
  .next (.coreDev h fun h => .answer (.logLatch h))

theorem execLogW3Read_canon {core : Fin 4} (h : s.Canon) : CanonNext (execLogW3Read core s) :=
  .next (.coreDev h fun h => .answer (.logRemove h))

theorem execAccCommit_canon (h : s.Canon) : CanonNext (execAccCommit s) := .onDev (.commit h)

theorem execAccCommitApply_canon (h : s.Canon) : CanonNext (execAccCommitApply s) :=
  .onDev (.foldl (.applyPend h) fun _ _ h => .ite h (.setWin h))

/-! ### Caches and reservations -/

theorem Dev.Canon.eccSingle {p : Place} {mac : Nat} (h : d.Canon) : (d.eccSingle p mac).Canon := by
  unfold Dev.eccSingle
  split
  · exact .incSat h
  · exact .set (.incSat h)

theorem Dev.Canon.eccDouble {p : Place} {a : Nat} (h : d.Canon) : (d.eccDouble p a).Canon := by
  unfold Dev.eccDouble
  split
  · exact .raiseLane (.incSat h)
  · exact .raise h
  · exact .raise h
  · exact .raise h

theorem Dev.Canon.setLines {key : Nat} {l : List CacheLine} (h : d.Canon) : (d.setLines key l).Canon := h

theorem Dev.Canon.dropLine {key a : Nat} (h : d.Canon) : (d.dropLine key a).Canon := .setLines h

theorem Dev.Canon.fill {m : Mem} {key a way : Nat} (h : d.Canon) : (d.fill m key a way).Canon := .setLines h

theorem Dev.Canon.parityCheck {core : Nat} {instr parity : Bool} {a : Nat} (h : d.Canon) :
    (d.parityCheck core instr parity a).Canon :=
  .ite (.raise (.dropLine h)) h

theorem Dev.Canon.snoop {m : Mem} {core : Nat} {p : Place} {a : Nat} (h : d.Canon) : (d.snoop m core p a).Canon :=
  .when (.ite h (.setLines h)) fun h => .foldl h fun _ _ h => .ite h (.dropLine h)

theorem Dev.Canon.invalidate {core v : Nat} (h : d.Canon) : (d.invalidate core v).Canon :=
  .ite (.setLines (.setLines h)) (.dropLine h)

theorem Dev.Canon.setResv {core g : Nat} (h : d.Canon) : (d.setResv core g).Canon := h

theorem Dev.Canon.clearResv {a : Nat} (h : d.Canon) : (d.clearResv a).Canon :=
  .foldl h fun _ _ h => .ite (.setResv h) h

/-! ### The Circ -/

theorem Dev.Canon.setSlot {src : Nat} {x : CircSlot} (h : d.Canon) : (d.setSlot src x).Canon := h

theorem Dev.Canon.setCore {c : Nat} {x : CircCore} (h : d.Canon) : (d.setCore c x).Canon :=
  .set (.setBit (.setBit (.setBit h)))

theorem Dev.Canon.withdrawReq {src : Nat} (h : d.Canon) : (d.withdrawReq src).Canon :=
  .foldl h fun _ _ h => .ite (.setCore h) h

theorem Dev.Canon.makeReady {src wake : Nat} {head : Bool} (h : d.Canon) : (d.makeReady src wake head).Canon := by
  unfold Dev.makeReady
  extract_lets +onlyGivenNames _ d1 _
  have h1 : d1.Canon := .setSlot h
  exact .set h1

theorem Dev.Canon.park {src st : Nat} (h : d.Canon) : (d.park src st).Canon := by
  unfold Dev.park
  extract_lets +onlyGivenNames _ d1 _ d2
  have h1 : d1.Canon := .setSlot h
  have h2 : d2.Canon := h1
  exact .withdrawReq (.set h2)

theorem Dev.Canon.give {src c : Nat} (h : d.Canon) : (d.give src c).Canon :=
  .answer (.setCore (.setSlot (.incWrap (.set (.set (.withdrawReq h))))))

theorem Dev.Canon.dispatchPrio {p : Nat} (h : d.Canon) : (d.dispatchPrio p).Canon := by
  unfold Dev.dispatchPrio
  extract_lets d1
  have h1 : d1.Canon := by
    refine .foldl h fun d c h => .ite ?_ h
    split
    · exact .give h
    · exact h
  refine .foldl h1 fun d s h => ?_
  split
  · exact .give h
  · exact h

theorem Dev.Canon.preempt {src : Nat} (h : d.Canon) : (d.preempt src).Canon := by
  unfold Dev.preempt
  split
  · exact h
  · extract_lets +onlyGivenNames _ _ _ _
    split
    · exact .setCore h
    · exact h

theorem Dev.Canon.dispatch (h : d.Canon) : d.dispatch.Canon :=
  .ite (.foldl (.foldl h fun _ _ h => .dispatchPrio h) fun _ _ h => .preempt h) h

theorem Dev.Canon.takeRead {c n : Nat} (h : d.Canon) : (d.takeRead c n).Canon :=
  .ite (.answer h) (.dispatch (.answer (.setCore h)))

theorem Dev.Canon.consume {w : FlagWait} (h : d.Canon) : (d.consume w).Canon := .set h

theorem Dev.Canon.wakeFlags (h : d.Canon) : d.wakeFlags.Canon := by
  unfold Dev.wakeFlags
  exact .foldl h fun _ _ h => (by split; exacts [.ite (.makeReady (.consume h)) h, h])

theorem Dev.Canon.setFlag {f : Nat} (h : d.Canon) : (d.setFlag f).Canon :=
  .ite (.when (.incSat h) fun h => .raise h) (.setBit h)

theorem Dev.Canon.takeFlags {isls : List (Fin 14)} (h : d.Canon) : (d.takeFlags isls).2.Canon := by
  induction isls generalizing d with
  | nil => exact h
  | cons i isls ih =>
    unfold Dev.takeFlags
    split
    · rename_i hx
      exact ih (h.take hx)
    · exact ih h

theorem Dev.Canon.flagCycle {clear sets : List Nat} (h : d.Canon) : (d.flagCycle clear sets).Canon :=
  .wakeFlags (.foldl (.foldl h fun _ _ h => .setBit h) fun _ _ h => .setFlag h)

theorem Dev.Canon.circErr {src c : Nat} {isGive : Bool} (h : d.Canon) : (d.circErr src c isGive).Canon :=
  .raise (.set h)

theorem Dev.Canon.leaveCore {src c : Nat} {preempted : Bool} (h : d.Canon) : (d.leaveCore src c preempted).Canon :=
  .setCore (.setSlot h)

theorem Dev.Canon.giveOp {c src op : Nat} {all : Bool} {group ticks : Nat} {head : Bool} (h : d.Canon) :
    (d.giveOp c src op all group ticks head).Canon := by
  unfold Dev.giveOp
  split
  · exact .makeReady h
  · exact .ite (.makeReady (.consume h)) (.setSlot (.set h))
  · exact .setSlot (.set h)
  · split
    · exact .setSlot (.set h)
    · exact .raise (.set (.makeReady h))
  · exact .park h
  · exact .park h

theorem Dev.Canon.giveWrite {c op : Nat} {all : Bool} {group ticks : Nat} (h : d.Canon) :
    (d.giveWrite c op all group ticks).Canon := by
  unfold Dev.giveWrite
  split
  · exact .circErr h
  · split
    · exact .circErr h
    · extract_lets +onlyGivenNames _ _ _ d1 d2
      have h1 : d1.Canon := .leaveCore h
      have h2 : d2.Canon := .set (.set h1)
      exact .dispatch (.ite (.park h2) (.ite (.park h2) (.giveOp h2)))

theorem Dev.Canon.cmdWrite {c src op : Nat} (h : d.Canon) : (d.cmdWrite c src op).Canon := by
  unfold Dev.cmdWrite
  split
  · exact .dispatch (.makeReady h)
  · exact .dispatch (.park h)
  · exact .set h
  · exact .park h
  · exact .park h
  · exact .dispatch (.makeReady h)
  · exact .circErr h
  · exact .set h
  · exact .dispatch (.park h)
  · exact .circErr h

theorem Dev.Canon.slotCfgWrite {src : Nat} {v : Word} (h : d.Canon) : (d.slotCfgWrite src v).Canon :=
  .ite (.set h) (.dispatch (.when (.wrw h) fun h => h))

theorem Dev.Canon.shelfTick {sets : List Nat} (h : d.Canon) : (d.shelfTick sets).Canon :=
  .ite (.dispatch (.foldl (.flagCycle (.incWrap h)) fun _ _ h => .makeReady h)) (.dispatch (.flagCycle h))

theorem execTake_canon {core target : Fin 4} (h : s.Canon) : CanonNext (execTake core target s) :=
  .next (.coreDev h fun h => .takeRead h)

theorem execGiveYield_canon {core : Fin 4} (h : s.Canon) : CanonNext (execGiveYield core s) :=
  .next (.coreDev h fun h => .giveWrite h)

theorem execGiveWait_canon {core : Fin 4} {all : Bool} {group : Fin 4} {ticks : BitVec 24} (h : s.Canon) :
    CanonNext (execGiveWait core all group ticks s) :=
  .next (.coreDev h fun h => .giveWrite h)

theorem execGiveDelay_canon {core : Fin 4} {ticks : BitVec 24} (h : s.Canon) :
    CanonNext (execGiveDelay core ticks s) :=
  .next (.coreDev h fun h => .giveWrite h)

theorem execGiveUntil_canon {core : Fin 4} {ticks : BitVec 24} (h : s.Canon) :
    CanonNext (execGiveUntil core ticks s) :=
  .next (.coreDev h fun h => .giveWrite h)

theorem execGiveExit_canon {core : Fin 4} (h : s.Canon) : CanonNext (execGiveExit core s) :=
  .next (.coreDev h fun h => .giveWrite h)

theorem execGiveSuspend_canon {core : Fin 4} (h : s.Canon) : CanonNext (execGiveSuspend core s) :=
  .next (.coreDev h fun h => .giveWrite h)

theorem execCmdStart_canon {core : Fin 4} {slot : Fin 256} (h : s.Canon) : CanonNext (execCmdStart core slot s) :=
  .next (.coreDev h fun h => .cmdWrite h)

theorem execCmdSuspend_canon {core : Fin 4} {slot : Fin 256} (h : s.Canon) :
    CanonNext (execCmdSuspend core slot s) :=
  .next (.coreDev h fun h => .cmdWrite h)

theorem execCmdResume_canon {core : Fin 4} {slot : Fin 256} (h : s.Canon) : CanonNext (execCmdResume core slot s) :=
  .next (.coreDev h fun h => .cmdWrite h)

theorem execCmdStop_canon {core : Fin 4} {slot : Fin 256} (h : s.Canon) : CanonNext (execCmdStop core slot s) :=
  .next (.coreDev h fun h => .cmdWrite h)

theorem execFlagSet_canon {group : Fin 4} {bits : Word} (h : s.Canon) : CanonNext (execFlagSet group bits s) :=
  .onDev (.dispatch (.flagCycle h))

theorem execFlagClear_canon {group : Fin 4} {bits : Word} {isls : List (Fin 14)} (h : s.Canon) :
    CanonNext (execFlagClear group bits isls s) :=
  .onDev (.dispatch (.flagCycle (.takeFlags h)))

theorem execFlagRequest_canon {isl : Fin 14} (h : s.Canon) : CanonNext (execFlagRequest isl s) :=
  .onDev (.dispatch (.flagCycle (.takeFlags h)))

theorem execShelfTick_canon {isls : List (Fin 14)} (h : s.Canon) : CanonNext (execShelfTick isls s) :=
  .onDev (.ite h (.shelfTick (.takeFlags h)))

theorem execCircStarve_canon {slot : Fin 256} (h : s.Canon) : CanonNext (execCircStarve slot s) :=
  .onDev (.ite (.raise (.setSlot h)) h)

theorem execCircRunLong_canon {slot : Fin 256} (h : s.Canon) : CanonNext (execCircRunLong slot s) :=
  .onDev (.ite (.raise (.setSlot h)) h)

theorem execCoreDebugHalt_canon {core : Fin 4} (h : s.Canon) : CanonNext (execCoreDebugHalt core s) :=
  .onDev (.when (.ite (.answer (.setCore h)) h) fun h => .raise h)

/-! ### CAN -/

theorem Dev.Canon.setCan {n : Nat} {c : CanC} (h : d.Canon) : (d.setCan n c).Canon := h

theorem Dev.Canon.canEnable {n : Nat} (h : d.Canon) : (d.canEnable n).Canon :=
  .ite h (.ite (.note h) (.ite (.setCan (.set h)) (.raise (.note h))))

theorem Dev.Canon.outGo {n : Nat} {slots : Word} (h : d.Canon) : (d.outGo n slots).Canon := .set h

theorem Dev.Canon.outEnd {n b : Nat} {sent : Bool} (h : d.Canon) : (d.outEnd n b sent).Canon :=
  .ite (.note (.setBit (.setCan (.setBit h)))) (.setBit (.setCan (.setBit h)))

theorem Dev.Canon.beatEnd (h : d.Canon) : d.beatEnd.Canon := h

theorem Dev.Canon.txFail {n : Nat} {x : CanTx} (h : d.Canon) : (d.txFail n x).Canon :=
  .whenNot (.setCan h) fun h => .ite (.beatEnd h) (.outEnd h)

theorem Dev.Canon.txAbandon {n : Nat} (h : d.Canon) : (d.txAbandon n).Canon := by
  unfold Dev.txAbandon
  split
  · exact .txFail h
  · exact h

theorem Dev.Canon.canDisable {n : Nat} (h : d.Canon) : (d.canDisable n).Canon := .txAbandon (.set h)

theorem Dev.Canon.canClock (h : d.Canon) : d.canClock.Canon := .ite (.foldl h fun _ _ h => .setCan (.txAbandon h)) h

theorem Dev.Canon.canErr {n tec rec' : Nat} (h : d.Canon) : (d.canErr n tec rec').Canon :=
  .when (.when (.setB (.setB (.setB (.set (.set h))))) fun h => .raise h) fun h => .beginCond (.setCan (.set h))

theorem Dev.Canon.ackHeard {n : Nat} (h : d.Canon) : (d.ackHeard n).Canon := .setCond (.set (.set h))

theorem Dev.Canon.ackMissed {n : Nat} (h : d.Canon) : (d.ackMissed n).Canon :=
  .when (.incSat h) fun h => .beginCond (.set h)

theorem Dev.Canon.recGood {n : Nat} (h : d.Canon) : (d.recGood n).Canon := .ite (.canErr (.freeWord h)) (.canErr h)

theorem State.Canon.canStore {n k : Nat} {f : CanFrame} {sof : Word} {gate : Option Nat} {dpl : Bool} (h : s.Canon) :
    (s.canStore n k f sof gate dpl).Canon := by
  unfold State.canStore
  extract_lets +onlyGivenNames d1 _ _
  have h1 : d1.Canon := h
  split
  · extract_lets +onlyGivenNames d2 _
    have h2 : d2.Canon := .note (.incSat h1)
    exact .ite h2 (.ofDev (.raise (.setCan h2)))
  · extract_lets +onlyGivenNames _ _ _ _ _ d2
    have h2 : d2.Canon := .setB (.set h1)
    exact .ofDev (.note h2)

theorem State.Canon.canGate {n : Nat} {f : CanFrame} {sof : Word} (h : s.Canon) : (s.canGate n f sof).Canon := by
  unfold State.canGate
  extract_lets +onlyGivenNames _
  split
  · exact h
  · extract_lets +onlyGivenNames _
    split
    · split
      · exact .canStore h
      · exact .canStore h
      · exact h
    · split
      · exact .canStore h
      · exact .canStore h
      · exact h

theorem Dev.Canon.inboxDone {n k idx : Nat} (h : d.Canon) : (d.inboxDone n k idx).Canon :=
  .ite h (.setCan (.set (.set (.set h))))

theorem Dev.Canon.receiptDone {n idx : Nat} (h : d.Canon) : (d.receiptDone n idx).Canon := .ite h (.set (.set h))

theorem Dev.Canon.outAbort {n : Nat} {slots : Word} (h : d.Canon) : (d.outAbort n slots).Canon := by
  unfold Dev.outAbort
  exact .foldl h fun _ _ h => .ite ((by dsimp only; split; exacts [.ite (.setCan h) (.outEnd h), .outEnd h])) h

theorem Dev.Canon.canRecover {n key : Nat} (h : d.Canon) : (d.canRecover n key).Canon :=
  .ite h (.ite (.setCan h) (.note h))

theorem State.Canon.receipt {n b : Nat} {sof : Word} (h : s.Canon) : (s.receipt n b sof).Canon :=
  .ite h (.ite (.ofDev (.incSat h)) (.ofDev (.set h)))

theorem execCanEnable_canon {bus : Fin 4} (h : s.Canon) : CanonNext (execCanEnable bus s) := .onDev (.canEnable h)

theorem execCanTxRequest_canon {bus : Fin 4} {slots : Word} (h : s.Canon) :
    CanonNext (execCanTxRequest bus slots s) :=
  .onDev (.outGo h)

theorem execCanTxAbort_canon {bus : Fin 4} {slots : Word} (h : s.Canon) : CanonNext (execCanTxAbort bus slots s) :=
  .onDev (.outAbort h)

theorem execCanRxError_canon {bus : Fin 4} {code : Fin 8} {eights : Nat} (h : s.Canon) :
    CanonNext (execCanRxError bus code eights s) :=
  .onDev (.ite (.canErr (.set h)) h)

theorem execCanRecover_canon {bus : Fin 4} {key : BitVec 16} (h : s.Canon) : CanonNext (execCanRecover bus key s) :=
  .onDev (.canRecover h)

theorem execCanRecoveryComplete_canon {bus : Fin 4} (h : s.Canon) : CanonNext (execCanRecoveryComplete bus s) :=
  .onDev (.ite (.setCond (.set (.canErr (.setCan h)))) h)

theorem execCanRejoin_canon {bus : Fin 4} (h : s.Canon) : CanonNext (execCanRejoin bus s) :=
  .onDev (.ite h (.setCan h))

theorem execInboxDone_canon {bus : Fin 4} {inbox : Fin 2} {idx : BitVec 6} (h : s.Canon) :
    CanonNext (execInboxDone bus inbox idx s) :=
  .onDev (.inboxDone h)

theorem execReceiptDone_canon {bus : Fin 4} {idx : BitVec 5} (h : s.Canon) :
    CanonNext (execReceiptDone bus idx s) :=
  .onDev (.receiptDone h)

/-! ### Ethernet -/

theorem Dev.Canon.setEth {m : Nat} {e : EthMac} (h : d.Canon) : (d.setEth m e).Canon := h

theorem Dev.Canon.setEthQ {m q : Nat} {x : EthQ} (h : d.Canon) : (d.setEthQ m q x).Canon := .setEth h

theorem Dev.Canon.linkSync {m : Nat} (h : d.Canon) : (d.linkSync m).Canon :=
  .ite (.beginCond (.setB h)) (.when (.setB h) fun h => .setCond h)

theorem Dev.Canon.ethClock (h : d.Canon) : d.ethClock.Canon := .foldl h fun _ _ h => .linkSync (.ite (.setEth h) h)

theorem Dev.Canon.txAdvance {m q : Nat} (h : d.Canon) : (d.txAdvance m q).Canon := .setEthQ (.set h)

theorem Dev.Canon.descErr {m ring : Nat} (h : d.Canon) : (d.descErr m ring).Canon := .raise (.note h)

theorem State.Canon.txExamine {m q fuel : Nat} (h : s.Canon) : (s.txExamine m q fuel).Canon := by
  induction fuel generalizing s with
  | zero => exact h
  | succ fuel ih =>
    unfold State.txExamine
    extract_lets d x n a w1 dist d1 mem
    have hd : d.Canon := h
    clear_value d
    split
    · exact h
    · split
      · exact .ofDev (.setEthQ hd)
      · split
        · exact .ofDev (.descErr (.setEthQ hd))
        · split
          · split
            · exact .ofDev (.setEthQ hd)
            · have h1 : d1.Canon := .raise hd
              split
              · exact ih (.ofDev (.note (.txAdvance h1)))
              · exact .ofDev (.setEthQ h1)
          · exact .ofDev (.setEthQ hd)

theorem State.Canon.txWake {m q : Nat} (h : s.Canon) : (s.txWake m q).Canon := by
  unfold State.txWake
  split
  · exact .ite (.onDev (.setEthQ h)) h
  · exact h

theorem State.Canon.txLook {m q : Nat} (h : s.Canon) : (s.txLook m q).Canon := .txWake (.txExamine h)

theorem State.Canon.txExamineAll {m : Nat} (h : s.Canon) : (s.txExamineAll m).Canon := .foldl h fun _ _ h => .txLook h

theorem State.Canon.txStart {m q : Nat} (h : s.Canon) : (s.txStart m q).Canon := .ofDev (.setEth h)

theorem State.Canon.txDone {m : Nat} {x : EthTx} (h : s.Canon) : (s.txDone m x).Canon :=
  .txExamine (.ofDev (.note (.txAdvance (.setEth h))))

theorem State.Canon.ethEnable {m : Nat} (h : s.Canon) : (s.ethEnable m).Canon :=
  .txExamineAll (.onDev (.ite h (.setEth (.set h))))

theorem Dev.Canon.ethDisable {m : Nat} (h : d.Canon) : (d.ethDisable m).Canon := .setEth (.set h)

theorem State.Canon.ethKick {m q : Nat} (h : s.Canon) : (s.ethKick m q).Canon := .txExamine (.onDev (.setEthQ h))

theorem Dev.Canon.rxLost {m : Nat} (h : d.Canon) : (d.rxLost m).Canon := .raise (.incSat h)

theorem State.Canon.rxFrame {m : Nat} {frame : List Nat} {bad : Bool} (h : s.Canon) :
    (s.rxFrame m frame bad).Canon := by
  unfold State.rxFrame
  extract_lets +onlyGivenNames d1
  have h1 : d1.Canon := h
  split
  · exact .ofDev (.incSat h1)
  · extract_lets +onlyGivenNames _ _ _ _ _ _
    split
    · exact .ofDev (.rxLost h1)
    · exact .ite (.ofDev (.rxLost (.descErr (.setEth h1)))) (.ofDev (.note (.set h1)))

theorem Dev.Canon.mdioGo {data reg phy op : Nat} (h : d.Canon) : (d.mdioGo data reg phy op).Canon :=
  .whenNot (.set (.set (.set (.set h)))) fun h => .set (.setEth h)

theorem execEthFrameReceived_canon {mac : Fin 2} {frame : List Byte} {fcsBad : Bool} (h : s.Canon) :
    CanonNext (execEthFrameReceived mac frame fcsBad s) :=
  .next (.ite (.rxFrame h) h)

theorem execEthTxStart_canon {mac : Fin 2} (h : s.Canon) : CanonNext (execEthTxStart mac s) := by
  unfold execEthTxStart
  refine .next ?_
  extract_lets +onlyGivenNames _ s1
  have h1 : s1.Canon := .txExamineAll h
  split
  · split
    · exact .txStart h1
    · exact h1
  · exact h1

theorem execEthLaunchTime_canon {mac : Fin 2} {q : Fin 8} (h : s.Canon) : CanonNext (execEthLaunchTime mac q s) :=
  .next (.txLook h)

theorem execEthTxComplete_canon {mac : Fin 2} (h : s.Canon) : CanonNext (execEthTxComplete mac s) := by
  unfold execEthTxComplete
  refine .next ?_
  split
  · exact .txDone h
  · exact h

theorem execEthTxKick_canon {mac : Fin 2} {q : Fin 8} (h : s.Canon) : CanonNext (execEthTxKick mac q s) :=
  .next (.ethKick h)

theorem execMdioGo_canon {data : BitVec 16} {reg phy : Fin 32} {op : Fin 4} (h : s.Canon) :
    CanonNext (execMdioGo data reg phy op s) :=
  .onDev (.mdioGo h)

theorem execMdioComplete_canon {read : Option (BitVec 16)} (h : s.Canon) : CanonNext (execMdioComplete read s) := by
  unfold execMdioComplete
  refine .onDev ?_
  split
  · extract_lets +onlyGivenNames d1
    have h1 : d1.Canon := .set h
    split
    · exact .set h1
    · exact .set h1
    · exact h1
  · exact h

theorem execEthMdioTimeout_canon (h : s.Canon) : CanonNext (execEthMdioTimeout s) :=
  .onDev (.ite (.raise (.set (.set h))) h)

theorem execEthLinkChange_canon {mac : Fin 2} {up : Bool} (h : s.Canon) : CanonNext (execEthLinkChange mac up s) :=
  .onDev (.linkSync (.setEth h))

/-! ### Clocks -/

theorem Dev.Canon.setTrying {p : Nat} {on : Bool} (h : d.Canon) : (d.setTrying p on).Canon := h

theorem Dev.Canon.clockSync (h : d.Canon) : d.clockSync.Canon := .canClock (.ethClock (.bypSync h))

theorem Dev.Canon.clockCond {src : Nat} (h : d.Canon) : (d.clockCond src).Canon := .ite (.beginCond h) h

theorem Dev.Canon.clockClear {src : Nat} (h : d.Canon) : (d.clockClear src).Canon := .setCond h

theorem Dev.Canon.dropPll {p : Nat} (h : d.Canon) : (d.dropPll p).Canon := by
  unfold Dev.dropPll
  extract_lets _ d1
  have h1 : d1.Canon := .ite (.incSat (.sameRegs h rfl)) h
  exact .setBit (.setBit h1)

theorem Dev.Canon.pllLock {p band : Nat} (h : d.Canon) : (d.pllLock p band).Canon := by
  unfold Dev.pllLock
  extract_lets _ _ d1 d2 d3 d4 d5 d6
  have h1 : d1.Canon := .sameRegs h rfl
  have h2 : d2.Canon := .setBit (.setTrying h1)
  have h3 : d3.Canon := .setBit h2
  have h4 : d4.Canon := .clockClear (.clockSync (.set (.incWrap h3)))
  have h5 : d5.Canon := .ite (.clockClear h4) h4
  have h6 : d6.Canon := .ite (.raise h5) h5
  exact .ite (.enterMode h6) h6

theorem Dev.Canon.gateWrite {blocks : Nat} (h : d.Canon) : (d.gateWrite blocks).Canon := .ite (.note h) (.set h)

theorem Dev.Canon.sscWrite {en : Bool} (h : d.Canon) : (d.sscWrite en).Canon := .ite (.note h) (.setB h)

theorem Dev.Canon.setStage {src : Nat} (h : d.Canon) : (d.setStage src).Canon := .when (.set (.set h)) fun h => h

theorem Dev.Canon.epochEstimates {p t : Nat} (h : d.Canon) : (d.epochEstimates p t).Canon :=
  .when (.set (.when (.set h) fun h => .set h)) fun h => .set h

theorem Dev.Canon.epochConds {t : Nat} (h : d.Canon) : (d.epochConds t).Canon := by
  unfold Dev.epochConds
  extract_lets +onlyGivenNames d1 _
  have h1 : d1.Canon := .ite (.set (.beginCond h)) (.ite (.set (.setCond h)) h)
  exact .ite (.beginCond h1) (.ite (.setCond h1) h1)

theorem Dev.Canon.epoch {p t : Nat} (h : d.Canon) : (d.epoch p t).Canon := by
  unfold Dev.epoch
  extract_lets +onlyGivenNames _ _ d1 d2 _ _ _ d3 d4
  have h1 : d1.Canon := .ite h (.incSat h)
  have h2 : d2.Canon := .epochEstimates h1
  have h3 : d3.Canon := h2
  have h4 : d4.Canon := .ite (.note (.setStage h3)) (.ite (.setStage h3) h3)
  exact .epochConds h4

theorem execXtalQualified_canon (h : s.Canon) : CanonNext (execXtalQualified s) :=
  .onDev (.ite h (.foldl (.set h) fun _ _ h => .ite h (.setTrying h)))

theorem execPllLock_canon {pll : Fin 3} {band : BitVec 4} (h : s.Canon) : CanonNext (execPllLock pll band s) :=
  .onDev (.ite (.pllLock h) h)

theorem execPllLockFail_canon {pll : Fin 3} (h : s.Canon) : CanonNext (execPllLockFail pll s) :=
  .onDev (.ite (.when (.note (.setTrying h)) fun h => .raise h) h)

theorem execPllRetry_canon {pll : Fin 3} (h : s.Canon) : CanonNext (execPllRetry pll s) :=
  .onDev (.ite (.setTrying h) h)

theorem execReferenceLoss_canon (h : s.Canon) : CanonNext (execReferenceLoss s) := by
  unfold execReferenceLoss
  refine .onDev ?_
  split
  · extract_lets +onlyGivenNames src _ d1
    have hsrc : src.Canon := .set h
    have h1 : d1.Canon := .sameRegs hsrc rfl
    exact .clockCond (.clockSync (.foldl h1 fun _ _ h => .dropPll h))
  · exact h

theorem execLossOfLock_canon {pll : Fin 3} (h : s.Canon) : CanonNext (execLossOfLock pll s) :=
  .onDev (.ite (.clockCond (.clockSync (.setTrying (.dropPll h)))) h)

theorem execSscEnable_canon {en : Bool} (h : s.Canon) : CanonNext (execSscEnable en s) := .onDev (.sscWrite h)

theorem execClockGateWrite_canon {blocks : BitVec 10} (h : s.Canon) : CanonNext (execClockGateWrite blocks s) :=
  .onDev (.gateWrite h)

theorem execPwrbEpoch_canon {power tj : BitVec 16} (h : s.Canon) : CanonNext (execPwrbEpoch power tj s) :=
  .onDev (.ite (.epoch h) h)

/-! ### DPL -/

theorem Dev.Canon.setPeer {k : Nat} {p : DplPeer} (h : d.Canon) : (d.setPeer k p).Canon := h

theorem Dev.Canon.dplSync (h : d.Canon) : d.dplSync.Canon := .coloPeers (.set (.set h))

theorem Dev.Canon.newPeer {k node : Nat} (h : d.Canon) : (d.newPeer k node).Canon :=
  .setPeer (.set (.set (.set (.set (.set h)))))

theorem Dev.Canon.freePeer {k : Nat} (h : d.Canon) : (d.freePeer k).Canon :=
  .dplSync (.setPeer (.wrw (.wrw (.wrw h))))

theorem Dev.Canon.peerWrite {k v : Nat} (h : d.Canon) : (d.peerWrite k v).Canon := by
  unfold Dev.peerWrite
  extract_lets +onlyGivenNames _ _ _ _ d1 d2
  have h1 : d1.Canon := .ite (.note h) (.set h)
  have h2 : d2.Canon := .ite (.note h1) (.set h1)
  split
  · extract_lets +onlyGivenNames d3 d4
    have h3 : d3.Canon := .ite (.note h2) (.set h2)
    have h4 : d4.Canon := .set h3
    exact .ite (.dplSync (.setPeer (.set h4))) h4
  · exact .ite (.note h2) h2

theorem Dev.Canon.malformed {id : Nat} (h : d.Canon) : (d.malformed id).Canon := .raise (.incSat h)

theorem Dev.Canon.checkPeer {id : Nat} {x : Nat × Dev} (h : d.Canon) (hx : d.checkPeer id = some x) :
    x.2.Canon := by
  unfold Dev.checkPeer at hx
  extract_lets at hx
  split at hx
  · split at hx
    · cases hx
    · cases hx
      exact h
  · split at hx
    · split at hx
      · cases hx
        exact .newPeer h
      · cases hx
    · cases hx

theorem Dev.Canon.heartbeat {k : Nat} {f : List Nat} (h : d.Canon) : (d.heartbeat k f).Canon :=
  .dplSync (.when (.setPeer (.set (.set (.set (.set (.set (.set h))))))) fun h => .raise h)

theorem State.Canon.dplAccept {k : Nat} {fr : CanFrame} {f : List Nat} {sof : Word} (h : s.Canon) :
    (s.dplAccept k fr f sof).Canon := by
  unfold State.dplAccept
  extract_lets +onlyGivenNames s1 _ _
  have h1 : s1.Canon := .onDev (.setPeer h)
  split
  · exact .ite (.dplArm h1) h1
  · extract_lets +onlyGivenNames s2
    have h2 : s2.Canon := .onDev (.heartbeat h1)
    exact .ite (.canStore h2) h2
  · exact .canStore h1

theorem State.Canon.dplRate {k : Nat} {fr : CanFrame} {f : List Nat} {sof : Word} (h : s.Canon) :
    (s.dplRate k fr f sof).Canon := by
  unfold State.dplRate
  extract_lets +onlyGivenNames d1 _
  have h1 : d1.Canon := h
  split
  · extract_lets +onlyGivenNames d2
    have h2 : d2.Canon := .incSat h1
    exact .ite h2 (.ofDev (.raise (.setPeer h2)))
  · extract_lets +onlyGivenNames d2 _ _ _
    have h2 : d2.Canon := .setPeer h1
    exact .ite (.ofDev (.malformed h2)) (.dplAccept h2)

theorem State.Canon.dplCheck {fr : CanFrame} {sof : Word} (h : s.Canon) : (s.dplCheck fr sof).Canon := by
  unfold State.dplCheck
  extract_lets d f len type src own ver ksel formed fresh replay
  have hd : d.Canon := h
  refine .ite (.ofDev (.incSat hd)) (.ite (.ofDev (.malformed hd)) ?_)
  refine .ite (.ofDev (.raise (.incSat hd))) (.ite (.ofDev (.raise hd)) ?_)
  split
  · exact .ite (.ofDev (.raise hd)) (.ofDev (.incSat hd))
  · rename_i hx
    have h1 := hd.checkPeer hx
    have hr {why : Nat} : (replay why).Canon := State.Canon.ofDev (.raise (.incSat hd))
    exact .ite hr (.ite hr (.dplRate (.ofDev (.setPeer h1))))

theorem State.Canon.canDeliver {n : Nat} {f : CanFrame} {sof : Word} (h : s.Canon) : (s.canDeliver n f sof).Canon :=
  .ite (.dplCheck h) (.canGate h)

theorem State.Canon.canReceive {n : Nat} {f : CanFrame} {sof : Word} (h : s.Canon) : (s.canReceive n f sof).Canon :=
  .ite h (.canDeliver (.onDev (.ackHeard (.recGood h))))

theorem Dev.Canon.beatDue (h : d.Canon) : d.beatDue.Canon := by
  unfold Dev.beatDue
  split
  · exact h
  · extract_lets +onlyGivenNames _
    split
    · exact h
    · extract_lets +onlyGivenNames d1
      have h1 : d1.Canon := .incSat h
      split
      · split
        · extract_lets +onlyGivenNames _ d2
          have h2 : d2.Canon := .setCan h1
          exact h2
        · exact h1
      · exact h1

theorem Dev.Canon.dplEnable (h : d.Canon) : d.dplEnable.Canon := .ite h (.beatDue (.dplSync (.set h)))

theorem Dev.Canon.dplDisable (h : d.Canon) : d.dplDisable.Canon := .set h

theorem Dev.Canon.keyWrite {j i : Nat} {v : Word} (h : d.Canon) : (d.keyWrite j i v).Canon :=
  .ite (.note h) (.when (.set h) fun h => .setBit h)

theorem Dev.Canon.txEnter {n b : Nat} {f : CanFrame} (h : d.Canon) : (d.txEnter n b f).Canon := .setCan h

theorem State.Canon.dplPrepare {n b : Nat} (h : s.Canon) : (s.dplPrepare n b).Canon := by
  unfold State.dplPrepare
  extract_lets +onlyGivenNames d1 _ _ _
  have h1 : d1.Canon := h
  split
  · exact .ofDev (.raise (.incSat (.outEnd h1)))
  · extract_lets +onlyGivenNames _ _ _ d2 _ d3
    have h2 : d2.Canon := .incWrap h1
    have h3 : d3.Canon := .setCan h2
    exact .ofDev (.txEnter h3)

theorem State.Canon.arbitrate {n : Nat} (h : s.Canon) : (s.arbitrate n).Canon := by
  unfold State.arbitrate
  extract_lets +onlyGivenNames d1
  have h1 : d1.Canon := h
  split
  · exact h
  · split
    · exact h
    · split
      · split
        · exact .ofDev (.txEnter h1)
        · extract_lets +onlyGivenNames _ _ d2
          have h2 : d2.Canon := .incWrap h1
          exact .ofDev (.txEnter h2)
      · exact .ite (.dplPrepare h) (.ofDev (.txEnter h1))

theorem State.Canon.txSuccess {n : Nat} {x : CanTx} (h : s.Canon) : (s.txSuccess n x).Canon := by
  unfold State.txSuccess
  extract_lets +onlyGivenNames s1 s2
  have h1 : s1.Canon := .onDev (.ackHeard (.canErr (.setCan h)))
  have h2 : s2.Canon := .ite (.canDeliver h1) h1
  split
  · exact .onDev (.beatEnd h2)
  · extract_lets +onlyGivenNames s3 _ s4 _
    have h3 : s3.Canon := .receipt h2
    have h4 : s4.Canon := .onDev (.outEnd h3)
    exact .ite (.dplArm h4) h4

theorem State.Canon.txEnd {n : Nat} {x : CanTx} {res : TxEnd} (h : s.Canon) : (s.txEnd n x res).Canon := by
  unfold State.txEnd
  split
  · exact .txSuccess h
  · exact .onDev (.txFail h)
  · exact .onDev (.canErr (.ackMissed (.set (.txFail h))))
  · exact .onDev (.canErr (.set (.txFail h)))

theorem execCanFrameReceived_canon {bus : Fin 4} {f : RxFrame} (h : s.Canon) :
    CanonNext (execCanFrameReceived bus f s) :=
  .next (.canReceive h)

theorem execDplFrameReceived_canon {f : RxFrame} (h : s.Canon) : CanonNext (execDplFrameReceived f s) :=
  .next (.canReceive h)

theorem execCanArbitrationEntry_canon {bus : Fin 4} (h : s.Canon) : CanonNext (execCanArbitrationEntry bus s) :=
  .next (.arbitrate h)

theorem execCanTxAttemptEnd_canon {bus : Fin 4} {res : TxEnd} (h : s.Canon) :
    CanonNext (execCanTxAttemptEnd bus res s) := by
  unfold execCanTxAttemptEnd
  refine .next ?_
  split
  · exact .txEnd h
  · exact h

theorem execDplEnable_canon (h : s.Canon) : CanonNext (execDplEnable s) := .onDev (.dplEnable h)

theorem execDplHeartbeatDue_canon (h : s.Canon) : CanonNext (execDplHeartbeatDue s) := .onDev (.beatDue h)

theorem execDplPeerTimeout_canon {k : Fin 32} (h : s.Canon) : CanonNext (execDplPeerTimeout k s) :=
  .onDev (.ite (.dplSync (.raise (.set h))) h)

theorem execDplTokenRefill_canon (h : s.Canon) : CanonNext (execDplTokenRefill s) :=
  .onDev (.foldl h fun _ _ h => .ite h (.setPeer h))

theorem execDplPeerFree_canon {k : Fin 32} (h : s.Canon) : CanonNext (execDplPeerFree k s) := .onDev (.freePeer h)

theorem execDplKeyWrite_canon {key : Fin 2} {i : Fin 4} {value : Word} (h : s.Canon) :
    CanonNext (execDplKeyWrite key i value s) :=
  .onDev (.keyWrite h)

/-! ### The Pattern load -/

theorem Dev.Canon.loadFld {f : Fld} {v : Nat} (h : d.Canon) : (d.loadFld f v).Canon := by
  unfold Dev.loadFld
  extract_lets +onlyGivenNames d1 d2
  have h1 : d1.Canon := .set h
  have h2 : d2.Canon := .ite h1 (.wrAct h1)
  exact h2

theorem Dev.Canon.loadLoopset {ls : Nat} {l : List Nat} (h : d.Canon) : (d.loadLoopset ls l).Canon :=
  .foldl h fun _ _ h => .wrw (.wrw h)

theorem Dev.Canon.loadAdc {c : Nat} {l : List Nat} (h : d.Canon) : (d.loadAdc c l).Canon := .adcSync (.set h)

theorem Dev.Canon.loadSdf {l : List Nat} (h : d.Canon) : (d.loadSdf l).Canon := by
  unfold Dev.loadSdf
  extract_lets +onlyGivenNames d1 d2
  have h1 : d1.Canon := .foldl h fun _ _ h => .loadFld h
  have h2 : d2.Canon := .foldl h1 fun _ _ h => .loadFld (.loadFld (.loadFld (.loadFld (.loadFld (.loadFld h)))))
  exact .sdfEnable h2

theorem Dev.Canon.loadPwm {l : List Nat} (h : d.Canon) : (d.loadPwm l).Canon :=
  .set (.pwmEnable (.foldl h fun _ _ h => .wrw h))

theorem Dev.Canon.loadFault {src : Nat} {r : List Nat} (h : d.Canon) : (d.loadFault src r).Canon :=
  .loadFld (.loadFld (.loadFld (.loadFld (.loadFld (.loadFld (.ite h (.set h)))))))

theorem Dev.Canon.loadIso (h : d.Canon) : d.loadIso.Canon := by
  unfold Dev.loadIso
  extract_lets d1
  have h1 : d1.Canon := by
    dsimp only [d1]
    split
    · exact .loadFld (.loadFld h)
    · exact h
  exact .set (.set h1)

theorem Dev.Canon.loadSection {src : Section} (h : d.Canon) : (d.loadSection src).Canon := by
  unfold Dev.loadSection
  extract_lets +onlyGivenNames _
  split
  · exact h
  · exact h
  · extract_lets +onlyGivenNames _ _ _
    exact h
  · exact .loadLoopset h
  · exact .loadAdc h
  · exact .loadSdf h
  · exact .loadPwm h
  · exact .foldl h fun _ _ h => .loadFault h
  · exact h
  · exact h
  · exact h

theorem Dev.Canon.drainColophon (h : d.Canon) : d.drainColophon.Canon := by
  unfold Dev.drainColophon
  extract_lets +onlyGivenNames _
  exact .foldl h fun _ _ h => (by split; exacts [.takeColophon h, h])

theorem Dev.Canon.loadDone {c0 : BitVec 64} {slot : Nat} (h : d.Canon) : (d.loadDone c0 slot).Canon :=
  .syncSplit (.set (.set (.foldl (.drainColophon h) fun _ _ h => .wrw (.wrw h))))

theorem Dev.Canon.applyPattern {img : List Nat} {secs : List Section} (h : d.Canon) :
    (d.applyPattern img secs).Canon := by
  unfold Dev.applyPattern
  extract_lets +onlyGivenNames _ _ d1 d2 _ d3 d4
  have h1 : d1.Canon := h
  have h2 : d2.Canon := .set (.set h1)
  have h3 : d3.Canon := .foldl h2 fun _ _ h => .foldl h fun _ _ h => .wrw (.wrw h)
  have h4 : d4.Canon := .loadIso (.foldl h3 fun _ _ h => .loadSection h)
  exact .loadDone h4

theorem Dev.Canon.recordErr {e : LoadErr} (h : d.Canon) : (d.recordErr e).Canon := .ite h (.setB (.set (.set h)))

theorem Dev.Canon.slotFail {code : Nat} (h : d.Canon) : (d.slotFail code).Canon :=
  .ite (.set (.ite (.set h) h)) (.failInto10 (.ite (.set h) h))

theorem Dev.Canon.checkFail {e : LoadErr} (h : d.Canon) : (d.checkFail e).Canon := .slotFail (.recordErr h)

theorem State.Canon.loadImage {img : List Nat} {len : Nat} {fw sig : List Nat} {entry : Word} (h : s.Canon) :
    (s.loadImage img len fw sig entry).Canon := by
  unfold State.loadImage
  split
  · exact .ofDev (.checkFail h)
  · rename_i secs _
    have h1 : (s.d.applyPattern img secs).Canon := .applyPattern h
    split
    · exact .ofDev (.enterMode (.withSys h1))
    · exact .ofDev (.checkFail h1)

theorem execPatternLoad_canon (h : s.Canon) : CanonNext (execPatternLoad s) := by
  unfold execPatternLoad
  refine .next ?_
  split
  · exact h
  · extract_lets +onlyGivenNames _ _
    split
    · exact .onDev (.slotFail h)
    · extract_lets +onlyGivenNames _ _ _
      exact .loadImage h

theorem execFlashNoResponse_canon (h : s.Canon) : CanonNext (execFlashNoResponse s) := .onDev (.ite (.slotFail h) h)

theorem execHostBootImage_canon {patLen : Word} {pattern : List Byte} {fwLen entry : Word}
    {firmware signature : List Byte} (h : s.Canon) :
    CanonNext (execHostBootImage patLen pattern fwLen entry firmware signature s) :=
  .next (.ite h (.ite (.onDev (.slotFail h)) (.ite (.onDev (.slotFail h)) (.loadImage h))))

/-! ### Register writes -/

theorem Dev.Canon.writeField {static : Bool} {a : Nat} {v : Word} {f : FieldSpec} (h : d.Canon) :
    (Dev.writeField static a v d f).Canon := by
  unfold Dev.writeField
  extract_lets +onlyGivenNames _ _
  split
  · exact .set h
  · exact .ite h (.ite (.werr h) (.when (.set h) fun h => h))
  · exact h

theorem Dev.Canon.refuseStatic {a : Nat} (h : d.Canon) : (d.refuseStatic a).Canon := .raise (.recordWerr (.werr h))

theorem Dev.Canon.writeFields {a : Nat} {v : Word} (h : d.Canon) : (d.writeFields a v).Canon := by
  unfold Dev.writeFields
  split
  · exact h
  · split
    · exact .covered h fun h => .foldl h fun _ _ h => .writeField h
    · exact .refuseStatic (.foldl h fun _ _ h => .writeField h)

theorem Dev.Canon.writeEn {f : Fld} {v : Word} {eff : Bool → Dev → Dev} (h : d.Canon)
    (he : ∀ b d, d.Canon → (eff b d).Canon) : (d.writeEn f v eff).Canon :=
  he _ _ (.writeFields h)

theorem Dev.Canon.guardedEn {f : Fld} {on off : Dev → Dev} {en : Bool} (h : d.Canon)
    (hon : d.Canon → (on d).Canon) (hoff : d.Canon → (off d).Canon) : (Dev.guardedEn f on off en d).Canon :=
  .ite (hon h) (.ite (.werr h) (hoff h))

theorem Dev.Canon.wdogWrite {v : Word} (h : d.Canon) : (d.wdogWrite v).Canon :=
  .ite h (.when (.set h) fun h => .set h)

theorem Dev.Canon.freeReadings {n : Nat} (h : d.Canon) : (Dev.freeReadings n d).2.Canon := by
  induction n generalizing d with
  | zero => exact h
  | succ n ih => exact ih h.freeWord

theorem Dev.Canon.pointNow (h : d.Canon) : d.pointNow.Canon := .ite h (.takePoint (.freeWord (.freeReadings h)))

theorem Dev.Canon.ledgerEn {en : Bool} (h : d.Canon) : (Dev.ledgerEn en d).Canon :=
  .ite (.set h) (.ite h (.predictions (.set h)))

theorem State.Canon.writeSysctl {a : Nat} {v : Word} (h : s.Canon) : (s.writeSysctl a v).Canon := by
  unfold State.writeSysctl
  split
  · exact .onDev (.modeRequest h)
  · exact .ite (.after (execRstReqWarm_canon h) h) h
  · exact .onDev (.wdogWrite h)
  · exact .after (execWdogKick_canon h) h
  · exact .onDev (.writeFields h)

theorem Dev.Canon.writeClk {a : Nat} {v : Word} (h : d.Canon) : (d.writeClk a v).Canon := by
  unfold Dev.writeClk
  split
  · exact .writeEn h fun _ _ h => .sscWrite h
  · exact .gateWrite h
  · exact .writeFields h

theorem State.Canon.writeLedger {a : Nat} {v : Word} (h : s.Canon) : (s.writeLedger a v).Canon := by
  unfold State.writeLedger
  split
  · refine .onDev ?_
    split
    · exact .werr h
    · extract_lets d1
      have h1 : d1.Canon := .writeFields h
      exact .ite (.pointWrite h1) (.ite (.osvWritten h1) h1)
  · split
    · exact .onDev (.when (.writeEn h fun _ _ h => .ledgerEn h) fun h => .pointNow h)
    · exact .ite (.after (execLedgerMeasStart_canon h) h) h
    · exact .onDev (.pointPort (.writeFields h))
    · exact .ite (.after (execRepairRun_canon h) h) h
    · exact .onDev (.writeFields h)

theorem State.Canon.writeCfg {a : Nat} {v : Word} (h : s.Canon) : (s.writeCfg a v).Canon :=
  .ite (.after (execCoefCommit_canon h) h) (.ite (.onDev (.recordWerr h)) (.onDev (.writeFields h)))

theorem State.Canon.writeLane {a : Nat} {v : Word} (h : s.Canon) : (s.writeLane a v).Canon := by
  unfold State.writeLane
  split
  · extract_lets +onlyGivenNames _ s1 s2
    have h1 : s1.Canon := .onDev (.guardedEn h (fun h => .set h) fun h => .dropTable (.set h))
    have h2 : s2.Canon := .ite (.after (execLaneSwap_canon h1) h1) h1
    exact .ite (.after (execLaneRestart_canon h2) h2) h2
  · exact .onDev (.writeFields h)

theorem State.Canon.writeAdc {c a : Nat} {v : Word} (h : s.Canon) : (s.writeAdc c a v).Canon := by
  unfold State.writeAdc
  extract_lets +onlyGivenNames _
  split
  · exact .onDev (.guardedEn h (fun h => .adcSync (.set h)) fun h => .adcSync (.set h))
  · exact .ite (.after (execAdcCommit_canon h) h) h
  · extract_lets s1
    have h1 : s1.Canon := .onDev (.writeFields h)
    exact .ite (.after (execCalStart_canon h1) h1) h1
  · exact .after (execInjSwRequest_canon h) h
  · exact .onDev (.writeFields h)

theorem Dev.Canon.sdChannelEn {n : Nat} {en : Bool} (h : d.Canon) : (Dev.sdChannelEn n en d).Canon :=
  .ite (.ite h (.sdStart (.set h))) (.ite (.werr h) (.set h))

theorem State.Canon.writeSdf {a : Nat} {v : Word} (h : s.Canon) : (s.writeSdf a v).Canon := by
  unfold State.writeSdf
  dsimp only
  split
  · split
    · exact .onDev (.sdfEnable h)
    · exact .ite (.after (execSdfCommit_canon h) h) h
    · exact .onDev (.writeFields h)
  · refine .ite h (.onDev ?_)
    split
    · exact .writeEn h fun _ _ h => .sdChannelEn h
    · exact .estWrite h
    · exact .rsWrite h
    · exact .writeFields h

theorem Dev.Canon.legBusField {n code : Nat} {v : Word} (h : d.Canon) : (d.legBusField n code v).Canon := by
  unfold Dev.legBusField
  split
  · exact .legField h
  · exact .legWriteErr h
  · exact .legWriteErr h

theorem Dev.Canon.legCtrlWrite {n : Nat} {v : Word} (h : d.Canon) : (d.legCtrlWrite n v).Canon := by
  unfold Dev.legCtrlWrite
  extract_lets +onlyGivenNames _
  split
  · exact .legRequest h
  · exact .ite (.legWriteErr h) h

theorem State.Canon.clrFault {n : Nat} (h : s.Canon) : (s.clrFault n).Canon :=
  .after (execLegClrFault_canon (.ofDev (.freeWord h))) (.ofDev (.freeWord h))

theorem State.Canon.writePwm {a : Nat} {v : Word} (h : s.Canon) : (s.writePwm a v).Canon := by
  unfold State.writePwm
  split
  · extract_lets +onlyGivenNames _
    split
    · extract_lets +onlyGivenNames s1
      have h1 : s1.Canon := .onDev (.legCtrlWrite h)
      exact .ite (.clrFault h1) h1
    · exact .onDev (.legBusField h)
    · exact .onDev (.legBusField h)
    · exact .onDev (.legBusField h)
    · exact .onDev (.legBusField h)
    · exact .onDev (.legBusField h)
    · exact .ite (.after (execLegCommit_canon h) h) h
    · exact .onDev (.writeFields h)
    · exact .onDev (.writeFields h)
  · split
    · split
      · exact .after (execPwmBlockEnable_canon h) h
      · exact .onDev (.ite (.foldl (.set h) fun _ _ h => .legSync h) (.note h))
    · exact .after (execPwmResync_canon h) h
    · exact .onDev (.writeFields h)

theorem Dev.Canon.gsupEn {f : Fld} {leg src : Nat} {en : Bool} (h : d.Canon) : (Dev.gsupEn f leg src en d).Canon :=
  .ite (.set h) (.ite (.note h) (.setCond (.set h)))

theorem Dev.Canon.gsupCfg {f leg : Fld} {src : Nat} {v : Word} (h : d.Canon) : (d.gsupCfg f leg src v).Canon :=
  .writeEn h fun _ _ h => .gsupEn h

theorem State.Canon.writeGsup {a : Nat} {v : Word} (h : s.Canon) : (s.writeGsup a v).Canon := by
  unfold State.writeGsup
  extract_lets +onlyGivenNames _
  refine .ite (.onDev ?_) (.ite (.ite (.after (execGsupCommit_canon h) h) h) ?_)
  · exact .guardedEn h (fun h => .set h) fun h => .foldl (.set h) fun _ _ h => .setCond h
  · split
    · extract_lets +onlyGivenNames _
      split
      · exact .onDev (.gsupCfg h)
      · extract_lets s1
        have h1 : s1.Canon := .onDev (.ite (.set h) h)
        exact .ite (.after (execOsvSweepStart_canon h1) h1) (.onDev (.writeFields h1))
      · exact .onDev (.writeFields h)
    · exact .ite (.onDev (.gsupCfg h)) (.onDev (.writeFields h))

theorem Dev.Canon.fixedCfg {a : Nat} {v : Word} (h : d.Canon) : (d.fixedCfg a v).Canon :=
  .whenNot (.writeFields h) fun h => .note h

theorem State.Canon.writeAcc {a : Nat} {v : Word} (h : s.Canon) : (s.writeAcc a v).Canon := by
  unfold State.writeAcc
  dsimp only
  split
  · exact .ite (.after (execAccCommit_canon h) h) h
  · exact .onDev (.forceWrite h)
  · exact .onDev (.ackWrite h)
  · exact .onDev (.ite (.fixedCfg h) (.writeFields h))

theorem State.Canon.writeIso {a : Nat} {v : Word} (h : s.Canon) : (s.writeIso a v).Canon := by
  unfold State.writeIso
  split
  · extract_lets _ s1 s2
    have h1 : s1.Canon := .onDev (.guardedEn h (fun h => .set h) fun h => .set h)
    have h2 : s2.Canon := .ite (.after (execClrWeld_canon h1) h1) h1
    exact .ite (.after (execSetWeld_canon h2) h2) h2
  · exact .ite (.after (execIsoCommit_canon h) h) h
  · exact .onDev (.rbSync (.writeFields h))
  · exact .onDev (.when (.writeFields h) fun h => .sinOpenEnd h)

theorem State.Canon.writeArch {a : Nat} {v : Word} (h : s.Canon) : (s.writeArch a v).Canon := by
  unfold State.writeArch
  split
  · exact .onDev (.writeEn h fun _ _ h => .ite (.archEnable h) (.archDisable h))
  · exact .ite (.after (execArchCommit_canon h) h) h
  · extract_lets s1 s2
    have h1 : s1.Canon := .ite (.armWrite h) h
    have h2 : s2.Canon := .ite (.onDev (.archDisarm h1)) h1
    exact .ite (.onDev (.archTrigger h2)) h2
  · exact .releaseWrite h
  · exact .onDev (.writeFields h)

theorem Dev.Canon.writeCirc {agent a : Nat} {v : Word} (h : d.Canon) : (d.writeCirc agent a v).Canon := by
  unfold Dev.writeCirc
  extract_lets +onlyGivenNames _ _ _
  split
  · extract_lets +onlyGivenNames d1
    have h1 : d1.Canon := .writeFields h
    exact .ite (.dispatch h1) h1
  · split
    · exact .cmdWrite h
    · split
      · exact .giveWrite h
      · split
        · exact .dispatch (.flagCycle h)
        · split
          · exact .dispatch (.flagCycle h)
          · split
            · exact .slotCfgWrite h
            · exact .when (.writeFields h) fun h => .foldl h fun _ _ h => .setCore h

theorem State.Canon.writeTime {a : Nat} {v : Word} (h : s.Canon) : (s.writeTime a v).Canon := by
  unfold State.writeTime
  extract_lets +onlyGivenNames _
  split
  · exact .onDev (.adjust h)
  · split
    · exact .ite (.after (execTimeStepRequest_canon h) h) h
    · exact .ite (.onDev (.cmpWrite h)) (.onDev (.writeFields h))

theorem State.Canon.writeEth {m a : Nat} {v : Word} (h : s.Canon) : (s.writeEth m a v).Canon := by
  unfold State.writeEth
  extract_lets +onlyGivenNames _ _
  split
  · extract_lets +onlyGivenNames _ s1 s2
    have h1 : s1.Canon := .onDev (.writeFields h)
    have h2 : s2.Canon := .ite (.ethEnable h1) (.onDev (.ethDisable h1))
    exact .onDev (.linkSync h2)
  · split
    · refine .onDev ?_
      exact .ite h (.ite (.mdioGo (.ite (.set h) h)) (.writeFields (.ite (.set h) h)))
    · exact .ite h (.when (.onDev (.writeFields h)) fun h => .ite (.ethKick h) h)

theorem Dev.Canon.writeCan {n a : Nat} {v : Word} (h : d.Canon) : (d.writeCan n a v).Canon := by
  unfold Dev.writeCan
  extract_lets +onlyGivenNames _
  split
  · extract_lets d1
    have h1 : d1.Canon := .writeEn h fun _ _ h => .ite (.canEnable h) (.canDisable h)
    exact .ite (.canRecover h1) h1
  · exact .inboxDone h
  · exact .inboxDone h
  · exact .receiptDone h
  · exact .outGo h
  · exact .outAbort h
  · exact .writeFields h

theorem Dev.Canon.writeDpl {a : Nat} {v : Word} (h : d.Canon) : (d.writeDpl a v).Canon := by
  unfold Dev.writeDpl
  extract_lets +onlyGivenNames _
  split
  · exact .dplSync (.writeEn h fun _ _ h => .ite (.dplEnable h) (.dplDisable h))
  · split
    · exact .keyWrite h
    · split
      · extract_lets +onlyGivenNames _
        exact .when (.peerWrite h) fun h => .freePeer h
      · extract_lets d1
        have h1 : d1.Canon := .writeFields h
        exact .ite (.dplSync h1) h1

theorem State.Canon.regWrite {agent a : Nat} {v : Word} (h : s.Canon) : (s.regWrite agent a v).Canon := by
  unfold State.regWrite
  split
  · exact .writeSysctl h
  · exact .onDev (.writeClk h)
  · exact .writeLedger h
  · exact .writeCfg h
  · exact .writeLane h
  · exact .writeAdc h
  · exact .writeAdc h
  · exact .writeAdc h
  · exact .writeAdc h
  · exact .writeSdf h
  · exact .writePwm h
  · exact .writePwm h
  · exact .writePwm h
  · exact .writePwm h
  · exact .writeGsup h
  · exact .writeAcc h
  · exact .writeIso h
  · exact .writeArch h
  · exact .onDev (.writeCirc h)
  · exact .writeTime h
  · exact .writeEth h
  · exact .writeEth h
  · exact .onDev (.ite (.writeDpl h) (.writeCan h))
  · exact .onDev (.writeCan h)
  · exact .onDev (.writeCan h)
  · exact .onDev (.writeCan h)
  · exact .onDev (.writeFields h)

/-! ### The bus -/

theorem Dev.Canon.clearRc {a : Nat} (h : d.Canon) : (d.clearRc a).Canon := by
  unfold Dev.clearRc
  split
  · exact h
  · exact .foldl h fun _ _ h => .ite (.set h) h

theorem Dev.Canon.coreRead {core a : Nat} (h : d.Canon) : (d.coreRead core a).Canon := by
  unfold Dev.coreRead
  extract_lets +onlyGivenNames _
  split
  · exact .answer (.latchTime h)
  · split
    · exact .readColoLo h
    · split
      · exact .answer h
      · split
        · exact .answer (.logLatch h)
        · split
          · exact .answer h
          · split
            · exact .answer h
            · split
              · exact .answer (.logRemove h)
              · split
                · exact .qtimeRead h
                · exact .ite (.sdRead h) (.ite (.takeRead h) (.answer (.clearRc h)))

theorem Dev.Canon.busFail {core a : Nat} (h : d.Canon) : (d.busFail core a).Canon := .raise (.answer h)

theorem State.regAccess_canon {core : Nat} {size : Size} {a : Nat} {w : Option Word} (h : s.Canon) :
    CanonNext (s.regAccess core size a w) := by
  unfold State.regAccess
  split
  · exact .onDev (.busFail h)
  · split
    · exact .refused
    · split
      · exact .onDev (.coreRead h)
      · exact .next (.regWrite (.onDev (.answer h)))

/-- An access that memory refuses with a bus error. -/
theorem Dev.Canon.memCheck_none {core : Nat} {p : Place} {a : Nat} {ecc : Ecc} {mac : Nat}
    (h : d.Canon) (hx : d.memCheck core p a ecc mac = (none, e)) : e.Canon := by
  have hbus : ((d.eccDouble p a).busFail core (p.coreAddr a)).Canon := .busFail (.eccDouble h)
  unfold Dev.memCheck at hx
  split at hx
  · exact (Prod.mk.inj hx).2 ▸ hbus
  · split at hx
    · cases (Prod.mk.inj hx).1
    · split at hx
      · cases (Prod.mk.inj hx).1
      · cases (Prod.mk.inj hx).1
      · exact (Prod.mk.inj hx).2 ▸ hbus

/-- An access that memory serves. -/
theorem Dev.Canon.memCheck_some {core : Nat} {p : Place} {a : Nat} {ecc : Ecc} {mac : Nat} {x : Dev}
    (h : d.Canon) (hx : d.memCheck core p a ecc mac = (some e, x)) : e.Canon := by
  unfold Dev.memCheck at hx
  split at hx
  · cases (Prod.mk.inj hx).1
  · split at hx
    · exact Option.some.inj (Prod.mk.inj hx).1 ▸ h
    · split at hx
      · exact Option.some.inj (Prod.mk.inj hx).1 ▸ h
      · exact Option.some.inj (Prod.mk.inj hx).1 ▸ .eccSingle h
      · cases (Prod.mk.inj hx).1

theorem State.Canon.coreLoad {core : Nat} {instr : Bool} {p : Place} {a n : Nat} {ecc : Ecc} {mac : Nat}
    {parity : Bool} {way : Nat} (h : s.Canon) : (s.coreLoad core instr p a n ecc mac parity way).Canon := by
  unfold State.coreLoad
  extract_lets key d1
  have h1 : d1.Canon := .parityCheck h
  split
  · exact .ofDev (.answer h1)
  · split
    · rename_i hx
      exact h1.memCheck_none hx
    · rename_i hx
      have h2 := h1.memCheck_some hx
      exact .ofDev (.answer (.ite (.fill h2) h2))

theorem State.Canon.coreWrite {core : Nat} {p : Place} {a n v : Nat} (h : s.Canon) :
    (s.coreWrite core p a n v).Canon :=
  .ofDev (.snoop (.clearResv h))

theorem State.Canon.coreStore {core : Nat} {p : Place} {a n v : Nat} {ecc : Ecc} {mac : Nat} (h : s.Canon) :
    (s.coreStore core p a n v ecc mac).Canon := by
  unfold State.coreStore
  split
  · rename_i hx
    exact Dev.Canon.memCheck_none h hx
  · rename_i hx
    exact .coreWrite (.ofDev (.answer (Dev.Canon.memCheck_some h hx)))

theorem execCoreMemoryAccess_canon {core : Fin 4} {kind : Access} {size : Size} {addr data : Word} {ecc : Ecc}
    {mac : Fin 100} {parity : Bool} {way : Fin 4} (h : s.Canon) :
    CanonNext (execCoreMemoryAccess core kind size addr data ecc mac parity way s) := by
  unfold execCoreMemoryAccess
  refine .byCore h ?_
  split
  · exact .onDev (.busFail h)
  · split
    · exact .onDev (.busFail h)
    · exact State.regAccess_canon h
    · exact State.regAccess_canon h
  · extract_lets
    refine .next (.ite (.onDev (.busFail h)) (.ite h ?_))
    split
    · exact .coreStore h
    · exact .coreLoad h
    · exact .coreLoad h

theorem execRegisterWrite_canon {core : Fin 4} {addr data : Word} (h : s.Canon) :
    CanonNext (execRegisterWrite core addr data s) :=
  .byCore h (.ite (State.regAccess_canon h) (.next h))

theorem execReadToClear_canon {core : Fin 4} {addr : Word} (h : s.Canon) :
    CanonNext (execReadToClear core addr s) :=
  .byCore h (.ite (State.regAccess_canon h) (.next h))

theorem State.Canon.amo {core : Nat} {op : Amo} {p : Place} {a : Nat} {x : Word} (h : s.Canon) :
    (s.amo core op p a x).Canon := by
  unfold State.amo
  extract_lets +onlyGivenNames _
  split
  · exact .onDev (.answer (.setResv h))
  · split
    · exact .onDev (.answer (.setResv (.ofState (.coreWrite h))))
    · exact .onDev (.answer (.setResv h))
  · exact .onDev (.answer (.ofState (.coreWrite h)))

theorem execAmoAccess_canon {core : Fin 4} {op : Amo} {addr data : Word} {ecc : Ecc} {mac : Fin 100} {parity : Bool}
    (h : s.Canon) : CanonNext (execAmoAccess core op addr data ecc mac parity s) := by
  unfold execAmoAccess
  refine .byCore h (.next ?_)
  split
  · exact .onDev (.answer h)
  · refine .ite (.onDev (.answer h)) ?_
    split
    · rename_i hx
      exact Dev.Canon.memCheck_none (.parityCheck h) hx
    · rename_i hx
      exact .amo (.ofDev (Dev.Canon.memCheck_some (.parityCheck h) hx))

theorem execMcinval_canon {core : Fin 4} {value : Word} (h : s.Canon) : CanonNext (execMcinval core value s) :=
  .next (.coreDev h fun h => .invalidate h)

theorem execBusAccessTimeout_canon {agent : Fin 5} {addr : Word} (h : s.Canon) :
    CanonNext (execBusAccessTimeout agent addr s) :=
  .next (.coreDev h fun h => .ite (.answer h) (.ite h (.busFail h)))

theorem Dev.Canon.dbgLatch {l : List (Nat × Word)} (h : d.Canon) : (d.dbgLatch l).Canon := h

theorem Dev.Canon.debugRead {a : Nat} (h : d.Canon) : (d.debugRead a).Canon := by
  unfold Dev.debugRead
  extract_lets +onlyGivenNames _ _
  split
  · exact .answer (.dbgLatch h)
  · split
    · exact .readColoLo h
    · split
      · exact .answer h
      · split
        · split
          · exact .answer (.dbgLatch h)
          · exact .answer (.dbgLatch h)
          · exact .answer h
        · split
          · exact .answer h
          · split
            · exact .answer h
            · exact .ite (.answer h) (.ite (.answer h) (.ite (.answer (.dbgLatch h)) (.answer h)))

theorem Dev.Canon.strandRead {c : StrandCell} (h : d.Canon) : (d.strandRead c).Canon := by
  unfold Dev.strandRead
  split
  · exact .answer h
  · exact .answer (.freeWord h)

theorem State.debugLoad_canon {size : Size} {addr : Nat} {ecc : Ecc} (h : s.Canon) :
    CanonNext (s.debugLoad size addr ecc) := by
  unfold State.debugLoad
  split
  · exact .onDev (.answer h)
  · exact .ite (.onDev (.answer h)) (.ite .refused (.onDev (.debugRead h)))
  · exact .onDev (.ite (.answer h) (.ite h (.answer h)))

theorem execDebugRead_canon {size : Size} {addr : DebugPlace} {ecc : Ecc} (h : s.Canon) :
    CanonNext (execDebugRead size addr ecc s) := by
  unfold execDebugRead
  split
  · exact .onDev (.strandRead h)
  · exact State.debugLoad_canon h

theorem execDebugWrite_canon {size : Size} {addr data : Word} (h : s.Canon) :
    CanonNext (execDebugWrite size addr data s) := by
  unfold execDebugWrite
  split
  · exact .onDev (.answer h)
  · split
    · exact .onDev (.answer h)
    · exact .ite .refused (.next (.regWrite (.onDev (.answer h))))
  · refine .next ?_
    split
    · exact .onDev (.answer h)
    · exact .ite (.onDev (.answer (.eccDouble h))) (.ofDev (.answer h))

theorem Dev.Canon.rowHit {a : Nat} {mac : Fin 100} {row : Fin 128} (h : d.Canon) : (d.rowHit a mac row).Canon :=
  .ite (.raise h) h

theorem execScrubWord_canon {addr : Word} {ecc : Ecc} {mac : Fin 100} {row : Fin 128} (h : s.Canon) :
    CanonNext (execScrubWord addr ecc mac row s) := by
  unfold execScrubWord
  refine .next ?_
  split
  · exact h
  · refine .onDev ?_
    split
    · exact h
    · split
      · exact h
      · exact .rowHit (.eccSingle h)
      · exact .eccDouble h

theorem Dev.Canon.deliverWord {ch recv : Nat} {w : HWord} (h : d.Canon) : (d.deliverWord ch recv w).Canon := by
  unfold Dev.deliverWord
  extract_lets rest
  have hr : rest.Canon := by
    dsimp only [rest]
    split
    · exact h
    · exact h
  split
  · exact .takeColophon hr
  · exact .ite (.adcEvent hr) (.ite (.sdPeriod hr) h)
  · exact .sameRegs hr rfl
  · exact .laneSignal h
  · exact .archTrigger hr
  · exact h

theorem execHoopStall_canon {ch : Fin 256} {recv : Fin 14} (h : s.Canon) : CanonNext (execHoopStall ch recv s) := by
  unfold execHoopStall
  refine .onDev ?_
  split
  · exact .ite h (.raise h)
  · exact h

theorem execHoopHandshakeComplete_canon {ch : Fin 256} {recv : Fin 14} (h : s.Canon) :
    CanonNext (execHoopHandshakeComplete ch recv s) := by
  unfold execHoopHandshakeComplete
  refine .onDev ?_
  split
  · exact .deliverWord h
  · exact h

/-! ### Operations of a Stake -/

theorem Dev.Canon.computeEffect {n stake : Nat} {f : OpWord → OpIn → OpOut} {q : Issued} (h : d.Canon) :
    (Machine.computeEffect n stake f q d).1.Canon :=
  Dev.Canon.ite (.raiseLane h) h

theorem State.Canon.issueOp {opc : Nat} {i : Issue} {f : OpWord → OpIn → OpOut} (h : s.Canon) :
    (s.issueOp opc i f).Canon :=
  .issue h fun _ _ h => .computeEffect h

theorem Dev.Canon.portRead {n stake : Nat} {q : Issued} (h : d.Canon) :
    (Machine.portRead n stake q d).1.Canon := by
  unfold Machine.portRead
  extract_lets
  split
  · split
    · exact .setLane h
    · exact h
  · exact h

theorem Dev.Canon.flagRead {n stake : Nat} {q : Issued} (h : d.Canon) : (flagRead n stake q d).1.Canon := .setLane h

theorem execOpNop_canon {i : Issue} (h : s.Canon) : CanonNext (execOpNop i s) := .next (.issue h fun _ _ h => h)

theorem execOpPrd_canon {i : Issue} (h : s.Canon) : CanonNext (execOpPrd i s) :=
  .next (.issue h fun _ _ h => .portRead h)

theorem execOpPwr_canon {i : Issue} (h : s.Canon) : CanonNext (execOpPwr i s) :=
  .next (.issue h fun _ _ h => .portWrite h)

theorem execOpRtime_canon {i : Issue} (h : s.Canon) : CanonNext (execOpRtime i s) := .next (.issueOp h)

theorem execOpLd_canon {i : Issue} (h : s.Canon) : CanonNext (execOpLd i s) :=
  .next (.issue h fun _ _ h => .loadEffect h)

theorem execOpSt_canon {i : Issue} (h : s.Canon) : CanonNext (execOpSt i s) :=
  .next (.issue h fun _ _ h => .storeEffect h)

theorem execOpLdp_canon {i : Issue} (h : s.Canon) : CanonNext (execOpLdp i s) :=
  .next (.issue h fun _ _ h => .loadEffect h)

theorem execOpStp_canon {i : Issue} (h : s.Canon) : CanonNext (execOpStp i s) :=
  .next (.issue h fun _ _ h => .storeEffect h)

theorem execOpRaise_canon {i : Issue} (h : s.Canon) : CanonNext (execOpRaise i s) :=
  .next (.issue h fun _ _ h => .raiseLane h)

theorem execOpMov_canon {i : Issue} (h : s.Canon) : CanonNext (execOpMov i s) := .next (.issueOp h)

theorem execOpLdi_canon {i : Issue} (h : s.Canon) : CanonNext (execOpLdi i s) := .next (.issueOp h)

theorem execOpLdih_canon {i : Issue} (h : s.Canon) : CanonNext (execOpLdih i s) := .next (.issueOp h)

theorem execOpGetf_canon {i : Issue} (h : s.Canon) : CanonNext (execOpGetf i s) :=
  .next (.issue h fun _ _ h => .flagRead h)

theorem execOpAdd_canon {i : Issue} (h : s.Canon) : CanonNext (execOpAdd i s) := .next (.issueOp h)

theorem execOpSub_canon {i : Issue} (h : s.Canon) : CanonNext (execOpSub i s) := .next (.issueOp h)

theorem execOpAddi_canon {i : Issue} (h : s.Canon) : CanonNext (execOpAddi i s) := .next (.issueOp h)

theorem execOpNeg_canon {i : Issue} (h : s.Canon) : CanonNext (execOpNeg i s) := .next (.issueOp h)

theorem execOpAbs_canon {i : Issue} (h : s.Canon) : CanonNext (execOpAbs i s) := .next (.issueOp h)

theorem execOpAbsd_canon {i : Issue} (h : s.Canon) : CanonNext (execOpAbsd i s) := .next (.issueOp h)

theorem execOpCpys_canon {i : Issue} (h : s.Canon) : CanonNext (execOpCpys i s) := .next (.issueOp h)

theorem execOpMin_canon {i : Issue} (h : s.Canon) : CanonNext (execOpMin i s) := .next (.issueOp h)

theorem execOpMax_canon {i : Issue} (h : s.Canon) : CanonNext (execOpMax i s) := .next (.issueOp h)

theorem execOpMid3_canon {i : Issue} (h : s.Canon) : CanonNext (execOpMid3 i s) := .next (.issueOp h)

theorem execOpClamp_canon {i : Issue} (h : s.Canon) : CanonNext (execOpClamp i s) := .next (.issueOp h)

theorem execOpSel_canon {i : Issue} (h : s.Canon) : CanonNext (execOpSel i s) := .next (.issueOp h)

theorem execOpCmplt_canon {i : Issue} (h : s.Canon) : CanonNext (execOpCmplt i s) := .next (.issueOp h)

theorem execOpCmple_canon {i : Issue} (h : s.Canon) : CanonNext (execOpCmple i s) := .next (.issueOp h)

theorem execOpCmpeq_canon {i : Issue} (h : s.Canon) : CanonNext (execOpCmpeq i s) := .next (.issueOp h)

theorem execOpCmpne_canon {i : Issue} (h : s.Canon) : CanonNext (execOpCmpne i s) := .next (.issueOp h)

theorem execOpHyst_canon {i : Issue} (h : s.Canon) : CanonNext (execOpHyst i s) := .next (.issueOp h)

theorem execOpIsat_canon {i : Issue} (h : s.Canon) : CanonNext (execOpIsat i s) := .next (.issueOp h)

theorem execOpSgn_canon {i : Issue} (h : s.Canon) : CanonNext (execOpSgn i s) := .next (.issueOp h)

theorem execOpAvg_canon {i : Issue} (h : s.Canon) : CanonNext (execOpAvg i s) := .next (.issueOp h)

theorem execOpDzone_canon {i : Issue} (h : s.Canon) : CanonNext (execOpDzone i s) := .next (.issueOp h)

theorem execOpRlim_canon {i : Issue} (h : s.Canon) : CanonNext (execOpRlim i s) := .next (.issueOp h)

theorem execOpAngadd_canon {i : Issue} (h : s.Canon) : CanonNext (execOpAngadd i s) := .next (.issueOp h)

theorem execOpAngdiff_canon {i : Issue} (h : s.Canon) : CanonNext (execOpAngdiff i s) := .next (.issueOp h)

theorem execOpWrapa_canon {i : Issue} (h : s.Canon) : CanonNext (execOpWrapa i s) := .next (.issueOp h)

theorem execOpLdexp_canon {i : Issue} (h : s.Canon) : CanonNext (execOpLdexp i s) := .next (.issueOp h)

theorem execOpRint_canon {i : Issue} (h : s.Canon) : CanonNext (execOpRint i s) := .next (.issueOp h)

theorem execOpFrac_canon {i : Issue} (h : s.Canon) : CanonNext (execOpFrac i s) := .next (.issueOp h)

theorem execOpCvt_canon {i : Issue} (h : s.Canon) : CanonNext (execOpCvt i s) := .next (.issueOp h)

theorem execOpToi_canon {i : Issue} (h : s.Canon) : CanonNext (execOpToi i s) := .next (.issueOp h)

theorem execOpTou_canon {i : Issue} (h : s.Canon) : CanonNext (execOpTou i s) := .next (.issueOp h)

theorem execOpIto_canon {i : Issue} (h : s.Canon) : CanonNext (execOpIto i s) := .next (.issueOp h)

theorem execOpUto_canon {i : Issue} (h : s.Canon) : CanonNext (execOpUto i s) := .next (.issueOp h)

theorem execOpIpre_canon {i : Issue} (h : s.Canon) : CanonNext (execOpIpre i s) := .next (.issueOp h)

theorem execOpSatt_canon {i : Issue} (h : s.Canon) : CanonNext (execOpSatt i s) := .next (.issueOp h)

theorem execOpSattl_canon {i : Issue} (h : s.Canon) : CanonNext (execOpSattl i s) := .next (.issueOp h)

theorem execOpIadd_canon {i : Issue} (h : s.Canon) : CanonNext (execOpIadd i s) := .next (.issueOp h)

theorem execOpIsub_canon {i : Issue} (h : s.Canon) : CanonNext (execOpIsub i s) := .next (.issueOp h)

theorem execOpIaddi_canon {i : Issue} (h : s.Canon) : CanonNext (execOpIaddi i s) := .next (.issueOp h)

theorem execOpIabs_canon {i : Issue} (h : s.Canon) : CanonNext (execOpIabs i s) := .next (.issueOp h)

theorem execOpImin_canon {i : Issue} (h : s.Canon) : CanonNext (execOpImin i s) := .next (.issueOp h)

theorem execOpImax_canon {i : Issue} (h : s.Canon) : CanonNext (execOpImax i s) := .next (.issueOp h)

theorem execOpAnd_canon {i : Issue} (h : s.Canon) : CanonNext (execOpAnd i s) := .next (.issueOp h)

theorem execOpOr_canon {i : Issue} (h : s.Canon) : CanonNext (execOpOr i s) := .next (.issueOp h)

theorem execOpXor_canon {i : Issue} (h : s.Canon) : CanonNext (execOpXor i s) := .next (.issueOp h)

theorem execOpAndn_canon {i : Issue} (h : s.Canon) : CanonNext (execOpAndn i s) := .next (.issueOp h)

theorem execOpShl_canon {i : Issue} (h : s.Canon) : CanonNext (execOpShl i s) := .next (.issueOp h)

theorem execOpShr_canon {i : Issue} (h : s.Canon) : CanonNext (execOpShr i s) := .next (.issueOp h)

theorem execOpSar_canon {i : Issue} (h : s.Canon) : CanonNext (execOpSar i s) := .next (.issueOp h)

theorem execOpRor_canon {i : Issue} (h : s.Canon) : CanonNext (execOpRor i s) := .next (.issueOp h)

theorem execOpBfx_canon {i : Issue} (h : s.Canon) : CanonNext (execOpBfx i s) := .next (.issueOp h)

theorem execOpBfi_canon {i : Issue} (h : s.Canon) : CanonNext (execOpBfi i s) := .next (.issueOp h)

theorem execOpIcmplt_canon {i : Issue} (h : s.Canon) : CanonNext (execOpIcmplt i s) := .next (.issueOp h)

theorem execOpIcmpltu_canon {i : Issue} (h : s.Canon) : CanonNext (execOpIcmpltu i s) := .next (.issueOp h)

theorem execOpIcmpeq_canon {i : Issue} (h : s.Canon) : CanonNext (execOpIcmpeq i s) := .next (.issueOp h)

theorem execOpClz_canon {i : Issue} (h : s.Canon) : CanonNext (execOpClz i s) := .next (.issueOp h)

theorem execOpPopc_canon {i : Issue} (h : s.Canon) : CanonNext (execOpPopc i s) := .next (.issueOp h)

theorem execOpMul_canon {i : Issue} (h : s.Canon) : CanonNext (execOpMul i s) := .next (.issueOp h)

theorem execOpMac_canon {i : Issue} (h : s.Canon) : CanonNext (execOpMac i s) := .next (.issueOp h)

theorem execOpMsub_canon {i : Issue} (h : s.Canon) : CanonNext (execOpMsub i s) := .next (.issueOp h)

theorem execOpMsbr_canon {i : Issue} (h : s.Canon) : CanonNext (execOpMsbr i s) := .next (.issueOp h)

theorem execOpMuli_canon {i : Issue} (h : s.Canon) : CanonNext (execOpMuli i s) := .next (.issueOp h)

theorem execOpSqr_canon {i : Issue} (h : s.Canon) : CanonNext (execOpSqr i s) := .next (.issueOp h)

theorem execOpLpf1_canon {i : Issue} (h : s.Canon) : CanonNext (execOpLpf1 i s) := .next (.issueOp h)

theorem execOpIntg_canon {i : Issue} (h : s.Canon) : CanonNext (execOpIntg i s) := .next (.issueOp h)

theorem execOpImul_canon {i : Issue} (h : s.Canon) : CanonNext (execOpImul i s) := .next (.issueOp h)

theorem execOpImulh_canon {i : Issue} (h : s.Canon) : CanonNext (execOpImulh i s) := .next (.issueOp h)

theorem execOpImac_canon {i : Issue} (h : s.Canon) : CanonNext (execOpImac i s) := .next (.issueOp h)

theorem execOpSincos_canon {i : Issue} (h : s.Canon) : CanonNext (execOpSincos i s) := .next (.issueOp h)

theorem execOpSin_canon {i : Issue} (h : s.Canon) : CanonNext (execOpSin i s) := .next (.issueOp h)

theorem execOpCos_canon {i : Issue} (h : s.Canon) : CanonNext (execOpCos i s) := .next (.issueOp h)

theorem execOpRot_canon {i : Issue} (h : s.Canon) : CanonNext (execOpRot i s) := .next (.issueOp h)

theorem execOpAtan2_canon {i : Issue} (h : s.Canon) : CanonNext (execOpAtan2 i s) := .next (.issueOp h)

theorem execOpHypot_canon {i : Issue} (h : s.Canon) : CanonNext (execOpHypot i s) := .next (.issueOp h)

theorem execOpVec_canon {i : Issue} (h : s.Canon) : CanonNext (execOpVec i s) := .next (.issueOp h)

theorem execOpExp_canon {i : Issue} (h : s.Canon) : CanonNext (execOpExp i s) := .next (.issueOp h)

theorem execOpLn_canon {i : Issue} (h : s.Canon) : CanonNext (execOpLn i s) := .next (.issueOp h)

theorem execOpDiv_canon {i : Issue} (h : s.Canon) : CanonNext (execOpDiv i s) := .next (.issueOp h)

theorem execOpRecip_canon {i : Issue} (h : s.Canon) : CanonNext (execOpRecip i s) := .next (.issueOp h)

theorem execOpSqrt_canon {i : Issue} (h : s.Canon) : CanonNext (execOpSqrt i s) := .next (.issueOp h)

theorem execOpRsqrt_canon {i : Issue} (h : s.Canon) : CanonNext (execOpRsqrt i s) := .next (.issueOp h)

theorem execOpIdiv_canon {i : Issue} (h : s.Canon) : CanonNext (execOpIdiv i s) := .next (.issueOp h)

theorem execOpIdivu_canon {i : Issue} (h : s.Canon) : CanonNext (execOpIdivu i s) := .next (.issueOp h)

/-! ### The commands -/

theorem exec_canon {i : Instr} (h : s.Canon) : CanonNext (exec i s) := by
  unfold exec
  split
  · exact execRegisterWrite_canon h
  · exact execCoreMemoryAccess_canon h
  · exact execAmoAccess_canon h
  · exact execMcinval_canon h
  · exact execBusAccessTimeout_canon h
  · exact execDebugRead_canon h
  · exact execScrubWord_canon h
  · exact execHoopStall_canon h
  · exact execHoopHandshakeComplete_canon h
  · exact execForkWord_canon h
  · exact execSamplePortWord_canon h
  · exact execModeReqControl_canon h
  · exact execModeReqStop_canon h
  · exact execModeReqReload_canon h
  · exact execModeReqCheck_canon h
  · exact execModeReqService_canon h
  · exact execModeReqForbidden_canon h
  · exact execModeReqTimeout_canon h
  · exact execModeCommit_canon h
  · exact execProfileWindowUpdate_canon h
  · exact execPowerOnReset_canon
  · exact execVddaonBrownout_canon
  · exact execWarmResetPin_canon h
  · exact execRstReqWarm_canon h
  · exact execDebugReset_canon h
  · exact execResetRelease_canon h
  · exact execWdogKick_canon h
  · exact execWdogExpire_canon h
  · exact execWdogWarmReset_canon h
  · exact execXtalQualified_canon h
  · exact execPllLock_canon h
  · exact execPllLockFail_canon h
  · exact execPllRetry_canon h
  · exact execReferenceLoss_canon h
  · exact execLossOfLock_canon h
  · exact execPatternLoad_canon h
  · exact execFlashNoResponse_canon h
  · exact execHostBootImage_canon h
  · exact execBistComplete_canon h
  · exact execStandbyEntry_canon h
  · exact execExtSafe_canon h
  · exact execSafeNRelease_canon h
  · exact execColophonSplit_canon h
  · exact execColophonLoRead_canon h
  · exact execCoefCommit_canon h
  · exact execLegCommit_canon h
  · exact execGsupCommit_canon h
  · exact execAdcCommit_canon h
  · exact execSdfCommit_canon h
  · exact execAccCommit_canon h
  · exact execAccCommitApply_canon h
  · exact execIsoCommit_canon h
  · exact execArchCommit_canon h
  · exact execLoopsetTrigger_canon h
  · exact execLoopsetRunComplete_canon h
  · exact execLoopsetHung_canon h
  · exact execWindowFull_canon h
  · exact execOperationComplete_canon h
  · exact execPortWriteComplete_canon h
  · exact execMemoryGrant_canon h
  · exact execOpNop_canon h
  · exact execOpPrd_canon h
  · exact execOpPwr_canon h
  · exact execOpRtime_canon h
  · exact execOpLd_canon h
  · exact execOpSt_canon h
  · exact execOpLdp_canon h
  · exact execOpStp_canon h
  · exact execOpRaise_canon h
  · exact execOpMov_canon h
  · exact execOpLdi_canon h
  · exact execOpLdih_canon h
  · exact execOpGetf_canon h
  · exact execOpAdd_canon h
  · exact execOpSub_canon h
  · exact execOpAddi_canon h
  · exact execOpNeg_canon h
  · exact execOpAbs_canon h
  · exact execOpAbsd_canon h
  · exact execOpCpys_canon h
  · exact execOpMin_canon h
  · exact execOpMax_canon h
  · exact execOpMid3_canon h
  · exact execOpClamp_canon h
  · exact execOpSel_canon h
  · exact execOpCmplt_canon h
  · exact execOpCmple_canon h
  · exact execOpCmpeq_canon h
  · exact execOpCmpne_canon h
  · exact execOpHyst_canon h
  · exact execOpIsat_canon h
  · exact execOpSgn_canon h
  · exact execOpAvg_canon h
  · exact execOpDzone_canon h
  · exact execOpRlim_canon h
  · exact execOpAngadd_canon h
  · exact execOpAngdiff_canon h
  · exact execOpWrapa_canon h
  · exact execOpLdexp_canon h
  · exact execOpRint_canon h
  · exact execOpFrac_canon h
  · exact execOpCvt_canon h
  · exact execOpToi_canon h
  · exact execOpTou_canon h
  · exact execOpIto_canon h
  · exact execOpUto_canon h
  · exact execOpIpre_canon h
  · exact execOpSatt_canon h
  · exact execOpSattl_canon h
  · exact execOpIadd_canon h
  · exact execOpIsub_canon h
  · exact execOpIaddi_canon h
  · exact execOpIabs_canon h
  · exact execOpImin_canon h
  · exact execOpImax_canon h
  · exact execOpAnd_canon h
  · exact execOpOr_canon h
  · exact execOpXor_canon h
  · exact execOpAndn_canon h
  · exact execOpShl_canon h
  · exact execOpShr_canon h
  · exact execOpSar_canon h
  · exact execOpRor_canon h
  · exact execOpBfx_canon h
  · exact execOpBfi_canon h
  · exact execOpIcmplt_canon h
  · exact execOpIcmpltu_canon h
  · exact execOpIcmpeq_canon h
  · exact execOpClz_canon h
  · exact execOpPopc_canon h
  · exact execOpMul_canon h
  · exact execOpMac_canon h
  · exact execOpMsub_canon h
  · exact execOpMsbr_canon h
  · exact execOpMuli_canon h
  · exact execOpSqr_canon h
  · exact execOpLpf1_canon h
  · exact execOpIntg_canon h
  · exact execOpImul_canon h
  · exact execOpImulh_canon h
  · exact execOpImac_canon h
  · exact execOpSincos_canon h
  · exact execOpSin_canon h
  · exact execOpCos_canon h
  · exact execOpRot_canon h
  · exact execOpAtan2_canon h
  · exact execOpHypot_canon h
  · exact execOpVec_canon h
  · exact execOpExp_canon h
  · exact execOpLn_canon h
  · exact execOpDiv_canon h
  · exact execOpRecip_canon h
  · exact execOpSqrt_canon h
  · exact execOpRsqrt_canon h
  · exact execOpIdiv_canon h
  · exact execOpIdivu_canon h
  · exact execAdcSeqTrigger_canon h
  · exact execAdcSlotGrant_canon h
  · exact execConversionComplete_canon h
  · exact execInjSwRequest_canon h
  · exact execInjectedTrigger_canon h
  · exact execCalStart_canon h
  · exact execCalComplete_canon h
  · exact execTrimBlockEnd_canon h
  · exact execTallyWindowClose_canon h
  · exact execTallyLimit_canon h
  · exact execQtimeRead_canon h
  · exact execSdfEnable_canon h
  · exact execSdOutputWord_canon h
  · exact execS1WindowTrunc_canon h
  · exact execSdStuck_canon h
  · exact execResamplerEnable_canon h
  · exact execResamplerOutput_canon h
  · exact execDcbEstWrite_canon h
  · exact execSdDataRead_canon h
  · exact execPwmBlockEnable_canon h
  · exact execPwmResync_canon h
  · exact execPeriodEvent_canon h
  · exact execGuardWindowOpen_canon h
  · exact execPwmReload_canon h
  · exact execCommitWordCmpa_canon h
  · exact execCommitWordCmpb_canon h
  · exact execCommitWordPeriod_canon h
  · exact execCommitWordDt_canon h
  · exact execCommitWordEvt_canon h
  · exact execCommitWordEnable_canon h
  · exact execCommitWordReserved_canon h
  · exact execLegEnableRequest_canon h
  · exact execLegClrFault_canon h
  · exact execTapDrift_canon h
  · exact execDesatConfirm_canon h
  · exact execGuardTrip_canon h
  · exact execSoftoffDelayEnd_canon h
  · exact execDrvfltConfirm_canon h
  · exact execOsvSweepStart_canon h
  · exact execOsvSweepSample_canon h
  · exact execLaneCommitWord_canon h
  · exact execPartnerMissing_canon h
  · exact execLaneFault_canon h
  · exact execHoldDrainComplete_canon h
  · exact execHoldDrainTimeout_canon h
  · exact execCheckVectorComplete_canon h
  · exact execMirrorCaptureComplete_canon h
  · exact execMirrorWriteStart_canon h
  · exact execMirrorWriteComplete_canon h
  · exact execLaneRestart_canon h
  · exact execRestartCheckComplete_canon h
  · exact execRestartCopyComplete_canon h
  · exact execLaneRestartFail_canon h
  · exact execLaneSwap_canon h
  · exact execFaultReport_canon h
  · exact execGraceExpiry_canon h
  · exact execAccAck_canon h
  · exact execAccAckAll_canon h
  · exact execAccForce_canon h
  · exact execLogWrite_canon h
  · exact execLogW0Read_canon h
  · exact execLogW3Read_canon h
  · exact execArchEnable_canon h
  · exact execArchSample_canon h
  · exact execArchSlotRead_canon h
  · exact execArchRecordTimeout_canon h
  · exact execArchHeaderWritten_canon h
  · exact execArchArm_canon h
  · exact execArchDisarm_canon h
  · exact execArchSwtrig_canon h
  · exact execArchRelease_canon h
  · exact execArmioEdge_canon h
  · exact execDplArmTime_canon h
  · exact execTrigioEdge_canon h
  · exact execArchTrigioStuck_canon h
  · exact execTrigioPulseEnd_canon h
  · exact execArmioPulseEnd_canon h
  · exact execRelayCommand_canon h
  · exact execRelaySettle_canon h
  · exact execRelayReadbackChange_canon h
  · exact execWeldStepTimeout_canon h
  · exact execIsoWeldDue_canon h
  · exact execIsoWeldOverdue_canon h
  · exact execClrWeld_canon h
  · exact execSetWeld_canon h
  · exact execTestPulseStart_canon h
  · exact execTestPulseEnd_canon h
  · exact execSinPreSample_canon h
  · exact execSinInSample_canon h
  · exact execSealSample_canon h
  · exact execTake_canon h
  · exact execGiveYield_canon h
  · exact execGiveWait_canon h
  · exact execGiveDelay_canon h
  · exact execGiveUntil_canon h
  · exact execGiveExit_canon h
  · exact execGiveSuspend_canon h
  · exact execCmdStart_canon h
  · exact execCmdSuspend_canon h
  · exact execCmdResume_canon h
  · exact execCmdStop_canon h
  · exact execFlagSet_canon h
  · exact execFlagClear_canon h
  · exact execFlagRequest_canon h
  · exact execShelfTick_canon h
  · exact execCircStarve_canon h
  · exact execCircRunLong_canon h
  · exact execCoreDebugHalt_canon h
  · exact execTimeNsRead_canon h
  · exact execTimeAdjustStart_canon h
  · exact execTimeAdjustEnd_canon h
  · exact execTimeStepRequest_canon h
  · exact execTimeStep_canon h
  · exact execComparatorArm_canon h
  · exact execTimeComparatorFire_canon h
  · exact execSecondCarry_canon h
  · exact execPpsOutEnd_canon h
  · exact execPpsInEdge_canon h
  · exact execTimePpsLoss_canon h
  · exact execEthFrameReceived_canon h
  · exact execEthTxStart_canon h
  · exact execEthLaunchTime_canon h
  · exact execEthTxComplete_canon h
  · exact execEthTxKick_canon h
  · exact execMdioGo_canon h
  · exact execMdioComplete_canon h
  · exact execEthMdioTimeout_canon h
  · exact execEthLinkChange_canon h
  · exact execCanEnable_canon h
  · exact execCanFrameReceived_canon h
  · exact execDplFrameReceived_canon h
  · exact execCanTxRequest_canon h
  · exact execCanTxAbort_canon h
  · exact execCanArbitrationEntry_canon h
  · exact execCanTxAttemptEnd_canon h
  · exact execCanRecover_canon h
  · exact execCanRecoveryComplete_canon h
  · exact execCanRejoin_canon h
  · exact execInboxDone_canon h
  · exact execReceiptDone_canon h
  · exact execDplEnable_canon h
  · exact execDplHeartbeatDue_canon h
  · exact execDplPeerTimeout_canon h
  · exact execDplTokenRefill_canon h
  · exact execDplPeerFree_canon h
  · exact execDplKeyWrite_canon h
  · exact execSscEnable_canon h
  · exact execClockGateWrite_canon h
  · exact execPwrbEpoch_canon h
  · exact execLedgerEnable_canon h
  · exact execLedgerAgeTick_canon h
  · exact execLedgerPoint_canon h
  · exact execLedgerPointNow_canon h
  · exact execLedgerMeasStart_canon h
  · exact execLedgerMeasTrigger_canon h
  · exact execLedgerMeasComplete_canon h
  · exact execRepairRun_canon h
  · exact execRepairRunComplete_canon h
  · exact execReadToClear_canon h
  · exact execDebugWrite_canon h
  · exact execCrystalNotQualified_canon h
  · exact execTrigioReadsHigh_canon h
  · exact execSafeNLineChange_canon h
  · exact execPowerDown_canon h
  · exact execCanRxError_canon h

/-! ### A step -/

theorem step_canon (h : s.Canon) : CanonNext (step s) := by
  unfold step
  split
  · exact .next (.idle h)
  · exact exec_canon h

/-- Settles O4: `step` is `exec` of the front command or, on an empty queue, a tick of TIME, and both keep the form. -/
theorem everyStepKeepsTheRegisterFileCanonical : Obligations.EveryStepKeepsTheRegisterFileCanonical :=
  fun _ t h ht => step_canon h t ht

end Sys2Proof.Machine
end

section
/-! ## The debug port -/

namespace Sys2Proof.Machine

/-- A list of latches in which the entry of `key` is replaced: `key` finds the new one. -/
theorem find?_latch_self {V : Type} (l : List (Nat × V)) (key : Nat) (v : V) :
    (l.filter (fun p => p.1 != key) ++ [(key, v)]).find? (fun p => p.1 == key) = some (key, v) := by
  have h : (l.filter fun p => p.1 != key).find? (fun p => p.1 == key) = none := by simp
  rw [List.find?_append, h]
  simp

/-- A list of latches in which the entry of `key` is replaced: another key finds what it found. -/
theorem find?_latch_of_ne {V : Type} (l : List (Nat × V)) {key k : Nat} (v : V) (hk : k ≠ key) :
    (l.filter (fun p => p.1 != key) ++ [(key, v)]).find? (fun p => p.1 == k) = l.find? fun p => p.1 == k := by
  have h : (fun p : Nat × V => decide ((p.1 != key) = true ∧ (p.1 == k) = true)) = fun p => p.1 == k := by
    funext p
    by_cases hp : p.1 = k <;> simp [hp, hk]
  rw [List.find?_append, List.find?_filter, h]
  simp [hk.symm]

/-- What a debug read may change: the port's answer, its copies of latched registers, its own Colophon latches, and the
supply of free values. -/
structure DebugFrame (d e : Dev) : Prop where
  eq : e = { d with resp := e.resp, dbg := e.dbg, free := e.free, cfg := { d.cfg with hiLatch := e.cfg.hiLatch } }
  resp : ∀ k, k < 4 → Sparse.at' .none e.resp k = Sparse.at' .none d.resp k
  latch : ∀ core which, core < 4 → which < 3 → e.coloHi core which = d.coloHi core which

namespace DebugFrame

variable {d e : Dev} {c : Prop} [Decidable c]

theorem refl (d : Dev) : DebugFrame d d := ⟨rfl, fun _ _ => rfl, fun _ _ _ _ => rfl⟩

theorem trans {f : Dev} (h : DebugFrame d e) (g : DebugFrame e f) : DebugFrame d f where
  eq := g.eq.trans (by rw [h.eq])
  resp k hk := (g.resp k hk).trans (h.resp k hk)
  latch core which hc hw := (g.latch core which hc hw).trans (h.latch core which hc hw)

protected theorem ite {e' : Dev} (h : DebugFrame d e) (h' : DebugFrame d e') : DebugFrame d (if c then e else e') := by
  split <;> assumption

/-- The answer at the port changes no core's answer. -/
theorem answer (h : DebugFrame d e) (r : Resp) : DebugFrame d (e.answer 4 r) :=
  h.trans ⟨rfl, fun _ hk => Sparse.get_set_of_ne _ _ _ (Nat.ne_of_lt hk), fun _ _ _ _ => rfl⟩

theorem dbgLatch (d : Dev) (l : List (Nat × Word)) : DebugFrame d (d.dbgLatch l) :=
  ⟨rfl, fun _ _ => rfl, fun _ _ _ _ => rfl⟩

theorem freeWord (d : Dev) : DebugFrame d d.freeWord.2 := ⟨rfl, fun _ _ => rfl, fun _ _ _ _ => rfl⟩

/-- The port keeps its latch of a Colophon pair apart from those of the cores. -/
theorem readColoLo (d : Dev) (which : Nat) : DebugFrame d (d.readColoLo 4 which) := by
  let l := d.cfg.hiLatch.filter (fun p => p.1 != which + 3) ++ [(which + 3, d.rdw (coloLo which + 4))]
  refine answer (e := { d with cfg := { d.cfg with hiLatch := l } }) ⟨rfl, fun _ _ => rfl, fun core k hc hk => ?_⟩ _
  have hne : core ≠ 4 := by omega
  have hkey : k ≠ which + 3 := by omega
  simp only [Dev.coloHi, if_neg hne]
  rw [find?_latch_of_ne d.cfg.hiLatch _ hkey]
  rfl

/-- A debug read of a register (R7). -/
theorem debugRead (d : Dev) (a : Nat) : DebugFrame d (d.debugRead a) := by
  have ans (w : Word) : DebugFrame d (d.answer 4 (.data w)) := .answer (refl d) _
  have kept (l : List (Nat × Word)) (w : Word) : DebugFrame d ((d.dbgLatch l).answer 4 (.data w)) :=
    .answer (dbgLatch d l) _
  unfold Dev.debugRead
  refine .ite (kept _ _) (.ite (readColoLo d _) (.ite (ans _) (.ite ?_ (.ite (ans _) (.ite (ans _) (.ite (ans _)
    (.ite (ans _) (.ite (kept _ _) (ans _)))))))))
  split
  · exact kept _ _
  · exact kept _ _
  · exact ans _

/-- A debug read of a Strand store (R116). -/
theorem strandRead (d : Dev) (c : StrandCell) : DebugFrame d (d.strandRead c) := by
  unfold Dev.strandRead
  split
  · exact .answer (refl d) _
  · exact .answer (freeWord d) _

end DebugFrame

/-- Every debug read that answers stays within the frame; memory and the queue of commands stay. -/
theorem execDebugRead_frame {size : Size} {addr : DebugPlace} {ecc : Ecc} {s t : State}
    (h : execDebugRead size addr ecc s = .next t) : ∃ e, DebugFrame s.d e ∧ t = { s with d := e } := by
  have bus : DebugFrame s.d (s.d.answer 4 .busError) := .answer (.refl _) _
  cases addr with
  | strand c =>
    cases h
    exact ⟨_, .strandRead s.d c, rfl⟩
  | mem a =>
    change s.debugLoad size a.toNat ecc = .next t at h
    unfold State.debugLoad at h
    split at h
    · cases h
      exact ⟨_, bus, rfl⟩
    · split at h
      · cases h
        exact ⟨_, bus, rfl⟩
      · split at h
        · cases h
        · cases h
          exact ⟨_, .debugRead s.d _, rfl⟩
    · cases h
      exact ⟨_, .ite bus (.ite (.refl _) (.answer (.refl _) _)), rfl⟩

/-- A permitted debug read of memory answers the bytes that stand there. -/
theorem debugLoad_memory {size : Size} {addr : Nat} {s : State} {p : Place} {a : Nat} (hr : route 4 addr = some (p, a))
    (hp : p ≠ .regs) (hperm : s.d.permits p .load size a = true) (hrow : s.d.rowGone a = false)
    (hbank : s.d.bankWaits p a = false) :
    s.debugLoad size addr .none =
      .next (s.onDev fun d => d.answer 4 (.data (word (Mem.num s.mem a (accessBytes size))))) := by
  have hecc : (Ecc.none == Ecc.double) = false := rfl
  unfold State.debugLoad
  rw [hr]
  split
  · contradiction
  · rename_i heq
    cases heq
    exact absurd rfl hp
  · rename_i heq
    cases heq
    simp [State.onDev, hperm, hrow, hbank, hecc]

/-- The Strand store of a physical Stake holds the Strand of the logical Stake that it serves first. -/
theorem strandStore_of_served {d : Dev} {lane phys k : Nat} {sec : Strand} (hk : k < 32) (hs : d.servedBy lane k = phys)
    (hfirst : ∀ j, j < k → d.servedBy lane j ≠ phys) (hsec : d.pat.strands.filter (fun x => x.stake == k) = [sec]) :
    d.strandStore lane phys = sec.ops := by
  have hfind : ((List.range 32).find? fun k => d.servedBy lane k == phys) = some k := by
    rw [List.find?_range_eq_some]
    exact ⟨by simpa using hs, by simpa using hk, fun j hj => by simpa using hfirst j hj⟩
  simp [Dev.strandStore, hfind, hsec]

/-- A word access to a register of a listed block whose clock no gate stops is a debug read of the register. -/
theorem exec_debugRead_reg {s : State} {addr : Word} {a : Nat} {ecc : Ecc} (hr : route 4 addr.toNat = some (.regs, a))
    (ha : a % 4 = 0) (hb : (blockOf a).isEmpty = false) (hg : Dev.gateBit a = none) (hbare : bareBlock a = false) :
    exec (.debugRead .word (.mem addr) ecc) s = .next (s.onDev fun d => d.debugRead a) := by
  change s.debugLoad .word addr.toNat ecc = _
  simp [State.debugLoad, hr, Dev.regError, ha, hb, hbare, Dev.gated, hg]

/-- A latched copy is what a debug read of its register answers. -/
theorem dbgWord_dbgLatch {d : Dev} {l : List (Nat × Word)} {a : Nat} {v w : Word}
    (h : l.find? (fun p => p.1 == a) = some (a, v)) : (d.dbgLatch l).dbgWord a w = v := by
  simp [Dev.dbgLatch, Dev.dbgWord, List.find?_append, h]

@[simp] theorem dbgWord_answer (d : Dev) (agent a : Nat) (r : Resp) (w : Word) :
    (d.answer agent r).dbgWord a w = d.dbgWord a w := rfl

/-- The port's read of a LO register latches the matching HI for the port (R7, R104). -/
theorem coloHi_readColoLo (d : Dev) (which : Nat) :
    (d.readColoLo 4 which).coloHi 4 which = d.rdw (coloLo which + 4) := by
  have h := find?_latch_self d.cfg.hiLatch (which + 3) (d.rdw (coloLo which + 4))
  simp [Dev.readColoLo, Dev.coloHi, h]

/-- A debug read of TIME.NS latches the seconds and the short time (R7). -/
theorem debugRead_timeNs (d : Dev) :
    d.debugRead 0x40050000 = (d.dbgLatch [(0x40050004, word d.time.sec), (0x40050008, word (d.time.sec / 2 ^ 32)),
      (0x4005000C, d.shortTime)]).answer 4 (.data (word d.time.ns)) := rfl

/-- A debug read of a Colophon LO register. -/
theorem debugRead_coloLo (d : Dev) (which : Fin 3) :
    d.debugRead (0x40004010 + 8 * which.val) = d.readColoLo 4 which.val := by
  fin_cases which <;> rfl

/-- A debug read of LOG_W0 with no entry latched latches the words of the oldest entry. -/
theorem debugRead_logW0 {d : Dev} {e : LogEntry} {l : List LogEntry} (hn : d.acc.latch = none) (hl : d.acc.fifo = e :: l) :
    d.debugRead R.ACC_LOG_W0_WORD.addr = (d.dbgLatch (Dev.debugRead.logCopy e)).answer 4 (.data e.w0) := by
  simp [Dev.debugRead, R.ACC_LOG_W0_WORD, hn, hl]

/-- Settles O11: the frame of every debug read, then what each kind of read answers or latches. -/
theorem debugReadsChangeNothingCoresSee : Obligations.DebugReadsChangeNothingCoresSee := by
  refine ⟨fun size addr ecc s t h => ?_, fun size addr s p a hr hp hperm hrow hbank => ?_,
    fun size ecc c s k sec op hk hs hfirst hsec hop => ?_, fun ecc s => ?_, fun ecc which s => ?_,
    fun ecc s e l hn hl => ?_⟩
  · obtain ⟨e, he, rfl⟩ := execDebugRead_frame h
    exact ⟨congrArg (fun d => { s with d := d }) he.eq, he.resp, he.latch⟩
  · exact debugLoad_memory hr hp hperm hrow hbank
  · have hstore := strandStore_of_served hk hs hfirst hsec
    have hread : s.d.strandRead c = s.d.answer 4 (.data (word (op.toNat / 2 ^ (if c.hi then 32 else 0)))) := by
      simp only [Dev.strandRead, hstore, hop]
      cases c.hi <;> rfl
    exact congrArg (fun d => Host.Outcome.next { s with d := d }) hread
  · refine ⟨_, exec_debugRead_reg (a := 0x40050000) rfl rfl rfl rfl rfl, ?_⟩
    simp only [State.onDev_d, debugRead_timeNs, dbgWord_answer]
    exact ⟨dbgWord_dbgLatch rfl, dbgWord_dbgLatch rfl, dbgWord_dbgLatch rfl⟩
  · have hroute : route 4 (word (0x40004010 + 8 * which.val)).toNat = some (.regs, 0x40004010 + 8 * which.val) := by
      fin_cases which <;> rfl
    refine ⟨_, exec_debugRead_reg hroute ?_ ?_ ?_ ?_, ?_⟩
    · fin_cases which <;> rfl
    · fin_cases which <;> rfl
    · fin_cases which <;> rfl
    · fin_cases which <;> rfl
    · simp only [State.onDev_d, debugRead_coloLo, coloHi_readColoLo]
      exact congrArg s.d.rdw (by simp only [coloLo]; omega)
  · refine ⟨_, exec_debugRead_reg (a := R.ACC_LOG_W0_WORD.addr) rfl rfl rfl rfl rfl, ?_⟩
    simp only [State.onDev_d, debugRead_logW0 hn hl, dbgWord_answer]
    exact ⟨dbgWord_dbgLatch rfl, dbgWord_dbgLatch rfl, dbgWord_dbgLatch rfl⟩

end Sys2Proof.Machine
end

section
/-! ## A read of QTIME does more than clear

QTIME.STAMP is a read-to-clear field (R208) whose read removes the head entry of the converter's result queue, so that
the register shows the next entry's stamp and not its reset value. -/

namespace Sys2Proof.Machine

/-- Mode M3 with the cores running, and two results, of stamps 5 and 7, in the queue of converter 0. -/
def twoResults : State :=
  let d : Dev := { sys := { held := .none, coresOut := true } }
  { d := ((d.set R.SYSCTL_MODE_CUR 3).setAdc 0 { queue := [(1, 5), (2, 7)] }).adcSync 0, mem := [], pending := [] }

/-- The state meets the hypotheses: core 0 runs, and no gate is over the converter. -/
theorem twoResults_reads : twoResults.d.coreHeld 0 = false ∧ twoResults.d.gated 0x40010038 = false := by decide +kernel

/-- A core's read of QTIME answers the head's stamp, removes the head and leaves the register at the next stamp. -/
theorem twoResults_readQtime :
    let t := after (exec (.readToClear 0 0x40010038) twoResults) twoResults
    Sparse.at' .none t.d.resp 0 = .data 5 ∧ (t.d.adc 0).queue = [(2, 7)] ∧ t.d.get (R.ADC_QTIME_STAMP 0) = 7 := by
  decide +kernel

/-- Refutes O12: READ_TO_CLEAR of QTIME with two results queued removes the first (R208), so that the RC field STAMP
reads 7, the second's stamp, where the statement claims its reset value 0. -/
theorem not_registerAccessesFollowAccessCodes : ¬ Obligations.RegisterAccessesFollowAccessCodes := by
  unfold Obligations.RegisterAccessesFollowAccessCodes
  rintro ⟨-, -, hread⟩
  obtain ⟨hcore, hgate⟩ := twoResults_reads
  obtain ⟨t, ht, -, hclear, -⟩ :=
    hread 0 0x40010038 twoResults _ hcore rfl ⟨_, List.mem_singleton_self _, rfl⟩ hgate
  have hreset : t.d.get (R.ADC_QTIME_STAMP 0) = 0 := hclear _ (List.mem_singleton_self _) rfl
  obtain ⟨-, -, hnext⟩ := twoResults_readQtime
  simp only [ht, after, hreset] at hnext
  cases hnext

end Sys2Proof.Machine
end

section
/-! ## Memory stays canonical

Most commands act on the device alone, and leave memory as it was. The others write words, bytes or slots through the
operations whose laws stand in Laws/Memory, and each of those keeps the canonical form. -/

namespace Sys2Proof.Machine

/-- The memory of the state stands in canonical form. -/
structure State.MemWf (s : State) : Prop where
  wf : Mem.wf s.mem = true

/-- Where the outcome is a next state, its memory stands in canonical form. -/
def MemNext (o : Host.Outcome State Fault Refusal) : Prop := ∀ t, o = .next t → t.MemWf

variable {s t : State} {c : Prop} [Decidable c] {α : Type}

namespace State.MemWf

protected theorem ite (h : s.MemWf) (h' : t.MemWf) : (if c then s else t).MemWf := by split <;> assumption

theorem foldl {f : State → α → State} {l : List α} (h : s.MemWf) (hf : ∀ s x, s.MemWf → (f s x).MemWf) :
    (l.foldl f s).MemWf :=
  List.foldlRecOn (motive := State.MemWf) l f h fun s hs x _ => hf s x hs

/-- An effect on the device alone leaves memory as it was. -/
theorem onDev {f : Dev → Dev} (h : s.MemWf) : (s.onDev f).MemWf := ⟨h.wf⟩

theorem withDev {d : Dev} (h : s.MemWf) : ({ s with d := d } : State).MemWf := ⟨h.wf⟩

theorem withMem {d : Dev} {m : Mem} (h : Mem.wf m = true) : ({ s with d := d, mem := m } : State).MemWf := ⟨h⟩

theorem coreDev {core : Nat} {f : Dev → Dev} (h : s.MemWf) : (s.coreDev core f).MemWf := by
  unfold State.coreDev
  exact .ite h (.onDev h)

theorem after {o : Host.Outcome State Fault Refusal} (ho : MemNext o) (h : s.MemWf) : (after o s).MemWf := by
  unfold Machine.after
  split
  · exact ho _ rfl
  · exact h

end State.MemWf

namespace MemNext

theorem next (h : s.MemWf) : MemNext (.next s) := fun _ e => by cases e; exact h

theorem onDev {f : Dev → Dev} (h : s.MemWf) : MemNext (.next (s.onDev f)) := .next (.onDev h)

theorem coreDev {core : Nat} {f : Dev → Dev} (h : s.MemWf) : MemNext (.next (s.coreDev core f)) := .next (.coreDev h)

theorem refused {r : Refusal} : MemNext (.refused r) := fun _ e => by cases e

protected theorem ite {o p : Host.Outcome State Fault Refusal} (h : MemNext o) (h' : MemNext p) :
    MemNext (if c then o else p) := by
  split <;> assumption

theorem byCore {core : Nat} {f : State → Host.Outcome State Fault Refusal} (h : s.MemWf) (hf : MemNext (f s)) :
    MemNext (s.byCore core f) := by
  unfold State.byCore
  exact .ite (.next h) hf

end MemNext

/-! ### The Weave -/

theorem State.MemWf.takeCoefs {lane ls : Nat} (h : s.MemWf) : (s.takeCoefs lane ls).MemWf := by
  unfold State.takeCoefs
  split
  · exact h
  · exact .ite (.withMem (Mem.wf_wrWords _ _ h.wf)) h

theorem State.MemWf.takeProfile {lane : Nat} (h : s.MemWf) : (s.takeProfile lane).MemWf :=
  .ite (.withMem (Mem.wf_wrWord _ _ (Mem.wf_wrWord _ _ h.wf))) h

theorem State.MemWf.grant {n tag : Nat} {ecc : Ecc} {second : Bool} (h : s.MemWf) : (s.grant n tag ecc second).MemWf := by
  unfold State.grant
  split
  · exact h
  · split
    · exact h
    · dsimp only
      split
      · split <;> exact .onDev h
      · exact .withMem (Mem.wf_wrWords _ _ h.wf)
      · exact h

theorem State.MemWf.drainBanks {n k : Nat} (h : s.MemWf) : (State.drainBanks n k s).MemWf := by
  induction k generalizing s with
  | zero => exact h
  | succ k ih =>
    unfold State.drainBanks
    split
    · exact ih (.grant h)
    · exact h

theorem State.MemWf.beginRun {n : Nat} {l : LoopSet} {no : Nat} {snap : List (Nat × Word)} (h : s.MemWf) :
    (s.beginRun n l no snap).MemWf := by
  unfold State.beginRun
  extract_lets s1 s2
  have h2 : s2.MemWf := .takeCoefs (.ite (.drainBanks h) h)
  exact .onDev (.ite (.takeProfile h2) h2)

theorem State.MemWf.trigger {n : Nat} {l : LoopSet} {time : Nat} (h : s.MemWf) : (s.trigger n l time).MemWf := by
  unfold State.trigger
  split
  · exact h
  · split
    · exact .onDev h
    · extract_lets +onlyGivenNames s1 _ _ _
      have h1 : s1.MemWf := .ite (.onDev h) h
      exact .ite (.onDev h1) (.beginRun h1)

theorem State.MemWf.startPending {n ls : Nat} (h : s.MemWf) : (s.startPending n ls).MemWf := by
  unfold State.startPending
  extract_lets _ _
  split
  · exact .ite h (.beginRun (.ite (.onDev (.onDev h)) (.onDev h)))
  · exact h

theorem State.MemWf.issue {opc : Nat} {i : Issue} {eff : Issued → Dev → Dev × Effect} (h : s.MemWf) :
    (s.issue opc i eff).MemWf := by
  unfold State.issue
  split
  · exact h
  · exact .onDev h
  · exact .onDev h

theorem MemNext.issue {opc : Nat} {i : Issue} {eff : Issued → Dev → Dev × Effect} (h : s.MemWf) :
    MemNext (.next (s.issue opc i eff)) := .next (.issue h)

theorem State.MemWf.complete {n tag : Nat} {residueFails : Bool} (h : s.MemWf) :
    (s.complete n tag residueFails).MemWf := by
  unfold State.complete
  split
  · exact h
  · exact .ite h (.withMem (Mem.wf_writeSlots _ _ _ h.wf))

theorem execLoopsetTrigger_memWf {lane : Fin 2} {ch : Fin 8} (h : s.MemWf) : MemNext (execLoopsetTrigger lane ch s) := by
  unfold execLoopsetTrigger
  refine .next ?_
  split
  · exact .foldl (.onDev h) fun _ _ h => .trigger h
  · exact h

theorem execLoopsetRunComplete_memWf {lane : Fin 2} {ls : Fin 16} {cycles : Nat} (h : s.MemWf) :
    MemNext (execLoopsetRunComplete lane ls cycles s) := by
  unfold execLoopsetRunComplete
  refine .next ?_
  dsimp only
  split
  · exact .ite (.startPending (.onDev h)) h
  · exact h

theorem execLoopsetHung_memWf {lane : Fin 2} {ls : Fin 16} (h : s.MemWf) : MemNext (execLoopsetHung lane ls s) := by
  unfold execLoopsetHung
  refine .next ?_
  split
  · exact .ite h (.startPending (.onDev h))
  · exact h

/-! ### The Archive -/

theorem State.MemWf.archFlush {k : Nat} (h : s.MemWf) : (s.archFlush k).MemWf := by
  unfold State.archFlush
  dsimp only
  split
  · exact h
  · exact .withMem (Mem.wf_wrWords _ _ h.wf)

theorem State.MemWf.archStore {k : Nat} {w : Word} {time : Nat} (h : s.MemWf) : (s.archStore k w time).MemWf := by
  unfold State.archStore
  extract_lets _ s1 _
  have h1 : s1.MemWf := by
    unfold s1
    split
    · exact .onDev h
    · exact .ite (.onDev (.archFlush h)) (.onDev h)
  split
  · exact .ite (.archFlush h1) h1
  · exact h1

theorem State.MemWf.archEnd {k : Nat} {noEnd : Bool} (h : s.MemWf) : (s.archEnd k noEnd).MemWf :=
  .ite h (.onDev (.archFlush h))

theorem State.MemWf.archEndAll {noEnd : Bool} (h : s.MemWf) : (s.archEndAll noEnd).MemWf :=
  .foldl h fun _ _ h => .archEnd h

theorem State.MemWf.archArm {b : Nat} {id : Option Nat} (h : s.MemWf) : (s.archArm b id).MemWf :=
  .withMem (Mem.wf_wrWord _ _ h.wf)

theorem State.MemWf.archRequest {id : Option Nat} (h : s.MemWf) : (s.archRequest id).MemWf := by
  unfold State.archRequest
  dsimp only
  split
  · exact h
  · split
    · split
      · exact .archArm h
      · exact .onDev h
    · exact h
    · exact .onDev h

theorem State.MemWf.archNext (h : s.MemWf) : s.archNext.MemWf := by
  unfold State.archNext
  split
  · split
    · exact .archArm h
    · exact .onDev h
  · exact h

theorem State.MemWf.archFinish {g : ArchTrig} {done : Nat} (h : s.MemWf) : (s.archFinish g done).MemWf :=
  .archNext (.withMem (Mem.wf_wrBytes _ _ (Mem.wf_wrWords _ _ (Mem.wf_wrWords _ _ h.wf))))

theorem State.MemWf.archMaskTest {k : Nat} {v : Int} {t : Nat} {judged : Bool} (h : s.MemWf) :
    (s.archMaskTest k v t judged).MemWf := by
  unfold State.archMaskTest
  dsimp only
  split
  · exact h
  · split
    · exact h
    · have h1 : ∀ d, ({ s with d := d } : State).MemWf := fun _ => .withDev h
      exact .ite (h1 _) (.ite (.ite (.onDev (h1 _)) (.onDev (.archEndAll (.onDev (.onDev (h1 _))))))
        (.onDev (.archEndAll (.onDev (.onDev (h1 _))))))

theorem State.MemWf.archTake {k : Nat} {w : Word} {time : Nat} (h : s.MemWf) : (s.archTake k w time).MemWf := by
  unfold State.archTake
  dsimp only
  split
  · exact .ite (.archStore (.onDev h)) (.onDev h)
  · exact .ite (.onDev h) (.ite (.onDev (.archEnd (.onDev h))) (.archStore (.onDev h)))
  · exact .onDev h

theorem State.MemWf.archOffer {k : Nat} {w : Word} {time : Nat} (h : s.MemWf) : (s.archOffer k w time).MemWf :=
  .ite (.onDev h) (.ite (.onDev (.onDev h)) (.archTake (.onDev h)))

theorem State.MemWf.archWords {ks : List Nat} {w : Word} {time : Nat} (h : s.MemWf) : (s.archWords ks w time).MemWf := by
  unfold State.archWords
  extract_lets _ _ s1 _
  have h1 : s1.MemWf := .foldl h fun _ _ h => .archOffer h
  exact .onDev (.foldl h1 fun _ _ h => .archMaskTest h)

theorem State.MemWf.armWrite (h : s.MemWf) : s.armWrite.MemWf := .onDev (.archRequest h)

theorem State.MemWf.releaseWrite {banks : Nat} (h : s.MemWf) : (s.releaseWrite banks).MemWf :=
  .ite (.archNext (.withDev h)) (.withDev h)

theorem State.MemWf.dplArm {id sec ns : Nat} (h : s.MemWf) : (s.dplArm id sec ns).MemWf :=
  .ite (.archRequest (.onDev h)) (.onDev h)

theorem execArchSample_memWf {ch : Fin 3} (h : s.MemWf) : MemNext (execArchSample ch s) := by
  unfold execArchSample
  split
  · exact .ite (.next (.archWords (.withDev h))) (.next (.withDev h))
  · exact .next h

theorem execArchSlotRead_memWf {ch : Fin 64} (h : s.MemWf) : MemNext (execArchSlotRead ch s) := by
  unfold execArchSlotRead
  refine .next ?_
  split
  · exact h
  · exact .ite h (.ite (.onDev h) (.archWords (.onDev h)))

theorem execArchRecordTimeout_memWf (h : s.MemWf) : MemNext (execArchRecordTimeout s) :=
  .next (.ite (.onDev (.archEndAll h)) h)

theorem execArchHeaderWritten_memWf (h : s.MemWf) : MemNext (execArchHeaderWritten s) := by
  unfold execArchHeaderWritten
  refine .next ?_
  split
  · exact .archFinish h
  · exact h

theorem execDplArmTime_memWf (h : s.MemWf) : MemNext (execDplArmTime s) := by
  unfold execDplArmTime
  refine .next ?_
  split
  · exact h
  · exact .archRequest (.onDev h)

/-! ### Lanes, resets and loads -/

theorem execMirrorWriteComplete_memWf {ls : Fin 16} (h : s.MemWf) : MemNext (execMirrorWriteComplete ls s) := by
  unfold execMirrorWriteComplete
  refine .next ?_
  split
  · exact .ite h (.startPending (.withMem (Mem.wf_foldl _ (fun _ _ h => Mem.wf_wrWord _ _ h) _ h.wf)))
  · exact h

theorem execRestartCopyComplete_memWf (h : s.MemWf) : MemNext (execRestartCopyComplete s) := by
  unfold execRestartCopyComplete
  refine .next ?_
  split
  · exact .ite (.withMem (Mem.wf_copy _ _ _ h.wf)) h
  · exact h

theorem State.MemWf.warm {cause : Fld} (h : s.MemWf) : (s.warm cause).MemWf :=
  .ite h (.withMem (Mem.wf_clearPattern h.wf))

theorem State.MemWf.loadImage {img : List Nat} {len : Nat} {fw sig : List Nat} {entry : Word} (h : s.MemWf) :
    (s.loadImage img len fw sig entry).MemWf := by
  have hstore := Mem.wf_wrBytes (img.take 262144) 0x3C000000 h.wf
  unfold State.loadImage
  extract_lets m
  split
  · exact .withMem hstore
  · have hload : ∀ secs prof straps,
        Mem.wf ([0, 1].foldl (fun m n => loadLaneMem m secs prof straps n) m) = true :=
      fun _ _ _ => Mem.wf_foldl _ (fun _ _ h => Mem.wf_loadLaneMem _ _ _ _ h) _ hstore
    exact .ite (.withMem (hload _ _ _)) (.withMem (hload _ _ _))

theorem execPatternLoad_memWf (h : s.MemWf) : MemNext (execPatternLoad s) := by
  unfold execPatternLoad
  refine .next ?_
  dsimp only
  split
  · exact h
  · split
    · exact .onDev h
    · exact .loadImage h

theorem execHostBootImage_memWf {patLen : Word} {pattern : List Byte} {fwLen entry : Word}
    {firmware signature : List Byte} (h : s.MemWf) :
    MemNext (execHostBootImage patLen pattern fwLen entry firmware signature s) :=
  .next (.ite h (.ite (.onDev h) (.ite (.onDev h) (.loadImage (.withMem (Mem.wf_wrBytes _ _ h.wf))))))

/-! ### Links -/

theorem State.MemWf.canStore {n k : Nat} {f : CanFrame} {sof : Word} {gate : Option Nat} {dpl : Bool} (h : s.MemWf) :
    (s.canStore n k f sof gate dpl).MemWf :=
  .ite (.ite (.withDev h) (.withDev h)) (.withMem (Mem.wf_wrBytes _ _ (Mem.wf_wrWords _ _ h.wf)))

theorem State.MemWf.canGate {n : Nat} {f : CanFrame} {sof : Word} (h : s.MemWf) : (s.canGate n f sof).MemWf := by
  unfold State.canGate
  extract_lets _ _
  refine .ite h ?_
  split
  · split
    · exact .canStore h
    · exact .canStore h
    · exact h
  · split
    · exact .canStore h
    · exact .canStore h
    · exact h

theorem State.MemWf.receipt {n b : Nat} {sof : Word} (h : s.MemWf) : (s.receipt n b sof).MemWf :=
  .ite h (.ite (.withDev h) (.withMem (Mem.wf_wrWords _ _ h.wf)))

theorem State.MemWf.txExamine {m q fuel : Nat} (h : s.MemWf) : (s.txExamine m q fuel).MemWf := by
  induction fuel generalizing s with
  | zero => exact h
  | succ fuel ih =>
    have hlate : ∀ d a b v w, ({ s with d := d, mem := Mem.wrWord (Mem.wrWord s.mem a v) b w } : State).MemWf :=
      fun _ _ _ _ _ => .withMem (Mem.wf_wrWord _ _ (Mem.wf_wrWord _ _ h.wf))
    exact .ite h (.ite (.withDev h) (.ite (.withDev h)
      (.ite (.ite (.withDev h) (.ite (ih (hlate _ _ _ _ _)) (.withDev h))) (.withDev h))))

theorem State.MemWf.txWake {m q : Nat} (h : s.MemWf) : (s.txWake m q).MemWf := by
  unfold State.txWake
  split
  · exact .ite (.onDev h) h
  · exact h

theorem State.MemWf.txLook {m q : Nat} (h : s.MemWf) : (s.txLook m q).MemWf := .txWake (.txExamine h)

theorem State.MemWf.txExamineAll {m : Nat} (h : s.MemWf) : (s.txExamineAll m).MemWf := .foldl h fun _ _ h => .txLook h

theorem State.MemWf.txDone {m : Nat} {x : EthTx} (h : s.MemWf) : (s.txDone m x).MemWf := by
  unfold State.txDone
  extract_lets _ _ _ m1 _ _
  have h1 : Mem.wf m1 = true := by
    unfold m1
    split
    · exact Mem.wf_wrWords _ _ h.wf
    · exact h.wf
  exact .txExamine (.withMem (Mem.wf_wrWord _ _ (Mem.wf_wrWord _ _ h1)))

theorem State.MemWf.ethEnable {m : Nat} (h : s.MemWf) : (s.ethEnable m).MemWf := .txExamineAll (.onDev h)

theorem State.MemWf.ethKick {m q : Nat} (h : s.MemWf) : (s.ethKick m q).MemWf := .txExamine (.onDev h)

theorem State.MemWf.rxFrame {m : Nat} {frame : List Nat} {bad : Bool} (h : s.MemWf) : (s.rxFrame m frame bad).MemWf :=
  .ite (.withDev h) (.ite (.withDev h) (.ite (.withDev h)
    (.withMem (Mem.wf_wrWord _ _ (Mem.wf_wrWords _ _ (Mem.wf_wrBytes _ _ h.wf))))))

theorem execEthTxStart_memWf {mac : Fin 2} (h : s.MemWf) : MemNext (execEthTxStart mac s) := by
  have hall : (s.txExamineAll mac.val).MemWf := .txExamineAll h
  unfold execEthTxStart
  refine .next ?_
  dsimp only
  split
  · split
    · exact .withDev hall
    · exact hall
  · exact hall

theorem execEthTxComplete_memWf {mac : Fin 2} (h : s.MemWf) : MemNext (execEthTxComplete mac s) := by
  unfold execEthTxComplete
  refine .next ?_
  split
  · exact .txDone h
  · exact h

theorem State.MemWf.dplAccept {k : Nat} {fr : CanFrame} {f : List Nat} {sof : Word} (h : s.MemWf) :
    (s.dplAccept k fr f sof).MemWf := by
  unfold State.dplAccept
  dsimp only
  split
  · exact .ite (.dplArm (.onDev h)) (.onDev h)
  · exact .ite (.canStore (.onDev (.onDev h))) (.onDev (.onDev h))
  · exact .canStore (.onDev h)

theorem State.MemWf.dplRate {k : Nat} {fr : CanFrame} {f : List Nat} {sof : Word} (h : s.MemWf) :
    (s.dplRate k fr f sof).MemWf :=
  .ite (.ite (.withDev h) (.withDev h)) (.ite (.withDev h) (.dplAccept (.withDev h)))

theorem State.MemWf.dplCheck {fr : CanFrame} {sof : Word} (h : s.MemWf) : (s.dplCheck fr sof).MemWf := by
  unfold State.dplCheck
  dsimp only
  have hdev : ∀ d, ({ s with d := d } : State).MemWf := fun _ => .withDev h
  refine .ite (hdev _) (.ite (hdev _) (.ite (hdev _) (.ite (hdev _) ?_)))
  split
  · exact .ite (hdev _) (hdev _)
  · exact .ite (hdev _) (.ite (hdev _) (.dplRate (hdev _)))

theorem State.MemWf.canDeliver {n : Nat} {f : CanFrame} {sof : Word} (h : s.MemWf) : (s.canDeliver n f sof).MemWf :=
  .ite (.dplCheck h) (.canGate h)

theorem State.MemWf.canReceive {n : Nat} {f : CanFrame} {sof : Word} (h : s.MemWf) : (s.canReceive n f sof).MemWf :=
  .ite h (.canDeliver (.onDev h))

theorem State.MemWf.dplPrepare {n b : Nat} (h : s.MemWf) : (s.dplPrepare n b).MemWf := by
  unfold State.dplPrepare
  dsimp only
  split
  · exact .withDev h
  · exact .withMem (Mem.wf_wrBytes _ _ (Mem.wf_wrWord _ _ h.wf))

theorem State.MemWf.arbitrate {n : Nat} (h : s.MemWf) : (s.arbitrate n).MemWf := by
  unfold State.arbitrate
  dsimp only
  split
  · exact h
  · split
    · exact h
    · split
      · split <;> exact .withDev h
      · exact .ite (.dplPrepare h) (.withDev h)

theorem State.MemWf.txSuccess {n : Nat} {x : CanTx} (h : s.MemWf) : (s.txSuccess n x).MemWf := by
  unfold State.txSuccess
  extract_lets +onlyGivenNames s1 s2
  have h2 : s2.MemWf := .ite (.canDeliver (.onDev h)) (.onDev h)
  exact .ite (.onDev h2) (.ite (.dplArm (.onDev (.receipt h2))) (.onDev (.receipt h2)))

theorem State.MemWf.txEnd {n : Nat} {x : CanTx} {res : TxEnd} (h : s.MemWf) : (s.txEnd n x res).MemWf := by
  unfold State.txEnd
  split
  · exact .txSuccess h
  · exact .onDev h
  · exact .onDev h
  · exact .onDev h

theorem execCanTxAttemptEnd_memWf {bus : Fin 4} {res : TxEnd} (h : s.MemWf) :
    MemNext (execCanTxAttemptEnd bus res s) := by
  unfold execCanTxAttemptEnd
  refine .next ?_
  split
  · exact .txEnd h
  · exact h

/-! ### Register writes -/

theorem execRstReqWarm_memWf {key : BitVec 16} (h : s.MemWf) : MemNext (execRstReqWarm key s) :=
  .next (.ite (.warm h) h)

theorem State.MemWf.writeSysctl {a : Nat} {v : Word} (h : s.MemWf) : (s.writeSysctl a v).MemWf := by
  unfold State.writeSysctl
  split
  · exact .onDev h
  · exact .ite (.after (execRstReqWarm_memWf h) h) h
  · exact .onDev h
  · exact .after (.onDev h) h
  · exact .onDev h

theorem State.MemWf.writeLedger {a : Nat} {v : Word} (h : s.MemWf) : (s.writeLedger a v).MemWf := by
  unfold State.writeLedger
  refine .ite (.onDev h) ?_
  split
  · exact .onDev h
  · exact .ite (.after (.onDev h) h) h
  · exact .onDev h
  · exact .ite (.after (.onDev h) h) h
  · exact .onDev h

theorem State.MemWf.writeCfg {a : Nat} {v : Word} (h : s.MemWf) : (s.writeCfg a v).MemWf :=
  .ite (.after (.onDev h) h) (.ite (.onDev h) (.onDev h))

theorem State.MemWf.writeLane {a : Nat} {v : Word} (h : s.MemWf) : (s.writeLane a v).MemWf := by
  unfold State.writeLane
  split
  · extract_lets _ s1 s2
    have h1 : s1.MemWf := .onDev h
    have h2 : s2.MemWf := .ite (.after (.onDev h1) h1) h1
    exact .ite (.after (.onDev h2) h2) h2
  · exact .onDev h

theorem State.MemWf.writeAdc {c a : Nat} {v : Word} (h : s.MemWf) : (s.writeAdc c a v).MemWf := by
  unfold State.writeAdc
  dsimp only
  split
  · exact .onDev h
  · exact .ite (.after (.onDev h) h) h
  · exact .ite (.after (.onDev (.onDev h)) (.onDev h)) (.onDev h)
  · exact .after (.onDev h) h
  · exact .onDev h

theorem State.MemWf.writeSdf {a : Nat} {v : Word} (h : s.MemWf) : (s.writeSdf a v).MemWf := by
  unfold State.writeSdf
  dsimp only
  refine .ite ?_ (.ite h (.onDev h))
  split
  · exact .onDev h
  · exact .ite (.after (.onDev h) h) h
  · exact .onDev h

theorem State.MemWf.clrFault {n : Nat} (h : s.MemWf) : (s.clrFault n).MemWf := by
  unfold State.clrFault
  exact .after (.onDev (.withDev h)) (.withDev h)

theorem State.MemWf.writePwm {a : Nat} {v : Word} (h : s.MemWf) : (s.writePwm a v).MemWf := by
  unfold State.writePwm
  dsimp only
  split
  · split
    · exact .ite (.clrFault (.onDev h)) (.onDev h)
    · exact .onDev h
    · exact .onDev h
    · exact .onDev h
    · exact .onDev h
    · exact .onDev h
    · exact .ite (.after (.onDev h) h) h
    · exact .onDev h
    · exact .onDev h
  · split
    · exact .ite (.after (.onDev h) h) (.onDev h)
    · exact .after (.onDev h) h
    · exact .onDev h

theorem State.MemWf.writeGsup {a : Nat} {v : Word} (h : s.MemWf) : (s.writeGsup a v).MemWf := by
  unfold State.writeGsup
  dsimp only
  refine .ite (.onDev h) (.ite (.ite (.after (.onDev h) h) h) (.ite ?_ (.ite (.onDev h) (.onDev h))))
  split
  · exact .onDev h
  · exact .ite (.after (.onDev (.onDev h)) (.onDev h)) (.onDev (.onDev h))
  · exact .onDev h

theorem State.MemWf.writeAcc {a : Nat} {v : Word} (h : s.MemWf) : (s.writeAcc a v).MemWf := by
  unfold State.writeAcc
  dsimp only
  split
  · exact .ite (.after (.onDev h) h) h
  · exact .onDev h
  · exact .onDev h
  · exact .onDev h

theorem State.MemWf.writeIso {a : Nat} {v : Word} (h : s.MemWf) : (s.writeIso a v).MemWf := by
  unfold State.writeIso
  split
  · extract_lets _ s1 s2
    have h1 : s1.MemWf := .onDev h
    have h2 : s2.MemWf := .ite (.after (.onDev h1) h1) h1
    exact .ite (.after (.onDev h2) h2) h2
  · exact .ite (.after (.onDev h) h) h
  · exact .onDev h
  · exact .onDev h

theorem State.MemWf.writeArch {a : Nat} {v : Word} (h : s.MemWf) : (s.writeArch a v).MemWf := by
  unfold State.writeArch
  split
  · exact .onDev h
  · exact .ite (.after (.onDev h) h) h
  · extract_lets s1 s2
    have h1 : s1.MemWf := .ite (.armWrite h) h
    have h2 : s2.MemWf := .ite (.onDev h1) h1
    exact .ite (.onDev h2) h2
  · exact .releaseWrite h
  · exact .onDev h

theorem State.MemWf.writeTime {a : Nat} {v : Word} (h : s.MemWf) : (s.writeTime a v).MemWf :=
  .ite (.onDev h) (.ite (.ite (.after (.onDev h) h) h) (.ite (.onDev h) (.onDev h)))

theorem State.MemWf.writeEth {m a : Nat} {v : Word} (h : s.MemWf) : (s.writeEth m a v).MemWf := by
  unfold State.writeEth
  extract_lets _ _
  refine .ite (.onDev (.ite (.ethEnable (.onDev h)) (.onDev (.onDev h)))) (.ite (.onDev h) (.ite h (.ite ?_ (.onDev h))))
  exact .ite (.ethKick (.onDev h)) (.onDev h)

theorem State.MemWf.regWrite {agent a : Nat} {v : Word} (h : s.MemWf) : (s.regWrite agent a v).MemWf := by
  unfold State.regWrite
  split
  · exact .writeSysctl h
  · exact .onDev h
  · exact .writeLedger h
  · exact .writeCfg h
  · exact .writeLane h
  · exact .writeAdc h
  · exact .writeAdc h
  · exact .writeAdc h
  · exact .writeAdc h
  · exact .writeSdf h
  · exact .writePwm h
  · exact .writePwm h
  · exact .writePwm h
  · exact .writePwm h
  · exact .writeGsup h
  · exact .writeAcc h
  · exact .writeIso h
  · exact .writeArch h
  · exact .onDev h
  · exact .writeTime h
  · exact .writeEth h
  · exact .writeEth h
  · exact .onDev h
  · exact .onDev h
  · exact .onDev h
  · exact .onDev h
  · exact .onDev h

/-! ### The bus -/

theorem State.MemWf.regAccess {core : Nat} {size : Size} {a : Nat} {w : Option Word} (h : s.MemWf) :
    MemNext (s.regAccess core size a w) := by
  refine .ite (.onDev h) (.ite .refused ?_)
  cases w with
  | none => exact .onDev h
  | some v => exact .next (.regWrite (.onDev h))

theorem State.MemWf.coreLoad {core : Nat} {instr : Bool} {p : Place} {a n : Nat} {ecc : Ecc} {mac : Nat} {parity : Bool}
    {way : Nat} (h : s.MemWf) : (s.coreLoad core instr p a n ecc mac parity way).MemWf := by
  unfold State.coreLoad
  dsimp only
  split
  · exact .withDev h
  · split <;> exact .withDev h

theorem State.MemWf.coreWrite {core : Nat} {p : Place} {a n v : Nat} (h : s.MemWf) : (s.coreWrite core p a n v).MemWf :=
  .withMem (Mem.wf_wrNum n a v h.wf)

theorem State.MemWf.coreStore {core : Nat} {p : Place} {a n v : Nat} {ecc : Ecc} {mac : Nat} (h : s.MemWf) :
    (s.coreStore core p a n v ecc mac).MemWf := by
  unfold State.coreStore
  split
  · exact .withDev h
  · exact .coreWrite (.withDev h)

theorem State.MemWf.amo {core : Nat} {op : Amo} {p : Place} {a : Nat} {x : Word} (h : s.MemWf) :
    (s.amo core op p a x).MemWf := by
  unfold State.amo
  dsimp only
  split
  · exact .onDev h
  · exact .ite (.onDev (.coreWrite h)) (.onDev h)
  · exact .onDev (.coreWrite h)

theorem execCoreMemoryAccess_memWf {core : Fin 4} {kind : Access} {size : Size} {addr data : Word} {ecc : Ecc}
    {mac : Fin 100} {parity : Bool} {way : Fin 4} (h : s.MemWf) :
    MemNext (execCoreMemoryAccess core kind size addr data ecc mac parity way s) := by
  unfold execCoreMemoryAccess
  refine .byCore h ?_
  dsimp only
  split
  · exact .onDev h
  · cases kind with
    | fetch => exact .onDev h
    | load | store => exact .regAccess h
  · refine .next (.ite (.onDev h) (.ite h ?_))
    cases kind with
    | store => exact .coreStore h
    | load | fetch => exact .coreLoad h

theorem execRegisterWrite_memWf {core : Fin 4} {addr data : Word} (h : s.MemWf) :
    MemNext (execRegisterWrite core addr data s) := .byCore h (.ite (.regAccess h) (.next h))

theorem execReadToClear_memWf {core : Fin 4} {addr : Word} (h : s.MemWf) : MemNext (execReadToClear core addr s) :=
  .byCore h (.ite (.regAccess h) (.next h))

theorem execAmoAccess_memWf {core : Fin 4} {op : Amo} {addr data : Word} {ecc : Ecc} {mac : Fin 100} {parity : Bool}
    (h : s.MemWf) : MemNext (execAmoAccess core op addr data ecc mac parity s) := by
  unfold execAmoAccess
  refine .byCore h (.next ?_)
  split
  · exact .onDev h
  · refine .ite (.onDev h) ?_
    split
    · exact .withDev h
    · exact .amo (.withDev h)

theorem execDebugRead_memWf {size : Size} {addr : DebugPlace} {ecc : Ecc} (h : s.MemWf) :
    MemNext (execDebugRead size addr ecc s) := by
  unfold execDebugRead
  split
  · exact .onDev h
  · unfold State.debugLoad
    split
    · exact .onDev h
    · exact .ite (.onDev h) (.ite .refused (.onDev h))
    · exact .onDev h

theorem execDebugWrite_memWf {size : Size} {addr data : Word} (h : s.MemWf) :
    MemNext (execDebugWrite size addr data s) := by
  unfold execDebugWrite
  split
  · exact .onDev h
  · exact .ite (.onDev h) (.ite .refused (.next (.regWrite (.onDev h))))
  · exact .next (.ite (.onDev h) (.ite (.onDev h) (.withMem (Mem.wf_wrNum _ _ _ h.wf))))

theorem execScrubWord_memWf {addr : Word} {ecc : Ecc} {mac : Fin 100} {row : Fin 128} (h : s.MemWf) :
    MemNext (execScrubWord addr ecc mac row s) := by
  unfold execScrubWord
  refine .next ?_
  split
  · exact h
  · exact .onDev h

/-! ### The commands -/

theorem exec_memWf {i : Instr} (h : s.MemWf) : MemNext (exec i s) := by
  cases i with
  | registerWrite => exact execRegisterWrite_memWf h
  | readToClear => exact execReadToClear_memWf h
  | coreMemoryAccess => exact execCoreMemoryAccess_memWf h
  | amoAccess => exact execAmoAccess_memWf h
  | debugRead => exact execDebugRead_memWf h
  | debugWrite => exact execDebugWrite_memWf h
  | scrubWord => exact execScrubWord_memWf h
  | profileWindowUpdate => exact .next (.takeProfile (.takeProfile h))
  | powerOnReset | vddaonBrownout => exact .next (.withMem (Mem.wf_clearPattern h.wf))
  | warmResetPin | debugReset => exact .next (.warm h)
  | wdogWarmReset => exact .next (.ite (.warm h) h)
  | rstReqWarm => exact execRstReqWarm_memWf h
  | patternLoad => exact execPatternLoad_memWf h
  | hostBootImage => exact execHostBootImage_memWf h
  | loopsetTrigger => exact execLoopsetTrigger_memWf h
  | loopsetRunComplete => exact execLoopsetRunComplete_memWf h
  | loopsetHung => exact execLoopsetHung_memWf h
  | operationComplete => exact .next (.complete h)
  | memoryGrant => exact .next (.grant h)
  | opNop | opPrd | opPwr | opRtime | opLd | opSt | opLdp | opStp | opRaise | opMov | opLdi | opLdih | opGetf | opAdd
  | opSub | opAddi | opNeg | opAbs | opAbsd | opCpys | opMin | opMax | opMid3 | opClamp | opSel | opCmplt | opCmple
  | opCmpeq | opCmpne | opHyst | opIsat | opSgn | opAvg | opDzone | opRlim | opAngadd | opAngdiff | opWrapa | opLdexp
  | opRint | opFrac | opCvt | opToi | opTou | opIto | opUto | opIpre | opSatt | opSattl | opIadd | opIsub | opIaddi
  | opIabs | opImin | opImax | opAnd | opOr | opXor | opAndn | opShl | opShr | opSar | opRor | opBfx | opBfi | opIcmplt
  | opIcmpltu | opIcmpeq | opClz | opPopc | opMul | opMac | opMsub | opMsbr | opMuli | opSqr | opLpf1 | opIntg | opImul
  | opImulh | opImac | opSincos | opSin | opCos | opRot | opAtan2 | opHypot | opVec | opExp | opLn | opDiv | opRecip
  | opSqrt | opRsqrt | opIdiv | opIdivu => exact .issue h
  | mirrorWriteComplete => exact execMirrorWriteComplete_memWf h
  | restartCopyComplete => exact execRestartCopyComplete_memWf h
  | archSample => exact execArchSample_memWf h
  | archSlotRead => exact execArchSlotRead_memWf h
  | archRecordTimeout => exact execArchRecordTimeout_memWf h
  | archHeaderWritten => exact execArchHeaderWritten_memWf h
  | archArm => exact .next (.armWrite h)
  | archRelease => exact .next (.releaseWrite h)
  | armioEdge => exact .next (.ite (.archRequest h) h)
  | dplArmTime => exact execDplArmTime_memWf h
  | ethFrameReceived => exact .next (.ite (.rxFrame h) h)
  | ethTxStart => exact execEthTxStart_memWf h
  | ethLaunchTime => exact .next (.txLook h)
  | ethTxComplete => exact execEthTxComplete_memWf h
  | ethTxKick => exact .next (.ethKick h)
  | canFrameReceived | dplFrameReceived => exact .next (.canReceive h)
  | canArbitrationEntry => exact .next (.arbitrate h)
  | canTxAttemptEnd => exact execCanTxAttemptEnd_memWf h
  | mcinval | busAccessTimeout | colophonLoRead | qtimeRead | sdDataRead | logW0Read | logW3Read | take | giveYield
  | giveWait | giveDelay | giveUntil | giveExit | giveSuspend | cmdStart | cmdSuspend | cmdResume | cmdStop
  | timeNsRead => exact .coreDev h
  -- the other commands act on the device alone
  | _ => exact .onDev h

/-- Settles O3: `step` is `exec` of the front command or, on an empty queue, a tick of TIME, which leaves memory as it
was. -/
theorem everyStepKeepsMemoryCanonical : Obligations.EveryStepKeepsMemoryCanonical := by
  intro s t h ht
  cases hq : s.pending with
  | nil =>
    rw [step_nil s hq] at ht
    exact (MemNext.onDev ⟨h⟩ t ht).wf
  | cons c rest =>
    simp only [step, hq] at ht
    exact (exec_memWf (s := { s with pending := rest }) ⟨h⟩ t ht).wf

end Sys2Proof.Machine
end

section
/-! ## Accesses to memory over the bus -/

namespace Sys2Proof.Machine

variable {s : State} {d : Dev} {p : Place} {a : Nat}

/-! ### Where an access leads -/

theorem State.byCore_of_running {core : Nat} {f : State → Host.Outcome State Fault Refusal}
    (h : s.d.coreHeld core = false) : s.byCore core f = f s := by simp [State.byCore, h]

theorem State.coreDev_of_running {core : Nat} {f : Dev → Dev} (h : s.d.coreHeld core = false) :
    s.coreDev core f = s.onDev f := by simp [State.coreDev, h]

/-- The debug port is no core, and no reset holds it (log entry 149). -/
theorem coreHeld_debugPort (d : Dev) : d.coreHeld 4 = false := by simp [Dev.coreHeld]

/-- What a running core's access to a place of memory does (R19, R20). -/
def State.memoryAccess (s : State) (core : Nat) (kind : Access) (size : Size) (p : Place) (a : Nat) (addr data : Word)
    (ecc : Ecc) (mac : Nat) (parity : Bool) (way : Nat) : State :=
  let n := accessBytes size
  if !s.d.permits p kind size a || (kind == .store && p == .msgCan && s.d.outPending a) then
    s.onDev fun d => d.busFail core addr.toNat
  else if kind = .load ∧ s.d.bankWaits p a then s
  else match kind with
    | .store => s.coreStore core p a n (data.toNat % 2 ^ (8 * n)) ecc mac
    | .load => s.coreLoad core false p a n ecc mac parity way
    | .fetch => s.coreLoad core true p a n ecc mac parity way

section
variable {core : Fin 4} {kind : Access} {size : Size} {addr data : Word} {ecc : Ecc} {mac : Fin 100} {parity : Bool}
  {way : Fin 4}

/-- A running core's access that leads to memory. -/
theorem exec_access_memory (hc : s.d.coreHeld core.val = false) (hr : route core.val addr.toNat = some (p, a))
    (hp : p ≠ .regs) :
    exec (.coreMemoryAccess core kind size addr data ecc mac parity way) s =
      .next (s.memoryAccess core.val kind size p a addr data ecc mac.val parity way.val) := by
  change execCoreMemoryAccess core kind size addr data ecc mac parity way s = _
  unfold execCoreMemoryAccess
  rw [State.byCore_of_running hc]
  split
  · simp_all
  · simp_all
  · rename_i hr'
    cases hr.symm.trans hr'
    cases kind <;> rfl

/-- A core's access to memory that the Core access column does not permit fails. -/
theorem memoryAccess_refused {core mac way : Nat} (hperm : s.d.permits p kind size a = false) :
    s.memoryAccess core kind size p a addr data ecc mac parity way = s.onDev fun d => d.busFail core addr.toNat := by
  simp [State.memoryAccess, hperm]

/-- A core's permitted load of memory. -/
theorem memoryAccess_load {core mac way : Nat} (hperm : s.d.permits p .load size a = true)
    (hbank : s.d.bankWaits p a = false) :
    s.memoryAccess core .load size p a addr data ecc mac parity way =
      s.coreLoad core false p a (accessBytes size) ecc mac parity way := by
  have hkind : (Access.load == Access.store) = false := rfl
  simp [State.memoryAccess, hperm, hkind, hbank]

/-- A core's permitted load of lane memory waits while a Stake requests the bank (R134). -/
theorem memoryAccess_load_waits {core mac way : Nat} (hperm : s.d.permits p .load size a = true)
    (hbank : s.d.bankWaits p a = true) : s.memoryAccess core .load size p a addr data ecc mac parity way = s := by
  have hkind : (Access.load == Access.store) = false := rfl
  simp [State.memoryAccess, hperm, hkind, hbank]

/-- A core's permitted fetch from memory. -/
theorem memoryAccess_fetch {core mac way : Nat} (hperm : s.d.permits p .fetch size a = true) :
    s.memoryAccess core .fetch size p a addr data ecc mac parity way =
      s.coreLoad core true p a (accessBytes size) ecc mac parity way := by
  have hkind : (Access.fetch == Access.store) = false := rfl
  simp [State.memoryAccess, hperm, hkind]

/-- A core's permitted store to memory, outside the outbox elements of pending slots (R466). -/
theorem memoryAccess_store {core mac way : Nat} (hperm : s.d.permits p .store size a = true)
    (hout : p = .msgCan → s.d.outPending a = false) :
    s.memoryAccess core .store size p a addr data ecc mac parity way =
      s.coreStore core p a (accessBytes size) (data.toNat % 2 ^ (8 * accessBytes size)) ecc mac := by
  have hpend : (p == .msgCan && s.d.outPending a) = false := by
    by_cases h : p = .msgCan <;> simp [h, hout]
  simp [State.memoryAccess, hperm, hpend]

end

/-- No place that permits fetches has banks. -/
theorem bankWaits_of_permits_fetch {size : Size} (h : s.d.permits p .fetch size a = true) : s.d.bankWaits p a = false := by
  cases p with
  | lane n => simp [Dev.permits] at h
  | _ => rfl

/-! ### Loads -/

/-- A line of the core's cache that holds the address answers. -/
theorem State.coreLoad_hit {core : Nat} {instr : Bool} {n : Nat} {ecc : Ecc} {mac way : Nat} {l : CacheLine}
    (hl : s.d.lineOf (Dev.cacheKey core instr) a = some l) :
    s.coreLoad core instr p a n ecc mac false way = s.onDev fun d => d.answer core (.data (word (l.num a n))) := by
  simp only [State.coreLoad, Dev.parityCheck, Bool.false_and, Bool.false_eq_true, if_false, hl]
  rfl

/-- A miss meets memory: the word there answers, and fills a line where the region is cached. -/
theorem State.coreLoad_miss {core : Nat} {instr : Bool} {n : Nat} {ecc : Ecc} {mac way : Nat} {e x : Dev}
    (hl : s.d.lineOf (Dev.cacheKey core instr) a = none) (hm : s.d.memCheck core p a ecc mac = (some e, x)) :
    s.coreLoad core instr p a n ecc mac false way = s.onDev fun _ =>
      (if p.cached then e.fill s.mem (Dev.cacheKey core instr) a way else e).answer core
        (.data (word (Mem.num s.mem a n))) := by
  simp only [State.coreLoad, Dev.parityCheck, Bool.false_and, Bool.false_eq_true, if_false, hl, hm]
  rfl

/-- A miss that meets an error which cannot be corrected changes what the check changed, and no more. -/
theorem State.coreLoad_fails {core : Nat} {instr : Bool} {n : Nat} {ecc : Ecc} {mac way : Nat} {x : Dev}
    (hl : s.d.lineOf (Dev.cacheKey core instr) a = none) (hm : s.d.memCheck core p a ecc mac = (none, x)) :
    s.coreLoad core instr p a n ecc mac false way = { s with d := x } := by
  simp only [State.coreLoad, Dev.parityCheck, Bool.false_and, Bool.false_eq_true, if_false, hl, hm]

/-- Memory without an error passes the check, and nothing changes. -/
theorem Dev.memCheck_clean {core mac : Nat} (hrow : d.rowGone a = false) : d.memCheck core p a .none mac = (some d, d) := by
  simp [Dev.memCheck, hrow]

theorem Dev.lines_setLines_self (key : Nat) (l : List CacheLine) : (d.setLines key l).lines key = l := by
  simp [Dev.lines, Dev.setLines, Sparse.at', Sparse.put]

theorem Dev.lines_setLines_of_ne {key k : Nat} (l : List CacheLine) (h : k ≠ key) :
    (d.setLines key l).lines k = d.lines k := by
  simp [Dev.lines, Dev.setLines, Sparse.at', Sparse.put, Sparse.get_set_of_ne _ _ _ h]

/-- The line that a miss fills holds the eight words of memory at its base. -/
theorem Dev.lineOf_fill (m : Mem) (key way : Nat) : (d.fill m key a way).lineOf key a =
    some ⟨way, a / 32 * 32, (List.range 8).map fun i => Mem.word m (a / 32 * 32 + 4 * i)⟩ := by
  rw [Dev.lineOf, Dev.fill, Dev.lines_setLines_self, List.find?_append, List.find?_eq_none.mpr]
  · simp [Dev.lineBase]
  · intro x hx
    simp only [List.mem_filter, Bool.and_eq_true] at hx
    simpa using hx.2.2

/-- A load or fetch without an error, where no line answers. -/
theorem State.coreLoad_clean {core : Nat} {instr : Bool} {n : Nat} {mac way : Nat} (hrow : s.d.rowGone a = false)
    (hl : s.d.lineOf (Dev.cacheKey core instr) a = none) :
    let t := s.coreLoad core instr p a n .none mac false way
    t.d.resp = (s.d.answer core (.data (word (Mem.num s.mem a n)))).resp ∧
      t = { s with d := { s.d with resp := t.d.resp, caches := t.d.caches } } ∧
      (p.cached = false → t.d.caches = s.d.caches) ∧
      (p.cached = true → t.d.lineOf (Dev.cacheKey core instr) a =
        some ⟨way, a / 32 * 32, (List.range 8).map fun i => Mem.word s.mem (a / 32 * 32 + 4 * i)⟩) := by
  rw [State.coreLoad_miss hl (Dev.memCheck_clean hrow)]
  cases hcached : p.cached with
  | false => exact ⟨rfl, rfl, fun _ => rfl, fun h => (by cases h)⟩
  | true => exact ⟨rfl, rfl, fun h => (by cases h), fun _ => Dev.lineOf_fill _ _ _⟩

/-- Settles O6: loads and fetches are `coreLoad`, which answers from the line that holds the address or from memory. -/
theorem loadsAndFetchesAnswerTheWord : Obligations.LoadsAndFetchesAnswerTheWord := by
  intro core instr size addr data mac way s p a c key n hc hr hp hperm
  have hmem := exec_access_memory (kind := if instr then .fetch else .load) (size := size) (data := data)
    (ecc := .none) (mac := mac) (parity := false) (way := way) hc hr hp
  have hexec (hbank : s.d.bankWaits p a = false) :
      exec c s = .next (s.coreLoad core.val instr p a n .none mac.val false way.val) := by
    refine hmem.trans (congrArg Host.Outcome.next ?_)
    cases instr with
    | true => exact memoryAccess_fetch hperm
    | false => exact memoryAccess_load hperm hbank
  refine ⟨fun hbank => ?_, fun hbank l hl => ?_, fun hbank hl hrow => ?_⟩
  · cases instr with
    | true => cases hbank.symm.trans (bankWaits_of_permits_fetch hperm)
    | false => exact hmem.trans (congrArg Host.Outcome.next (memoryAccess_load_waits hperm hbank))
  · exact (hexec hbank).trans (congrArg Host.Outcome.next (State.coreLoad_hit hl))
  · exact gives_of_next (hexec hbank) (State.coreLoad_clean hrow hl)

/-! ### Stores -/

/-- Storing the low bytes of a word puts each of them at its place and leaves the other bytes. -/
theorem Mem.wrNum_stored (m : Mem) (n v : Nat) :
    (∀ i, i < n → Mem.rd (Mem.wrNum m a n (v % 2 ^ (8 * n))) (a + i) = BitVec.ofNat 8 (v / 256 ^ i)) ∧
      (∀ b, b < a ∨ a + n ≤ b → Mem.rd (Mem.wrNum m a n (v % 2 ^ (8 * n))) b = Mem.rd m b) := by
  refine ⟨fun i hi => ?_, fun b hb => ?_⟩
  · rw [Mem.rd_wrNum, if_pos (by omega), Nat.add_sub_cancel_left]
    apply BitVec.eq_of_toNat_eq
    have hn : 2 ^ (8 * n) = 256 ^ i * 256 ^ (n - i) := by
      rw [← pow_add, Nat.add_sub_cancel' hi.le, pow_mul]
      rfl
    have h256 : 256 ∣ 256 ^ (n - i) := dvd_pow_self 256 (by omega)
    rw [BitVec.toNat_ofNat, BitVec.toNat_ofNat, hn, Nat.mod_mul_right_div_self]
    exact Nat.mod_mod_of_dvd _ h256
  · rw [Mem.rd_wrNum, if_neg (by omega)]

/-- Clearing the reservations of a granule changes the reservations alone. -/
theorem Dev.clearResv_eq (d : Dev) (a : Nat) : d.clearResv a = { d with resv := (d.clearResv a).resv } :=
  List.foldlRecOn (motive := fun e : Dev => e = { d with resv := e.resv }) _ _ rfl fun e he c _ => by
    split
    · rw [he]
      rfl
    · exact he

theorem Dev.holdsResv_setResv_self (core : Nat) : (d.setResv core 0).holdsResv core a = false := by
  simp [Dev.holdsResv, Dev.setResv, Sparse.at', Sparse.put, Dev.granule]

theorem Dev.holdsResv_setResv_zero {k : Nat} (core : Nat) (h : d.holdsResv k a = false) :
    (d.setResv core 0).holdsResv k a = false := by
  by_cases hk : k = core
  · rw [hk, Dev.holdsResv_setResv_self]
  · simpa [Dev.holdsResv, Dev.setResv, Sparse.at', Sparse.put, Sparse.get_set_of_ne _ _ _ hk] using h

/-- After the pass over a list of cores, no core of the list holds the granule, and none that did not hold it before. -/
theorem Dev.holdsResv_clear_fold (l : List Nat) (k : Nat) : ∀ d : Dev, (k ∈ l ∨ d.holdsResv k a = false) →
    (l.foldl (fun d c => if d.holdsResv c a then d.setResv c 0 else d) d).holdsResv k a = false := by
  induction l with
  | nil => intro d h; simpa using h
  | cons c l ih =>
    intro d h
    refine ih _ ?_
    dsimp only
    by_cases hk : d.holdsResv k a = false
    · right
      split
      · exact Dev.holdsResv_setResv_zero c hk
      · exact hk
    · rcases h with h | h
      · rcases List.mem_cons.mp h with rfl | h
        · right
          rw [if_pos (by simpa using hk)]
          exact Dev.holdsResv_setResv_self _
        · exact .inl h
      · exact absurd h hk

/-- A core's write leaves no core a reservation of the granule (R414). -/
theorem Dev.holdsResv_clearResv {k : Nat} (hk : k < 4) : (d.clearResv a).holdsResv k a = false :=
  Dev.holdsResv_clear_fold _ _ _ (.inl (List.mem_range.mpr hk))

/-! ### The caches after a store -/

theorem Dev.lineOf_dropLine_self (key : Nat) : (d.dropLine key a).lineOf key a = none := by
  rw [Dev.lineOf, Dev.dropLine, Dev.lines_setLines_self, List.find?_eq_none]
  intro l hl
  simpa using (List.mem_filter.mp hl).2

theorem Dev.lines_dropLine_of_ne {key k : Nat} (h : k ≠ key) : (d.dropLine key a).lines k = d.lines k :=
  Dev.lines_setLines_of_ne _ h

/-- A line that a store reaches takes the new word. -/
def CacheLine.taking (l : CacheLine) (a : Nat) (w : Word) : CacheLine :=
  if l.base == Dev.lineBase a then { l with words := l.words.set (a % 32 / 4) w } else l

/-- The core's own data cache after its store. -/
def Dev.ownTakes (d : Dev) (m : Mem) (core a : Nat) : Dev :=
  let key := Dev.cacheKey core false
  if (d.lineOf key a).isNone then d
  else d.setLines key ((d.lines key).map fun l => l.taking a (Mem.word m (a / 4 * 4)))

/-- The data caches of the other cores of a list drop their line of the address. -/
def Dev.othersDrop (d : Dev) (core a : Nat) (l : List Nat) : Dev :=
  l.foldl (fun d c => if c == core then d else d.dropLine (Dev.cacheKey c false) a) d

/-- What the caches see of a store: the core's own line takes the word, the others drop a line of core SRAM (R413). -/
theorem Dev.snoop_eq (m : Mem) (core : Nat) :
    d.snoop m core p a = if p = .sram then (d.ownTakes m core a).othersDrop core a (List.range 4) else d.ownTakes m core a :=
  rfl

theorem Dev.lines_ownTakes_of_ne {m : Mem} {core k : Nat} (h : k ≠ Dev.cacheKey core false) :
    (d.ownTakes m core a).lines k = d.lines k := by
  unfold Dev.ownTakes
  dsimp only
  split
  · rfl
  · exact Dev.lines_setLines_of_ne _ h

theorem Dev.lineOf_ownTakes {m : Mem} {core : Nat} {l : CacheLine} (hl : d.lineOf (Dev.cacheKey core false) a = some l) :
    (d.ownTakes m core a).lineOf (Dev.cacheKey core false) a =
      some { l with words := l.words.set (a % 32 / 4) (Mem.word m (a / 4 * 4)) } := by
  have hbase : ∀ x : CacheLine, ((x.taking a (Mem.word m (a / 4 * 4))).base == Dev.lineBase a) = (x.base == Dev.lineBase a) := by
    intro x
    unfold CacheLine.taking
    split <;> rfl
  have hl' : (d.lines (Dev.cacheKey core false)).find? (fun x => x.base == Dev.lineBase a) = some l := hl
  have hself : (l.base == Dev.lineBase a) = true := List.find?_some (p := fun x : CacheLine => x.base == Dev.lineBase a) hl'
  simp only [Dev.ownTakes, hl, Option.isNone_some, Bool.false_eq_true, if_false]
  rw [Dev.lineOf, Dev.lines_setLines_self, List.find?_map]
  simp only [Function.comp_def, hbase, hl', Option.map_some]
  simp only [CacheLine.taking, hself, if_true]

/-- A cache that is not the data cache of another core keeps its lines. -/
theorem Dev.lines_othersDrop {core k : Nat} (l : List Nat) (h : ∀ c, c ≠ core → k ≠ Dev.cacheKey c false) :
    (d.othersDrop core a l).lines k = d.lines k :=
  List.foldlRecOn (motive := fun e : Dev => e.lines k = d.lines k) _ _ rfl fun e he c _ => by
    split
    · exact he
    · rename_i hc
      exact (Dev.lines_dropLine_of_ne (h c (by simpa using hc))).trans he

/-- After the pass over a list of cores, no other core of the list has a line of the address. -/
theorem Dev.lineOf_othersDrop {core c : Nat} (hc : c ≠ core) (l : List Nat) : ∀ d : Dev,
    (c ∈ l ∨ d.lineOf (Dev.cacheKey c false) a = none) →
      (d.othersDrop core a l).lineOf (Dev.cacheKey c false) a = none := by
  induction l with
  | nil => exact fun d h => h.resolve_left List.not_mem_nil
  | cons x l ih =>
    intro d h
    refine ih _ ?_
    dsimp only
    by_cases hx : x = c
    · right
      rw [if_neg (by simpa [hx] using hc), hx]
      exact Dev.lineOf_dropLine_self _
    · refine h.imp (fun h => (List.mem_cons.mp h).resolve_left (Ne.symm hx)) fun h => ?_
      split
      · exact h
      · have hne : Dev.cacheKey c false ≠ Dev.cacheKey x false := by simp [Dev.cacheKey]; omega
        rwa [Dev.lineOf, Dev.lines_dropLine_of_ne hne]

/-- A store of a core changes the caches alone among what it is shown to (R413). -/
theorem Dev.snoop_caches (m : Mem) (core : Nat) : d.snoop m core p a = { d with caches := (d.snoop m core p a).caches } := by
  have hown : d.ownTakes m core a = { d with caches := (d.ownTakes m core a).caches } := by
    unfold Dev.ownTakes
    dsimp only
    split <;> rfl
  rw [Dev.snoop_eq]
  split
  · refine List.foldlRecOn (motive := fun e : Dev => e = { d with caches := e.caches }) _ _ hown fun e he c _ => ?_
    split
    · exact he
    · rw [he]
      rfl
  · exact hown

theorem Dev.cacheKey_data_ne {core c : Nat} (h : c ≠ core) : Dev.cacheKey core false ≠ Dev.cacheKey c false := by
  simp [Dev.cacheKey]
  omega

theorem Dev.odd_ne_cacheKey_data {k : Nat} (c : Nat) (h : k % 2 = 1) : k ≠ Dev.cacheKey c false := by
  simp [Dev.cacheKey, b2n]
  omega

/-- No instruction cache sees a store. -/
theorem Dev.lines_snoop_of_odd {m : Mem} {core k : Nat} (hk : k % 2 = 1) : (d.snoop m core p a).lines k = d.lines k := by
  rw [Dev.snoop_eq]
  split
  · rw [Dev.lines_othersDrop _ fun c _ => Dev.odd_ne_cacheKey_data c hk,
      Dev.lines_ownTakes_of_ne (Dev.odd_ne_cacheKey_data core hk)]
  · exact Dev.lines_ownTakes_of_ne (Dev.odd_ne_cacheKey_data core hk)

theorem Dev.lineOf_snoop_other {m : Mem} {core c : Nat} (hc : c < 4) (hne : c ≠ core) :
    (d.snoop m core .sram a).lineOf (Dev.cacheKey c false) a = none := by
  rw [Dev.snoop_eq, if_pos rfl]
  exact Dev.lineOf_othersDrop hne _ _ (.inl (List.mem_range.mpr hc))

theorem Dev.lineOf_snoop_own {m : Mem} {core : Nat} {l : CacheLine}
    (hl : d.lineOf (Dev.cacheKey core false) a = some l) :
    (d.snoop m core p a).lineOf (Dev.cacheKey core false) a =
      some { l with words := l.words.set (a % 32 / 4) (Mem.word m (a / 4 * 4)) } := by
  rw [Dev.snoop_eq]
  split
  · rw [Dev.lineOf, Dev.lines_othersDrop _ fun c hc => Dev.cacheKey_data_ne hc]
    exact Dev.lineOf_ownTakes hl
  · exact Dev.lineOf_ownTakes hl

/-- A debug write of memory (R7, R413). -/
theorem exec_debugWrite_memory {size : Size} {addr data : Word} (hr : route 4 addr.toNat = some (p, a)) (hp : p ≠ .regs)
    (hperm : s.d.permits p .store size a = true) (hrow : s.d.rowGone a = false) :
    exec (.debugWrite size addr data) s = .next { s with
      mem := Mem.wrNum s.mem a (accessBytes size) (data.toNat % 2 ^ (8 * accessBytes size))
      d := s.d.answer 4 .none } := by
  change execDebugWrite size addr data s = _
  unfold execDebugWrite
  split
  · simp_all
  · simp_all
  · rename_i hr'
    cases hr.symm.trans hr'
    simp [hperm, hrow]

/-- The device after a core's store that left memory at `m`: its answer, and what the reservations and the caches see. -/
def Dev.afterStore (d : Dev) (m : Mem) (core : Nat) (p : Place) (a : Nat) : Dev :=
  ((d.answer core .none).clearResv a).snoop m core p a

theorem State.coreStore_eq {core n v mac : Nat} (hrow : s.d.rowGone a = false) :
    s.coreStore core p a n v .none mac =
      { s with mem := Mem.wrNum s.mem a n v, d := s.d.afterStore (Mem.wrNum s.mem a n v) core p a } := by
  simp only [State.coreStore, ite_self, Dev.memCheck_clean hrow]
  rfl

section
variable {m : Mem} {core : Nat}

/-- A store's frame: the answer, the reservations and the caches. -/
theorem Dev.afterStore_frame : d.afterStore m core p a = { d with
    resp := (d.answer core .none).resp
    resv := ((d.answer core .none).clearResv a).resv
    caches := (d.afterStore m core p a).caches } := by
  unfold Dev.afterStore
  rw [Dev.snoop_caches, Dev.clearResv_eq]
  rfl

theorem Dev.lines_beforeStore (k : Nat) : ((d.answer core .none).clearResv a).lines k = d.lines k := by
  rw [Dev.clearResv_eq]
  rfl

theorem Dev.answer_afterStore : Sparse.at' .none (d.afterStore m core p a).resp core = .none := by
  rw [Dev.afterStore_frame]
  simp [Dev.answer, Sparse.at', Sparse.put]

theorem Dev.holdsResv_afterStore {k : Nat} (hk : k < 4) : (d.afterStore m core p a).holdsResv k a = false := by
  rw [Dev.afterStore_frame]
  exact Dev.holdsResv_clearResv (d := d.answer core .none) hk

theorem Dev.lines_afterStore_of_odd {k : Nat} (hk : k % 2 = 1) : (d.afterStore m core p a).lines k = d.lines k :=
  (Dev.lines_snoop_of_odd hk).trans (Dev.lines_beforeStore k)

theorem Dev.lineOf_afterStore_own {l : CacheLine} (hl : d.lineOf (Dev.cacheKey core false) a = some l) :
    (d.afterStore m core p a).lineOf (Dev.cacheKey core false) a =
      some { l with words := l.words.set (a % 32 / 4) (Mem.word m (a / 4 * 4)) } :=
  Dev.lineOf_snoop_own (by rw [Dev.lineOf, Dev.lines_beforeStore]; exact hl)

end

/-- Settles O7: what a store writes, then the reservations and the caches that follow it. -/
theorem storesChangeTheirBytesOnly : Obligations.StoresChangeTheirBytesOnly := by
  intro size addr data s a p hp n stored hperm hrow
  refine ⟨fun core mac parity way hc hr hout => ?_, fun hr => ?_⟩
  · refine gives_of_next ((exec_access_memory hc hr hp).trans (congrArg Host.Outcome.next
      ((memoryAccess_store hperm hout).trans (State.coreStore_eq hrow)))) ?_
    refine ⟨Mem.wrNum_stored _ _ _, Dev.answer_afterStore, fun k hk => Dev.holdsResv_afterStore hk,
      fun k hk => Dev.lines_afterStore_of_odd hk, ?_, fun l hl => Dev.lineOf_afterStore_own hl, ?_⟩
    · rintro rfl c hc4 hne
      exact Dev.lineOf_snoop_other hc4 hne
    · rw [Dev.afterStore_frame]
  · exact gives_of_next (exec_debugWrite_memory hr hp hperm hrow) ⟨Mem.wrNum_stored _ _ _, rfl⟩

end Sys2Proof.Machine
end

section
/-! ## Refused accesses and ECC errors -/

namespace Sys2Proof.Machine

variable {s : State} {d : Dev} {p : Place} {a : Nat}

/-! ### Bus errors -/

/-- A failed core access: the answer, and CORE_BUS_ERR with the address (R415). -/
theorem Dev.busFail_eq (d : Dev) (core a : Nat) :
    d.busFail core a = { d.answer core .busError with hoop := d.hoop ++ [reportOf d 1 125 a] } := rfl

/-- What the map answers for an address of an agent: a core's own TCM, held under its global window, or a place held
under the address itself (R19). -/
def Leading (agent addr : Nat) (o : Option (Place × Nat)) : Prop :=
  ∀ p a, o = some (p, a) →
    (p = .own ∧ 0x08000000 ≤ addr ∧ addr < 0x08010000 ∧ a = 0x08100000 + agent * 0x10000 + (addr - 0x08000000)) ∨
      (p ≠ .own ∧ a = addr)

namespace Leading

variable {agent addr : Nat} {o o' : Option (Place × Nat)} {c : Prop} [Decidable c]

theorem none : Leading agent addr none := fun _ _ h => by cases h

theorem same {q : Place} (h : q ≠ .own) : Leading agent addr (some (q, addr)) := fun _ _ e => by
  cases e
  exact .inr ⟨h, rfl⟩

protected theorem ite (h : c → Leading agent addr o) (h' : Leading agent addr o') :
    Leading agent addr (if c then o else o') := by
  split
  · exact h ‹c›
  · exact h'

theorem plain {q : Place} (hq : q ≠ .own) (h' : Leading agent addr o') :
    Leading agent addr (if c then some (q, addr) else o') := .ite (fun _ => .same hq) h'

theorem route (agent addr : Nat) : Leading agent addr (route agent addr) := by
  unfold Machine.route
  refine .plain (by decide) (.ite (fun h => .ite (fun _ p a e => ?_) .none) (.plain (by decide) (.plain (by decide)
    (.plain (by decide) (.plain (by decide) (.plain (by decide) (.plain (by decide) (.plain (by decide)
    (.plain (by decide) (.plain (by decide) (.plain (by decide) .none)))))))))))
  simp only [Bool.and_eq_true, decide_eq_true_eq] at h
  cases e
  exact .inl ⟨rfl, h.1, h.2, rfl⟩

end Leading

/-- Registers are held under the address that the agent uses. -/
theorem addr_of_route_regs {agent addr : Nat} (h : route agent addr = some (.regs, a)) : a = addr :=
  ((Leading.route agent addr _ _ h).resolve_left fun h => nomatch h.1).2

section
variable {core : Fin 4} {kind : Access} {size : Size} {addr data : Word} {ecc : Ecc} {mac : Fin 100} {parity : Bool}
  {way : Fin 4}

/-- A running core's access outside the ranges of R19. -/
theorem exec_access_unmapped (hc : s.d.coreHeld core.val = false) (hr : route core.val addr.toNat = none) :
    exec (.coreMemoryAccess core kind size addr data ecc mac parity way) s =
      .next (s.onDev fun d => d.busFail core.val addr.toNat) := by
  change execCoreMemoryAccess core kind size addr data ecc mac parity way s = _
  unfold execCoreMemoryAccess
  rw [State.byCore_of_running hc]
  split
  · rfl
  · simp_all
  · simp_all

/-- A register access that is no aligned word, or reaches a gated block, is an error. -/
theorem Dev.regError_of (h : size ≠ .word ∨ a % 4 ≠ 0 ∨ d.gated a = true) : d.regError size a = true := by
  rcases h with h | h | h <;> simp [Dev.regError, h]

/-- A running core's register access that is a fetch, no aligned word, or reaches a gated block. -/
theorem exec_access_regError (hc : s.d.coreHeld core.val = false) (hr : route core.val addr.toNat = some (.regs, a))
    (hbad : kind = .fetch ∨ size ≠ .word ∨ a % 4 ≠ 0 ∨ s.d.gated a = true) :
    exec (.coreMemoryAccess core kind size addr data ecc mac parity way) s =
      .next (s.onDev fun d => d.busFail core.val addr.toNat) := by
  have ha : a = addr.toNat := addr_of_route_regs hr
  have hreg (w : Option Word) (h : size ≠ .word ∨ a % 4 ≠ 0 ∨ s.d.gated a = true) :
      s.regAccess core.val size a w = .next (s.onDev fun d => d.busFail core.val addr.toNat) := by
    unfold State.regAccess
    rw [if_pos (Dev.regError_of h), ha]
  change execCoreMemoryAccess core kind size addr data ecc mac parity way s = _
  unfold execCoreMemoryAccess
  rw [State.byCore_of_running hc, hr]
  cases kind with
  | fetch => rw [← ha]
  | load => exact hreg none (hbad.resolve_left (by decide))
  | store => exact hreg (some data) (hbad.resolve_left (by decide))

end

/-- Settles O9: each refused access fails the bus, or answers the debug port, and changes nothing else. -/
theorem refusedAccessesHaveNoEffect : Obligations.RefusedAccessesHaveNoEffect := by
  unfold Obligations.RefusedAccessesHaveNoEffect
  refine ⟨fun core kind size addr data ecc mac parity way s hc h => ?_, fun core addr s hc => ?_, fun addr s => ?_,
    fun size addr data s h => ?_⟩
  · rcases h with hr | ⟨p, a, hr, hp, hperm⟩ | ⟨a, hr, hbad⟩
    · exact exec_access_unmapped hc hr
    · exact (exec_access_memory hc hr hp).trans (congrArg Host.Outcome.next (memoryAccess_refused hperm))
    · exact exec_access_regError hc hr hbad
  · have hne : core.val ≠ 4 := by omega
    refine congrArg Host.Outcome.next ((State.coreDev_of_running hc).trans ?_)
    simp only [State.onDev, Fin.val_castLE, if_neg hne]
    split <;> rfl
  · exact congrArg Host.Outcome.next (State.coreDev_of_running (coreHeld_debugPort s.d))
  · change execDebugWrite size addr data s = _
    unfold execDebugWrite
    rcases h with hr | ⟨p, a, hr, hp, hperm⟩
    · rw [hr]
    · split
      · simp_all
      · simp_all
      · rename_i hr'
        cases hr.symm.trans hr'
        simp [hperm]

/-! ### ECC errors -/

/-- A counter that saturates counts one more, up to the end of its field. -/
theorem Dev.get_incSat {f : Fld} (h : f.lo + f.w ≤ 32) : (d.incSat f).get f = min (d.get f + 1) (2 ^ f.w - 1) := by
  rw [Dev.incSat, Dev.get_set_self _ _ _ h, satAdd]
  have := Nat.two_pow_pos f.w
  exact Nat.mod_eq_of_lt (by omega)

/-- The word that an own TCM holds stands where the core addressed it (R19, R415). -/
theorem coreAddr_of_route {core : Fin 4} {addr : Nat} (h : route core.val addr = some (p, a)) : p.coreAddr a = addr := by
  rcases Leading.route core.val addr p a h with ⟨hp, hlo, hhi, ha⟩ | ⟨hp, ha⟩
  · rw [Place.coreAddr, if_pos hp]
    omega
  · rw [Place.coreAddr, if_neg hp, ha]

/-- The check of a load that finds a single-bit error corrects and counts it. -/
theorem Dev.memCheck_single {core mac : Nat} (hecc : p.hasEcc = true) (hrow : d.rowGone a = false) :
    d.memCheck core p a .single mac = (some (d.eccSingle p mac), d) := by
  simp [Dev.memCheck, hrow, hecc]

/-- The check of a load that finds a double-bit error raises the memory's source and fails the bus. -/
theorem Dev.memCheck_double {core mac : Nat} (hecc : p.hasEcc = true) (hrow : d.rowGone a = false) :
    d.memCheck core p a .double mac = (none, (d.eccDouble p a).busFail core (p.coreAddr a)) := by
  simp [Dev.memCheck, hrow, hecc]

/-- A corrected error outside the lanes is counted in ECC_CORR, with its macro (R21). -/
theorem Dev.eccSingle_eq (hp : ∀ n, p ≠ .lane n) (mac : Nat) :
    d.eccSingle p mac = (d.incSat R.SYSCTL_ECC_CORR_COUNT).set R.SYSCTL_ECC_CORR_MACRO mac := by
  cases p with
  | lane n => exact absurd rfl (hp n)
  | _ => rfl

/-- What a corrected error outside the lanes leaves in ECC_CORR. -/
theorem Dev.eccSingle_counts (hp : ∀ n, p ≠ .lane n) (mac : Fin 100) :
    (d.eccSingle p mac.val).get R.SYSCTL_ECC_CORR_COUNT = min (d.get R.SYSCTL_ECC_CORR_COUNT + 1) 0xFFFF ∧
      (d.eccSingle p mac.val).get R.SYSCTL_ECC_CORR_MACRO = mac.val ∧
      RegsBut [R.SYSCTL_ECC_CORR_COUNT, R.SYSCTL_ECC_CORR_MACRO] d (d.eccSingle p mac.val) := by
  rw [Dev.eccSingle_eq hp]
  refine ⟨?_, ?_, ?_⟩
  · rw [Dev.get_set_of_disjoint _ _ (by decide) (by decide)]
    exact Dev.get_incSat (by decide)
  · rw [Dev.get_set_self _ _ _ (by decide)]
    exact Nat.mod_eq_of_lt (mac.isLt.trans (by decide))
  · exact (RegsBut.set _ _ _ (by simp) (by decide)).trans (RegsBut.set _ _ _ (by simp) (by decide))

/-- A double-bit error outside the lanes raises its source in the island that holds the memory (R11, R345). -/
theorem Dev.eccDouble_eq (hp : ∀ n, p ≠ .lane n) : d.eccDouble p a =
    d.raise (if p = .own ∨ p = .tcm then 1 else 2) (dedSource a) (a / 4 * 4) := by
  cases p with
  | lane n => exact absurd rfl (hp n)
  | _ => rfl

theorem Dev.bankWaits_of_not_lane (hp : ∀ n, p ≠ .lane n) : d.bankWaits p a = false := by
  cases p with
  | lane n => exact absurd rfl (hp n)
  | _ => rfl

/-- What a corrected error found by the scrubber does to the count of its row (R505). -/
theorem Dev.rowHit_counts (a : Nat) (mac : Fin 100) (row : Fin 128) :
    let k := mac.val * 128 + row.val
    let e := d.rowHit a mac row
    Sparse.at' 0 e.rowHits k = Sparse.at' 0 d.rowHits k + 1 ∧
      e.hoop = d.hoop ++ (if Sparse.at' 0 d.rowHits k = 3 then [reportOf d 3 167 (mac.val + 128 * row.val)] else []) ∧
      e = { d with hoop := e.hoop, rowHits := e.rowHits, weak := e.weak } := by
  intro k e
  have hput : Sparse.at' 0 (Sparse.put 0 d.rowHits k (Sparse.at' 0 d.rowHits k + 1)) k = Sparse.at' 0 d.rowHits k + 1 := by
    simp [Sparse.at', Sparse.put]
  by_cases h : Sparse.at' 0 d.rowHits k = 3
  · have he : e = ({ d with
        rowHits := Sparse.put 0 d.rowHits k (Sparse.at' 0 d.rowHits k + 1)
        weak := d.weak ++ [BadUnit.row mac row (word (a / 512 * 512))] } : Dev).raise Dev.islGUARD 167
        (mac.val + row.val * 128) := if_pos (congrArg (· + 1) h)
    rw [he, if_pos h, Nat.mul_comm 128]
    exact ⟨hput, rfl, rfl⟩
  · have he : e = { d with rowHits := Sparse.put 0 d.rowHits k (Sparse.at' 0 d.rowHits k + 1) } :=
      if_neg fun h' => h (Nat.succ.inj h')
    rw [he, if_neg h, List.append_nil]
    exact ⟨hput, rfl, rfl⟩

/-- The scrubber corrects and counts a single-bit error where it visits (R22, R505). -/
theorem exec_scrubWord_single {addr : Word} {mac : Fin 100} {row : Fin 128} (hr : route 4 addr.toNat = some (p, a))
    (hp : scrubbed p = true) (hrow : s.d.rowGone a = false) :
    exec (.scrubWord addr .single mac row) s = .next (s.onDev fun d => (d.eccSingle p mac.val).rowHit a mac row) := by
  change execScrubWord addr .single mac row s = _
  simp [execScrubWord, hr, State.onDev, hp, hrow]

/-- The scrubber reports a double-bit error where it visits (R22). -/
theorem exec_scrubWord_double {addr : Word} {mac : Fin 100} {row : Fin 128} (hr : route 4 addr.toNat = some (p, a))
    (hp : scrubbed p = true) (hrow : s.d.rowGone a = false) :
    exec (.scrubWord addr .double mac row) s = .next (s.onDev fun d => d.eccDouble p a) := by
  change execScrubWord addr .double mac row s = _
  simp [execScrubWord, hr, State.onDev, hp, hrow]

/-- The scrubber leaves a word without an error, an address without memory that it visits, and a row out of use. -/
theorem exec_scrubWord_nothing {addr : Word} {ecc : Ecc} {mac : Fin 100} {row : Fin 128}
    (h : ecc = .none ∨ route 4 addr.toNat = none ∨
      ∃ p a, route 4 addr.toNat = some (p, a) ∧ (scrubbed p = false ∨ s.d.rowGone a = true)) :
    exec (.scrubWord addr ecc mac row) s = .next s := by
  change execScrubWord addr ecc mac row s = _
  unfold execScrubWord
  rcases h with rfl | hr | ⟨p, a, hr, h⟩
  · split
    · rfl
    · simp only [State.onDev, ite_self]
  · rw [hr]
  · have hskip : (!scrubbed p || s.d.rowGone a) = true := by rcases h with h | h <;> simp [h]
    simp only [hr, State.onDev, hskip, if_true]

/-- A corrected error in a lane's memory is counted in the lane's register (R115). -/
theorem Dev.eccSingle_lane_counts (n mac : Nat) :
    (d.eccSingle (.lane n) mac).get (R.WV_ECC_CORR n) = min (d.get (R.WV_ECC_CORR n) + 1) 0xFFFF ∧
      RegsBut [R.WV_ECC_CORR n] d (d.eccSingle (.lane n) mac) :=
  ⟨Dev.get_incSat (by simp [R.WV_ECC_CORR]), RegsBut.set _ _ _ (by simp) (by simp [R.WV_ECC_CORR])⟩

/-- A double-bit error in a lane's memory is counted there, and is a lane fault (R115, R140). -/
theorem Dev.eccDouble_lane_counts (n : Nat) :
    (d.eccDouble (.lane n) a).get (R.WV_ECC_DED n) = min (d.get (R.WV_ECC_DED n) + 1) 0xFFFF ∧
      RegsBut [R.WV_ECC_DED n] d (d.eccDouble (.lane n) a) ∧
      (d.eccDouble (.lane n) a).hoop = d.hoop ++ [reportOf d (4 + n) 66 (a % 0x100000 / 4 * 4) n] :=
  ⟨Dev.get_incSat (f := R.WV_ECC_DED n) (by simp [R.WV_ECC_DED]),
    RegsBut.set (f := R.WV_ECC_DED n) _ _ (by simp) (by simp [R.WV_ECC_DED]), rfl⟩

/-- A core's load that meets a single-bit error (R21). -/
theorem coreLoad_single {core n : Nat} {mac : Fin 100} {way : Nat} (hecc : p.hasEcc = true) (hlane : ∀ n, p ≠ .lane n)
    (hrow : s.d.rowGone a = false) (hl : s.d.lineOf (Dev.cacheKey core false) a = none) :
    let t := s.coreLoad core false p a n .single mac.val false way
    Sparse.at' .none t.d.resp core = .data (word (Mem.num s.mem a n)) ∧
      t.d.regs = (s.d.eccSingle p mac.val).regs ∧
      t = { s with d := { s.d with regs := t.d.regs, resp := t.d.resp, caches := t.d.caches } } := by
  rw [State.coreLoad_miss hl (Dev.memCheck_single hecc hrow), Dev.eccSingle_eq hlane]
  refine ⟨?_, ?_, ?_⟩
  · simp [Dev.answer, Sparse.at', Sparse.put]
  · cases p.cached <;> rfl
  · cases p.cached <;> rfl

/-- A core's load that meets a double-bit error (R21, R345). -/
theorem coreLoad_double {core : Fin 4} {addr n way : Nat} {mac : Fin 100} (hecc : p.hasEcc = true) (hlane : ∀ n, p ≠ .lane n)
    (hr : route core.val addr = some (p, a)) (hrow : s.d.rowGone a = false)
    (hl : s.d.lineOf (Dev.cacheKey core.val false) a = none) :
    let t := s.coreLoad core.val false p a n .double mac.val false way
    Sparse.at' .none t.d.resp core.val = .busError ∧
      (∃ isl, (isl = 1 ∨ isl = 2) ∧
        Sends s t [reportOf s.d isl (dedSource a) (a / 4 * 4), reportOf s.d 1 125 addr]) ∧
      t = { s with d := { s.d with hoop := t.d.hoop, resp := t.d.resp } } := by
  rw [State.coreLoad_fails hl (Dev.memCheck_double hecc hrow), Dev.eccDouble_eq hlane, coreAddr_of_route hr]
  refine ⟨?_, ⟨if p = .own ∨ p = .tcm then 1 else 2, ?_, ?_⟩, rfl⟩
  · simp [Dev.busFail, Dev.raise, Dev.send, Dev.answer, Sparse.at', Sparse.put]
  · split
    · exact .inl rfl
    · exact .inr rfl
  · simp [Sends, Dev.busFail_eq, Dev.raise_hoop, reportOf]

/-- A corrected error changes registers alone. -/
theorem Dev.eccSingle_frame (mac : Nat) : d.eccSingle p mac = { d with regs := (d.eccSingle p mac).regs } := by
  cases p <;> rfl

/-- The scrubber's visit to a word with a single-bit error: the correction is counted, and then the row (R505). -/
theorem scrub_single (mac : Fin 100) (row : Fin 128) :
    let k := mac.val * 128 + row.val
    let e := (d.eccSingle p mac.val).rowHit a mac row
    e.regs = (d.eccSingle p mac.val).regs ∧ Sparse.at' 0 e.rowHits k = Sparse.at' 0 d.rowHits k + 1 ∧
      e.hoop = d.hoop ++ (if Sparse.at' 0 d.rowHits k = 3 then [reportOf d 3 167 (mac.val + 128 * row.val)] else []) ∧
      e = { d with regs := e.regs, hoop := e.hoop, rowHits := e.rowHits, weak := e.weak } := by
  obtain ⟨r, hr⟩ : ∃ r, d.eccSingle p mac.val = { d with regs := r } := ⟨_, Dev.eccSingle_frame mac.val⟩
  rw [hr]
  obtain ⟨hhits, hhoop, hframe⟩ := Dev.rowHit_counts (d := { d with regs := r }) a mac row
  have hregs := congrArg Dev.regs hframe
  refine ⟨hregs, hhits, hhoop, hframe.trans ?_⟩
  dsimp only
  rw [hregs]

/-- Settles O10: loads by what their check finds, then the scrubber, in and outside the lanes. -/
theorem eccErrorsAreCountedAndReported : Obligations.EccErrorsAreCountedAndReported := by
  unfold Obligations.EccErrorsAreCountedAndReported
  refine ⟨fun core size addr data mac way s p a hc hr hecc hlane hperm hrow hl => ?_,
    fun addr ecc mac row s h => exec_scrubWord_nothing h, fun addr mac row s p a hr hp hrow => ?_⟩
  · have hregs : p ≠ .regs := by rintro rfl; cases hecc
    have hexec (ecc : Ecc) := (exec_access_memory (kind := .load) (size := size) (data := data) (ecc := ecc) (mac := mac)
      (parity := false) (way := way) hc hr hregs).trans
      (congrArg Host.Outcome.next (memoryAccess_load hperm (Dev.bankWaits_of_not_lane hlane)))
    refine ⟨gives_of_next (hexec .single) ?_, gives_of_next (hexec .double) (coreLoad_double hecc hlane hr hrow hl)⟩
    obtain ⟨hresp, hreg, hframe⟩ := coreLoad_single (n := accessBytes size) (mac := mac) (way := way.val) hecc hlane hrow hl
    obtain ⟨hcount, hmac, hbut⟩ := Dev.eccSingle_counts (d := s.d) hlane mac
    exact ⟨hresp, (Dev.get_congr hreg _).trans hcount, (Dev.get_congr hreg _).trans hmac,
      hbut.trans (.of_regs hreg), hframe⟩
  · have hscrub : scrubbed p = true := by
      simp only [List.mem_cons, List.not_mem_nil, or_false] at hp
      rcases hp with rfl | rfl | rfl | rfl | rfl | rfl | rfl <;> rfl
    refine ⟨gives_of_next (exec_scrubWord_single hr hscrub hrow) ?_, gives_of_next (exec_scrubWord_double hr hscrub hrow) ?_⟩
    · obtain ⟨hregs, hhits, hhoop, hframe⟩ := scrub_single (d := s.d) (p := p) (a := a) mac row
      refine ⟨?_, fun hlane => ?_, hhits, hhoop, congrArg (fun d => ({ s with d := d } : State)) hframe⟩
      · rintro n rfl
        obtain ⟨hcount, hbut⟩ := Dev.eccSingle_lane_counts (d := s.d) n mac.val
        exact ⟨(Dev.get_congr hregs _).trans hcount, hbut.trans (.of_regs hregs)⟩
      · obtain ⟨hcount, hmac, hbut⟩ := Dev.eccSingle_counts (d := s.d) hlane mac
        exact ⟨(Dev.get_congr hregs _).trans hcount, (Dev.get_congr hregs _).trans hmac, hbut.trans (.of_regs hregs)⟩
    · refine ⟨?_, fun hlane => ?_, ?_⟩
      · rintro n rfl
        exact Dev.eccDouble_lane_counts n
      · simp only [State.onDev, Dev.eccDouble_eq hlane]
        refine ⟨rfl, ?_⟩
        simp only [List.mem_cons, List.not_mem_nil, or_false] at hp
        rcases hp with rfl | rfl | rfl | rfl | rfl | rfl | rfl <;> rfl
      · cases p <;> rfl

end Sys2Proof.Machine
end

section
/-! ## Handshakes on the channels -/

namespace Sys2Proof.Machine

variable {s : State} {d : Dev} {ch recv : Nat} {e : HEntry}

/-- The entry that `handshake` finds stands first of its kind, and `onHandshake` changes it in its place. -/
theorem onHandshake_of_find {f : HEntry → HEntry} : ∀ {l : List HEntry},
    l.find? (fun e => e.ch == ch && e.recv == recv && !e.acked) = some e →
    ∃ a b, l = a ++ e :: b ∧ onHandshake ch recv f l = a ++ f e :: b ∧
      ∀ x ∈ a, (x.ch == ch && x.recv == recv && !x.acked) = false
  | [], h => by cases h
  | x :: l, h => by
    rw [List.find?_cons] at h
    rw [onHandshake]
    split at h
    · rename_i hx
      cases h
      exact ⟨[], l, rfl, if_pos hx, fun _ hz => by cases hz⟩
    · rename_i hx
      obtain ⟨a, b, hl, hon, ha⟩ := onHandshake_of_find (f := f) h
      refine ⟨x :: a, b, congrArg (x :: ·) hl, ?_, fun z hz => ?_⟩
      · rw [if_neg (by simpa using hx), hon]
        rfl
      · rcases List.mem_cons.mp hz with rfl | hz
        · exact hx
        · exact ha z hz

/-- The entry that waits matches its channel and receiver, and has not been acknowledged. -/
theorem Dev.handshake_matches (h : d.handshake ch recv = some e) : e.ch = ch ∧ e.recv = recv ∧ e.acked = false := by
  simpa [and_assoc] using List.find?_some h

/-- A word that satisfies the test is there to be taken. -/
theorem Dev.takeFirst_of_mem {q : HEntry → Bool} : ∀ {l : List HEntry} {x : HEntry}, x ∈ l → q x = true →
    ∃ y t, Dev.takeFirst q l = some (y, t) ∧ t.length + 1 = l.length
  | [], _, h, _ => by cases h
  | z :: l, x, h, hx => by
    rw [Dev.takeFirst]
    split
    · exact ⟨z, l, rfl, rfl⟩
    · rename_i hz
      have hmem : x ∈ l := (List.mem_cons.mp h).resolve_left (by rintro rfl; exact hz hx)
      obtain ⟨y, t, ht, hlen⟩ := takeFirst_of_mem hmem hx
      exact ⟨y, z :: t, by rw [ht], by simp [hlen]⟩

/-! ### The two commands -/

theorem exec_hoopStall (ch : Fin 256) (recv : Fin 14) (h : s.d.handshake ch.val recv.val = some e) :
    exec (.hoopStall ch recv) s = .next (if e.stalled then s else s.onDev fun d =>
      { d with hoop := onHandshake ch.val recv.val (fun e => { e with stalled := true }) d.hoop }.raise
        (channelSender ch.val) 85 (ch.val + recv.val * 256)) := by
  change execHoopStall ch recv s = _
  simp only [execHoopStall, State.onDev, h]
  split <;> rfl

/-- The device when the receiver has acknowledged the oldest word. -/
def Dev.acknowledged (d : Dev) (ch recv : Nat) : Dev :=
  { d with hoop := onHandshake ch recv (fun e => { e with acked := true }) d.hoop }

theorem exec_hoopHandshakeComplete (ch : Fin 256) (recv : Fin 14) (h : s.d.handshake ch.val recv.val = some e) :
    exec (.hoopHandshakeComplete ch recv) s =
      .next (s.onDev fun d => (d.acknowledged ch.val recv.val).deliverWord ch.val recv.val e.w) := by
  change execHoopHandshakeComplete ch recv s = _
  simp only [execHoopHandshakeComplete, State.onDev, h]
  rfl

theorem exec_hoop_nothing {ch : Fin 256} {recv : Fin 14} (h : s.d.handshake ch.val recv.val = none) :
    Leads (.hoopStall ch recv) s s ∧ Leads (.hoopHandshakeComplete ch recv) s s := by
  constructor
  · change execHoopStall ch recv s = _
    simp only [execHoopStall, State.onDev, h]
  · change execHoopHandshakeComplete ch recv s = _
    simp only [execHoopHandshakeComplete, State.onDev, h]

/-- The acknowledged word stays in its place. -/
theorem Dev.hoop_acknowledged (h : d.handshake ch recv = some e) :
    (d.acknowledged ch recv).hoop.map HEntry.w = d.hoop.map HEntry.w ∧ { e with acked := true } ∈ (d.acknowledged ch recv).hoop := by
  obtain ⟨a, b, hl, hon, -⟩ := onHandshake_of_find (f := fun e => { e with acked := true }) h
  simp only [Dev.acknowledged, hon]
  rw [hl]
  simp

/-- A word that its receiver takes at once leaves the channel. -/
theorem Dev.takeFirst_acknowledged (h : d.handshake ch recv = some e) : ∃ x t,
    Dev.takeFirst (fun x => x.ch == ch && x.recv == recv && x.acked && x.w == e.w) (d.acknowledged ch recv).hoop = some (x, t) ∧
      t.length + 1 = d.hoop.length := by
  obtain ⟨hch, hrecv, -⟩ := Dev.handshake_matches h
  obtain ⟨hmap, hmem⟩ := Dev.hoop_acknowledged h
  obtain ⟨x, t, ht, hlen⟩ := Dev.takeFirst_of_mem (q := fun x => x.ch == ch && x.recv == recv && x.acked && x.w == e.w) hmem
    (by simp [hch, hrecv])
  refine ⟨x, t, ht, hlen.trans ?_⟩
  simpa using congrArg List.length hmap

/-! ### Windows of the sigma-delta chain -/

theorem Dev.sd_setSd_self (n : Nat) (u : SdCh) : (d.setSd n u).sd n = u := by
  simp [Dev.sd, Dev.setSd, Sparse.at', Sparse.put]

theorem Dev.sd_setSd_of_ne {n m : Nat} (u : SdCh) (h : m ≠ n) : (d.setSd n u).sd m = d.sd m := by
  simp [Dev.sd, Dev.setSd, Sparse.at', Sparse.put, Sparse.get_set_of_ne _ _ _ h]

/-- What a period event of a leg makes of a channel (R218). -/
def Dev.sdAtPeriod (d : Dev) (leg n : Nat) : SdCh :=
  let u := d.sd n
  if d.act (R.SDF_CH_FILT_S1_LEG n) = leg ∧ d.sdRuns n = true then
    if d.sdPreset n = 3 ∧ u.win = .whole then { u with wdue := true }
    else { u with wbits := 0, wones := 0, win := .whole }
  else u

/-- One channel's part of a period event. -/
def Dev.sdPeriodAt (leg : Nat) (d : Dev) (n : Nat) : Dev :=
  if d.act (R.SDF_CH_FILT_S1_LEG n) == leg && d.sdRuns n then
    if d.sdPreset n = 3 ∧ (d.sd n).win = .whole then d.setSd n { d.sd n with wdue := true }
    else d.setSd n { d.sd n with wbits := 0, wones := 0, win := .whole }
  else d

/-- One channel's part changes the channels alone. -/
theorem Dev.sdPeriodAt_frame (leg n : Nat) : Dev.sdPeriodAt leg d n = { d with sds := (Dev.sdPeriodAt leg d n).sds } := by
  unfold Dev.sdPeriodAt
  split
  · split <;> rfl
  · rfl

theorem Dev.sd_sdPeriodAt (leg n m : Nat) :
    (Dev.sdPeriodAt leg d n).sd m = if m = n then d.sdAtPeriod leg n else d.sd m := by
  by_cases hm : m = n
  · subst hm
    simp only [Dev.sdPeriodAt, Dev.sdAtPeriod, Bool.and_eq_true, beq_iff_eq, if_true]
    split
    · split <;> exact Dev.sd_setSd_self _ _
    · rfl
  · rw [if_neg hm, Dev.sdPeriodAt]
    split
    · split <;> exact Dev.sd_setSd_of_ne _ hm
    · rfl

/-- A channel's part of a period event depends on its own state alone. -/
theorem Dev.sdAtPeriod_sdPeriodAt (leg : Nat) {n m : Nat} (h : m ≠ n) :
    (Dev.sdPeriodAt leg d n).sdAtPeriod leg m = d.sdAtPeriod leg m := by
  have hsd : (Dev.sdPeriodAt leg d n).sd m = d.sd m := by rw [Dev.sd_sdPeriodAt, if_neg h]
  unfold Dev.sdAtPeriod
  rw [hsd, Dev.sdPeriodAt_frame]
  rfl

/-- The pass of a period event over channels that stand once each in a list. -/
theorem Dev.sdPeriod_fold (leg : Nat) : ∀ (l : List Nat) (d : Dev), l.Nodup →
    l.foldl (Dev.sdPeriodAt leg) d = { d with sds := (l.foldl (Dev.sdPeriodAt leg) d).sds } ∧
      ∀ m, (l.foldl (Dev.sdPeriodAt leg) d).sd m = if m ∈ l then d.sdAtPeriod leg m else d.sd m
  | [], d, _ => ⟨rfl, fun m => rfl⟩
  | n :: l, d, hl => by
    obtain ⟨hn, hl⟩ := List.nodup_cons.mp hl
    obtain ⟨hframe, hsd⟩ := sdPeriod_fold leg l (Dev.sdPeriodAt leg d n) hl
    refine ⟨?_, fun m => ?_⟩
    · rw [List.foldl_cons, hframe, Dev.sdPeriodAt_frame]
    · rw [List.foldl_cons, hsd]
      by_cases hm : m = n
      · subst hm
        simp [hn, Dev.sd_sdPeriodAt]
      · simp only [List.mem_cons, hm, false_or, Dev.sdAtPeriod_sdPeriodAt leg hm, Dev.sd_sdPeriodAt, if_false]

/-- A period event of a leg: each channel by its own state, and nothing else. -/
theorem Dev.sdPeriod_eq (leg : Nat) : d.sdPeriod leg = { d with sds := (d.sdPeriod leg).sds } ∧
    ∀ m, m < 24 → (d.sdPeriod leg).sd m = d.sdAtPeriod leg m := by
  have hfold : d.sdPeriod leg = (List.range 24).foldl (Dev.sdPeriodAt leg) d := rfl
  obtain ⟨hframe, hsd⟩ := Dev.sdPeriod_fold leg (List.range 24) d List.nodup_range
  rw [hfold]
  exact ⟨hframe, fun m hm => by rw [hsd, if_pos (List.mem_range.mpr hm)]⟩

theorem Dev.regs_sdPeriod (leg : Nat) (d : Dev) : (d.sdPeriod leg).regs = d.regs := by
  rw [(Dev.sdPeriod_eq leg).1]

theorem Dev.hoop_sdPeriod (leg : Nat) (d : Dev) : (d.sdPeriod leg).hoop = d.hoop := by
  rw [(Dev.sdPeriod_eq leg).1]

/-! ### The words that a receiver takes -/

/-- A stall is reported once, with the channel and the receiver in its context, and the word stays (R15). -/
theorem hoopStall_reports {ch : Fin 256} {recv : Fin 14} (h : s.d.handshake ch.val recv.val = some e)
    (hs : e.stalled = false) : Gives (.hoopStall ch recv) s fun t =>
      t = { s with d := { s.d with hoop := t.d.hoop } } ∧
      t.d.hoop.map HEntry.w = s.d.hoop.map HEntry.w ++
        [.report ⟨85, word (ch.val + 256 * recv.val), 2, s.d.time.short, false⟩] ∧
      (t.d.hoop.getLast?.map HEntry.ch = some (0x30 + channelSender ch.val)) ∧
      Leads (.hoopStall ch recv) t t := by
  obtain ⟨hch, hrecv, hack⟩ := Dev.handshake_matches h
  obtain ⟨a, b, hl, hon, ha⟩ := onHandshake_of_find (f := fun e => { e with stalled := true }) h
  refine gives_of_next (exec_hoopStall ch recv h) ?_
  rw [if_neg (by simp [hs])]
  refine ⟨rfl, ?_, ?_, ?_⟩
  · simp only [State.onDev_d, Dev.raise_hoop, hon]
    rw [hl, Nat.mul_comm 256]
    simp
  · simp [Dev.raise_hoop]
  · refine (exec_hoopStall (e := { e with stalled := true }) ch recv ?_).trans (by simp)
    simp only [Dev.handshake, State.onDev_d, Dev.raise_hoop, hon]
    rw [List.append_assoc, List.find?_append, List.find?_eq_none.mpr (by simpa using ha)]
    simp [hch, hrecv, hack]

/-- A word for the fork of a lane stays, acknowledged (R16). -/
theorem deliverWord_fork {w : HWord} (hr : recv = 4 ∨ recv = 5)
    (hw : (∃ k u x v t, w = .sample k u x v t) ∨ ∃ k u t, w = .event k u t) : d.deliverWord ch recv w = d := by
  have h8 : ¬(recv = 8 ∨ recv = 9) := by omega
  have h10 : recv ≠ 10 := by omega
  rcases hw with ⟨k, u, x, v, t, rfl⟩ | ⟨k, u, t, rfl⟩
  · rfl
  · simp only [Dev.deliverWord, if_neg h8, if_neg h10]

/-- A report at GUARD stays, and a lane fault's is signalled to LANE (R109). -/
theorem laneSignal_eq (r : Report) : d.laneSignal r = { d with lc := { d.lc with
    signals := d.lc.signals ++ (if r.src ∈ [64, 66, 67, 68] ∧ r.lane < 2 then [r.lane] else []) } } := by
  unfold Dev.laneSignal
  by_cases h : r.src ∈ [64, 66, 67, 68] ∧ r.lane < 2
  · rw [if_pos (by simpa [Dev.isLaneFault] using h), if_pos h]
  · rw [if_neg (by simpa [Dev.isLaneFault] using h), if_neg h, List.append_nil]

/-- What a receiver that consumes the word at once begins from: the oldest such word is gone. -/
theorem Dev.acknowledged_rest (h : d.handshake ch recv = some e) : ∃ l : List HEntry,
    l.length + 1 = d.hoop.length ∧
      (match Dev.takeFirst (fun x => x.ch == ch && x.recv == recv && x.acked && x.w == e.w) (d.acknowledged ch recv).hoop with
        | some x => { d.acknowledged ch recv with hoop := x.2 }
        | none => d.acknowledged ch recv) = { d with hoop := l } := by
  obtain ⟨x, l, hx, hlen⟩ := Dev.takeFirst_acknowledged h
  exact ⟨l, hlen, by rw [hx]; rfl⟩

/-- A period event at the sigma-delta chain leaves the channel and reaches the windows (R218). -/
theorem deliverWord_period {kind leg tm : Nat} (h : d.handshake ch 10 = some e) (hw : e.w = .event kind leg tm) :
    ∃ l : List HEntry, l.length + 1 = d.hoop.length ∧
      (d.acknowledged ch 10).deliverWord ch 10 e.w = ({ d with hoop := l } : Dev).sdPeriod leg := by
  obtain ⟨l, hlen, hrest⟩ := Dev.acknowledged_rest h
  refine ⟨l, hlen, ?_⟩
  rw [← hrest, hw]
  rfl

/-- A window comparator's state leaves the channel and stands at the PWM island. -/
theorem deliverWord_wcState {conv wc : Nat} {out : Bool} (h : d.handshake ch recv = some e) (hw : e.w = .wcState conv wc out) :
    ∃ l : List HEntry, l.length + 1 = d.hoop.length ∧
      (d.acknowledged ch recv).deliverWord ch recv e.w = { d with hoop := l, gsup := { d.gsup with
        wc := Sparse.put false d.gsup.wc ((recv - 6) * 32 + conv * 8 + wc) out } } := by
  obtain ⟨l, hlen, hrest⟩ := Dev.acknowledged_rest h
  refine ⟨l, hlen, ?_⟩
  rw [hw] at hrest ⊢
  have hput : ∀ r : Dev, r = { d with hoop := l } →
      { r with gsup := { r.gsup with wc := Sparse.put false r.gsup.wc ((recv - 6) * 32 + conv * 8 + wc) out } } =
        { d with hoop := l, gsup := { d.gsup with
          wc := Sparse.put false d.gsup.wc ((recv - 6) * 32 + conv * 8 + wc) out } } := by
    rintro r rfl
    rfl
  exact hput _ hrest

/-- Settles O13: what a stall and each receiver make of the oldest word. -/
theorem handshakesStallOnceAndDeliver : Obligations.HandshakesStallOnceAndDeliver := by
  unfold Obligations.HandshakesStallOnceAndDeliver
  refine ⟨fun ch recv s h => exec_hoop_nothing h, fun ch recv s e h => ⟨fun hs => ?_, hoopStall_reports h⟩,
    fun ch recv s e _ hr h hw => ?_, fun ch s e r h hw => ?_, fun ch s e kind leg tm h hw => ?_,
    fun ch isl s e conv wc out _ h hw _ _ => ?_⟩
  · exact (exec_hoopStall ch recv h).trans (by rw [if_pos hs])
  · refine gives_of_next (exec_hoopHandshakeComplete ch recv h) ?_
    simp only [State.onDev, deliverWord_fork hr hw]
    exact ⟨rfl, Dev.hoop_acknowledged h⟩
  · have hdel : (s.d.acknowledged ch.val 3).deliverWord ch.val 3 e.w = (s.d.acknowledged ch.val 3).laneSignal r := by
      rw [hw]
      rfl
    obtain ⟨hmap, hmem⟩ := Dev.hoop_acknowledged h
    refine gives_of_next ((exec_hoopHandshakeComplete ch 3 h).trans
      (congrArg (fun d => Host.Outcome.next { s with d := d }) (hdel.trans (laneSignal_eq r)))) ?_
    exact ⟨rfl, hmap, hmem, rfl⟩
  · obtain ⟨l, hlen, hdel⟩ := deliverWord_period h hw
    refine gives_of_next ((exec_hoopHandshakeComplete ch 10 h).trans
      (congrArg (fun d => Host.Outcome.next { s with d := d }) hdel)) ?_
    refine ⟨Dev.regs_sdPeriod leg _, rfl, ?_, fun n hn => ?_⟩
    · simp only [Dev.hoop_sdPeriod, hlen]
    intro u named
    have hn : (({ s.d with hoop := l } : Dev).sdPeriod leg).sd n = s.d.sdAtPeriod leg n :=
      (Dev.sdPeriod_eq leg).2 n hn
    refine ⟨fun h1 h2 => hn.trans ?_, fun h1 h2 => hn.trans ?_, fun h1 => hn.trans (if_neg h1)⟩
    · exact (if_pos h1).trans (if_pos h2)
    · exact (if_pos h1).trans (if_neg h2)
  · obtain ⟨l, hlen, hdel⟩ := deliverWord_wcState h hw
    refine gives_of_next ((exec_hoopHandshakeComplete ch isl h).trans
      (congrArg (fun d => Host.Outcome.next { s with d := d }) hdel)) ?_
    refine ⟨?_, fun k hk => ?_, hlen, rfl⟩
    · simp [Sparse.at', Sparse.put]
    · simp [Sparse.at', Sparse.put, Sparse.get_set_of_ne _ _ _ hk]

end Sys2Proof.Machine
end

section
/-! ## Lanes, forks and triggers -/

namespace Sys2Proof.Machine

variable {s t : State} {d e : Dev}

/-! ### The table of lanes -/

@[simp] theorem Dev.lane_setLane_self (d : Dev) (n : Nat) (l : Lane) : (d.setLane n l).lane n = l := by
  simp [Dev.lane, Dev.setLane, Sparse.at', Sparse.put]

theorem Dev.lane_setLane_of_ne (d : Dev) {n m : Nat} (l : Lane) (h : m ≠ n) : (d.setLane n l).lane m = d.lane m := by
  simp [Dev.lane, Dev.setLane, Sparse.at', Sparse.put, Sparse.get_set_of_ne _ _ _ h]

theorem Dev.lane_congr (h : e.lanes = d.lanes) (n : Nat) : e.lane n = d.lane n := by rw [Dev.lane, h, Dev.lane]

/-- The registers that follow a lane. -/
def laneSyncFields (n : Nat) : List Fld :=
  [R.WV_STATUS_TAGS_FREE n, R.WV_WINDOW_MIN_FREE n, R.WV_LS_RUN_RUNNING n, R.WV_LS_RUN_PENDING n]

/-- Following a lane changes registers alone. -/
theorem Dev.laneSync_frame (d : Dev) (n : Nat) : d.laneSync n = { d with regs := (d.laneSync n).regs } := by
  unfold Dev.laneSync
  dsimp only
  split <;> rfl

theorem RegsBut.laneSync (d : Dev) (n : Nat) : RegsBut (laneSyncFields n) d (d.laneSync n) := by
  have hset (e : Dev) (f : Fld) (v : Nat) (hf : f ∈ laneSyncFields n) : RegsBut (laneSyncFields n) e (e.set f v) := by
    refine RegsBut.set e f v hf ?_
    simp only [laneSyncFields, List.mem_cons, List.not_mem_nil, or_false] at hf
    rcases hf with rfl | rfl | rfl | rfl <;>
      simp [R.WV_STATUS_TAGS_FREE, R.WV_WINDOW_MIN_FREE, R.WV_LS_RUN_RUNNING, R.WV_LS_RUN_PENDING]
  unfold Dev.laneSync
  dsimp only
  refine RegsBut.trans (RegsBut.trans ?_ (hset _ (R.WV_LS_RUN_RUNNING n) _ (by simp [laneSyncFields])))
    (hset _ (R.WV_LS_RUN_PENDING n) _ (by simp [laneSyncFields]))
  refine (hset d (R.WV_STATUS_TAGS_FREE n) (Dev.freeTags (d.lane n)) (by simp [laneSyncFields])).trans ?_
  split
  · exact hset _ (R.WV_WINDOW_MIN_FREE n) _ (by simp [laneSyncFields])
  · exact .refl _ _

theorem Dev.lane_laneSync (d : Dev) (n m : Nat) : (d.laneSync n).lane m = d.lane m := by
  rw [Dev.laneSync_frame]
  rfl

theorem Dev.hoop_laneSync (d : Dev) (n : Nat) : (d.laneSync n).hoop = d.hoop := by
  rw [Dev.laneSync_frame]

/-- A run counter of a Loop Set is none of the registers that follow a lane. -/
theorem Dev.get_laneSync_cnt (d : Dev) {n i : Nat} (hi : i < 16) {f : Fld}
    (hf : f ∈ [R.WV_LS_CNT_RUNS n i, R.WV_LS_CNT_OVERRUN n i, R.WV_LS_CNT_LOST n i]) : (d.laneSync n).get f = d.get f := by
  refine (RegsBut.laneSync d n).get f fun g hg => .inl ?_
  simp only [laneSyncFields, List.mem_cons, List.not_mem_nil, or_false] at hf hg
  rcases hf with rfl | rfl | rfl <;> rcases hg with rfl | rfl | rfl | rfl <;>
    simp only [R.WV_LS_CNT_RUNS, R.WV_LS_CNT_OVERRUN, R.WV_LS_CNT_LOST, R.WV_STATUS_TAGS_FREE, R.WV_WINDOW_MIN_FREE,
      R.WV_LS_RUN_RUNNING, R.WV_LS_RUN_PENDING] <;> omega

/-! ### Fork words -/

/-- What a lane's fork makes of a word (R18, R139): its buffer takes it, or it is lost with a report, or discarded. -/
theorem Dev.forkTo_eq (d : Dev) (ch : Nat) (w : HWord) (n : Nat) :
    let q := Sparse.at' [] (d.lane n).forks ch
    (d.laneRuns n = false → d.forkTo ch w n = d) ∧
      (d.laneRuns n = true → 4 ≤ q.length → d.forkTo ch w n = d.raiseLane n 68 ch) ∧
      (d.laneRuns n = true → ¬4 ≤ q.length → d.forkTo ch w n =
        d.setLane n { d.lane n with forks := Sparse.put [] (d.lane n).forks ch (q ++ [w]) }) := by
  refine ⟨fun h => ?_, fun h hq => ?_, fun h hq => ?_⟩
  · simp [Dev.forkTo, h]
  · simp only [Dev.forkTo, h, Bool.not_true, Bool.false_eq_true, if_false, if_pos hq]
  · simp only [Dev.forkTo, h, Bool.not_true, Bool.false_eq_true, if_false, if_neg hq]

/-- The fork of a lane is full, and loses a word. -/
def Dev.forkFull (d : Dev) (ch n : Nat) : Bool := d.laneRuns n && decide (4 ≤ (Sparse.at' [] (d.lane n).forks ch).length)

/-- The report of a word that a full fork loses (R139). -/
def Dev.forkLost (d : Dev) (ch n : Nat) : List HEntry := if d.forkFull ch n then [reportOf d (4 + n) 68 ch n] else []

/-- What a word does to a lane's fork, said once for the three cases. -/
structure Forked (d e : Dev) (ch : Nat) (w : HWord) (n : Nat) : Prop where
  hoop : e.hoop = d.hoop ++ d.forkLost ch n
  takes : d.laneRuns n = true → d.forkFull ch n = false →
    Sparse.at' [] (e.lane n).forks ch = Sparse.at' [] (d.lane n).forks ch ++ [w] ∧
      (∀ k, k ≠ ch → Sparse.at' [] (e.lane n).forks k = Sparse.at' [] (d.lane n).forks k) ∧
      e.lane n = { d.lane n with forks := (e.lane n).forks }
  keeps : d.laneRuns n = false ∨ d.forkFull ch n = true → e.lane n = d.lane n
  others : ∀ m, m ≠ n → e.lane m = d.lane m
  frame : e = { d with hoop := e.hoop, lanes := e.lanes }

theorem Dev.forkTo_forked (d : Dev) (ch : Nat) (w : HWord) (n : Nat) : Forked d (d.forkTo ch w n) ch w n := by
  obtain ⟨hstopped, hfull, hroom⟩ := d.forkTo_eq ch w n
  cases hr : d.laneRuns n with
  | false =>
    have hnot : d.forkFull ch n = false := by simp [Dev.forkFull, hr]
    rw [hstopped hr]
    exact ⟨by simp [Dev.forkLost, hnot], fun h => by simp [hr] at h, fun _ => rfl, fun _ _ => rfl, rfl⟩
  | true =>
    by_cases hq : 4 ≤ (Sparse.at' [] (d.lane n).forks ch).length
    · have hyes : d.forkFull ch n = true := by simp [Dev.forkFull, hr, hq]
      rw [hfull hr hq]
      exact ⟨by rw [Dev.forkLost, if_pos hyes]; rfl, fun _ h => by simp [hyes] at h, fun _ => rfl, fun _ _ => rfl, rfl⟩
    · have hnot : d.forkFull ch n = false := by simp [Dev.forkFull, hq]
      rw [hroom hr hq]
      refine ⟨by simp [Dev.forkLost, hnot], fun _ _ => ⟨?_, fun k hk => ?_, ?_⟩, fun h => ?_, fun m hm => ?_, rfl⟩
      · simp [Sparse.at', Sparse.put]
      · simp [Sparse.at', Sparse.put, Sparse.get_set_of_ne _ _ _ hk]
      · simp
      · simp [hr, hnot] at h
      · exact Dev.lane_setLane_of_ne _ _ hm

/-- The first entry that satisfies a test is taken from its place. -/
theorem Dev.takeFirst_append {q : HEntry → Bool} {x : HEntry} {b : List HEntry} (hx : q x = true) : ∀ {a : List HEntry},
    (∀ y ∈ a, q y = false) → Dev.takeFirst q (a ++ x :: b) = some (x, a ++ b)
  | [], _ => by simp [Dev.takeFirst, hx]
  | y :: a, h => by
    rw [List.cons_append, Dev.takeFirst, if_neg (by simp [h y]), takeFirst_append hx fun z hz => h z (by simp [hz])]
    rfl

theorem Dev.takeFirst_none {q : HEntry → Bool} : ∀ {l : List HEntry}, (∀ y ∈ l, q y = false) → Dev.takeFirst q l = none
  | [], _ => rfl
  | y :: l, h => by
    rw [Dev.takeFirst, if_neg (by simp [h y]), takeFirst_none fun z hz => h z (by simp [hz])]

theorem exec_forkWord_nothing {ch : Fin 8} (h : ∀ x ∈ s.d.hoop, ¬(x.ch = ch.val ∧ x.recv = 4)) :
    exec (.forkWord ch) s = .next s := by
  have htake : s.d.take ch.val 4 = none := by
    rw [Dev.take, Dev.takeEntry, Dev.takeFirst_none fun y hy => by simpa using h y hy]
    rfl
  change execForkWord ch s = _
  simp only [execForkWord, State.onDev, htake]

/-- The lane forks acknowledge the oldest word of a source channel for both lanes (R18). -/
theorem exec_forkWord {ch : Fin 8} {pre post : List HEntry} {x y : HEntry} (hh : s.d.hoop = pre ++ x :: y :: post)
    (hx : x.ch = ch.val) (hx4 : x.recv = 4) (hy : y.ch = ch.val) (hy5 : y.recv = 5)
    (hpre : ∀ z ∈ pre, ¬(z.ch = ch.val ∧ (z.recv = 4 ∨ z.recv = 5))) :
    exec (.forkWord ch) s = .next (s.onDev fun d =>
      (({ d with hoop := pre ++ post } : Dev).forkTo ch.val x.w 0).forkTo ch.val x.w 1) := by
  have h4 : s.d.take ch.val 4 = some (x.w, { s.d with hoop := pre ++ y :: post }) := by
    rw [Dev.take, Dev.takeEntry, hh, Dev.takeFirst_append (by simp [hx, hx4])]
    · rfl
    · intro z hz
      have := hpre z hz
      simp only [Bool.and_eq_false_iff, beq_eq_false_iff_ne]
      tauto
  have h5 : ({ s.d with hoop := pre ++ y :: post } : Dev).take ch.val 5 = some (y.w, { s.d with hoop := pre ++ post }) := by
    rw [Dev.take, Dev.takeEntry, Dev.takeFirst_append (by simp [hy, hy5])]
    · rfl
    · intro z hz
      have := hpre z hz
      simp only [Bool.and_eq_false_iff, beq_eq_false_iff_ne]
      tauto
  change execForkWord ch s = _
  simp only [execForkWord, State.onDev, h4, h5]

/-! ### Sample words -/

/-- A fork buffer gives up its oldest word, and nothing else changes. -/
theorem Dev.lane_forkPop (d : Dev) (n ch : Nat) : (d.forkPop n ch).lane n = { d.lane n with
    forks := Sparse.put [] (d.lane n).forks ch ((Sparse.at' [] (d.lane n).forks ch).drop 1) } :=
  Dev.lane_setLane_self _ _ _

theorem Dev.forkPop_frame (d : Dev) (n ch : Nat) : d.forkPop n ch = { d with lanes := (d.forkPop n ch).lanes } := rfl

/-- What a table holds after one value has been put at the keys of a list. -/
theorem Sparse.at'_foldl_put {α V : Type} [DecidableEq V] (dflt v : V) (key : α → Nat) : ∀ (l : List α) (t : List (Nat × V))
    (k : Nat), Sparse.at' dflt (l.foldl (fun t x => Sparse.put dflt t (key x) v) t) k =
      if l.any (fun x => key x == k) then v else Sparse.at' dflt t k
  | [], t, k => by simp
  | x :: l, t, k => by
    rw [List.foldl_cons, at'_foldl_put dflt v key l, List.any_cons]
    by_cases hl : l.any (fun x => key x == k) = true
    · simp [hl]
    · simp only [hl, Bool.or_false, Bool.false_eq_true, if_false]
      by_cases hk : key x = k
      · subst hk
        simp [Sparse.at', Sparse.put]
      · rw [if_neg (by simpa using hk)]
        simp [Sparse.at', Sparse.put, Sparse.get_set_of_ne _ _ _ (Ne.symm hk)]

theorem exec_samplePortWord {lane : Fin 2} {ch : Fin 8} {k u x tm : Nat} {v : Word}
    (h : s.d.forkFront lane.val ch.val = some (.sample k u x v tm)) : exec (.samplePortWord lane ch) s =
      .next (s.onDev fun d => (d.forkPop lane.val ch.val).samplePorts lane.val k u x v) := by
  change execSamplePortWord lane ch s = _
  simp only [execSamplePortWord, State.onDev, h]

/-- A buffered sample word leaves its buffer and stands at every port that routes it (R118). -/
theorem samplePortWord_moves {lane : Fin 2} {ch : Fin 8} {k u x tm : Nat} {v : Word}
    (h : s.d.forkFront lane.val ch.val = some (.sample k u x v tm)) : Gives (.samplePortWord lane ch) s fun t =>
      let l := s.d.lane lane.val
      let l' := t.d.lane lane.val
      Sparse.at' [] l'.forks ch.val = (Sparse.at' [] l.forks ch.val).tail ∧
      (∀ key, Sparse.at' 0 l'.ports key =
        if (s.d.pat.routes.any fun r => r.kind == k && r.srcUnit == u && (k == 2 || r.srcItem == x) &&
            r.dstStake * 8 + r.dstPort == key) then v else Sparse.at' 0 l.ports key) ∧
      l' = { l with forks := l'.forks, ports := l'.ports } ∧ t = { s with d := { s.d with lanes := t.d.lanes } } := by
  refine gives_of_next (exec_samplePortWord h) ?_
  have hlane : ((s.d.forkPop lane.val ch.val).samplePorts lane.val k u x v).lane lane.val = _ := Dev.lane_setLane_self _ _ _
  simp only [State.onDev_d, hlane, Dev.lane_forkPop]
  refine ⟨?_, fun key => ?_, trivial, rfl⟩
  · simp [Sparse.at', Sparse.put]
  · rw [Sparse.at'_foldl_put 0 v fun r : Route => r.dstStake * 8 + r.dstPort, List.any_filter]
    rfl

end Sys2Proof.Machine
end

section
/-! ## Triggers and the start of a run -/

namespace Sys2Proof.Machine

variable {s t : State} {d e : Dev} {n : Nat}

/-- The registers that what precedes a run may change. -/
def runPrelude : List Fld := [R.ARCH_CNT2_RATE_SKIP, R.LANE_CNT2_MIRROR_SKIP, R.CFG_COEF_CTRL_PENDING]

/-- What precedes the start of a run leaves the lane's runs and ports, the Pattern and the counters of its runs. -/
structure BeforeRun (n : Nat) (s t : State) : Prop where
  runs : (t.d.lane n).runs = (s.d.lane n).runs
  pend : (t.d.lane n).pend = (s.d.lane n).pend
  ports : (t.d.lane n).ports = (s.d.lane n).ports
  mirroring : (t.d.lane n).mirroring = (s.d.lane n).mirroring
  pat : t.d.pat = s.d.pat
  regs : RegsBut runPrelude s.d t.d

theorem BeforeRun.refl (n : Nat) (s : State) : BeforeRun n s s := ⟨rfl, rfl, rfl, rfl, rfl, .refl _ _⟩

theorem BeforeRun.trans {u : State} (h : BeforeRun n s t) (g : BeforeRun n t u) : BeforeRun n s u :=
  ⟨g.runs.trans h.runs, g.pend.trans h.pend, g.ports.trans h.ports, g.mirroring.trans h.mirroring, g.pat.trans h.pat,
    h.regs.trans g.regs⟩

/-- A step outside the lanes and the Pattern. -/
theorem BeforeRun.of_lanes (hl : t.d.lanes = s.d.lanes) (hp : t.d.pat = s.d.pat) (hr : RegsBut runPrelude s.d t.d) :
    BeforeRun n s t :=
  have h := Dev.lane_congr hl n
  ⟨by rw [h], by rw [h], by rw [h], by rw [h], hp, hr⟩

/-- The run counters keep their values. -/
theorem BeforeRun.get_cnt (h : BeforeRun n s t) {i : Nat} (hi : i < 16) {f : Fld}
    (hf : f ∈ [R.WV_LS_CNT_RUNS n i, R.WV_LS_CNT_OVERRUN n i, R.WV_LS_CNT_LOST n i]) : t.d.get f = s.d.get f := by
  refine h.regs.get f fun g hg => .inl ?_
  simp only [runPrelude, List.mem_cons, List.not_mem_nil, or_false] at hf hg
  rcases hf with rfl | rfl | rfl <;> rcases hg with rfl | rfl | rfl <;>
    simp only [R.WV_LS_CNT_RUNS, R.WV_LS_CNT_OVERRUN, R.WV_LS_CNT_LOST, R.ARCH_CNT2_RATE_SKIP, R.LANE_CNT2_MIRROR_SKIP,
      R.CFG_COEF_CTRL_PENDING] <;> omega

/-! ### Slot reads and captures that come too late -/

theorem BeforeRun.archLate (n ls : Nat) (s : State) : BeforeRun n s (s.onDev fun d => d.archLate ls) := by
  have hskip (d : Dev) (ch k : Nat) : (d.archSkip ch k).lanes = d.lanes ∧ (d.archSkip ch k).pat = d.pat ∧
      RegsBut runPrelude d (d.archSkip ch k) := by
    have hset : RegsBut runPrelude d (d.incSat R.ARCH_CNT2_RATE_SKIP k) :=
      RegsBut.set d _ _ (by decide) (by decide)
    unfold Dev.archSkip
    dsimp only
    split
    · exact ⟨rfl, rfl, hset⟩
    · exact ⟨rfl, rfl, hset.trans (.of_regs rfl)⟩
  simp only [State.onDev, Dev.archLate]
  split
  · exact .refl _ _
  · obtain ⟨hl, hp, hr⟩ := hskip { s.d with slotDue := s.d.slotDue.filter fun e => e.2.1 != ls } _ _
    exact .of_lanes hl hp (.trans (.of_regs rfl) hr)

theorem BeforeRun.mirrorSkip (n ls : Nat) (s : State) : BeforeRun n s (s.onDev fun d => d.mirrorSkip ls) := by
  unfold Dev.mirrorSkip
  simp only [State.onDev]
  split
  · refine .of_lanes rfl rfl (.trans ?_ (.of_regs rfl))
    exact .trans (.of_regs rfl) (RegsBut.set _ R.LANE_CNT2_MIRROR_SKIP _ (by decide) (by decide))
  · exact .refl _ _

/-! ### Requests granted before the lane takes its words -/

theorem BeforeRun.onTag (n tag : Nat) (f : InFlight → InFlight) (s : State) : BeforeRun n s { s with d := s.d.onTag n tag f } := by
  have h : (s.d.onTag n tag f).lane n = _ := Dev.lane_setLane_self _ _ _
  exact ⟨by rw [h], by rw [h], by rw [h], by rw [h], rfl, .of_regs rfl⟩

/-- A grant without an ECC error changes the request and, for a store, memory. -/
theorem BeforeRun.grant (n tag : Nat) (s : State) : BeforeRun n s (s.grant n tag .none false) := by
  unfold State.grant
  split
  · exact .refl _ _
  · split
    · exact .refl _ _
    · dsimp only
      split
      · exact BeforeRun.onTag n tag _ s
      · exact (BeforeRun.onTag n tag _ s).trans ⟨rfl, rfl, rfl, rfl, rfl, .refl _ _⟩
      · exact .refl _ _

theorem BeforeRun.drainBanks (n : Nat) : ∀ (k : Nat) (s : State), BeforeRun n s (State.drainBanks n k s)
  | 0, s => .refl _ _
  | k + 1, s => by
    unfold State.drainBanks
    split
    · exact (BeforeRun.grant n _ s).trans (drainBanks n k _)
    · exact .refl _ _

/-! ### Words that wait for the run -/

theorem Dev.coefSettle_before (d : Dev) : d.coefSettle.lanes = d.lanes ∧ d.coefSettle.pat = d.pat ∧
    RegsBut runPrelude d d.coefSettle := by
  unfold Dev.coefSettle
  split
  · exact ⟨rfl, rfl, .refl _ _⟩
  · split
    · exact ⟨rfl, rfl, .refl _ _⟩
    · refine ⟨rfl, rfl, RegsBut.trans (RegsBut.trans (.of_regs rfl) ?_) (.of_regs rfl)⟩
      exact RegsBut.set _ R.CFG_COEF_CTRL_PENDING 0 (by decide) (by decide)

/-- The Colophon's count of coefficient words sends words and changes no register. -/
theorem Dev.coefColophon_before (d : Dev) (c : CoefSet) : (d.coefColophon c).lanes = d.lanes ∧
    (d.coefColophon c).pat = d.pat ∧ (d.coefColophon c).regs = d.regs := by
  have hsend (e : Dev) (x : BitVec 64) : (e.sendColophon x).lanes = e.lanes ∧ (e.sendColophon x).pat = e.pat ∧
      (e.sendColophon x).regs = e.regs := by
    unfold Dev.sendColophon
    split <;> exact ⟨rfl, rfl, rfl⟩
  unfold Dev.coefColophon
  induction List.range c.words.length generalizing d with
  | nil => exact ⟨rfl, rfl, rfl⟩
  | cons i is ih =>
    rw [List.foldl_cons]
    dsimp only
    split
    · exact ih _
    · obtain ⟨hl, hp, hr⟩ := ih _
      obtain ⟨gl, gp, gr⟩ := hsend _ _
      exact ⟨hl.trans gl, hp.trans gp, hr.trans gr⟩

theorem BeforeRun.takeCoefs (n ls : Nat) (s : State) : BeforeRun n s (s.takeCoefs n ls) := by
  unfold State.takeCoefs
  split
  · exact .refl _ _
  · rename_i c _
    split
    · dsimp only
      refine .trans (t := { s with d := if (c.waitA && c.waitB) = true then s.d.coefColophon c else s.d }) ?_ ?_
      · split
        · obtain ⟨hl, hp, hr⟩ := s.d.coefColophon_before c
          exact .of_lanes hl hp (.of_regs hr)
        · exact .refl _ _
      · obtain ⟨hl, hp, hr⟩ := Dev.coefSettle_before { (if (c.waitA && c.waitB) = true then s.d.coefColophon c else s.d) with
          cfg := { (if (c.waitA && c.waitB) = true then s.d.coefColophon c else s.d).cfg with
            coef := some (if n = 0 then { c with waitA := false } else { c with waitB := false }) } }
        exact .of_lanes hl hp (.trans (.of_regs rfl) hr)
    · exact .refl _ _

theorem BeforeRun.takeProfile (n m : Nat) (s : State) : BeforeRun n s (s.takeProfile m) := by
  unfold State.takeProfile
  split
  · exact .of_lanes rfl rfl (.of_regs rfl)
  · exact .refl _ _

/-! ### The run itself -/

/-- A table without the key reads the default there. -/
theorem Sparse.at'_of_no_key {V : Type} (dflt : V) {k : Nat} : ∀ {l : List (Nat × V)}, (∀ p ∈ l, p.1 ≠ k) →
    Sparse.at' dflt l k = dflt
  | [], _ => rfl
  | p :: l, h => by
    have ih := at'_of_no_key dflt fun q hq => h q (List.mem_cons_of_mem p hq)
    have hne : ¬p.1 = k := h p (by simp)
    simpa [Sparse.at', Sparse.get, Sparse.find?, hne] using ih

/-- Filling the issue queues changes the lane's count of fetched operations alone. -/
structure Refilled (n : Nat) (d e : Dev) : Prop where
  lane : e.lane n = { d.lane n with fetched := (e.lane n).fetched }
  frame : e = { d with lanes := e.lanes }

theorem Refilled.refl (n : Nat) (d : Dev) : Refilled n d d := ⟨rfl, rfl⟩

theorem Refilled.trans {f : Dev} (h : Refilled n d e) (g : Refilled n e f) : Refilled n d f := by
  refine ⟨?_, ?_⟩
  · rw [g.lane, h.lane]
  · rw [g.frame, h.frame]

theorem Refilled.setLane (n : Nat) (d : Dev) (f : List (Nat × Nat)) :
    Refilled n d (d.setLane n { d.lane n with fetched := f }) := ⟨by rw [Dev.lane_setLane_self], rfl⟩

theorem Refilled.refillAll (n ls : Nat) (d : Dev) : Refilled n d (d.refillAll n ls) := by
  have hfold (sts : List Nat) (d : Dev) : Refilled n d (sts.foldl (fun d st => d.refill n st) d) := by
    induction sts generalizing d with
    | nil => exact .refl n d
    | cons st sts ih => exact (Refilled.setLane n d _).trans (ih _)
  unfold Dev.refillAll
  refine Refilled.trans ?_ (hfold _ _)
  split
  · exact .refl n d
  · exact .setLane n d _

/-- A run stands in the lane with its snapshot and its streams, its flag words are zero, and it is counted (R118, R125,
R158). -/
theorem Dev.beginRun_begins (d : Dev) {l : LoopSet} (hl : l.idx < 16) (no : Nat) (snap : List (Nat × Word)) :
    let e := d.beginRun n l no snap
    (e.lane n).runs = (d.lane n).runs ++ [{ ls := l.idx, no := no, snap := snap, streams := d.streams l, sent := [] }] ∧
      (e.lane n).pend = (d.lane n).pend ∧
      e.get (R.WV_LS_CNT_RUNS n l.idx) = (d.get (R.WV_LS_CNT_RUNS n l.idx) + 1) % 2 ^ 16 ∧
      ∀ st, Sparse.at' {} (e.lane n).flags (st * 16 + l.idx) = {} := by
  let t := d.lane n
  let r : Run := { ls := l.idx, no := no, snap := snap, streams := d.streams l, sent := [] }
  let c := d.setLane n { t with runs := t.runs ++ [r], flags := t.flags.filter fun f => f.1 % 16 != l.idx }
  let x := c.refillAll n l.idx
  obtain ⟨hlane, hframe⟩ : Refilled n c x := Refilled.refillAll n l.idx c
  have hbegun : x.lane n = { t with
      runs := t.runs ++ [r], flags := t.flags.filter fun f => f.1 % 16 != l.idx, fetched := (x.lane n).fetched } := by
    rw [hlane]
    simp only [c, Dev.lane_setLane_self]
  have hend : ((x.incWrap (R.WV_LS_CNT_RUNS n l.idx)).laneSync n).lane n = x.lane n := Dev.lane_laneSync _ _ _
  have hregs : x.regs = d.regs := by rw [hframe]; rfl
  change ((((x.incWrap _).laneSync n).lane n).runs = _ ∧ (((x.incWrap _).laneSync n).lane n).pend = _ ∧
    ((x.incWrap _).laneSync n).get _ = _ ∧ ∀ st, Sparse.at' {} (((x.incWrap _).laneSync n).lane n).flags _ = {})
  rw [hend, hbegun, Dev.get_laneSync_cnt _ hl (by simp), Dev.incWrap, Dev.get_set_self _ _ _ (by simp [R.WV_LS_CNT_RUNS]),
    Dev.get_congr hregs]
  refine ⟨rfl, rfl, rfl, fun st => ?_⟩
  refine Sparse.at'_of_no_key _ fun f hf => ?_
  have := (List.mem_filter.mp hf).2
  simp only [bne_iff_ne] at this
  omega

/-- What a trigger that finds its Loop Set free leads to, in state and memory (R96, R125, R284). -/
theorem State.beginRun_begins (s : State) {l : LoopSet} (hl : l.idx < 16) (no : Nat) (snap : List (Nat × Word)) :
    let t := s.beginRun n l no snap
    (t.d.lane n).runs = (s.d.lane n).runs ++ [{ ls := l.idx, no := no, snap := snap, streams := s.d.streams l, sent := [] }] ∧
      (t.d.lane n).pend = (s.d.lane n).pend ∧
      t.d.get (R.WV_LS_CNT_RUNS n l.idx) = (s.d.get (R.WV_LS_CNT_RUNS n l.idx) + 1) % 2 ^ 16 ∧
      (∀ st, Sparse.at' {} (t.d.lane n).flags (st * 16 + l.idx) = {}) ∧
      (s.d.cfg.coef = none → l.idx ≠ 15 → t.mem = s.mem) := by
  let s1 := if s.coefsDue n l.idx then State.drainBanks n (s.d.lane n).flight.length s else s
  let s2 := s1.takeCoefs n l.idx
  let s3 := if l.idx = 15 then s2.takeProfile n else s2
  have h1 : BeforeRun n s s1 := by
    simp only [s1]
    split
    · exact .drainBanks n _ s
    · exact .refl n s
  have h3 : BeforeRun n s s3 := by
    refine h1.trans ((BeforeRun.takeCoefs n l.idx s1).trans ?_)
    simp only [s3]
    split
    · exact .takeProfile n n s2
    · exact .refl n s2
  obtain ⟨hruns, hpend, hcnt, hflags⟩ := s3.d.beginRun_begins (n := n) hl no snap
  have hmem (hc : s.d.cfg.coef = none) (h15 : l.idx ≠ 15) : s3.mem = s.mem := by
    have hdue : s.coefsDue n l.idx = false := by simp only [State.coefsDue, hc]
    have e1 : s1 = s := if_neg (by simp [hdue])
    have e3 : s3 = s2 := if_neg h15
    simp only [e3, s2, e1, State.takeCoefs, hc]
  have hstreams : s3.d.streams l = s.d.streams l := by simp only [Dev.streams, Dev.stream, h3.pat]
  have hbegin : s.beginRun n l no snap = s3.onDev fun d => d.beginRun n l no snap := rfl
  rw [h3.runs, hstreams] at hruns
  rw [h3.pend] at hpend
  rw [h3.get_cnt hl (by simp)] at hcnt
  simp only [hbegin, State.onDev_d, State.onDev_mem]
  exact ⟨hruns, hpend, hcnt, hflags, hmem⟩

/-! ### What a trigger meets -/

section
variable {l : LoopSet} {time : Nat}

theorem trigger_ignored (h : s.d.lsTakes l = false) : s.trigger n l time = s := by simp [State.trigger, h]

theorem trigger_held (h : s.d.lsTakes l = true) (h4 : s.d.laneState n = 4) :
    s.trigger n l time = s.onDev fun d => d.incSat R.LANE_CNT_HOLD_TRIG := by simp [State.trigger, h, h4]

/-- The slot reads and captures of the run before come to an end in the active lane. -/
def State.lateEnds (s : State) (n ls : Nat) : State :=
  if s.d.laneState n = 1 then s.onDev fun d => (d.archLate ls).mirrorSkip ls else s

theorem BeforeRun.lateEnds (n ls : Nat) (s : State) : BeforeRun n s (s.lateEnds n ls) := by
  unfold State.lateEnds
  split
  · exact (BeforeRun.archLate n ls s).trans (.mirrorSkip n ls _)
  · exact .refl n s

theorem State.lateEnds_mem (s : State) (ls : Nat) : (s.lateEnds n ls).mem = s.mem := by
  unfold State.lateEnds
  split <;> rfl

theorem State.lateEnds_cfg (s : State) (ls : Nat) : (s.lateEnds n ls).d.cfg = s.d.cfg := by
  have harch (d : Dev) : (d.archLate ls).cfg = d.cfg := by
    unfold Dev.archLate
    dsimp only
    split
    · rfl
    · unfold Dev.archSkip
      dsimp only
      split <;> rfl
  have hmirror (d : Dev) : (d.mirrorSkip ls).cfg = d.cfg := by
    unfold Dev.mirrorSkip
    split <;> rfl
  unfold State.lateEnds
  split
  · exact (hmirror _).trans (harch _)
  · rfl

/-- With no slot read due and no capture under way there is nothing to end. -/
theorem State.lateEnds_of_nothing {ls : Nat} (hslot : s.d.slotDue = []) (hbufs : s.d.lc.bufs = []) : s.lateEnds n ls = s := by
  simp [State.lateEnds, Dev.archLate, Dev.mirrorSkip, State.onDev, hslot, hbufs]

/-- A trigger waits on its own snapshot, in place of one of its Loop Set that waited before (R127). -/
def Lane.withPending (l : Lane) (p : PendRun) : Lane := { l with pend := (l.pend.filter fun r => r.ls != p.ls) ++ [p] }

/-- A trigger waits behind a run, and is counted as an overrun or, where one waited before, as lost (R127). -/
def Dev.queueTrigger (d : Dev) (n : Nat) (l : LoopSet) (time : Nat) : Dev :=
  let t := d.lane n
  let running := t.runs.any fun r => r.ls == l.idx
  let waiting := t.pend.any fun r => r.ls == l.idx
  let d := d.setLane n (t.withPending ⟨l.idx, time, t.ports⟩)
  let d := if !running then d
    else if waiting then d.incSat (R.WV_LS_CNT_LOST n l.idx)
    else (d.incSat (R.WV_LS_CNT_OVERRUN n l.idx)).raiseLane n 63 l.idx
  d.laneSync n

/-- What a trigger that the lane takes does, once the run before has come to its end (R125, R127, R336). -/
def State.takeTrigger (s : State) (n : Nat) (l : LoopSet) (time : Nat) : State :=
  if (s.d.lane n).runs.any (fun r => r.ls == l.idx) || (s.d.lane n).mirroring.contains l.idx then
    { s with d := s.d.queueTrigger n l time }
  else s.beginRun n l time (s.d.lane n).ports

theorem trigger_taken (h : s.d.lsTakes l = true) (h4 : s.d.laneState n ≠ 4) :
    s.trigger n l time = (s.lateEnds n l.idx).takeTrigger n l time :=
  (if_neg (by simp [h])).trans (if_neg h4)

theorem takeTrigger_free (hrun : ¬∃ r ∈ (s.d.lane n).runs, r.ls = l.idx) (hm : l.idx ∉ (s.d.lane n).mirroring) :
    s.takeTrigger n l time = s.beginRun n l time (s.d.lane n).ports := by
  have hruns : ((s.d.lane n).runs.any fun r => r.ls == l.idx) = false := by simpa using hrun
  exact if_neg (by simp [hruns, hm])

theorem takeTrigger_busy (hrun : ∃ r ∈ (s.d.lane n).runs, r.ls = l.idx) :
    s.takeTrigger n l time = { s with d := s.d.queueTrigger n l time } := by
  have hruns : ((s.d.lane n).runs.any fun r => r.ls == l.idx) = true := by simpa using hrun
  exact if_pos (by rw [hruns, Bool.true_or])

/-- A trigger of a Loop Set without a run starts one on the ports as they stand (R118, R125). -/
theorem trigger_starts (hidx : l.idx < 16) (h : s.d.lsTakes l = true) (h4 : s.d.laneState n ≠ 4)
    (hrun : ¬∃ r ∈ (s.d.lane n).runs, r.ls = l.idx) (hm : l.idx ∉ (s.d.lane n).mirroring) :
    let t := s.trigger n l time
    (t.d.lane n).runs = (s.d.lane n).runs ++
        [{ ls := l.idx, no := time, snap := (s.d.lane n).ports, streams := s.d.streams l, sent := [] }] ∧
      (t.d.lane n).pend = (s.d.lane n).pend ∧
      t.d.get (R.WV_LS_CNT_RUNS n l.idx) = (s.d.get (R.WV_LS_CNT_RUNS n l.idx) + 1) % 2 ^ 16 ∧
      (∀ st, Sparse.at' {} (t.d.lane n).flags (st * 16 + l.idx) = {}) ∧
      (s.d.cfg.coef = none → l.idx ≠ 15 → t.mem = s.mem) := by
  intro t
  have hb := BeforeRun.lateEnds n l.idx s
  have htrigger : t = (s.lateEnds n l.idx).beginRun n l time (s.d.lane n).ports := by
    rw [← hb.ports]
    exact (trigger_taken h h4).trans (takeTrigger_free (by rwa [hb.runs]) (by rwa [hb.mirroring]))
  have hstreams : (s.lateEnds n l.idx).d.streams l = s.d.streams l := by simp only [Dev.streams, Dev.stream, hb.pat]
  obtain ⟨hruns, hpend, hcnt, hflags, hmem⟩ := (s.lateEnds n l.idx).beginRun_begins (n := n) hidx time (s.d.lane n).ports
  rw [hb.runs, hstreams] at hruns
  rw [hb.pend] at hpend
  rw [hb.get_cnt hidx (by simp)] at hcnt
  rw [State.lateEnds_cfg, State.lateEnds_mem] at hmem
  rw [htrigger]
  exact ⟨hruns, hpend, hcnt, hflags, hmem⟩

/-- A counter of one byte saturates at 255. -/
theorem Dev.get_incSat_byte {f : Fld} (h8 : f.w = 8) (h : f.lo + f.w ≤ 32) :
    (d.incSat f).get f = min (d.get f + 1) 255 := (Dev.get_incSat h).trans (by simp only [h8, Nat.reducePow, Nat.reduceSub])

theorem Dev.get_incSat_of_disjoint {f g : Fld} (h : f.lo + f.w ≤ 32)
    (hd : g.addr ≠ f.addr ∨ g.lo + g.w ≤ f.lo ∨ f.lo + f.w ≤ g.lo) : (d.incSat f).get g = d.get g :=
  Dev.get_set_of_disjoint d _ h hd

/-- A trigger of a Loop Set whose run is in progress waits on its own snapshot; the first is an overrun, one that takes the
place of another is a loss (R127). -/
theorem queueTrigger_waits (hidx : l.idx < 16) (hrun : ∃ r ∈ (d.lane n).runs, r.ls = l.idx) :
    let e := d.queueTrigger n l time
    e.lane n = (d.lane n).withPending ⟨l.idx, time, (d.lane n).ports⟩ ∧
      ((¬∃ p ∈ (d.lane n).pend, p.ls = l.idx) → e.hoop = d.hoop ++ [reportOf d (4 + n) 63 l.idx n] ∧
        e.get (R.WV_LS_CNT_OVERRUN n l.idx) = min (d.get (R.WV_LS_CNT_OVERRUN n l.idx) + 1) 255 ∧
        e.get (R.WV_LS_CNT_LOST n l.idx) = d.get (R.WV_LS_CNT_LOST n l.idx)) ∧
      ((∃ p ∈ (d.lane n).pend, p.ls = l.idx) → e.hoop = d.hoop ∧
        e.get (R.WV_LS_CNT_LOST n l.idx) = min (d.get (R.WV_LS_CNT_LOST n l.idx) + 1) 255 ∧
        e.get (R.WV_LS_CNT_OVERRUN n l.idx) = d.get (R.WV_LS_CNT_OVERRUN n l.idx)) := by
  have hruns : ((d.lane n).runs.any fun r => r.ls == l.idx) = true := by simpa using hrun
  have lwidth : (R.WV_LS_CNT_LOST n l.idx).lo + (R.WV_LS_CNT_LOST n l.idx).w ≤ 32 := by simp [R.WV_LS_CNT_LOST]
  have owidth : (R.WV_LS_CNT_OVERRUN n l.idx).lo + (R.WV_LS_CNT_OVERRUN n l.idx).w ≤ 32 := by simp [R.WV_LS_CNT_OVERRUN]
  let c := d.setLane n ((d.lane n).withPending ⟨l.idx, time, (d.lane n).ports⟩)
  have hget (f : Fld) : c.get f = d.get f := Dev.get_congr rfl f
  have hlane (e : Dev) (he : e.lanes = c.lanes) :
      (e.laneSync n).lane n = (d.lane n).withPending ⟨l.idx, time, (d.lane n).ports⟩ := by
    rw [Dev.lane_laneSync, Dev.lane_congr he]
    exact Dev.lane_setLane_self _ _ _
  by_cases hwait : ∃ p ∈ (d.lane n).pend, p.ls = l.idx
  · have hany : ((d.lane n).pend.any fun p => p.ls == l.idx) = true := by simpa using hwait
    have he : d.queueTrigger n l time = (c.incSat (R.WV_LS_CNT_LOST n l.idx)).laneSync n := by
      simp [Dev.queueTrigger, hruns, hany, c]
    rw [he]
    refine ⟨hlane _ (by rw [Dev.incSat_lanes]), fun hn => absurd hwait hn, fun _ => ⟨?_, ?_, ?_⟩⟩
    · rw [Dev.hoop_laneSync, Dev.incSat_hoop]
      rfl
    · rw [Dev.get_laneSync_cnt _ hidx (by simp), Dev.get_incSat_byte rfl lwidth, hget]
    · rw [Dev.get_laneSync_cnt _ hidx (by simp), Dev.get_incSat_of_disjoint lwidth
        (by simp [R.WV_LS_CNT_LOST, R.WV_LS_CNT_OVERRUN]), hget]
  · have hany : ((d.lane n).pend.any fun p => p.ls == l.idx) = false := by simpa using hwait
    have he : d.queueTrigger n l time =
        ((c.incSat (R.WV_LS_CNT_OVERRUN n l.idx)).raiseLane n 63 l.idx).laneSync n := by
      simp [Dev.queueTrigger, hruns, hany, c]
    rw [he]
    refine ⟨hlane _ (by rw [Dev.raiseLane, Dev.raise_lanes, Dev.incSat_lanes]), fun _ => ⟨?_, ?_, ?_⟩,
      fun hy => absurd hy hwait⟩
    · rw [Dev.hoop_laneSync, Dev.raiseLane, Dev.raise_hoop, Dev.incSat_hoop]
      rfl
    · rw [Dev.get_laneSync_cnt _ hidx (by simp), Dev.raiseLane, Dev.get_raise, Dev.get_incSat_byte rfl owidth, hget]
    · rw [Dev.get_laneSync_cnt _ hidx (by simp), Dev.raiseLane, Dev.get_raise, Dev.get_incSat_of_disjoint owidth
        (by simp [R.WV_LS_CNT_LOST, R.WV_LS_CNT_OVERRUN]), hget]

theorem trigger_waits (h : s.d.lsTakes l = true) (h4 : s.d.laneState n ≠ 4) (hslot : s.d.slotDue = [])
    (hbufs : s.d.lc.bufs = []) (hrun : ∃ r ∈ (s.d.lane n).runs, r.ls = l.idx) :
    s.trigger n l time = { s with d := s.d.queueTrigger n l time } := by
  rw [trigger_taken h h4, State.lateEnds_of_nothing hslot hbufs, takeTrigger_busy hrun]

end

/-- A trigger that one Loop Set names acts after its event has left the buffer. -/
theorem exec_loopsetTrigger {lane : Fin 2} {ch : Fin 8} {k u tm : Nat} {l : LoopSet}
    (h : s.d.forkFront lane.val ch.val = some (.event k u tm))
    (hl : (s.d.pat.loopsets.filter fun x => x.kind == k && x.unit == u) = [l]) : exec (.loopsetTrigger lane ch) s =
      .next ((s.onDev fun d => d.forkPop lane.val ch.val).trigger lane.val l tm) := by
  change execLoopsetTrigger lane ch s = _
  simp only [execLoopsetTrigger, h, hl, List.foldl_cons, List.foldl_nil]

theorem BeforeRun.forkPop (n ch : Nat) (s : State) : BeforeRun n s (s.onDev fun d => d.forkPop n ch) := by
  have h : (s.d.forkPop n ch).lane n = _ := Dev.lane_forkPop _ _ _
  exact ⟨by rw [State.onDev_d, h], by rw [State.onDev_d, h], by rw [State.onDev_d, h], by rw [State.onDev_d, h],
    Dev.setLane_pat _ _ _, .of_regs (Dev.setLane_regs _ _ _)⟩

theorem Dev.forkPop_regs (d : Dev) (n ch : Nat) : (d.forkPop n ch).regs = d.regs := Dev.setLane_regs _ _ _

theorem Dev.forkPop_get (d : Dev) (n ch : Nat) (f : Fld) : (d.forkPop n ch).get f = d.get f :=
  Dev.get_congr (Dev.forkPop_regs d n ch) f

/-- A word at the lane forks, in terms of the state before it left its channel (R18, R139). -/
theorem forkWord_forks (d : Dev) (ch : Nat) (w : HWord) (l : List HEntry) :
    let e := (({ d with hoop := l } : Dev).forkTo ch w 0).forkTo ch w 1
    e.hoop = l ++ d.forkLost ch 0 ++ d.forkLost ch 1 ∧
      (∀ n, n < 2 → (d.laneRuns n = true ∧ d.forkFull ch n = false →
          Sparse.at' [] (e.lane n).forks ch = Sparse.at' [] (d.lane n).forks ch ++ [w] ∧
          (∀ k, k ≠ ch → Sparse.at' [] (e.lane n).forks k = Sparse.at' [] (d.lane n).forks k) ∧
          e.lane n = { d.lane n with forks := (e.lane n).forks }) ∧
        (d.laneRuns n = false ∨ d.forkFull ch n = true → e.lane n = d.lane n)) ∧
      e = { d with hoop := e.hoop, lanes := e.lanes } := by
  intro e
  let d0 : Dev := { d with hoop := l }
  let d1 := d0.forkTo ch w 0
  obtain ⟨hoop0, takes0, keeps0, others0, frame0⟩ : Forked d0 d1 ch w 0 := d0.forkTo_forked ch w 0
  obtain ⟨hoop1, takes1, keeps1, others1, frame1⟩ : Forked d1 e ch w 1 := d1.forkTo_forked ch w 1
  have hlane1 : d1.lane 1 = d.lane 1 := others0 1 (by decide)
  have hlane0 : e.lane 0 = d1.lane 0 := others1 0 (by decide)
  have hruns : d1.laneRuns 1 = d.laneRuns 1 := by rw [frame0]; rfl
  have hfull : d1.forkFull ch 1 = d.forkFull ch 1 := by rw [Dev.forkFull, hruns, hlane1, Dev.forkFull]
  have hlost : d1.forkLost ch 1 = d.forkLost ch 1 := by
    rw [Dev.forkLost, hfull, frame0]
    rfl
  refine ⟨by rw [hoop1, hoop0, hlost]; rfl, fun n hn => ?_, by rw [frame1, frame0]⟩
  obtain rfl | rfl : n = 0 ∨ n = 1 := by omega
  · rw [hlane0]
    exact ⟨fun h => takes0 h.1 h.2, keeps0⟩
  · rw [hruns, hfull, hlane1] at takes1 keeps1
    exact ⟨fun h => takes1 h.1 h.2, keeps1⟩

/-- Settles O27: the forks, the sample ports, then a trigger by what it finds in its lane. -/
theorem forksPortsAndTriggers : Obligations.ForksPortsAndTriggers := by
  unfold Obligations.ForksPortsAndTriggers
  refine ⟨fun ch s h => exec_forkWord_nothing h, fun ch s pre post e e' hh hx hx4 hy hy5 hpre => ?_,
    fun lane ch s k u x v tm h => samplePortWord_moves h, fun lane ch s k u tm l => ?_⟩
  · intro full lost
    refine gives_of_next (exec_forkWord hh hx hx4 hy hy5 hpre) ?_
    obtain ⟨hhoop, hlanes, hframe⟩ := forkWord_forks s.d ch.val e.w (pre ++ post)
    exact ⟨hhoop, hlanes, congrArg (fun d => ({ s with d := d } : State)) hframe⟩
  · intro n c L running waiting hfront hidx hhit
    have hb := BeforeRun.forkPop n ch.val s
    have hget (f : Fld) := s.d.forkPop_get n ch.val f
    have hregs := s.d.forkPop_regs n ch.val
    have hkept : (s.d.forkPop n ch.val).hoop = s.d.hoop ∧ (s.d.forkPop n ch.val).time = s.d.time ∧
        (s.d.forkPop n ch.val).slotDue = s.d.slotDue ∧ (s.d.forkPop n ch.val).lc = s.d.lc ∧
        (s.d.forkPop n ch.val).cfg = s.d.cfg :=
      ⟨Dev.setLane_hoop _ _ _, Dev.setLane_time _ _ _, Dev.setLane_slotDue _ _ _, Dev.setLane_lc _ _ _, Dev.setLane_cfg _ _ _⟩
    generalize hp : s.d.forkPop n ch.val = p at hget hregs hkept
    obtain ⟨hhoop, htime, hslots, hlc, hcfg⟩ := hkept
    have hexec : exec (.loopsetTrigger lane ch) s = .next (({ s with d := p } : State).trigger n l tm) :=
      (exec_loopsetTrigger hfront hhit).trans (by rw [State.onDev, hp])
    obtain ⟨hruns, hpend, hports, hmirror, hpat, -⟩ : BeforeRun n s { s with d := p } := by rwa [State.onDev, hp] at hb
    dsimp only at hruns hpend hports hmirror hpat
    have hmode : p.mode = s.d.mode := hget _
    have htakes : p.lsTakes l = s.d.lsTakes l := by rw [Dev.lsTakes, hmode, Dev.lsTakes]
    have hstate : p.laneState n = s.d.laneState n := by simp only [Dev.laneState, hget]
    have hstreams : p.streams l = s.d.streams l := by simp only [Dev.streams, Dev.stream, hpat]
    have hreport (src ctx : Nat) : reportOf p (4 + n) src ctx n = reportOf s.d (4 + n) src ctx n := by
      rw [reportOf, htime, reportOf]
    refine ⟨fun h => ?_, fun h h4 => ?_, fun h h4 hrun hm => ?_, fun h h4 hslot hbufs hrun => ?_⟩
    · refine gives_of_next (hexec.trans (congrArg _ (trigger_ignored (htakes.trans h)))) ?_
      exact ⟨hruns, hpend, rfl, hregs⟩
    · refine gives_of_next (hexec.trans (congrArg _ (trigger_held (htakes.trans h) (hstate.trans h4)))) ?_
      rw [State.onDev_d, State.onDev_mem, Dev.get_incSat (by decide), hget, Dev.lane_congr (Dev.incSat_lanes _ _ _)]
      exact ⟨hruns, hpend, rfl, rfl, .trans (.of_regs hregs) (RegsBut.set _ _ _ (by simp) (by decide))⟩
    · refine gives_of_next hexec ?_
      have hbegin := trigger_starts (s := { s with d := p }) (n := n) (time := tm) hidx (htakes.trans h)
        (by rwa [hstate]) (by rwa [hruns]) (by rwa [hmirror])
      dsimp only at hbegin
      rw [hruns, hpend, hports, hstreams, hget, hcfg] at hbegin
      exact hbegin
    · refine gives_of_next hexec ?_
      obtain ⟨hlane, hover, hlost⟩ := queueTrigger_waits (d := p) (n := n) (time := tm) hidx (by rwa [hruns])
      rw [hpend, hhoop, hreport, hget, hget] at hover
      rw [hpend, hhoop, hget, hget] at hlost
      rw [trigger_waits (htakes.trans h) (by rwa [hstate]) (hslots.trans hslot) (by rwa [hlc]) (by rwa [hruns])]
      refine ⟨?_, rfl, ?_, hover, fun hw => ?_⟩
      · rw [hlane, Lane.withPending, hruns]
      · rw [hlane, Lane.withPending, hpend, hports]
      · obtain ⟨hsame, hcounts⟩ := hlost hw
        exact ⟨hsame.trans (List.append_nil _).symm, hcounts⟩

end Sys2Proof.Machine
end

section
/-! ## The issue of an operation -/

namespace Sys2Proof.Machine

variable {s : State} {d e f : Dev} {n : Nat} {l : Lane} {sent : List HEntry}

/-! ### What an issue leaves of its lane -/

/-- A run keeps its Loop Set, number, snapshot and streams. -/
structure RunKept (r r' : Run) : Prop where
  ls : r'.ls = r.ls
  no : r'.no = r.no
  snap : r'.snap = r.snap
  streams : r'.streams = r.streams

theorem RunKept.refl (r : Run) : RunKept r r := ⟨rfl, rfl, rfl, rfl⟩

theorem RunKept.trans {r r' r'' : Run} (h : RunKept r r') (h' : RunKept r' r'') : RunKept r r'' :=
  ⟨h'.ls.trans h.ls, h'.no.trans h.no, h'.snap.trans h.snap, h'.streams.trans h.streams⟩

/-- A run keeps its Loop Set, number and snapshot, and operation `idx` leaves the stream of Loop Set `c` on a Stake. -/
structure RunLeft (c st idx : Nat) (r r' : Run) : Prop where
  ls : r'.ls = r.ls
  no : r'.no = r.no
  snap : r'.snap = r.snap
  streams : ∀ k, Sparse.at' [] r'.streams k =
    if r.ls = c ∧ k = st then (Sparse.at' [] r.streams k).filter fun o => o.1 != idx else Sparse.at' [] r.streams k

theorem RunKept.left {ls st idx : Nat} {r r' r'' : Run} (h : RunKept r r') (h' : RunLeft ls st idx r' r'') :
    RunLeft ls st idx r r'' :=
  ⟨h'.ls.trans h.ls, h'.no.trans h.no, h'.snap.trans h.snap, fun k => by rw [h'.streams, h.streams, h.ls]⟩

theorem RunLeft.kept {ls st idx : Nat} {r r' r'' : Run} (h : RunLeft ls st idx r r') (h' : RunKept r' r'') :
    RunLeft ls st idx r r'' :=
  ⟨h'.ls.trans h.ls, h'.no.trans h.no, h'.snap.trans h.snap, fun k => by rw [h'.streams, h.streams]⟩

/-- The device `e` is `d` but for lane `n`, which is `l` with its runs changed as `K` says and its issue queues, for
counters of the lane and for words sent. -/
structure LaneRun (K : Run → Run → Prop) (n : Nat) (d e : Dev) (l : Lane) (sent : List HEntry) : Prop where
  regs : RegsBut (laneFields n) d e
  others : ∀ m, m ≠ n → e.lane m = d.lane m
  hoop : e.hoop = d.hoop ++ sent
  frame : e = { d with regs := e.regs, hoop := e.hoop, lanes := e.lanes }
  lane : ∃ g x, (∀ r, K r (g r)) ∧ e.lane n = { l with runs := l.runs.map g, fetched := x }

/-- A change of the lane that leaves its runs and issue queues to themselves. -/
structure LaneChange (u : Lane → Lane) : Prop where
  apart : ∀ l rs x, u { l with runs := rs, fetched := x } = { u l with runs := rs, fetched := x }
  runs : ∀ l, (u l).runs = l.runs

theorem LaneChange.same : LaneChange fun l => l := ⟨fun _ _ _ => rfl, fun _ => rfl⟩

section
variable {K K₁ K₂ : Run → Run → Prop} {u : Lane → Lane}

theorem LaneRun.trans {sent' : List HEntry} (hK : ∀ r r' r'', K₁ r r' → K₂ r' r'' → K r r'') (hu : LaneChange u)
    (h : LaneRun K₁ n d e l sent) (h' : LaneRun K₂ n e f (u (e.lane n)) sent') : LaneRun K n d f (u l) (sent ++ sent') := by
  refine ⟨h.regs.trans h'.regs, fun m hm => (h'.others m hm).trans (h.others m hm), ?_, ?_, ?_⟩
  · rw [h'.hoop, h.hoop, List.append_assoc]
  · rw [h'.frame, h.frame]
  · obtain ⟨g, x, hg, hl⟩ := h.lane
    obtain ⟨g', x', hg', hl'⟩ := h'.lane
    refine ⟨g' ∘ g, x', fun r => hK _ _ _ (hg r) (hg' _), ?_⟩
    rw [hl', hl, hu.apart, hu.runs, List.map_map]

/-- Two steps that keep every run. -/
theorem LaneRun.kept {sent' : List HEntry} (h : LaneRun RunKept n d e l sent) (h' : LaneRun RunKept n e f (e.lane n) sent') :
    LaneRun RunKept n d f l (sent ++ sent') :=
  .trans (u := fun l => l) (fun _ _ _ h h' => h.trans h') .same h h'

/-- An operation leaves its stream after a step that keeps every run. -/
theorem LaneRun.left {c st idx : Nat} (h : LaneRun RunKept n d e l sent)
    (h' : LaneRun (RunLeft c st idx) n e f (e.lane n) []) : LaneRun (RunLeft c st idx) n d f l sent := by
  have := LaneRun.trans (K := RunLeft c st idx) (K₁ := RunKept) (K₂ := RunLeft c st idx) (u := fun l => l)
    (fun _ _ _ h h' => h.left h') .same h h'
  rwa [List.append_nil] at this

/-- A step that keeps every run after an operation has left its stream. -/
theorem LaneRun.left_kept {c st idx : Nat} (h : LaneRun (RunLeft c st idx) n d e l sent)
    (h' : LaneRun RunKept n e f (e.lane n) []) : LaneRun (RunLeft c st idx) n d f l sent := by
  have := LaneRun.trans (K := RunLeft c st idx) (K₁ := RunLeft c st idx) (K₂ := RunKept) (u := fun l => l)
    (fun _ _ _ h h' => h.kept h') .same h h'
  rwa [List.append_nil] at this

/-- A change of the lane after a step that keeps every run. -/
theorem LaneRun.changed (hu : LaneChange u) (h : LaneRun RunKept n d e l []) (h' : LaneRun K n e f (u (e.lane n)) sent)
    (hK : ∀ r r' r'', RunKept r r' → K r' r'' → K r r'') : LaneRun K n d f (u l) sent := .trans hK hu h h'

theorem LaneRun.ite {c : Prop} [Decidable c] {a b : Dev} (ha : LaneRun K n d a l sent) (hb : LaneRun K n d b l sent) :
    LaneRun K n d (if c then a else b) l sent := by
  split
  · exact ha
  · exact hb

theorem LaneRun.setLane (d : Dev) (n : Nat) (l : Lane) : LaneRun RunKept n d (d.setLane n l) l [] :=
  ⟨.of_regs (Dev.setLane_regs _ _ _), fun _ hm => Dev.lane_setLane_of_ne _ _ hm, (List.append_nil _).symm, rfl,
    id, l.fetched, RunKept.refl, by rw [Dev.lane_setLane_self, List.map_id]⟩

theorem LaneRun.fetched (d : Dev) (n : Nat) (x : List (Nat × Nat)) :
    LaneRun RunKept n d (d.setLane n { d.lane n with fetched := x }) (d.lane n) [] :=
  ⟨.of_regs (Dev.setLane_regs _ _ _), fun _ hm => Dev.lane_setLane_of_ne _ _ hm, (List.append_nil _).symm, rfl,
    id, x, RunKept.refl, by rw [Dev.lane_setLane_self, List.map_id]⟩

theorem LaneRun.onRun {g : Run → Run} {ls : Nat} (hg : ∀ r, K r (if r.ls == ls then g r else r)) (d : Dev) (n : Nat) :
    LaneRun K n d (d.onRun n ls g) (d.lane n) [] :=
  ⟨.of_regs (Dev.setLane_regs _ _ _), fun _ hm => Dev.lane_setLane_of_ne _ _ hm, (List.append_nil _).symm, rfl,
    _, (d.lane n).fetched, hg, Dev.lane_setLane_self _ _ _⟩

theorem RunKept.if {g : Run → Run} (hg : ∀ r, RunKept r (g r)) (ls : Nat) (r : Run) :
    RunKept r (if r.ls == ls then g r else r) := by
  split
  · exact hg r
  · exact .refl r

/-- A step that changes counters of the lane alone. -/
theorem LaneRun.of_regs (hr : RegsBut (laneFields n) d e) (hf : e = { d with regs := e.regs }) :
    LaneRun RunKept n d e (d.lane n) [] := by
  have hlane (m : Nat) : e.lane m = d.lane m := by rw [hf]; rfl
  exact ⟨hr, fun m _ => hlane m, by rw [hf, List.append_nil], by rw [hf], id, (d.lane n).fetched, RunKept.refl, by
    rw [hlane, List.map_id]⟩

theorem LaneRun.refl (n : Nat) (d : Dev) : LaneRun RunKept n d d (d.lane n) [] := .of_regs (.refl _ _) rfl

theorem LaneRun.incSat {g : Fld} (hg : g = R.WV_CHAIN_MISS n ∨ g = R.WV_STALL_CYCLES n) :
    LaneRun RunKept n d (d.incSat g) (d.lane n) [] := by
  refine .of_regs (RegsBut.set _ _ _ ?_ ?_) rfl
  · rcases hg with rfl | rfl <;> simp [laneFields]
  · rcases hg with rfl | rfl <;> simp [R.WV_CHAIN_MISS, R.WV_STALL_CYCLES]

theorem LaneRun.laneSync (d : Dev) (n : Nat) : LaneRun RunKept n d (d.laneSync n) (d.lane n) [] :=
  .of_regs ((RegsBut.laneSync d n).mono fun _ => by simp only [laneSyncFields, laneFields, List.mem_cons]; tauto)
    (Dev.laneSync_frame d n)

theorem LaneRun.send (d : Dev) (n ch recv : Nat) (w : HWord) :
    LaneRun RunKept n d (d.send ch recv w) (d.lane n) [⟨ch, recv, w, false, false⟩] :=
  ⟨.of_regs (Dev.send_regs _ _ _ _), fun _ _ => Dev.lane_congr (Dev.send_lanes _ _ _ _) _, rfl, rfl, id, (d.lane n).fetched,
    RunKept.refl, by rw [Dev.lane_congr (Dev.send_lanes _ _ _ _), List.map_id]⟩

end

/-! ### Before the unit: refusals, CHAIN.MISS and the Stake's issue of the cycle -/

theorem LaneRun.refuse (d : Dev) (n cycle : Nat) (lss : List Nat) :
    ∃ z c, LaneRun RunKept n d (d.refuse n cycle lss) { d.lane n with stalled := z, cycle := c } [] := by
  have hfold (lss : List Nat) (d : Dev) : LaneRun RunKept n d (lss.foldl (fun d ls => d.onRun n ls fun r =>
      if r.grantedAt = some cycle ∨ r.refusedAt = some cycle then r
      else if r.refusedAt.map (· + 1) = some cycle then { r with refused := r.refused + 1, refusedAt := some cycle }
      else { r with refused := 1, refusedAt := some cycle, full := false }) d) (d.lane n) [] := by
    induction lss generalizing d with
    | nil => exact .refl n d
    | cons ls lss ih =>
      refine LaneRun.kept (sent := []) (LaneRun.onRun (K := RunKept) (RunKept.if (fun r => ?_) ls) d n) (ih _)
      split
      · exact .refl r
      · split <;> exact ⟨rfl, rfl, rfl, rfl⟩
  unfold Dev.refuse
  split
  · exact ⟨_, _, .refl n d⟩
  · dsimp only
    split
    · exact ⟨_, _, hfold lss d⟩
    · refine ⟨some cycle, cycle, LaneRun.kept (sent := []) ?_ (hfold lss _)⟩
      exact LaneRun.changed (u := fun l => { l with stalled := some cycle, cycle := cycle }) ⟨fun _ _ _ => rfl, fun _ => rfl⟩
        (.incSat (.inr rfl)) (.setLane _ _ _) fun _ _ _ h h' => h.trans h'

theorem LaneRun.chainMiss (d : Dev) (n st : Nat) (q : Issued) : LaneRun RunKept n d (d.chainMiss n st q) (d.lane n) [] := by
  unfold Dev.chainMiss
  exact .ite (.incSat (.inl rfl)) (.refl n d)

/-- The device at the point where the operation enters its unit. -/
def Dev.offered (d : Dev) (n st cycle : Nat) (lss : List Nat) (q : Issued) : Dev :=
  ((d.refuse n cycle lss).chainMiss n st q).spend n st cycle q

theorem LaneRun.offered (d : Dev) (n st cycle : Nat) (lss : List Nat) (q : Issued) :
    ∃ p z, (p.cycle = cycle ∧ p.ls = q.run.ls ∧ p.idx = q.idx) ∧ LaneRun RunKept n d (d.offered n st cycle lss q)
      { d.lane n with issued := Sparse.put none (d.lane n).issued st (some p), cycle := cycle, stalled := z } [] := by
  obtain ⟨z, c, hrefuse⟩ := LaneRun.refuse d n cycle lss
  let p : LastIssue := {
    cycle := cycle, ls := q.run.ls, idx := q.idx, port := q.word.opc == 1
    cordic := if q.info.unit = .cordic then cycle + 2 else
      match Sparse.at' none (((d.refuse n cycle lss).chainMiss n st q).lane n).issued st with | some p => p.cordic | none => 0 }
  refine ⟨p, z, ⟨rfl, rfl, rfl⟩, ?_⟩
  exact LaneRun.changed (u := fun l => { l with issued := Sparse.put none l.issued st (some p), cycle := cycle })
    ⟨fun _ _ _ => rfl, fun _ => rfl⟩ (hrefuse.kept (.chainMiss _ n st q)) (.setLane _ n _) fun _ _ _ h h' => h.trans h'

/-! ### After the unit: the tag and the stream -/

theorem LaneRun.dropOp (d : Dev) (n ls st idx : Nat) :
    LaneRun (RunLeft ls st idx) n d (d.dropOp n ls st idx) (d.lane n) [] := by
  have hdrop (r : Run) : RunLeft ls st idx r (if r.ls == ls then
      { r with streams := Sparse.put [] r.streams st ((Sparse.at' [] r.streams st).filter fun o => o.1 != idx) } else r) := by
    by_cases h : r.ls = ls
    · rw [if_pos (by simpa using h)]
      refine ⟨rfl, rfl, rfl, fun k => ?_⟩
      by_cases hk : k = st
      · subst hk
        simp [h, Sparse.at', Sparse.put]
      · simp [hk, Sparse.at', Sparse.put, Sparse.get_set_of_ne _ _ _ hk]
    · rw [if_neg (by simpa using h)]
      exact ⟨rfl, rfl, rfl, fun k => by simp [h]⟩
  unfold Dev.dropOp
  dsimp only
  exact LaneRun.left_kept (.left (.ite (.fetched d n _) (.refl n d)) (.onRun hdrop _ n)) (.fetched _ n _)

theorem LaneRun.takeTag (d : Dev) (n st : Nat) (q : Issued) (f : InFlight) :
    LaneRun (RunLeft q.run.ls st q.idx) n d (d.takeTag n st q f) { d.lane n with flight := (d.lane n).flight ++ [f] } [] := by
  have hflight := LaneRun.setLane d n { d.lane n with flight := (d.lane n).flight ++ [f] }
  have hrun (r : Run) : RunKept r { r with refused := 0, refusedAt := none, grantedAt := some f.cycle, full := false } :=
    ⟨rfl, rfl, rfl, rfl⟩
  have hgrant := hflight.kept (LaneRun.onRun (RunKept.if hrun q.run.ls) _ n)
  exact LaneRun.left_kept (hgrant.left (.dropOp _ n q.run.ls st q.idx)) (.laneSync _ n)

/-! ### Tags -/

/-- With a tag left, the lowest free one is held by nothing in flight (R136). -/
theorem Dev.newTag_free (h : 0 < Dev.freeTags (d.lane n)) : ∀ g ∈ (d.lane n).flight, g.tag ≠ d.newTag n := by
  have hlen : (d.lane n).flight.length < 256 := by
    unfold Dev.freeTags at h
    omega
  obtain ⟨t, ht⟩ : ∃ t, (List.range 256).find? (fun t => !((d.lane n).flight.any fun f => f.tag == t)) = some t := by
    by_contra hnone
    rw [← Option.isSome_iff_exists, Option.not_isSome_iff_eq_none, List.find?_eq_none] at hnone
    have hsub : List.range 256 ⊆ (d.lane n).flight.map InFlight.tag := fun t ht => by simpa using hnone t ht
    have := (List.subperm_of_subset List.nodup_range hsub).length_le
    simp only [List.length_range, List.length_map] at this
    omega
  have hfree := List.find?_some ht
  intro g hg heq
  rw [Dev.newTag, ht, Option.getD_some] at heq
  simp only [Bool.not_eq_true', List.any_eq_false, beq_iff_eq] at hfree
  exact hfree g hg heq

/-- An operation that issues and takes a tag finds one (R137). -/
theorem State.turn_freeTags {opc : Nat} {i : Issue} {q : Issued} {lss : List Nat} (hopc : opc ≠ 0)
    (h : s.turn opc i = .take q lss) : 0 < Dev.freeTags (s.d.lane i.lane.val) := by
  have hfold (better : List (Nat × Issued)) (k : Nat) :
      better.foldl (fun f o => if 0 < f ∧ s.d.reserve i.lane.val f o.2.set.prio then f - 1 else f) k ≤ k := by
    induction better generalizing k with
    | nil => exact le_rfl
    | cons o better ih =>
      refine (ih _).trans ?_
      dsimp only
      split
      · exact Nat.sub_le _ _
      · exact le_rfl
  have hle (q : Issued) : s.freeFor i.lane.val i.stake.val i.cycle q ≤ Dev.freeTags (s.d.lane i.lane.val) := by
    unfold State.freeFor
    dsimp only
    split
    · exact le_rfl
    · exact hfold _ _
  unfold State.turn at h
  dsimp only at h
  split at h
  · cases h
  · rename_i q' _
    by_cases hno : q'.word.opc ≠ opc ∨
        (s.ahead i.lane.val i.stake.val i.cycle (some (i.ls.val, i.place.val))).any (s.admitted i.lane.val)
    · rw [if_pos hno] at h
      cases h
    · rw [if_neg hno] at h
      rw [if_neg hopc] at h
      split at h
      · rename_i hfree
        exact hfree.1.trans_le (hle q')
      · cases h

/-! ### The whole issue -/

/-- What a unit makes of the operation, wherever the lane's cycles and counters stand: its effect, and the change of the
device. -/
structure UnitDoes (s : State) (n : Nat) (q : Issued) (eff : Issued → Dev → Dev × Effect) (outs : List (Nat × Word))
    (fl : Flags) (act : OpAct) (sent : List HEntry) (u : Lane → Lane) : Prop where
  change : LaneChange u
  apart : ∀ l x y z, u { l with issued := x, cycle := y, stalled := z } = { u l with issued := x, cycle := y, stalled := z }
  flight : ∀ l, (u l).flight = l.flight
  does : ∀ e x y z, LaneRun RunKept n s.d e { s.d.lane n with issued := x, cycle := y, stalled := z } [] →
    (eff q e).2 = { outs := outs, flags := fl, act := act, waiting := act != .none } ∧
      LaneRun RunKept n e (eff q e).1 (u (e.lane n)) sent

/-- The entry of an operation in flight, by the effect of its unit. -/
def Dev.entry (d : Dev) (n st opc cycle : Nat) (q : Issued) (eff : Effect) : InFlight where
  tag := d.newTag n
  ls := q.run.ls
  stake := st
  idx := q.idx
  unit := q.info.unit
  writes := q.word.writes q.info
  chains := q.info.unit == .add || q.info.unit == .mac || opc == 1
  outs := eff.outs
  flags := eff.flags
  act := eff.act
  waiting := eff.waiting
  cycle := cycle

/-- An enabled operation without an ECC event enters its unit and takes a tag (R136). -/
theorem Dev.enter_enabled (o : Dev) (n st opc cycle : Nat) {q : Issued} (eff : Issued → Dev → Dev × Effect)
    (hen : q.enabled = true) : o.enter n st opc cycle .none q eff =
      (eff q o).1.takeTag n st q ((eff q o).1.entry n st opc cycle q (eff q o).2) := by
  unfold Dev.enter Dev.entry
  dsimp only
  rw [if_pos ⟨hen, rfl⟩]
  rfl

/-- The same for the whole issue, where the Stake's turn has come. -/
theorem issue_take {opc : Nat} {i : Issue} {q : Issued} {lss : List Nat} (eff : Issued → Dev → Dev × Effect) (hopc : opc ≠ 0)
    (hturn : s.turn opc i = .take q lss) (hen : q.enabled = true) (hup : i.upset = .none) :
    let o := s.d.offered i.lane.val i.stake.val i.cycle lss q
    s.issue opc i eff = {
      s with d := (eff q o).1.takeTag i.lane.val i.stake.val q ((eff q o).1.entry i.lane.val i.stake.val opc i.cycle q
        (eff q o).2) } := by
  intro o
  rw [← Dev.enter_enabled o i.lane.val i.stake.val opc i.cycle eff hen]
  unfold State.issue
  rw [hturn]
  simp only [State.onDev, hup, reduceCtorEq, if_false, or_self, hopc, o, Dev.offered]

theorem issue_flies {opc : Nat} {i : Issue} {q : Issued} {eff : Issued → Dev → Dev × Effect} {outs : List (Nat × Word)}
    {fl : Flags} {act : OpAct} {u : Lane → Lane} (hopc : opc ≠ 0) (hc : Clear s opc i q)
    (h : UnitDoes s i.lane.val q eff outs fl act sent u) :
    Flies s (s.issue opc i eff) i q outs fl act sent (u (s.d.lane i.lane.val)) := by
  obtain ⟨⟨lss, hturn⟩, hen, hup⟩ := hc
  have hissue := issue_take eff hopc hturn hen hup
  have hfree := Dev.newTag_free (State.turn_freeTags hopc hturn)
  obtain ⟨p, z, hp, hoff⟩ := LaneRun.offered s.d i.lane.val i.stake.val i.cycle lss q
  generalize s.d.offered i.lane.val i.stake.val i.cycle lss q = o at hoff hissue
  obtain ⟨heff, hunit⟩ := h.does o _ _ _ hoff
  have hdone := hoff.changed h.change hunit fun _ _ _ h h' => h.trans h'
  rw [h.apart] at hdone
  obtain hissue : s.issue opc i eff = _ := hissue
  rw [heff] at hissue
  rw [hissue]
  generalize (eff q o).1 = e at hdone
  have hflight : (e.lane i.lane.val).flight = (s.d.lane i.lane.val).flight := by
    obtain ⟨g, x, -, hl⟩ := hdone.lane
    rw [hl]
    exact h.flight _
  have htag : e.newTag i.lane.val = s.d.newTag i.lane.val := by rw [Dev.newTag, hflight, Dev.newTag]
  generalize hf : e.entry i.lane.val i.stake.val opc i.cycle q _ = f
  have hfinal := LaneRun.trans (K := RunLeft q.run.ls i.stake.val q.idx) (K₁ := RunKept)
    (K₂ := RunLeft q.run.ls i.stake.val q.idx) (u := fun l => { l with flight := l.flight ++ [f] })
    (fun _ _ _ h h' => RunKept.left h h') ⟨fun _ _ _ => rfl, fun _ => rfl⟩ hdone (.takeTag e i.lane.val i.stake.val q f)
  generalize e.takeTag i.lane.val i.stake.val q f = t at hfinal
  obtain ⟨hregs, hothers, hhoop, hframe, g, x, hg, hlane⟩ := hfinal
  rw [List.append_nil] at hhoop
  dsimp only at hlane
  have hruns := h.change.runs (s.d.lane i.lane.val)
  refine ⟨⟨f, ?_, ?_, ?_, ?_⟩, ⟨p, ?_, hp⟩, ⟨?_, ?_⟩, hregs, hothers, hhoop, congrArg (fun d => ({ s with d := d } : State)) hframe⟩
  · rw [hlane]
  · rw [← hf]
    exact htag
  · rw [h.flight, ← hf]
    exact fun g hg heq => hfree g hg (heq.trans htag)
  · rw [← hf]
    exact ⟨rfl, rfl, rfl, rfl, rfl, rfl, rfl, rfl, rfl⟩
  · rw [hlane]
    simp [Sparse.at', Sparse.put]
  · rw [hlane]
    simp only [hruns, List.map_map]
    exact List.map_congr_left fun r _ => (hg r).ls
  · rw [hlane]
    simp only [hruns, List.mem_map]
    rintro _ ⟨r, hr, rfl⟩
    refine ⟨r, hr, (hg r).ls, (hg r).no, (hg r).snap, fun k => ?_⟩
    rw [(hg r).streams, (hg r).ls]

end Sys2Proof.Machine
end

section
/-! ## Ports, loads, stores, RAISE and GETF at issue -/

namespace Sys2Proof.Machine

variable {s : State} {d e : Dev} {n st : Nat} {q : Issued} {l : Lane}

/-! ### What the unit finds -/

section
variable {K : Run → Run → Prop} {sent : List HEntry} (h : LaneRun K n d e l sent)
include h

theorem LaneRun.pat : e.pat = d.pat := by rw [h.frame]

theorem LaneRun.time : e.time = d.time := by rw [h.frame]

theorem LaneRun.report_eq (isl src ctx lane : Nat) : reportOf e isl src ctx lane = reportOf d isl src ctx lane := by
  rw [reportOf, h.time, reportOf]

theorem LaneRun.laneState (hn : n < 2) (m : Nat) : e.laneState m = d.laneState m := by
  have hget (f : Fld) (hf : f = R.LANE_STATUS_STATE_A ∨ f = R.LANE_STATUS_STATE_B) : e.get f = d.get f := by
    refine h.regs.get f fun g hg => .inl ?_
    simp only [laneFields, List.mem_cons, List.not_mem_nil, or_false] at hg
    rcases hf with rfl | rfl <;> rcases hg with rfl | rfl | rfl | rfl | rfl | rfl <;>
      simp only [R.LANE_STATUS_STATE_A, R.LANE_STATUS_STATE_B, R.WV_CHAIN_MISS, R.WV_STALL_CYCLES, R.WV_STATUS_TAGS_FREE,
        R.WV_WINDOW_MIN_FREE, R.WV_LS_RUN_RUNNING, R.WV_LS_RUN_PENDING] <;> omega
  rw [Dev.laneState, hget _ (.inl rfl), hget _ (.inr rfl), Dev.laneState]

theorem LaneRun.raiseLane (src ctx : Nat) :
    LaneRun RunKept n e (e.raiseLane n src ctx) (e.lane n) [reportOf d (4 + n) src ctx n] := by
  rw [← h.report_eq]
  exact .send e n _ _ _

end

/-- A unit that leaves the device as it is. -/
theorem UnitDoes.idle {eff : Issued → Dev → Dev × Effect} {outs : List (Nat × Word)} {fl : Flags} {act : OpAct}
    (h : ∀ e, e.pat = s.d.pat → eff q e = (e, { outs := outs, flags := fl, act := act, waiting := act != .none })) :
    UnitDoes s n q eff outs fl act [] fun l => l :=
  ⟨.same, fun _ _ _ _ => rfl, fun _ => rfl, fun e x y z he => by
    rw [h e he.pat]
    exact ⟨rfl, .refl n e⟩⟩

/-- A unit that raises a source and does nothing else to the device. -/
theorem UnitDoes.raises {eff : Issued → Dev → Dev × Effect} {outs : List (Nat × Word)} {src ctx : Nat}
    (h : ∀ e, eff q e = (e.raiseLane n src ctx, { outs := outs })) :
    UnitDoes s n q eff outs {} .none [reportOf s.d (4 + n) src ctx n] fun l => l :=
  ⟨.same, fun _ _ _ _ => rfl, fun _ => rfl, fun e x y z he => by
    rw [h e]
    exact ⟨rfl, he.raiseLane src ctx⟩⟩

/-! ### Port reads (R117) -/

/-- A port of the Stake is a channel port. -/
def Dev.chanPort (d : Dev) (st port : Nat) : Bool := d.pat.routes.any fun t => t.kind == 3 && t.dstStake == st && t.dstPort == port

theorem Dev.chanPort_congr (h : e.pat = d.pat) (st port : Nat) : e.chanPort st port = d.chanPort st port := by
  rw [Dev.chanPort, h, Dev.chanPort]

theorem portRead_sample (h : s.d.chanPort st q.word.imm = false) :
    UnitDoes s n q (portRead n st) [(q.word.dst, Sparse.at' 0 q.run.snap (st * 8 + q.word.imm))] {} .none [] fun l => l :=
  .idle fun e he => by
    rw [← Dev.chanPort_congr he] at h
    exact if_neg (by rw [Dev.chanPort] at h; rw [h]; decide)

theorem portRead_chan {v : Word} {rest : List Word} (h : s.d.chanPort st q.word.imm = true)
    (hf : Sparse.at' [] (s.d.lane n).fifos (st * 8 + q.word.imm) = v :: rest) :
    UnitDoes s n q (portRead n st) [(q.word.dst, v)] {} .none []
      fun l => { l with fifos := Sparse.put [] l.fifos (st * 8 + q.word.imm) rest } := by
  refine ⟨⟨fun _ _ _ => rfl, fun _ => rfl⟩, fun _ _ _ _ => rfl, fun _ => rfl, fun e x y z he => ?_⟩
  have hfe : Sparse.at' [] (e.lane n).fifos (st * 8 + q.word.imm) = v :: rest := by
    obtain ⟨g, x, -, hl⟩ := he.lane
    rw [hl]
    exact hf
  rw [← Dev.chanPort_congr he.pat] at h
  have heff : portRead n st q e = (e.setLane n { e.lane n with
      fifos := Sparse.put [] (e.lane n).fifos (st * 8 + q.word.imm) rest }, { outs := [(q.word.dst, v)] }) := by
    rw [Dev.chanPort] at h
    simp only [portRead, h, if_true, hfe]
  rw [heff]
  exact ⟨rfl, .setLane e n _⟩

/-- A sample port without a route is not in a snapshot, and reads 0 (R117). -/
theorem snap_unrouted {routes : List Route} {snap : List (Nat × Word)} {port : Nat} (hp : port < 8)
    (h : ∀ r ∈ routes, r.dstStake = st → r.dstPort ≠ port)
    (hs : ∀ p ∈ snap, ∃ r ∈ routes, p.1 = r.dstStake * 8 + r.dstPort ∧ r.dstPort < 8) :
    Sparse.at' 0 snap (st * 8 + port) = 0 := by
  refine Sparse.at'_of_no_key _ fun p hmem heq => ?_
  obtain ⟨r, hr, hkey, hport⟩ := hs p hmem
  exact h r hr (by omega) (by omega)

/-! ### Port writes (R121, R122, R324) -/

/-- The Stake's output port has this route. -/
def isOutRoute (st dst : Nat) (r : Route) : Bool := (r.kind == 3 || 0x10 ≤ r.kind) && r.srcUnit == st && r.srcItem == dst

/-- The commit word that a port write makes (R121, R324). -/
def commitWordOf (n : Nat) (q : Issued) (r : Route) : CommitWord where
  lane := n
  ls := q.run.ls
  run := q.run.no
  kind := r.kind
  unit := r.dstUnit
  field := if r.kind = 0x12 then 0 else q.word.imm % 16
  occ := (q.run.sent.filter (· == (r.kind, r.dstUnit, if r.kind = 0x12 then 0 else q.word.imm % 16))).length
  fin := r.kind != 0x12 && q.word.imm.testBit 4
  value := q.x.a

theorem portWrite_discards (h : ∀ r ∈ s.d.pat.routes, isOutRoute st q.word.dst r = false) :
    UnitDoes s n q (portWrite n st) [] {} .none [] fun l => l :=
  .idle fun e he => by
    have hnone : e.pat.routes.find? (isOutRoute st q.word.dst) = none := by
      rw [he, List.find?_eq_none]
      simpa using h
    unfold isOutRoute at hnone
    simp only [portWrite, hnone]
    rfl

section
variable {r : Route} (hr : s.d.pat.routes.filter (isOutRoute st q.word.dst) = [r])
include hr

theorem outRoute_find (he : e.pat = s.d.pat) : e.pat.routes.find? (isOutRoute st q.word.dst) = some r := by
  rw [he, ← List.head?_filter, hr]
  rfl

theorem portWrite_channel (h3 : r.kind = 3) :
    UnitDoes s n q (portWrite n st) [] {} (.chan r.dstStake r.dstPort q.x.a) [] fun l => l :=
  .idle fun e he => by
    have hfind := outRoute_find hr he
    unfold isOutRoute at hfind
    simp only [portWrite, hfind, if_pos h3]
    rfl

theorem portWrite_commit (hn : n < 2) (h3 : r.kind ≠ 3) :
    UnitDoes s n q (portWrite n st) [] {} (.commit (commitWordOf n q r))
      ((if r.kind = 0x10 ∧ s.d.laneState n = 1 then
          [⟨(if n = 0 then 0x10 else 0x18) + (if r.dstUnit < 24 then 0 else 1), if r.dstUnit < 24 then 6 else 7,
            .commit (commitWordOf n q r), false, false⟩] else []) ++
        [⟨if n = 0 then 0x12 else 0x1A, 3, .commit (commitWordOf n q r), false, false⟩]) fun l => l := by
  refine ⟨.same, fun _ _ _ _ => rfl, fun _ => rfl, fun e x y z he => ?_⟩
  have hfind := outRoute_find hr he.pat
  unfold isOutRoute at hfind
  let key := (r.kind, r.dstUnit, if r.kind = 0x12 then 0 else q.word.imm % 16)
  let d := e.onRun n q.run.ls fun t => { t with sent := t.sent ++ [key] }
  have hsent : LaneRun RunKept n e d (e.lane n) [] :=
    .onRun (RunKept.if (g := fun t => { t with sent := t.sent ++ [key] }) (fun r => ⟨rfl, rfl, rfl, rfl⟩) q.run.ls) e n
  have heff : portWrite n st q e = ((if r.kind = 0x10 ∧ d.laneState n = 1 then
      d.send (pwmChannel n r.dstUnit).1 (pwmChannel n r.dstUnit).2 (.commit (commitWordOf n q r)) else d).send
        (laneChannel n) Dev.islGUARD (.commit (commitWordOf n q r)),
      { act := .commit (commitWordOf n q r), waiting := true }) := by
    simp only [portWrite, hfind, if_neg h3]
    rfl
  rw [heff, (he.kept hsent).laneState hn]
  refine ⟨rfl, LaneRun.kept ?_ (.send _ n (laneChannel n) 3 _)⟩
  split
  · exact hsent.kept (.send d n _ _ _)
  · exact hsent

end

/-! ### Loads, stores, RAISE and GETF (R113, R158, R161) -/

/-- The words of a load or a store lie in the data range of lane memory (R113). -/
def MemWithin (off k : Nat) : Prop := off % 4 = 0 ∧ 0x20000 ≤ off ∧ off + 4 * k ≤ 0x100000

theorem offsets_ok {off k : Nat} (hk : 0 < k) :
    ((List.range k).all fun j => offsetOk (off + 4 * j)) = true ↔ MemWithin off k := by
  simp only [List.all_eq_true, List.mem_range, offsetOk, Bool.and_eq_true, beq_iff_eq, decide_eq_true_eq, MemWithin]
  constructor
  · intro h
    have := h 0 hk
    have := h (k - 1) (by omega)
    omega
  · intro h j hj
    omega

theorem loadEffect_requests {k : Nat} (hk : 0 < k) (h : MemWithin (memOffset q) k) : UnitDoes s n q (loadEffect n st k)
    ((List.range k).map fun j => (q.word.dst + j, 0)) {} (.load (memOffset q) k) [] fun l => l :=
  .idle fun _ _ => if_pos ((offsets_ok hk).mpr h)

theorem loadEffect_astray {k : Nat} (hk : 0 < k) (h : ¬MemWithin (memOffset q) k) : UnitDoes s n q (loadEffect n st k)
    ((List.range k).map fun j => (q.word.dst + j, 0)) {} .none [reportOf s.d (4 + n) 65 st n] fun l => l :=
  .raises fun _ => if_neg fun hok => h ((offsets_ok hk).mp hok)

section
variable {ws : Issued → List Word} (hk : 0 < (ws q).length)
include hk

theorem storeEffect_requests (h : MemWithin (memOffset q) (ws q).length) :
    UnitDoes s n q (fun q => storeEffect n st (ws q) q) [] {} (.store (memOffset q) (ws q)) [] fun l => l :=
  .idle fun _ _ => if_pos ((offsets_ok hk).mpr h)

theorem storeEffect_astray (h : ¬MemWithin (memOffset q) (ws q).length) :
    UnitDoes s n q (fun q => storeEffect n st (ws q) q) [] {} .none [reportOf s.d (4 + n) 65 st n] fun l => l :=
  .raises fun _ => if_neg fun hok => h ((offsets_ok hk).mp hok)

end

theorem flagRead_clears : UnitDoes s n q (flagRead n st)
    [(q.word.dst, (Sparse.at' {} (s.d.lane n).flags (st * 16 + q.run.ls)).toWord)] {} .none []
    fun l => { l with flags := Sparse.put {} l.flags (st * 16 + q.run.ls) {} } := by
  refine ⟨⟨fun _ _ _ => rfl, fun _ => rfl⟩, fun _ _ _ _ => rfl, fun _ => rfl, fun e x y z he => ⟨?_, .setLane e n _⟩⟩
  obtain ⟨g, x, -, hl⟩ := he.lane
  simp only [flagRead, hl]
  rfl

/-- Settles O41: each operation's unit, then the issue that they share. -/
theorem portMemoryAndFlagOperations : Obligations.PortMemoryAndFlagOperations := by
  unfold Obligations.PortMemoryAndFlagOperations
  intro i s q n st w l routes off within astray chan
  refine ⟨fun hc h => ?_, fun hc h hs hp => ?_, fun v rest hc h hf => ?_, fun hc h => ?_, fun r hc hr => ?_, fun hc => ?_,
    fun hc h => ?_, fun hc h => ?_, fun hc h => ?_, fun hc h => ?_, fun hc h => ?_, fun hc h => ?_, fun hc h => ?_,
    fun hc h => ?_, fun hc => ?_⟩
  · exact gives_of_next rfl (issue_flies (by decide) hc (portRead_sample h))
  · have hchan : chan = false := by
      simp only [chan, List.any_eq_false, Bool.and_eq_true, beq_iff_eq]
      exact fun r hr hroute => h r hr hroute.1.2 hroute.2
    have hread := portRead_sample (s := s) (n := n) (st := st) (q := q) hchan
    rw [snap_unrouted hp h hs] at hread
    exact gives_of_next rfl (issue_flies (by decide) hc hread)
  · exact gives_of_next rfl (issue_flies (by decide) hc (portRead_chan h hf))
  · refine gives_of_next rfl (issue_flies (by decide) hc (portWrite_discards fun r hr => ?_))
    have := h r hr
    simp only [isOutRoute, Bool.and_eq_false_iff, Bool.or_eq_false_iff, beq_eq_false_iff_ne, decide_eq_false_iff_not]
    tauto
  · by_cases h3 : r.kind = 3
    · refine gives_of_next rfl ?_
      rw [if_pos h3]
      exact issue_flies (by decide) hc (portWrite_channel hr h3)
    · refine gives_of_next rfl ?_
      rw [if_neg h3]
      exact ⟨commitWordOf n q r, rfl, rfl, rfl, rfl, rfl, rfl, rfl, rfl, rfl,
        issue_flies (by decide) hc (portWrite_commit hr i.lane.isLt h3)⟩
  · exact gives_of_next rfl (issue_flies (by decide) hc (.raises fun _ => rfl))
  · exact gives_of_next rfl (issue_flies (by decide) hc (loadEffect_requests (k := 1) (by decide) h))
  · exact gives_of_next rfl (issue_flies (by decide) hc (loadEffect_astray (k := 1) (by decide) h))
  · exact gives_of_next rfl (issue_flies (by decide) hc (loadEffect_requests (k := 2) (by decide) h))
  · exact gives_of_next rfl (issue_flies (by decide) hc (loadEffect_astray (k := 2) (by decide) h))
  · exact gives_of_next rfl (issue_flies (by decide) hc (storeEffect_requests (ws := fun q => [q.x.b]) Nat.one_pos h))
  · exact gives_of_next rfl (issue_flies (by decide) hc (storeEffect_astray (ws := fun q => [q.x.b]) Nat.one_pos h))
  · exact gives_of_next rfl (issue_flies (by decide) hc (storeEffect_requests (ws := fun q => [q.x.b, q.x.b']) Nat.two_pos h))
  · exact gives_of_next rfl (issue_flies (by decide) hc (storeEffect_astray (ws := fun q => [q.x.b, q.x.b']) Nat.two_pos h))
  · exact gives_of_next rfl (issue_flies (by decide) hc flagRead_clears)

end Sys2Proof.Machine
end

section
/-! ## Commit words and leg commits -/

namespace Sys2Proof.Machine

variable {s : State} {d e : Dev} {leg : Nat}

/-- A register none of whose fields is listed reads as before. -/
theorem RegsBut.rdw {fs : List Fld} (h : RegsBut fs d e) {a : Nat} (ha : ∀ f ∈ fs, f.addr ≠ a) : e.rdw a = d.rdw a :=
  BitVec.eq_of_toNat_eq (Nat.eq_of_testBit_eq fun j => h a j fun f hf hj => ha f hf hj.1)

/-! ### The table of legs -/

@[simp] theorem Dev.leg_setLeg_self (d : Dev) (n : Nat) (l : Leg) : (d.setLeg n l).leg n = l := by
  simp [Dev.leg, Dev.setLeg, Sparse.at', Sparse.put]

theorem Dev.leg_congr (h : e.legs = d.legs) (n : Nat) : e.leg n = d.leg n := by rw [Dev.leg, h, Dev.leg]

/-! ### Refused words (R30, R278) -/

/-- The fields of PWM.WRITE_ERR. -/
def writeErrFields : List Fld := [R.PWM_WRITE_ERR_LEG, R.PWM_WRITE_ERR_SRC, R.PWM_WRITE_ERR_COUNT]

/-- What PWM.WRITE_ERR records, and that nothing else changes. -/
structure WriteErr (d e : Dev) (leg src : Nat) : Prop where
  leg : e.get R.PWM_WRITE_ERR_LEG = leg % 2 ^ R.PWM_WRITE_ERR_LEG.w
  src : e.get R.PWM_WRITE_ERR_SRC = src
  count : e.get R.PWM_WRITE_ERR_COUNT = min (d.get R.PWM_WRITE_ERR_COUNT + 1) (2 ^ R.PWM_WRITE_ERR_COUNT.w - 1)
  regs : RegsBut writeErrFields d e
  frame : e = { d with regs := e.regs }

theorem Dev.legWriteErr_records (d : Dev) (leg : Nat) {src : Nat} (hs : src < 4) : WriteErr d (d.legWriteErr leg src) leg src where
  leg := by
    rw [Dev.legWriteErr, Dev.get_incSat_of_disjoint (by decide) (by decide), Dev.get_set_of_disjoint _ _ (by decide) (by decide),
      Dev.get_set_self _ _ _ (by decide)]
  src := by
    rw [Dev.legWriteErr, Dev.get_incSat_of_disjoint (by decide) (by decide), Dev.get_set_self _ _ _ (by decide)]
    exact Nat.mod_eq_of_lt hs
  count := by
    rw [Dev.legWriteErr, Dev.get_incSat (by decide), Dev.get_set_of_disjoint _ _ (by decide) (by decide),
      Dev.get_set_of_disjoint _ _ (by decide) (by decide)]
  regs := (RegsBut.set d _ _ (by simp [writeErrFields]) (by decide)).trans
    ((RegsBut.set _ _ _ (by simp [writeErrFields]) (by decide)).trans (RegsBut.set _ _ _ (by simp [writeErrFields]) (by decide)))
  frame := rfl

/-! ### Fields of the shadow (R251) -/

/-- The field of a leg's shadow that a code names, and what a word leaves in it (R251). -/
def shadowField (leg v : Nat) : List (Nat × Fld × Nat) :=
  [(0, R.PWM_LEG_CMPA_C leg, v), (1, R.PWM_LEG_CMPB_C leg, v), (2, R.PWM_LEG_PERIOD_P leg, v / 32 * 32),
    (3, R.PWM_LEG_DT_DT leg, v % 2 ^ 12), (4, R.PWM_LEG_EVT_POS leg, v / 32 * 32)]

/-- The codes of set-group fields written since the last capture, with one more. -/
def freshWith (fresh : List Nat) (code : Nat) : List Nat := if 3 < code ∨ code ∈ fresh then fresh else fresh ++ [code]

/-- A written field of the shadow, and the mark that it is fresh. -/
structure ShadowWritten (d e : Dev) (leg code : Nat) (f : Fld) (x : Nat) : Prop where
  get : e.get f = x
  regs : RegsBut [f] d e
  leg : e.leg leg = { d.leg leg with fresh := freshWith (d.leg leg).fresh code }
  frame : e = { d with regs := e.regs, legs := e.legs }

theorem Dev.legField_writes {code v x : Nat} {f : Fld} (h : (code, f, x) ∈ shadowField leg (v % 2 ^ 24)) :
    ShadowWritten d (d.legField leg code v) leg code f x := by
  have hmark (c : Dev) (y : Nat) (hc : c = d.set f y) (hy : y % 2 ^ f.w = x) (hf : f.lo + f.w ≤ 32) :
      ShadowWritten d (if code ≤ 3 ∧ !(c.leg leg).fresh.contains code then
        c.setLeg leg { c.leg leg with fresh := (c.leg leg).fresh ++ [code] } else c) leg code f x := by
    have hget : c.get f = x := by rw [hc, Dev.get_set_self _ _ _ hf, hy]
    have hregs : RegsBut [f] d c := by
      rw [hc]
      exact RegsBut.set d f y (by simp) hf
    have hleg : c.leg leg = d.leg leg := by
      rw [hc]
      exact Dev.leg_congr (Dev.set_legs _ _ _) leg
    have hframe : c = { d with regs := c.regs } := by
      rw [hc]
      rfl
    have hcond : (code ≤ 3 ∧ (!(c.leg leg).fresh.contains code) = true) ↔ ¬(3 < code ∨ code ∈ (d.leg leg).fresh) := by
      rw [hleg]
      simp
    by_cases hfresh : 3 < code ∨ code ∈ (d.leg leg).fresh
    · rw [if_neg (by simp only [hcond, hfresh, not_true, not_false_eq_true])]
      exact ⟨hget, hregs, by rw [hleg, freshWith, if_pos hfresh], by rw [hframe]⟩
    · rw [if_pos (hcond.mpr hfresh)]
      refine ⟨(Dev.get_congr (Dev.setLeg_regs _ _ _) f).trans hget, hregs.trans (.of_regs (Dev.setLeg_regs _ _ _)), ?_, ?_⟩
      · rw [Dev.leg_setLeg_self, hleg, freshWith, if_neg hfresh]
      · rw [hframe]
        rfl
  simp only [shadowField, List.mem_cons, Prod.mk.injEq, List.not_mem_nil, or_false] at h
  have hlt : v % 2 ^ 24 < 2 ^ 24 := Nat.mod_lt _ (by decide)
  rcases h with ⟨rfl, rfl, rfl⟩ | ⟨rfl, rfl, rfl⟩ | ⟨rfl, rfl, rfl⟩ | ⟨rfl, rfl, rfl⟩ | ⟨rfl, rfl, rfl⟩
  · exact hmark _ _ rfl (Nat.mod_eq_of_lt hlt) (by simp [R.PWM_LEG_CMPA_C])
  · exact hmark _ _ rfl (Nat.mod_eq_of_lt hlt) (by simp [R.PWM_LEG_CMPB_C])
  · exact hmark _ _ rfl (Nat.mod_eq_of_lt (by simp only [R.PWM_LEG_PERIOD_P]; omega)) (by simp [R.PWM_LEG_PERIOD_P])
  · exact hmark _ _ rfl rfl (by simp [R.PWM_LEG_DT_DT])
  · exact hmark _ _ rfl (Nat.mod_eq_of_lt (by simp only [R.PWM_LEG_EVT_POS]; omega)) (by simp [R.PWM_LEG_EVT_POS])

/-! ### The commit of a leg (R252, R253) -/

/-- The registers that a commit with the block enabled changes. -/
def commitFields (leg : Nat) : List Fld :=
  [R.CFG_WERR_INFO_REPLACED, R.PWM_LEG_CNT_COMMIT_LATE leg, R.PWM_LEG_STAT_PENDING leg, R.PWM_LEG_STAT_FROZEN leg]

/-- The pending set of a leg holds each set-group field that is fresh, and EVT. -/
structure SetOf (d : Dev) (leg : Nat) (fresh : List Nat) (x : LegSet) : Prop where
  cmpa : x.cmpa = if 0 ∈ fresh then some (d.get (R.PWM_LEG_CMPA_C leg)) else none
  cmpb : x.cmpb = if 1 ∈ fresh then some (d.get (R.PWM_LEG_CMPB_C leg)) else none
  period : x.period = if 2 ∈ fresh then some (d.get (R.PWM_LEG_PERIOD_P leg)) else none
  dt : x.dt = if 3 ∈ fresh then some (d.get (R.PWM_LEG_DT_DT leg)) else none
  evt : x.evt = d.rdw (R.PWM_LEG_EVT_POS leg).addr

theorem Dev.legCapture_setOf (d : Dev) (leg : Nat) : SetOf d leg (d.leg leg).fresh (d.legCapture leg) := by
  constructor <;> simp [Dev.legCapture]

/-- A commit with the block enabled, in terms of the device before it. -/
structure LegCommitted (d e : Dev) (leg : Nat) : Prop where
  set : ∃ x, (e.leg leg).pend = some x ∧ SetOf e leg (d.leg leg).fresh x
  fresh : (e.leg leg).fresh = []
  frozen : (e.leg leg).frozen = (d.leg leg).frozen
  pending : e.get (R.PWM_LEG_STAT_PENDING leg) = 1
  replaced : (d.leg leg).pend ≠ none →
    e.get R.CFG_WERR_INFO_REPLACED = min (d.get R.CFG_WERR_INFO_REPLACED + 1) 255
  late : (d.leg leg).window = true → e.get (R.PWM_LEG_CNT_COMMIT_LATE leg) =
    min (d.get (R.PWM_LEG_CNT_COMMIT_LATE leg) + 1) 255
  regs : RegsBut (commitFields leg) d e

/-- A counter that a condition advances. -/
theorem RegsBut.incSat_if {c : Prop} [Decidable c] (d : Dev) {f : Fld} (hf : f.lo + f.w ≤ 32) :
    RegsBut [f] d (if c then d.incSat f else d) := by
  split
  · exact RegsBut.set d f _ (by simp) hf
  · exact .refl _ _

theorem Dev.incSat_if_legs {c : Prop} [Decidable c] (d : Dev) (f : Fld) : (if c then d.incSat f else d).legs = d.legs := by
  split <;> simp

theorem RegsBut.setSync (d : Dev) (leg : Nat) :
    RegsBut [R.PWM_LEG_STAT_PENDING leg, R.PWM_LEG_STAT_FROZEN leg] d (d.setSync leg) :=
  (RegsBut.set d (R.PWM_LEG_STAT_PENDING leg) _ (by simp) (by simp [R.PWM_LEG_STAT_PENDING])).trans
    (RegsBut.set _ (R.PWM_LEG_STAT_FROZEN leg) _ (by simp) (by simp [R.PWM_LEG_STAT_FROZEN]))

/-- PENDING shows a pending set. -/
theorem Dev.setSync_pending (h : (d.leg leg).pend.isSome = true) : (d.setSync leg).get (R.PWM_LEG_STAT_PENDING leg) = 1 := by
  unfold Dev.setSync Dev.setB
  rw [Dev.get_set_of_disjoint _ _ (by simp [R.PWM_LEG_STAT_FROZEN]) (by simp [R.PWM_LEG_STAT_FROZEN, R.PWM_LEG_STAT_PENDING]),
    Dev.get_set_self _ _ _ (by simp [R.PWM_LEG_STAT_PENDING]), h]
  rfl

/-- The fields of the shadow stand outside the registers of a commit. -/
theorem shadow_apart {f g : Fld} (hf : f ∈ commitFields leg) (hg : g ∈ [R.PWM_LEG_CMPA_C leg, R.PWM_LEG_CMPB_C leg,
    R.PWM_LEG_PERIOD_P leg, R.PWM_LEG_DT_DT leg, R.PWM_LEG_EVT_POS leg]) : f.addr ≠ g.addr := by
  simp only [commitFields, List.mem_cons, List.not_mem_nil, or_false] at hf hg
  rcases hf with rfl | rfl | rfl | rfl <;> rcases hg with rfl | rfl | rfl | rfl | rfl <;>
    simp only [R.CFG_WERR_INFO_REPLACED, R.PWM_LEG_CNT_COMMIT_LATE, R.PWM_LEG_STAT_PENDING, R.PWM_LEG_STAT_FROZEN,
      R.PWM_LEG_CMPA_C, R.PWM_LEG_CMPB_C, R.PWM_LEG_PERIOD_P, R.PWM_LEG_DT_DT, R.PWM_LEG_EVT_POS] <;> omega

theorem mem_shadow {v code x : Nat} {f : Fld} (h : (code, f, x) ∈ shadowField leg v) : f ∈ [R.PWM_LEG_CMPA_C leg,
    R.PWM_LEG_CMPB_C leg, R.PWM_LEG_PERIOD_P leg, R.PWM_LEG_DT_DT leg, R.PWM_LEG_EVT_POS leg] := by
  simp only [shadowField, List.mem_cons, Prod.mk.injEq, List.not_mem_nil, or_false] at h ⊢
  tauto

theorem shadow_apart_enable {g : Fld} (hg : g ∈ [R.PWM_LEG_CMPA_C leg, R.PWM_LEG_CMPB_C leg, R.PWM_LEG_PERIOD_P leg,
    R.PWM_LEG_DT_DT leg, R.PWM_LEG_EVT_POS leg]) : g.addr ≠ R.PWM_CTRL_EN.addr := by
  simp only [List.mem_cons, List.not_mem_nil, or_false] at hg
  rcases hg with rfl | rfl | rfl | rfl | rfl <;>
    simp only [R.PWM_CTRL_EN, R.PWM_LEG_CMPA_C, R.PWM_LEG_CMPB_C, R.PWM_LEG_PERIOD_P, R.PWM_LEG_DT_DT, R.PWM_LEG_EVT_POS] <;>
    omega

/-- A set captured before a commit is one of the shadow after it. -/
theorem SetOf.after {fresh : List Nat} {x : LegSet} (h : SetOf d leg fresh x) (hr : RegsBut (commitFields leg) d e) :
    SetOf e leg fresh x := by
  have hget (g : Fld) (hg : g ∈ [R.PWM_LEG_CMPA_C leg, R.PWM_LEG_CMPB_C leg, R.PWM_LEG_PERIOD_P leg, R.PWM_LEG_DT_DT leg,
      R.PWM_LEG_EVT_POS leg]) : e.get g = d.get g := hr.get g fun f hf => .inl (shadow_apart hf hg)
  refine ⟨?_, ?_, ?_, ?_, ?_⟩
  · rw [h.cmpa, hget _ (by simp)]
  · rw [h.cmpb, hget _ (by simp)]
  · rw [h.period, hget _ (by simp)]
  · rw [h.dt, hget _ (by simp)]
  · rw [h.evt, hr.rdw fun f hf => shadow_apart hf (by simp)]

theorem Dev.legCommit_commits (hen : d.isSet R.PWM_CTRL_EN = true) : LegCommitted d (d.legCommit leg) leg := by
  let x := d.legCapture leg
  let c := d.setLeg leg { d.leg leg with fresh := [] }
  let c1 := if (d.leg leg).pend.isSome then c.incSat R.CFG_WERR_INFO_REPLACED else c
  let c2 := if (d.leg leg).window then c1.incSat (R.PWM_LEG_CNT_COMMIT_LATE leg) else c1
  let c3 := c2.setLeg leg { d.leg leg with fresh := [], pend := some x }
  have hcommit : d.legCommit leg = c3.setSync leg := by
    have hc : c.leg leg = { d.leg leg with fresh := [] } := Dev.leg_setLeg_self _ _ _
    have hcen : (!c.isSet R.PWM_CTRL_EN) = false := by
      rw [Dev.isSet, Dev.get_congr (Dev.setLeg_regs _ _ _), ← Dev.isSet, hen]
      rfl
    have hunfold : d.legCommit leg = if !c.isSet R.PWM_CTRL_EN then (c.applySet leg x).setSync leg else _ := rfl
    rw [hunfold, hcen, hc]
    rfl
  have hlate : (R.PWM_LEG_CNT_COMMIT_LATE leg).lo + (R.PWM_LEG_CNT_COMMIT_LATE leg).w ≤ 32 := by
    simp [R.PWM_LEG_CNT_COMMIT_LATE]
  have r0 : c.regs = d.regs := Dev.setLeg_regs _ _ _
  have r1 : RegsBut [R.CFG_WERR_INFO_REPLACED] c c1 := .incSat_if c (by decide)
  have r2 : RegsBut [R.PWM_LEG_CNT_COMMIT_LATE leg] c1 c2 := .incSat_if c1 hlate
  have r3 : c3.regs = c2.regs := Dev.setLeg_regs _ _ _
  have r4 := RegsBut.setSync c3 leg
  have hregs : RegsBut (commitFields leg) d (c3.setSync leg) :=
    (RegsBut.of_regs r0).trans ((r1.mono (by simp [commitFields])).trans ((r2.mono (by simp [commitFields])).trans
      ((RegsBut.of_regs r3).trans (r4.mono (by simp [commitFields])))))
  have hleg : (c3.setSync leg).leg leg = { d.leg leg with fresh := [], pend := some x } := by
    have hsync : (c3.setSync leg).legs = c3.legs := by simp [Dev.setSync, Dev.setB]
    rw [Dev.leg_congr hsync]
    exact Dev.leg_setLeg_self _ _ _
  rw [hcommit]
  refine ⟨⟨x, by rw [hleg], (d.legCapture_setOf leg).after hregs⟩, by rw [hleg], by rw [hleg], ?_, fun hp => ?_, fun hw => ?_, hregs⟩
  · refine Dev.setSync_pending ?_
    rw [show c3.leg leg = _ from Dev.leg_setLeg_self _ _ _]
    rfl
  · have hc1 : c1 = c.incSat R.CFG_WERR_INFO_REPLACED := if_pos (Option.isSome_iff_ne_none.mpr hp)
    rw [r4.get _ (by simp [R.CFG_WERR_INFO_REPLACED, R.PWM_LEG_STAT_PENDING, R.PWM_LEG_STAT_FROZEN]), Dev.get_congr r3,
      r2.get _ (by simp [R.CFG_WERR_INFO_REPLACED, R.PWM_LEG_CNT_COMMIT_LATE]), hc1, Dev.get_incSat_byte rfl (by decide),
      Dev.get_congr r0]
  · have hc2 : c2 = c1.incSat (R.PWM_LEG_CNT_COMMIT_LATE leg) := if_pos hw
    rw [r4.get _ (by simp [R.PWM_LEG_CNT_COMMIT_LATE, R.PWM_LEG_STAT_PENDING, R.PWM_LEG_STAT_FROZEN]), Dev.get_congr r3, hc2,
      Dev.get_incSat_byte rfl hlate, r1.get _ (by simp [R.CFG_WERR_INFO_REPLACED, R.PWM_LEG_CNT_COMMIT_LATE]),
      Dev.get_congr r0]

/-! ### Commit words (R29, R251) -/

/-- A word taken leaves its channel, and nothing else changes. -/
theorem Dev.take_frame {ch recv : Nat} {w : HWord} (h : d.take ch recv = some (w, e)) : e = { d with hoop := e.hoop } := by
  simp only [Dev.take, Dev.takeEntry, Option.map_eq_some_iff] at h
  obtain ⟨x, hx, hxe⟩ := h
  split at hx
  · cases hx
    cases hxe
    rfl
  · cases hx

section
variable {lane : Nat} {hi : Bool} {cw : CommitWord} {p : Nat → Bool}
  (h : s.d.take ((if lane = 0 then 0x10 else 0x18) + (if hi then 1 else 0)) (if hi then 7 else 6) = some (.commit cw, e))
include h

theorem frontCommit_eq : s.d.frontCommit lane hi p = if p cw.field then some (cw, e) else none := by
  have h' : s.d.take ((if lane = 0 then 0x10 else 0x18) + b2n hi) (6 + b2n hi) = some (.commit cw, e) := by
    cases hi <;> exact h
  simp only [Dev.frontCommit, h']

theorem commitField_eq (code : Nat) : s.d.commitField lane hi code =
    if cw.field = code then e.legWord lane cw fun d => d.legField cw.unit code cw.value.toNat else s.d := by
  rw [Dev.commitField, frontCommit_eq h]
  by_cases hc : cw.field = code <;> simp [hc]

end

/-- A word of a lane that is not active is taken without effect (R29). -/
theorem legWord_inactive {lane : Nat} {c : CommitWord} {eff : Dev → Dev} (h : d.laneState lane ≠ 1) :
    d.legWord lane c eff = d := if_pos h

/-- A word of the active lane, by the owner of its leg (R30, R251). -/
theorem legWord_active {lane : Nat} {c : CommitWord} {eff : Dev → Dev} (h : d.laneState lane = 1) (hold : d.lc.hold = none) :
    d.legWord lane c eff =
      if d.legOwner c.unit = 1 then (if c.fin then (eff d).legCommit c.unit else eff d)
      else d.legWriteErr c.unit (if d.legOwner c.unit = 2 then 1 else 3) := by
  have hrel : d.holdRelease = d := by simp only [Dev.holdRelease, hold]
  simp only [Dev.legWord, h, ne_eq, not_true, if_false, hrel]
  split
  · rename_i h1
    rw [if_pos h1]
  · rename_i h2
    rw [if_neg (by omega), if_pos h2]
  · rename_i h1 h2
    rw [if_neg h1, if_neg h2]

/-- The commands of the commit words, with the code of each (R251). -/
theorem exec_commitWord {lane : Fin 2} {hi : Bool} {c : Instr} {code : Nat}
    (h : (c, code) ∈ [(Instr.commitWordCmpa lane hi, 0), (.commitWordCmpb lane hi, 1), (.commitWordPeriod lane hi, 2),
      (.commitWordDt lane hi, 3), (.commitWordEvt lane hi, 4)]) :
    exec c s = .next { s with d := s.d.commitField lane.val hi code } := by
  simp only [List.mem_cons, Prod.mk.injEq, List.not_mem_nil, or_false] at h
  rcases h with ⟨rfl, rfl⟩ | ⟨rfl, rfl⟩ | ⟨rfl, rfl⟩ | ⟨rfl, rfl⟩ | ⟨rfl, rfl⟩ <;> rfl

theorem exec_commitWordReserved {lane : Fin 2} {hi : Bool} {cw : CommitWord}
    (h : s.d.take ((if lane.val = 0 then 0x10 else 0x18) + (if hi then 1 else 0)) (if hi then 7 else 6) = some (.commit cw, e)) :
    exec (.commitWordReserved lane hi) s = .next { s with d :=
      if 6 ≤ cw.field then (if e.laneState lane.val = 1 then e.holdRelease.legWriteErr cw.unit 2 else e) else s.d } := by
  change execCommitWordReserved lane hi s = _
  simp only [execCommitWordReserved, State.onDev, frontCommit_eq h, decide_eq_true_eq]
  by_cases hf : 6 ≤ cw.field <;> simp [hf]

theorem exec_legCommit (leg : Fin 48) : exec (.legCommit leg) s = .next { s with d :=
    (if s.d.legOwner leg.val = 2 then s.d.legCommit leg.val
      else s.d.legWriteErr leg.val (if s.d.legOwner leg.val = 1 then 0 else 3)) } := by
  change execLegCommit leg s = _
  simp only [execLegCommit, State.onDev]
  split
  · rename_i h2
    rw [if_pos h2]
  · rename_i h1
    rw [if_neg (by omega), if_pos h1]
  · rename_i h2 h1
    rw [if_neg h2, if_neg h1]

/-- Settles O46: a word by its code, its lane and the owner of its leg, and the bus's commit by the owner. -/
theorem commitWordsAndLegCommits : Obligations.CommitWordsAndLegCommits := by
  unfold Obligations.CommitWordsAndLegCommits
  intro err set committed
  have herr (s : State) (d : Dev) (d0 : Dev) (leg src : Nat) (hd : d.regs = s.d.regs) (h : WriteErr d d0 leg src) :
      err s { s with d := d0 } d leg src :=
    ⟨h.leg, h.src, h.count.trans (by rw [Dev.get_congr hd]), (RegsBut.of_regs hd).trans h.regs,
      congrArg (fun d => ({ s with d := d } : State)) h.frame⟩
  have hcommitted (s : State) (d e : Dev) (leg : Nat) (fresh : List Nat) (h : LegCommitted d e leg)
      (hf : (d.leg leg).fresh = fresh) (hz : (d.leg leg).frozen = (s.d.leg leg).frozen)
      (hp : (d.leg leg).pend = (s.d.leg leg).pend) (hw : (d.leg leg).window = (s.d.leg leg).window)
      (hr : d.get R.CFG_WERR_INFO_REPLACED = s.d.get R.CFG_WERR_INFO_REPLACED)
      (hl : d.get (R.PWM_LEG_CNT_COMMIT_LATE leg) = s.d.get (R.PWM_LEG_CNT_COMMIT_LATE leg)) :
      committed s { s with d := e } leg fresh := by
    obtain ⟨x, hx, hset⟩ := h.set
    rw [hf] at hset
    refine ⟨⟨x, hx, hset.cmpa, hset.cmpb, hset.period, hset.dt, hset.evt⟩, h.fresh, h.frozen.trans hz, h.pending, rfl, ?_, ?_⟩
    · rw [← hp, ← hr]
      exact h.replaced
    · rw [← hw, ← hl]
      exact h.late
  refine ⟨fun lane hi s cw d' => ?_, fun leg s => ⟨fun h2 hen => ?_, fun h1 => ?_, fun h1 h2 => ?_⟩⟩
  · intro v u fresh htake
    have hd' := Dev.take_frame htake
    have hregs : d'.regs = s.d.regs := by rw [hd']
    have hlc : d'.lc = s.d.lc := by rw [hd']
    have hlegs : d'.legs = s.d.legs := by rw [hd']
    have hstate (n : Nat) : d'.laneState n = s.d.laneState n := by simp only [Dev.laneState, Dev.get_congr hregs]
    have howner (n : Nat) : d'.legOwner n = s.d.legOwner n := Dev.get_congr hregs _
    have hleg (n : Nat) : d'.leg n = s.d.leg n := Dev.leg_congr hlegs n
    refine ⟨fun c code f x hc hu => ?_, fun hf => ?_, fun hf hl => ?_, fun hf hl hold => ?_⟩
    · have hcode : (c, code) ∈ [(Instr.commitWordCmpa lane hi, 0), (.commitWordCmpb lane hi, 1),
          (.commitWordPeriod lane hi, 2), (.commitWordDt lane hi, 3), (.commitWordEvt lane hi, 4)] :=
        List.mem_map_of_mem (f := fun y : Instr × Nat × Fld × Nat => (y.1, y.2.1)) hc
      have hfield : (code, f, x) ∈ shadowField u v := List.mem_map_of_mem (f := Prod.snd) hc
      have hexec := (exec_commitWord (s := s) hcode).trans (by rw [commitField_eq htake])
      have hw : ShadowWritten d' _ u code f x := Dev.legField_writes hfield
      have hshadow := mem_shadow hfield
      refine ⟨fun hne => hexec.trans (by rw [if_neg hne]), fun heq hl => hexec.trans ?_, fun heq hl hold => ?_⟩
      · rw [if_pos heq, legWord_inactive (by rwa [hstate])]
      have hword := legWord_active (d := d') (lane := lane.val) (c := cw) (eff := fun d => d.legField u code cw.value.toNat)
        (by rwa [hstate]) (by rwa [hlc])
      rw [howner] at hword
      rw [if_pos heq, hword] at hexec
      refine ⟨fun h1 hfin => ?_, fun h1 hfin hen => ?_, fun h2 => ?_, fun h1 h2 => ?_⟩
      · refine gives_of_next (hexec.trans (by rw [if_pos h1, hfin, if_neg Bool.false_ne_true])) ?_
        exact ⟨hw.get, (RegsBut.of_regs hregs).trans hw.regs, hw.leg.trans (by rw [hleg]; rfl),
          congrArg (fun d => ({ s with d := d } : State)) hw.frame⟩
      · refine gives_of_next (hexec.trans (by rw [if_pos h1, hfin, if_pos rfl])) ?_
        have hcommit := Dev.legCommit_commits (d := d'.legField u code cw.value.toNat) (leg := u) (by
          rwa [Dev.isSet, hw.regs.get _ (by simpa using .inl (shadow_apart_enable hshadow)), Dev.get_congr hregs])
        refine ⟨(hcommit.regs.get f fun g hg => .inl (shadow_apart hg hshadow)).trans hw.get,
          hcommitted s _ _ u (fresh code) hcommit ?_ ?_ ?_ ?_ ?_ ?_⟩
        · rw [hw.leg, hleg]
          rfl
        · rw [hw.leg, hleg]
        · rw [hw.leg, hleg]
        · rw [hw.leg, hleg]
        · rw [hw.regs.get _ (by simpa using .inl (shadow_apart (by simp [commitFields]) hshadow).symm), Dev.get_congr hregs]
        · rw [hw.regs.get _ (by simpa using .inl (shadow_apart (by simp [commitFields]) hshadow).symm), Dev.get_congr hregs]
      · refine gives_of_next (hexec.trans (by rw [show s.d.legOwner cw.unit = 2 from h2, if_neg (by decide), if_pos rfl])) ?_
        exact herr s d' _ _ _ hregs (d'.legWriteErr_records _ (by decide))
      · refine gives_of_next (hexec.trans (by rw [if_neg h1, if_neg h2])) ?_
        exact herr s d' _ _ _ hregs (d'.legWriteErr_records _ (by decide))
    · exact (exec_commitWordReserved htake).trans (by rw [if_neg (by omega)])
    · exact (exec_commitWordReserved htake).trans (by rw [if_pos hf, if_neg (by rwa [hstate])])
    · have hrel : d'.holdRelease = d' := by simp only [Dev.holdRelease, hlc, hold]
      refine gives_of_next ((exec_commitWordReserved htake).trans (by rw [if_pos hf, if_pos (by rwa [hstate]), hrel])) ?_
      exact herr s d' _ _ _ hregs (d'.legWriteErr_records _ (by decide))
  · refine gives_of_next ((exec_legCommit leg).trans (by rw [if_pos h2])) ?_
    exact hcommitted s s.d _ _ _ (Dev.legCommit_commits hen) rfl rfl rfl rfl rfl rfl
  · refine gives_of_next ((exec_legCommit leg).trans (by rw [if_neg (by omega), if_pos h1])) ?_
    exact herr s s.d _ _ _ rfl (s.d.legWriteErr_records _ (by decide))
  · refine gives_of_next ((exec_legCommit leg).trans (by rw [if_neg h2, if_neg h1])) ?_
    exact herr s s.d _ _ _ rfl (s.d.legWriteErr_records _ (by decide))

end Sys2Proof.Machine
end

section
/-! ## Banks of registers with a bit per unit -/

namespace Sys2Proof.Machine

variable {d e : Dev}

/-- A bit that is clear is set by an addition, and one that is set is cleared by a subtraction. -/
theorem testBit_toggle {q l i : Nat} (hl : l < 2 ^ i) (hq : q % 2 = 0) (j : Nat) :
    (2 ^ i * (q + 1) + l).testBit j = if j = i then true else (2 ^ i * q + l).testBit j := by
  rw [Nat.testBit_two_pow_mul_add _ hl, Nat.testBit_two_pow_mul_add _ hl]
  by_cases hj : j < i
  · rw [if_pos hj, if_pos hj, if_neg (by omega)]
  · rw [if_neg hj, if_neg hj]
    obtain ⟨k, rfl⟩ : ∃ k, j = i + k := ⟨j - i, by omega⟩
    rw [Nat.add_sub_cancel_left]
    cases k with
    | zero => simp; omega
    | succ k => rw [if_neg (by omega), Nat.testBit_succ, Nat.testBit_succ, show (q + 1) / 2 = q / 2 by omega]

theorem testBit_add_two_pow {x i : Nat} (h : x.testBit i = false) (j : Nat) :
    (x + 2 ^ i).testBit j = if j = i then true else x.testBit j := by
  have hx : 2 ^ i * (x / 2 ^ i) + x % 2 ^ i = x := Nat.div_add_mod x (2 ^ i)
  have hq : x / 2 ^ i % 2 = 0 := by
    rw [Nat.testBit_eq_decide_div_mod_eq, decide_eq_false_iff_not] at h
    omega
  have hadd : x + 2 ^ i = 2 ^ i * (x / 2 ^ i + 1) + x % 2 ^ i := by
    rw [Nat.mul_add, Nat.mul_one]
    omega
  rw [hadd, testBit_toggle (Nat.mod_lt _ (Nat.two_pow_pos i)) hq, hx]

theorem testBit_sub_two_pow {x i : Nat} (h : x.testBit i = true) (j : Nat) :
    (x - 2 ^ i).testBit j = if j = i then false else x.testBit j := by
  have hle : 2 ^ i ≤ x := Nat.ge_two_pow_of_testBit h
  have hclear : (x - 2 ^ i).testBit i = false := by
    by_contra hset
    rw [Bool.not_eq_false, Nat.testBit_eq_decide_div_mod_eq, decide_eq_true_eq] at hset
    rw [Nat.testBit_eq_decide_div_mod_eq, decide_eq_true_eq] at h
    have := Nat.add_div_right (x - 2 ^ i) (Nat.two_pow_pos i)
    rw [Nat.sub_add_cancel hle] at this
    omega
  by_cases hj : j = i
  · rw [if_pos hj, hj, hclear]
  · have := testBit_add_two_pow hclear j
    rw [Nat.sub_add_cancel hle, if_neg hj] at this
    rw [if_neg hj, this]

/-- A bank: words of 32 bits at rising addresses. -/
structure IsBank (f : Nat → Fld) (base : Nat) : Prop where
  addr : ∀ i, (f i).addr = base + 4 * i
  lo : ∀ i, (f i).lo = 0
  w : ∀ i, (f i).w = 32

section
variable {f : Nat → Fld} {base : Nat} (hf : IsBank f base)
include hf

theorem IsBank.setBit (d : Dev) (i : Nat) (b : Bool) : RegsBut [f (i / 32)] d (d.setBit f i b) := by
  unfold Dev.setBit
  dsimp only
  split
  · exact .refl _ _
  · exact RegsBut.set _ _ _ (by simp) (by rw [hf.lo, hf.w])

/-- Every bit of a bank after one is set or cleared. -/
theorem IsBank.bit_setBit (d : Dev) (i : Nat) (b : Bool) (j : Nat) :
    (d.setBit f i b).bit f j = if j = i then b else d.bit f j := by
  by_cases hj : j = i
  · subst hj
    rw [if_pos rfl, Dev.bit_setBit_self _ _ _ _ (hf.w _) (hf.lo _)]
  · rw [if_neg hj]
    by_cases hw : j / 32 = i / 32
    · have hmod : j % 32 ≠ i % 32 := by omega
      unfold Dev.setBit Dev.bit
      rw [hw]
      dsimp only
      split
      · rfl
      · rename_i h
        rw [Dev.get_set_self _ _ _ (by rw [hf.lo, hf.w]), hf.w, Nat.testBit_mod_two_pow]
        have hlt : j % 32 < 32 := Nat.mod_lt _ (by decide)
        cases b with
        | true => simp [testBit_add_two_pow (by simpa using h), hmod, hlt]
        | false => simp [testBit_sub_two_pow (by simpa using h), hmod, hlt]
    · unfold Dev.bit
      rw [(hf.setBit d i b).get _ (by simp [hf.addr]; omega)]

end

theorem Dev.bit_congr {f : Nat → Fld} {i : Nat} (h : e.get (f (i / 32)) = d.get (f (i / 32))) : e.bit f i = d.bit f i := by
  rw [Dev.bit, h, Dev.bit]

theorem isBank_active : IsBank R.ACC_ACTIVE_SRC 0x40030020 := ⟨fun _ => rfl, fun _ => rfl, fun _ => rfl⟩
theorem isBank_sev : IsBank R.ACC_SEV_SRC 0x40030040 := ⟨fun _ => rfl, fun _ => rfl, fun _ => rfl⟩
theorem isBank_cond : IsBank R.ACC_COND_SRC 0x40030060 := ⟨fun _ => rfl, fun _ => rfl, fun _ => rfl⟩
theorem isBank_promo : IsBank R.ACC_PROMO_SRC 0x40030080 := ⟨fun _ => rfl, fun _ => rfl, fun _ => rfl⟩
theorem isBank_grace : IsBank R.ACC_GRACE_SRC 0x400300A0 := ⟨fun _ => rfl, fun _ => rfl, fun _ => rfl⟩

end Sys2Proof.Machine
end

section
/-! ## The staging of a report (R366 to R368) -/

namespace Sys2Proof.Machine

variable {d e : Dev} {x y : LogEntry} {l l' : List LogEntry}

theorem mapLast_append {α : Type} {p : α → Bool} {f : α → α} {a b : List α} {x : α} (hx : p x = true)
    (hb : ∀ y ∈ b, p y = false) : mapLast p f (a ++ x :: b) = a ++ f x :: b := by
  have hgo (c : List α) (hc : ∀ y ∈ c, p y = false) (t : List α) :
      mapLast.go p f (c ++ x :: t) = c ++ f x :: t := by
    induction c with
    | nil => simp [mapLast.go, hx]
    | cons y c ih =>
      rw [List.cons_append, mapLast.go, if_neg (by simp [hc y]), ih fun z hz => hc z (by simp [hz])]
      rfl
  have hrev : (a ++ x :: b).reverse = b.reverse ++ x :: a.reverse := by simp
  rw [mapLast, hrev, hgo _ (fun y hy => hb y (by simpa using hy))]
  simp

/-- The first element that satisfies a test, where it stands. -/
theorem find?_append_cons {α : Type} {p : α → Bool} {a b : List α} {x : α} (hx : p x = true) (ha : ∀ y ∈ a, p y = false) :
    (a ++ x :: b).find? p = some x := by
  rw [List.find?_append, List.find?_eq_none.mpr (by simpa using ha), Option.none_or, List.find?_cons_of_pos hx]

/-- The same source and lane. -/
def LogEntry.sameAs (e x : LogEntry) : Bool := e.src == x.src && e.lane == x.lane

/-- The registers of the log that staging may change. -/
def stageFields : List Fld := [R.ACC_LOGSTAT_LOST, R.ACC_LOGSTAT_LEVEL]

theorem RegsBut.setFifo (d : Dev) (f : List LogEntry) : RegsBut stageFields d (d.setFifo f) :=
  .trans (.of_regs rfl) (RegsBut.set _ _ _ (by simp [stageFields]) (by decide))

theorem Dev.setFifo_frame (d : Dev) (f : List LogEntry) :
    d.setFifo f = { d with regs := (d.setFifo f).regs, acc := { d.acc with fifo := f } } := rfl

/-- A report that finds no room is counted in LOST, and perhaps in an OVERFLOW entry (R368). -/
structure Unstaged (d e : Dev) : Prop where
  lost : e.get R.ACC_LOGSTAT_LOST = min (d.get R.ACC_LOGSTAT_LOST + 1) 0xFFFF
  regs : RegsBut stageFields d e
  frame : e = { d with regs := e.regs, acc := { d.acc with fifo := e.acc.fifo, ovfNext := e.acc.ovfNext } }

theorem Dev.stageLost_unstaged (d : Dev) (stamp : Word) : Unstaged d (d.stageLost stamp) := by
  have hlost : (d.incSat R.ACC_LOGSTAT_LOST).get R.ACC_LOGSTAT_LOST = min (d.get R.ACC_LOGSTAT_LOST + 1) 0xFFFF :=
    Dev.get_incSat (by decide)
  have hregs : RegsBut stageFields d (d.incSat R.ACC_LOGSTAT_LOST) := RegsBut.set _ _ _ (by simp [stageFields]) (by decide)
  unfold Dev.stageLost
  dsimp only
  split
  · exact ⟨hlost, hregs.trans (.of_regs rfl), rfl⟩
  · split
    · refine ⟨?_, hregs.trans (RegsBut.setFifo _ _), rfl⟩
      exact (Dev.get_set_of_disjoint _ _ (by decide) (by decide)).trans hlost
    · exact ⟨hlost, hregs.trans (.of_regs rfl), rfl⟩

/-- The staging slot of `x` is taken. -/
def Dev.slotTaken (d : Dev) (x : LogEntry) : Bool := d.acc.staged.any fun e => e.slot == x.slot

theorem slotTaken_eq_false : d.slotTaken x = false ↔ ∀ y ∈ d.acc.staged, ¬(y.src = x.src ∧ (y.lane = 1 ↔ x.lane = 1)) := by
  simp only [Dev.slotTaken, List.any_eq_false, LogEntry.slot, Prod.mk.injEq, Bool.beq_eq_decide_eq, decide_eq_decide,
    decide_eq_true_eq]

/-- What becomes of a report that does not merge (R366, R368). -/
def Dev.stageNew (d : Dev) (x : LogEntry) : Dev :=
  if d.slotTaken x then d.stageLost x.stamp else { d with acc := { d.acc with staged := d.acc.staged ++ [x] } }

theorem stage_new (hs : ∀ y ∈ d.acc.staged, y.sameAs x = false) (hf : ∀ y ∈ d.acc.fifo, y.sameAs x = false) :
    d.stage x = d.stageNew x := by
  have h1 : d.acc.staged.find? (fun y => y.src == x.src && y.lane == x.lane) = none :=
    List.find?_eq_none.mpr fun y hy => by simpa [LogEntry.sameAs] using hs y hy
  have h2 : d.acc.fifo.reverse.find? (fun y => y.src == x.src && y.lane == x.lane) = none :=
    List.find?_eq_none.mpr fun y hy => by simpa [LogEntry.sameAs] using hf y (by simpa using hy)
  simp only [Dev.stage, h1, h2]
  rfl

theorem stage_staged (h : d.acc.staged = l ++ y :: l') (hy : y.sameAs x = true) (hl : ∀ z ∈ l ++ l', z.sameAs x = false) :
    d.stage x = if y.merges x then { d with acc := { d.acc with staged := l ++ y.merge x :: l' } } else d.stageNew x := by
  have h1 : d.acc.staged.find? (fun y => y.src == x.src && y.lane == x.lane) = some y := by
    rw [h]
    exact find?_append_cons hy fun z hz => hl z (by simp [hz])
  have h2 : mapLast (fun y => y.src == x.src && y.lane == x.lane) (fun e => e.merge x) d.acc.staged = l ++ y.merge x :: l' := by
    rw [h]
    exact mapLast_append hy fun z hz => hl z (by simp [hz])
  simp only [Dev.stage, h1, h2]
  rfl

theorem stage_logged (hs : ∀ z ∈ d.acc.staged, z.sameAs x = false) (h : d.acc.fifo = l ++ y :: l') (hy : y.sameAs x = true)
    (hl : ∀ z ∈ l', z.sameAs x = false) :
    d.stage x = if y.merges x then d.setFifo (l ++ y.merge x :: l') else d.stageNew x := by
  have h1 : d.acc.staged.find? (fun y => y.src == x.src && y.lane == x.lane) = none :=
    List.find?_eq_none.mpr fun y hy => by simpa [LogEntry.sameAs] using hs y hy
  have h2 : d.acc.fifo.reverse.find? (fun y => y.src == x.src && y.lane == x.lane) = some y := by
    rw [h, show (l ++ y :: l').reverse = l'.reverse ++ y :: l.reverse by simp]
    exact find?_append_cons hy fun z hz => hl z (by simpa using hz)
  have h3 : mapLast (fun y => y.src == x.src && y.lane == x.lane) (fun e => e.merge x) d.acc.fifo = l ++ y.merge x :: l' := by
    rw [h]
    exact mapLast_append hy hl
  simp only [Dev.stage, h1, h2, h3]
  rfl

/-- Staging changes the slots, the FIFO, and two fields of LOGSTAT. -/
structure StageFrame (d e : Dev) : Prop where
  regs : RegsBut stageFields d e
  frame : e = { d with regs := e.regs, acc := { d.acc with
    staged := e.acc.staged, fifo := e.acc.fifo, ovfNext := e.acc.ovfNext } }

theorem Dev.stageNew_frame (d : Dev) (x : LogEntry) : StageFrame d (d.stageNew x) := by
  unfold Dev.stageNew
  split
  · obtain ⟨-, hregs, hframe⟩ := d.stageLost_unstaged x.stamp
    refine ⟨hregs, ?_⟩
    rw [hframe]
  · exact ⟨.of_regs rfl, rfl⟩

theorem Dev.stage_frame (d : Dev) (x : LogEntry) : StageFrame d (d.stage x) := by
  have hnew := d.stageNew_frame x
  unfold Dev.stageNew Dev.slotTaken at hnew
  unfold Dev.stage
  dsimp only
  split
  · split
    · exact ⟨.of_regs rfl, rfl⟩
    · exact hnew
  · split
    · split
      · exact ⟨RegsBut.setFifo _ _, rfl⟩
      · exact hnew
    · exact hnew

/-- Where a judged report goes: its free slot, the newest entry of its source and lane, or the count of lost ones (R366 to
R368). -/
structure StagedAs (d e : Dev) (x : LogEntry) : Prop where
  free : (∀ y ∈ d.acc.staged, ¬(y.src = x.src ∧ (y.lane = 1 ↔ x.lane = 1))) → (∀ y ∈ d.acc.fifo, y.sameAs x = false) →
    e.acc.staged = d.acc.staged ++ [x] ∧ e.acc.fifo = d.acc.fifo ∧ e.acc.ovfNext = d.acc.ovfNext
  slot : ∀ l y l', d.acc.staged = l ++ y :: l' → y.sameAs x = true → (∀ z ∈ l ++ l', z.sameAs x = false) →
    (y.merges x = true → e.acc.staged = l ++ y.merge x :: l' ∧ e.acc.fifo = d.acc.fifo) ∧
    (y.merges x = false → e.acc.staged = d.acc.staged ∧
      e.get R.ACC_LOGSTAT_LOST = min (d.get R.ACC_LOGSTAT_LOST + 1) 0xFFFF)
  logged : ∀ l y l', (∀ y ∈ d.acc.staged, ¬(y.src = x.src ∧ (y.lane = 1 ↔ x.lane = 1))) → d.acc.fifo = l ++ y :: l' →
    y.sameAs x = true → (∀ z ∈ l', z.sameAs x = false) →
    (y.merges x = true → e.acc.fifo = l ++ y.merge x :: l' ∧ e.acc.staged = d.acc.staged) ∧
    (y.merges x = false → e.acc.staged = d.acc.staged ++ [x] ∧ e.acc.fifo = d.acc.fifo)

/-- An entry of the same source and lane has the same slot. -/
theorem not_sameAs_of_slot (h : ∀ y ∈ l, ¬(y.src = x.src ∧ (y.lane = 1 ↔ x.lane = 1))) : ∀ y ∈ l, y.sameAs x = false := by
  intro y hy
  by_contra hsame
  simp only [LogEntry.sameAs, Bool.not_eq_false, Bool.and_eq_true, beq_iff_eq] at hsame
  exact h y hy ⟨hsame.1, by rw [hsame.2]⟩

theorem Dev.stage_stagedAs (d : Dev) (x : LogEntry) : StagedAs d (d.stage x) x where
  free hs hf := by
    rw [stage_new (not_sameAs_of_slot hs) hf, Dev.stageNew, slotTaken_eq_false.mpr hs]
    exact ⟨rfl, rfl, rfl⟩
  slot l y l' h hy hl := by
    rw [stage_staged h hy hl]
    refine ⟨fun hm => by rw [if_pos hm]; exact ⟨rfl, rfl⟩, fun hm => ?_⟩
    have htaken : d.slotTaken x = true := by
      simp only [LogEntry.sameAs, Bool.and_eq_true, beq_iff_eq] at hy
      rw [Dev.slotTaken, List.any_eq_true]
      exact ⟨y, by simp [h], by simp [LogEntry.slot, hy]⟩
    obtain ⟨hlost, -, hframe⟩ := d.stageLost_unstaged x.stamp
    rw [hm, if_neg Bool.false_ne_true, Dev.stageNew, if_pos htaken]
    exact ⟨by rw [hframe], hlost⟩
  logged l y l' hs h hy hl := by
    rw [stage_logged (not_sameAs_of_slot hs) h hy hl]
    refine ⟨fun hm => by rw [if_pos hm]; exact ⟨rfl, rfl⟩, fun hm => ?_⟩
    rw [hm, if_neg Bool.false_ne_true, Dev.stageNew, slotTaken_eq_false.mpr hs]
    exact ⟨rfl, rfl⟩

end Sys2Proof.Machine
end

section
/-! ## The safe state, as ACC sees it -/

namespace Sys2Proof.Machine

variable {d e f : Dev}

/-! ### What the entry to M10 leaves alone -/

/-- MODE, and the registers of ACC but for the conditions. -/
def guarded (a : Nat) : Bool :=
  a == 0x40000010 || (decide (0x40030000 ≤ a) && decide (a < 0x40030060)) || (decide (0x40030080 ≤ a) && decide (a < 0x40031000))

theorem guarded_eq_false {a : Nat} : guarded a = false ↔
    a ≠ 0x40000010 ∧ ¬(0x40030000 ≤ a ∧ a < 0x40030060) ∧ ¬(0x40030080 ≤ a ∧ a < 0x40031000) := by
  simp only [guarded, Bool.or_eq_false_iff, beq_eq_false_iff_ne, ← Bool.decide_and, decide_eq_false_iff_not]
  exact and_assoc

/-- ACC's own state, its registers and MODE stand, SAFE_N stays driven, and words are only added to the channels. -/
structure Outside (d e : Dev) : Prop where
  acc : e.acc = d.acc
  regs : ∀ a, guarded a = true → e.rdw a = d.rdw a
  hoop : ∀ x ∈ d.hoop, x ∈ e.hoop
  safe : d.sys.safeDriven = true → e.sys.safeDriven = true

namespace Outside

theorem refl (d : Dev) : Outside d d := ⟨rfl, fun _ _ => rfl, fun _ h => h, id⟩

theorem trans (h : Outside d e) (g : Outside e f) : Outside d f :=
  ⟨g.acc.trans h.acc, fun a ha => (g.regs a ha).trans (h.regs a ha), fun x hx => g.hoop x (h.hoop x hx), g.safe ∘ h.safe⟩

theorem ite {c : Prop} [Decidable c] (h : Outside d e) (g : Outside d f) : Outside d (if c then e else f) := by
  split
  · exact h
  · exact g

theorem get (h : Outside d e) {g : Fld} (hg : guarded g.addr = true) : e.get g = d.get g := by
  rw [Dev.get, h.regs _ hg, Dev.get]

/-- A change outside the registers, the channels, ACC and SYSCTL. -/
theorem of_eq (hr : e.regs = d.regs) (ha : e.acc = d.acc) (hh : e.hoop = d.hoop) (hs : e.sys = d.sys) : Outside d e :=
  ⟨ha, fun a _ => by rw [Dev.rdw_congr hr], fun x hx => by rwa [hh], fun h => by rwa [hs]⟩

theorem set (d : Dev) {g : Fld} (v : Nat) (hg : guarded g.addr = false) : Outside d (d.set g v) where
  acc := Dev.set_acc _ _ _
  regs a ha := Dev.rdw_set_of_ne d v fun h => by rw [h, hg] at ha; cases ha
  hoop x hx := by rwa [Dev.set_hoop]
  safe h := by rwa [Dev.set_sys]

theorem setBit (d : Dev) {g : Nat → Fld} (i : Nat) (b : Bool) (hg : guarded (g (i / 32)).addr = false) :
    Outside d (d.setBit g i b) := .ite (.refl d) (.set d _ hg)

theorem send (d : Dev) (ch recv : Nat) (w : HWord) : Outside d (d.send ch recv w) where
  acc := Dev.send_acc _ _ _ _
  regs _ _ := by rw [Dev.rdw_congr (Dev.send_regs _ _ _ _)]
  hoop x hx := List.mem_append_left _ hx
  safe h := by rwa [Dev.send_sys]

theorem raise (d : Dev) (isl src ctx lane : Nat) : Outside d (d.raise isl src ctx lane) := .send d _ _ _

theorem setCond (d : Dev) {src : Nat} (b : Bool) (h : src < 192) : Outside d (d.setCond src b) :=
  .setBit d src b (guarded_eq_false.mpr (by simp only [R.ACC_COND_SRC]; omega))

theorem foldl {α : Type} {g : Dev → α → Dev} : ∀ (l : List α) (d : Dev), (∀ d, ∀ x ∈ l, Outside d (g d x)) →
    Outside d (l.foldl g d)
  | [], d, _ => .refl d
  | x :: l, d, h => (h d x (by simp)).trans (foldl l _ fun d y hy => h d y (by simp [hy]))

/-! ### Isolation -/

theorem drive (d : Dev) (chain : Nat) (on : Bool) : Outside d (d.drive chain on) := by
  have hcmd : guarded (Dev.isoCmd chain).addr = false := by
    unfold Dev.isoCmd
    split <;> decide
  exact .ite (.refl d) ((Outside.set d _ hcmd).trans (.of_eq rfl rfl rfl rfl))

theorem openBoth (d : Dev) : Outside d d.openBoth :=
  (Outside.of_eq (d := d) (e := { d with iso := { d.iso with want := [] } }) rfl rfl rfl rfl).trans ((drive _ 0 false).trans (drive _ 1 false))

theorem rbCheck (d : Dev) {chain : Nat} (hc : chain < 2) : Outside d (d.rbCheck chain) := by
  refine .ite (.refl d) ?_
  dsimp only
  split
  · exact .ite (.refl d) ((setCond d true (by omega)).trans (.raise _ _ _ _ _))
  · exact setCond d false (by omega)

theorem weldAbandon (d : Dev) (reason : Nat) : Outside d (d.weldAbandon reason) := by
  refine .ite ?_ (.refl d)
  have hend : Outside d.openBoth (d.openBoth.weldEnd 4) :=
    (Outside.of_eq (d := d.openBoth) (e := { d.openBoth with iso := { d.openBoth.iso with weld := none } }) rfl rfl rfl rfl).trans
      ((Outside.set _ 0 (by decide)).trans (.set _ 4 (by decide)))
  exact (openBoth d).trans (hend.trans ((Outside.set _ reason (by decide)).trans ((Outside.raise _ _ _ _ _).trans
    ((rbCheck _ (by decide)).trans (rbCheck _ (by decide))))))

theorem isoMode (d : Dev) : Outside d d.isoMode :=
  (Outside.ite (.refl d) (weldAbandon d 6)).trans (.ite (openBoth _) (.refl _))

theorem isoSafe (d : Dev) : Outside d d.isoSafe := (weldAbandon d 7).trans (openBoth _)

/-! ### Lanes, legs, sigma-delta channels, the Ledger -/

theorem laneSync (d : Dev) {n : Nat} (hn : n < 2) : Outside d (d.laneSync n) := by
  have hframe := Dev.laneSync_frame d n
  refine ⟨by rw [hframe], fun a ha => (RegsBut.laneSync d n).rdw fun g hg h => ?_, fun x hx => by rwa [Dev.hoop_laneSync],
    fun h => by rwa [hframe]⟩
  have hfree : guarded g.addr = false := by
    refine guarded_eq_false.mpr ?_
    simp only [laneSyncFields, List.mem_cons, List.not_mem_nil, or_false] at hg
    rcases hg with rfl | rfl | rfl | rfl <;>
      simp only [R.WV_STATUS_TAGS_FREE, R.WV_WINDOW_MIN_FREE, R.WV_LS_RUN_RUNNING, R.WV_LS_RUN_PENDING] <;> omega
  rw [← h, hfree] at ha
  cases ha

theorem withdraw (d : Dev) : Outside d d.withdraw := by
  refine foldl [0, 1] d fun d n hn => ?_
  refine (Outside.of_eq (d := d) (e := d.setLane n _) rfl rfl rfl rfl).trans (laneSync _ ?_)
  simp only [List.mem_cons, List.not_mem_nil, or_false] at hn
  omega

theorem ledgerMode (d : Dev) : Outside d d.ledgerMode :=
  .ite ((Outside.of_eq (d := d) (e := { d with led := { d.led with meas := none } }) rfl rfl rfl rfl).trans (.raise _ _ _ _ _))
    (.refl d)

theorem sdModeLeave (d : Dev) : Outside d d.sdModeLeave := by
  refine foldl (List.range 24) d fun d n hn => ?_
  have hlt := List.mem_range.mp hn
  have hset (e : Dev) (g : Fld) (v : Nat) (hg : g = R.SDF_CH_RS_CTRL_EN n ∨ g = R.SDF_CH_RS_CTRL_ACTIVE n) :
      Outside e (e.set g v) := by
    refine .set e v (guarded_eq_false.mpr ?_)
    rcases hg with rfl | rfl <;> simp only [R.SDF_CH_RS_CTRL_EN, R.SDF_CH_RS_CTRL_ACTIVE] <;> omega
  split
  · refine .ite (hset d _ 0 (.inl rfl)) (.ite (.refl d) ?_)
    exact (Outside.of_eq (d := d) (e := d.setSd n _) rfl rfl rfl rfl).trans
      ((hset _ (R.SDF_CH_RS_CTRL_ACTIVE n) 0 (.inr rfl)).trans (hset _ (R.SDF_CH_RS_CTRL_EN n) 0 (.inl rfl)))
  · exact .refl d

/-! ### Legs -/

theorem setLeg (d : Dev) (n : Nat) (l : Leg) : Outside d (d.setLeg n l) :=
  .of_eq (Dev.setLeg_regs _ _ _) (Dev.setLeg_acc _ _ _) (Dev.setLeg_hoop _ _ _) (Dev.setLeg_sys _ _ _)

theorem softoffBall (d : Dev) : Outside d d.softoffBall := .set d _ (by decide)

section
variable {n : Nat} (hn : n < 48)
include hn

/-- The registers of a leg stand apart from ACC's. -/
theorem setLegReg (d : Dev) {g : Fld} (v : Nat) (hg : ∃ k, g.addr = 0x40020000 + k + 0x100 * n ∧ k < 0x100) :
    Outside d (d.set g v) := .set d v (guarded_eq_false.mpr (by omega))

theorem shoot (d : Dev) : Outside d (d.shoot n) := by
  have hbit (e : Dev) : Outside e (e.setBit Dev.shootReg n true) := .setBit e n true (by
    unfold Dev.shootReg
    split <;> decide)
  have hset : Outside d (((d.incSat (R.PWM_LEG_CNT_SHOOT n)).set (R.PWM_LEG_STAT_SHOOT n) 1).setBit Dev.shootReg n true) :=
    (setLegReg hn d _ ⟨0x2C, rfl, by decide⟩).trans ((setLegReg hn _ 1 ⟨0x28, rfl, by decide⟩).trans (hbit _))
  exact .ite (hset.trans (.raise _ _ _ _ _)) hset

theorem legCut (d : Dev) : Outside d (d.legCut n) :=
  .ite (.ite ((setLeg d n _).trans (shoot hn _)) (setLeg d n _)) (.refl d)

theorem toState (d : Dev) (state cause : Nat) : Outside d (d.toState n state cause) := by
  have hbit (e : Dev) (b : Bool) : Outside e (e.setBit Dev.hizReg n b) := .setBit e n b (by
    unfold Dev.hizReg
    split <;> decide)
  have hcut : Outside d (if state = 1 then d else (d.legCut n).legOff n) := .ite (.refl d) ((legCut hn d).trans (setLeg _ n _))
  refine hcut.trans ?_
  exact (setLegReg hn _ state ⟨0x28, rfl, by decide⟩).trans ((setLegReg hn _ cause ⟨0x28, rfl, by decide⟩).trans
    ((hbit _ _).trans (softoffBall _)))

theorem disarm (d : Dev) : Outside d (d.disarm n) := (setLeg d n _).trans (setLegReg hn _ 0 ⟨0x04, rfl, by decide⟩)

theorem legSync (d : Dev) : Outside d (d.legSync n) := by
  have hoff (cause : Nat) : Outside d ((d.disarm n).toState n 2 cause) := (disarm hn d).trans (toState hn _ _ _)
  refine .ite (.refl d) ?_
  split
  · exact hoff _
  · exact .ite (hoff 2) (.ite (hoff 1) (.ite (toState hn d 0 0) (.refl d)))

theorem legRequest (d : Dev) (en : Bool) : Outside d (d.legRequest n en) := by
  refine .ite ?_ (.ite (.raise d _ _ _ _) (.ite ?_ (.refl d)))
  · exact .ite ((disarm hn d).trans (toState hn _ 0 0)) (disarm hn d)
  · exact (setLeg d n _).trans (setLegReg hn _ 1 ⟨0x04, rfl, by decide⟩)

end

theorem legsMode (d : Dev) : Outside d d.legsMode :=
  foldl (List.range 48) d fun d _ hn =>
    (Outside.ite (.refl d) (legRequest (List.mem_range.mp hn) d false)).trans (legSync (List.mem_range.mp hn) _)

end Outside

/-! ### The entry to M10 (R38, R47) and the decision (R358, R359) -/

/-- What ACC sees of an entry to M10: MODE alone changes among the guarded registers, and SAFE_N is driven. -/
structure EntersSafe (d e : Dev) (cause : Nat) : Prop where
  acc : e.acc = d.acc
  regs : ∀ a, guarded a = true → a ≠ 0x40000010 → e.rdw a = d.rdw a
  hoop : ∀ x ∈ d.hoop, x ∈ e.hoop
  safe : e.sys.safeDriven = true
  mode : e.mode = 10
  prev : e.get R.SYSCTL_MODE_PREV = d.mode
  cause : e.get R.SYSCTL_MODE_CAUSE = cause

/-- Entering M10 drives SAFE_N and ends the condition of source 79 (R358). -/
theorem modeStart_safe (d : Dev) (old : Nat) : d.modeStart old 10 =
    { d.setCond 79 false with sys := { d.sys with safeDriven := true, safeHigh := none, safeAt := d.time.short } } := by
  simp [Dev.modeStart]

theorem Dev.get_lt (d : Dev) (g : Fld) : d.get g < 2 ^ g.w := Nat.mod_lt _ (Nat.two_pow_pos _)

/-- MODE at a transition, before its effects (R42). -/
def Dev.atMode (d : Dev) (m cause : Nat) : Dev :=
  (({ d with sys := d.modeMemory d.mode m }.set R.SYSCTL_MODE_CUR m).set R.SYSCTL_MODE_PREV d.mode).set R.SYSCTL_MODE_CAUSE cause

/-- What every block does in a new mode (R47). -/
def Dev.settleMode (d : Dev) (m : Nat) : Dev :=
  let d := d.withdraw.legsMode.isoMode
  let d := (if [1, 2, 11].contains m then d else d.sdModeLeave).ledgerMode
  ({ d with sys := { d.sys with profWait := [0, 1] } }).request 0 2

/-- A transition in three steps. -/
theorem enterMode_eq (h : d.mode ≠ 10) (m cause : Nat) :
    d.enterMode m cause = ((d.atMode m cause).modeStart d.mode m).settleMode m := by
  have hif (x : Dev) : (if d.mode = 10 then x.set R.ACC_STATUS_FIRST_VALID 0 else x) = x := if_neg h
  simp only [Dev.enterMode, hif]
  rfl

theorem Outside.settleMode (d : Dev) (m : Nat) : Outside d (d.settleMode m) := by
  have hprof (e : Dev) : Outside e ({ e with sys := { e.sys with profWait := [0, 1] } } : Dev) :=
    ⟨rfl, fun _ _ => rfl, fun _ hx => hx, id⟩
  exact (Outside.withdraw d).trans ((Outside.legsMode _).trans ((Outside.isoMode _).trans
    ((Outside.ite (.refl _) (Outside.sdModeLeave _)).trans ((Outside.ledgerMode _).trans ((hprof _).trans (.send _ _ _ _))))))

/-- MODE after a transition. -/
theorem Dev.atMode_get (d : Dev) {m cause : Nat} (hm : m < 16) (hc : cause < 256) :
    (d.atMode m cause).get R.SYSCTL_MODE_CUR = m ∧ (d.atMode m cause).get R.SYSCTL_MODE_PREV = d.mode ∧
      (d.atMode m cause).get R.SYSCTL_MODE_CAUSE = cause := by
  unfold Dev.atMode
  refine ⟨?_, ?_, ?_⟩
  · rw [Dev.get_set_of_disjoint _ _ (by decide) (by decide), Dev.get_set_of_disjoint _ _ (by decide) (by decide),
      Dev.get_set_self _ _ _ (by decide)]
    exact Nat.mod_eq_of_lt hm
  · rw [Dev.get_set_of_disjoint _ _ (by decide) (by decide), Dev.get_set_self _ _ _ (by decide)]
    exact Nat.mod_eq_of_lt (d.get_lt R.SYSCTL_MODE_CUR)
  · rw [Dev.get_set_self _ _ _ (by decide)]
    exact Nat.mod_eq_of_lt hc

theorem Dev.atMode_rdw (d : Dev) (m cause : Nat) {a : Nat} (ha : a ≠ 0x40000010) : (d.atMode m cause).rdw a = d.rdw a := by
  unfold Dev.atMode
  rw [Dev.rdw_set_of_ne _ _ ha, Dev.rdw_set_of_ne _ _ ha, Dev.rdw_set_of_ne _ _ ha]
  rfl

theorem enterMode_safe (h : d.mode ≠ 10) {cause : Nat} (hc : cause < 256) : EntersSafe d (d.enterMode 10 cause) cause := by
  have hacc : (d.atMode 10 cause).acc = d.acc := by simp [Dev.atMode]
  have hhoop : (d.atMode 10 cause).hoop = d.hoop := by simp [Dev.atMode]
  have hrdw (a : Nat) (ha : a ≠ 0x40000010) : (d.atMode 10 cause).rdw a = d.rdw a := d.atMode_rdw 10 cause ha
  obtain ⟨hcur, hprev, hcause⟩ := d.atMode_get (m := 10) (by decide) hc
  rw [enterMode_eq h, modeStart_safe]
  generalize d.atMode 10 cause = c at *
  have hcond : Outside c (c.setCond 79 false) := Outside.setCond c false (by decide)
  generalize hs : c.setCond 79 false = c' at hcond
  generalize hd : ({ c' with sys := _ } : Dev) = x
  have hx : Outside c' x ∧ x.sys.safeDriven = true := by
    rw [← hd]
    exact ⟨⟨rfl, fun _ _ => rfl, fun _ hx => hx, fun _ => rfl⟩, rfl⟩
  have hrest := (hcond.trans hx.1).trans (Outside.settleMode x 10)
  refine ⟨hrest.acc.trans hacc, fun a ha hm => (hrest.regs a ha).trans (hrdw a hm), fun y hy => hrest.hoop y (by rwa [hhoop]),
    (Outside.settleMode x 10).safe hx.2, ?_, ?_, ?_⟩
  · rw [Dev.mode, hrest.get (by decide), hcur]
  · rw [hrest.get (by decide), hprev]
  · rw [hrest.get (by decide), hcause]

/-- What a decision of SAFE does, as ACC sees it (R358, R359). -/
structure Decided (d e : Dev) (k : Nat) : Prop where
  acc : e.acc = { d.acc with heldSafe := e.acc.heldSafe }
  get : ∀ g : Fld, guarded g.addr = true → g.addr ≠ 0x40000010 → g.addr ≠ 0x40030000 → e.get g = d.get g
  notify : e.get R.ACC_STATUS_NOTIFY = d.get R.ACC_STATUS_NOTIFY
  hoop : ∀ x ∈ d.hoop, x ∈ e.hoop
  word : ⟨0x50, 2, .safe d.time.short, false, false⟩ ∈ e.hoop
  safe : e.sys.safeDriven = true
  first : d.mode ≠ 10 → d.get R.ACC_STATUS_FIRST_VALID = 0 →
    e.get R.ACC_STATUS_FIRST_SAFE = k ∧ e.get R.ACC_STATUS_FIRST_VALID = 1
  enters : 3 ≤ d.mode → d.mode ≠ 10 → e.mode = 10 ∧ e.get R.SYSCTL_MODE_PREV = d.mode ∧
    e.get R.SYSCTL_MODE_CAUSE = if k = 79 then 4 else if k = 78 then 9 else 3
  stays : d.mode = 10 → e.mode = 10
  held : d.mode < 3 → e.mode = d.mode ∧ e.get R.ACC_STATUS_SAFE_HELD = 1

theorem safeLines_outside (d : Dev) : Outside d d.safeLines ∧ d.safeLines.sys.safeDriven = true := by
  have h := (Outside.isoSafe d).trans (Outside.setCond _ (src := 79) false (by decide))
  exact ⟨h.trans ⟨rfl, fun _ _ => rfl, fun _ hx => hx, fun _ => rfl⟩, rfl⟩

/-- The first decision is recorded (R359). -/
def Dev.recordFirst (d : Dev) (k : Nat) : Dev :=
  if d.isSet R.ACC_STATUS_FIRST_VALID then d else (d.set R.ACC_STATUS_FIRST_SAFE k).set R.ACC_STATUS_FIRST_VALID 1

/-- Changes of registers alone. -/
structure RegsOnly (d e : Dev) : Prop where
  frame : e = { d with regs := e.regs }

theorem Dev.set_frame (d : Dev) (g : Fld) (v : Nat) : RegsOnly d (d.set g v) := ⟨rfl⟩

theorem RegsOnly.trans (h : RegsOnly d e) (h' : RegsOnly e f) : RegsOnly d f := ⟨by rw [h'.frame, h.frame]⟩

/-- ACC's record of a first decision. -/
structure FirstRecorded (d e : Dev) (k : Nat) : Prop where
  frame : e = { d with regs := e.regs }
  regs : ∀ a, a ≠ 0x40030000 → e.rdw a = d.rdw a
  notify : e.get R.ACC_STATUS_NOTIFY = d.get R.ACC_STATUS_NOTIFY
  first : d.get R.ACC_STATUS_FIRST_VALID = 0 → e.get R.ACC_STATUS_FIRST_SAFE = k ∧ e.get R.ACC_STATUS_FIRST_VALID = 1

theorem Dev.recordFirst_records (d : Dev) {k : Nat} (hk : k < 192) : FirstRecorded d (d.recordFirst k) k := by
  unfold Dev.recordFirst
  split
  · rename_i h
    exact ⟨rfl, fun _ _ => rfl, rfl, fun h0 => by simp [Dev.isSet, h0] at h⟩
  · refine ⟨?_, fun a ha => ?_, ?_, fun _ => ⟨?_, ?_⟩⟩
    · exact ((Dev.set_frame d _ _).trans (Dev.set_frame _ _ _)).frame
    · exact (Dev.rdw_set_of_ne (d.set R.ACC_STATUS_FIRST_SAFE k) 1 ha).trans (Dev.rdw_set_of_ne d k ha)
    · rw [Dev.get_set_of_disjoint _ _ (by decide) (by decide), Dev.get_set_of_disjoint _ _ (by decide) (by decide)]
    · rw [Dev.get_set_of_disjoint _ _ (by decide) (by decide), Dev.get_set_self _ _ _ (by decide)]
      exact Nat.mod_eq_of_lt (by simp only [R.ACC_STATUS_FIRST_SAFE]; omega)
    · exact Dev.get_set_self _ _ _ (by decide)

/-- What follows the safe-state lines: M10, or a held decision below M3 (R359). -/
def Dev.actSafe (d : Dev) (k : Nat) : Dev :=
  if d.mode < 3 then { d with acc := { d.acc with heldSafe := d.acc.heldSafe.or (some k) } }.set R.ACC_STATUS_SAFE_HELD 1
  else if d.mode = 10 then d
  else d.enterMode 10 (if k = 79 then 4 else if k = 78 then 9 else 3)

theorem safeDecide_decided (d : Dev) {k : Nat} (hk : k < 192) : Decided d (d.safeDecide k) k := by
  obtain ⟨hframe, hregs, hnotify, hfirst⟩ := d.recordFirst_records hk
  have hdecide : d.safeDecide k = (((d.recordFirst k).request Dev.islGUARD 1).send 0x50 Dev.islBUS
      (.safe (d.recordFirst k).time.short)).safeLines.actSafe k := rfl
  generalize d.recordFirst k = c at *
  have hacc : c.acc = d.acc := by rw [hframe]
  have hhoop : c.hoop = d.hoop := by rw [hframe]
  have htime : c.time = d.time := by rw [hframe]
  obtain ⟨hlines, hsafe⟩ := safeLines_outside ((c.request Dev.islGUARD 1).send 0x50 Dev.islBUS (.safe c.time.short))
  have hout := ((Outside.send c _ _ _).trans (.send (c.request Dev.islGUARD 1) 0x50 Dev.islBUS (.safe c.time.short))).trans hlines
  have hword := hlines.hoop ⟨0x50, 2, .safe c.time.short, false, false⟩ (List.mem_append_right _ (by simp [Dev.islBUS]))
  generalize ((c.request Dev.islGUARD 1).send 0x50 Dev.islBUS (.safe c.time.short)).safeLines = x at *
  have hget (g : Fld) (hg : guarded g.addr = true) (hn : g.addr ≠ 0x40030000) : x.get g = d.get g := by
    rw [hout.get hg, Dev.get, hregs _ hn, Dev.get]
  have hmode : x.mode = d.mode := hget _ (by decide) (by decide)
  have hsee (g : Fld) (hg : guarded g.addr = true) : x.get g = c.get g := hout.get hg
  rw [htime] at hword
  have hkeep (y : HEntry) (hy : y ∈ d.hoop) : y ∈ x.hoop := hout.hoop y (by rwa [hhoop])
  rw [hdecide, Dev.actSafe, hmode]
  by_cases h3 : d.mode < 3
  · rw [if_pos h3]
    have hset (g : Fld) (hd : g.addr ≠ R.ACC_STATUS_SAFE_HELD.addr ∨ g.lo + g.w ≤ R.ACC_STATUS_SAFE_HELD.lo ∨
        R.ACC_STATUS_SAFE_HELD.lo + R.ACC_STATUS_SAFE_HELD.w ≤ g.lo) :
        (({ x with acc := { x.acc with heldSafe := x.acc.heldSafe.or (some k) } } : Dev).set R.ACC_STATUS_SAFE_HELD 1).get g =
          x.get g := (Dev.get_set_of_disjoint _ _ (by decide) hd).trans (Dev.get_congr rfl g)
    refine ⟨?_, fun g hg _ hn => (hset g (.inl hn)).trans (hget g hg hn), (hset _ (by decide)).trans ((hsee _ (by decide)).trans
      hnotify), fun y hy => ?_, ?_, ?_, fun _ h0 => ?_, fun h => absurd h3 (by omega), fun h => absurd h3 (by omega), fun _ =>
      ⟨(hset _ (by decide)).trans hmode, Dev.get_set_self _ _ _ (by decide)⟩⟩
    · rw [Dev.set_acc, ← hacc, ← hout.acc]
    · rw [Dev.set_hoop]
      exact hkeep y hy
    · rw [Dev.set_hoop]
      exact hword
    · rw [Dev.set_sys]
      exact hsafe
    · rw [hset _ (by decide), hset _ (by decide), hsee _ (by decide), hsee _ (by decide)]
      exact hfirst h0
  · rw [if_neg h3]
    by_cases h10 : d.mode = 10
    · rw [if_pos h10]
      exact ⟨by rw [hout.acc, hacc], fun g hg _ hn => hget g hg hn, (hsee _ (by decide)).trans hnotify, hkeep, hword, hsafe,
        fun h => absurd h10 h, fun _ h => absurd h10 h, fun h => hmode.trans h, fun h => absurd h h3⟩
    · rw [if_neg h10]
      have hcause : (if k = 79 then 4 else if k = 78 then 9 else 3) < 256 := by
        split
        · decide
        · split <;> decide
      have henter := enterMode_safe (d := x) (by rwa [hmode]) hcause
      have hgetE (g : Fld) (hg : guarded g.addr = true) (hm : g.addr ≠ 0x40000010) :
          (x.enterMode 10 (if k = 79 then 4 else if k = 78 then 9 else 3)).get g = x.get g := by
        rw [Dev.get, henter.regs _ hg hm, Dev.get]
      refine ⟨by rw [henter.acc, hout.acc, hacc], fun g hg hm hn => (hgetE g hg hm).trans (hget g hg hn),
        (hgetE _ (by decide) (by decide)).trans ((hsee _ (by decide)).trans hnotify), fun y hy => henter.hoop y (hkeep y hy),
        henter.hoop _ hword, henter.safe, fun _ h0 => ?_, fun _ _ => ⟨henter.mode, henter.prev.trans hmode, henter.cause⟩,
        fun h => absurd h h10, fun h => absurd h h3⟩
      rw [hgetE _ (by decide) (by decide), hgetE _ (by decide) (by decide), hsee _ (by decide), hsee _ (by decide)]
      exact hfirst h0

end Sys2Proof.Machine
end

section
/-! ## The judgement of a report -/

namespace Sys2Proof.Machine

variable {s : State} {d e : Dev} {r : Report} {k : Nat}

/-! ### What a step reads -/

theorem Dev.act_congr (h : e.cfg = d.cfg) (f : Fld) : e.act f = d.act f := by rw [Dev.act, Dev.actw, h, Dev.act, Dev.actw]

theorem Dev.accWin_congr (h : e.acc.wins = d.acc.wins) (k : Nat) : e.accWin k = d.accWin k := by rw [Dev.accWin, h, Dev.accWin]

theorem Dev.timer_congr (h : e.acc.timers = d.acc.timers) (k : Nat) : e.timer k = d.timer k := by rw [Dev.timer, h, Dev.timer]

/-! ### The reports of a cycle -/

/-- The entry at the front of a channel, from what a receiver takes there. -/
theorem takeEntry_of_take {ch recv : Nat} {w : HWord} (h : d.take ch recv = some (w, e)) :
    ∃ x, d.takeEntry ch recv = some (x, e) ∧ x.w = w := by
  simp only [Dev.take, Option.map_eq_some_iff] at h
  obtain ⟨⟨x, y⟩, hx, hxe⟩ := h
  cases hxe
  exact ⟨x, hx, rfl⟩

theorem takeReports_nothing {c : Fin 14} (h : d.take (0x30 + c.val) 3 = none) : d.takeReports [c] = ([], d) := by
  have hentry : d.takeEntry (0x30 + c.val) 3 = none := by simpa [Dev.take] using h
  simp only [Dev.takeReports, Dev.islGUARD, hentry]

/-- The oldest report of a channel, which signals LANE where it arrives with this and is a lane fault (R109). -/
theorem takeReports_one {c : Fin 14} (h : d.take (0x30 + c.val) 3 = some (.report r, e)) :
    ∃ l, d.takeReports [c] = ([r], { e with lc := { e.lc with signals := l } }) ∧
      (r.src ∉ [64, 66, 67, 68] → l = e.lc.signals) := by
  obtain ⟨⟨ch, recv, w, stalled, acked⟩, hx, hw⟩ := takeEntry_of_take h
  cases hw
  cases acked with
  | true =>
    refine ⟨e.lc.signals, ?_, fun _ => rfl⟩
    simp only [Dev.takeReports, Dev.islGUARD, hx, if_true, insertReport]
  | false =>
    refine ⟨e.lc.signals ++ (if r.src ∈ [64, 66, 67, 68] ∧ r.lane < 2 then [r.lane] else []), ?_, fun hn => ?_⟩
    · simp only [Dev.takeReports, Dev.islGUARD, hx, laneSignal_eq, insertReport, Bool.false_eq_true, if_false]
    · rw [if_neg fun h => hn h.1, List.append_nil]

/-- One report is judged, and its decision acts (R355, R361). -/
theorem exec_faultReport_one {c : Fin 14} {x : Dev × Bool} (h : s.d.takeReports [c] = ([r], d)) (hx : d.judge r = x) :
    exec (.faultReport [c]) s = .next { s with d := if x.2 then x.1.safeDecide r.src else x.1 } := by
  change execFaultReport [c] s = _
  obtain ⟨y, b⟩ := x
  cases b <;> simp [execFaultReport, h, Dev.judgeAll, hx, State.onDev]

/-! ### Promotion (R352) -/

/-- The registers that a count for promotion changes. -/
def promoteFields (k : Nat) : List Fld := [R.ACC_PROMO_SRC (k / 32), R.ACC_SRC_CNT_PROMOTED k]

theorem Dev.setBit_frame (d : Dev) (f : Nat → Fld) (i : Nat) (b : Bool) : RegsOnly d (d.setBit f i b) := ⟨Dev.setBit_eq _ _ _ _⟩

/-- The end of a window (R349). -/
def Dev.winClose (d : Dev) (k : Nat) (w : Win) : Nat := w.opened + windowNs (d.act (R.ACC_SRC_WIN_W k))

/-- The report lies in the open window and goes beyond its count. -/
def Dev.PromotionDue (d : Dev) (k time : Nat) : Prop :=
  ∃ w, d.accWin k = some w ∧ time < d.winClose k w ∧ d.act (R.ACC_SRC_CFG_N k) < w.count + 1

/-- What a report does to the promotion of its source. -/
structure Counts (d e : Dev) (k time : Nat) (promo : Bool) : Prop where
  bit : e.bit R.ACC_PROMO_SRC k = promo
  count : e.get (R.ACC_SRC_CNT_PROMOTED k) = if promo = true ∧ d.bit R.ACC_PROMO_SRC k = false then
    min (d.get (R.ACC_SRC_CNT_PROMOTED k) + 1) 0xFF else d.get (R.ACC_SRC_CNT_PROMOTED k)
  closed : d.bit R.ACC_PROMO_SRC k = false → promo = true → e.accWin k = none
  inside : promo = false → ∀ w, d.accWin k = some w → time < d.winClose k w → e.accWin k = some ⟨w.opened, w.count + 1⟩
  opens : promo = false → (∀ w, d.accWin k = some w → d.winClose k w ≤ time) → e.accWin k = some ⟨time, 1⟩
  regs : RegsBut (promoteFields k) d e
  frame : e = { d with regs := e.regs, acc := { d.acc with wins := e.acc.wins } }

theorem Dev.accWin_setWin (d : Dev) (k : Nat) (w : Option Win) : (d.setWin k w).accWin k = w := by
  simp [Dev.accWin, Dev.setWin, Sparse.at', Sparse.put]

/-- A source is promoted, in one step (R352). -/
theorem promotes_counts (hk : k < 192) (hp : d.bit R.ACC_PROMO_SRC k = false) (time : Nat) :
    Counts d (((d.setWin k none).setBit R.ACC_PROMO_SRC k true).incSat (R.ACC_SRC_CNT_PROMOTED k)) k time true := by
  have hset := isBank_promo.setBit (d.setWin k none) k true
  have hwidth : (R.ACC_SRC_CNT_PROMOTED k).lo + (R.ACC_SRC_CNT_PROMOTED k).w ≤ 32 := by simp [R.ACC_SRC_CNT_PROMOTED]
  have hapart : (R.ACC_PROMO_SRC (k / 32)).addr ≠ (R.ACC_SRC_CNT_PROMOTED k).addr := by
    simp only [R.ACC_PROMO_SRC, R.ACC_SRC_CNT_PROMOTED]
    omega
  refine ⟨?_, ?_, fun _ _ => ?_, fun h => by simp at h, fun h => by simp at h, ?_, ?_⟩
  · rw [Dev.bit_congr (Dev.get_incSat_of_disjoint hwidth (.inl hapart)), isBank_promo.bit_setBit, if_pos rfl]
  · rw [Dev.get_incSat_byte rfl hwidth, hset.get _ (by simpa using .inl hapart), if_pos ⟨rfl, hp⟩]
    rfl
  · rw [Dev.accWin_congr (d := d.setWin k none) (by simp), Dev.accWin_setWin]
  · exact (RegsBut.of_regs rfl).trans ((hset.mono (by simp [promoteFields])).trans
      (RegsBut.set _ _ _ (by simp [promoteFields]) hwidth))
  · have hregs : RegsOnly (d.setWin k none) (((d.setWin k none).setBit R.ACC_PROMO_SRC k true).incSat (R.ACC_SRC_CNT_PROMOTED k)) :=
      (Dev.setBit_frame _ _ _ _).trans (Dev.set_frame _ _ _)
    generalize ((d.setWin k none).setBit R.ACC_PROMO_SRC k true).incSat (R.ACC_SRC_CNT_PROMOTED k) = e at hregs
    rw [hregs.frame]
    rfl

/-- A report is counted in a window, in one step (R349). -/
theorem setWin_counts {time : Nat} {w : Win} (hp : d.bit R.ACC_PROMO_SRC k = false)
    (hin : ∀ v, d.accWin k = some v → time < d.winClose k v → w = ⟨v.opened, v.count + 1⟩)
    (hout : (∀ v, d.accWin k = some v → d.winClose k v ≤ time) → w = ⟨time, 1⟩) :
    Counts d (d.setWin k (some w)) k time false :=
  ⟨hp, rfl, fun _ h => by simp at h, fun _ v hv ht => by rw [Dev.accWin_setWin, hin v hv ht],
    fun _ h => by rw [Dev.accWin_setWin, hout h], .of_regs rfl, rfl⟩

theorem Dev.promote_counts (hk : k < 192) (hn : 1 ≤ d.act (R.ACC_SRC_CFG_N k)) (hw : ∀ w, d.accWin k = some w → 1 ≤ w.count)
    {time : Nat} {promo : Bool} (hp : promo = true ↔ d.bit R.ACC_PROMO_SRC k = true ∨ d.PromotionDue k time) :
    Counts d (d.promote k time) k time promo := by
  unfold Dev.promote Dev.promoted
  cases hbit : d.bit R.ACC_PROMO_SRC k with
  | true =>
    obtain rfl : promo = true := hp.mpr (.inl hbit)
    exact ⟨hbit, by simp [hbit], fun h => by simp [hbit] at h, fun h => by simp at h, fun h => by simp at h, .refl _ _, rfl⟩
  | false =>
    simp only [hbit, Bool.false_eq_true, false_or] at hp
    simp only [Bool.false_eq_true, if_false]
    cases hwin : d.accWin k with
    | none =>
      have hnot : ¬d.PromotionDue k time := by rintro ⟨w, hw', -⟩; simp [hwin] at hw'
      obtain rfl : promo = false := by simpa [hnot] using hp
      simp only []
      rw [if_neg (by omega)]
      exact setWin_counts hbit (fun v hv => by simp [hwin] at hv) fun _ => rfl
    | some w =>
      have hcount := hw w hwin
      have hclose : w.opened + windowNs (d.act (R.ACC_SRC_WIN_W k)) = d.winClose k w := rfl
      by_cases ht : time < d.winClose k w
      · have hdue : d.PromotionDue k time ↔ d.act (R.ACC_SRC_CFG_N k) < w.count + 1 := by
          constructor
          · rintro ⟨w', hw', -, hN⟩
            rw [hwin] at hw'
            cases hw'
            exact hN
          · exact fun hN => ⟨w, hwin, ht, hN⟩
        simp only [hclose]
        rw [if_pos ht]
        rw [if_neg (by omega : ¬w.count + 1 = 1)]
        by_cases hN : d.act (R.ACC_SRC_CFG_N k) < w.count + 1
        · obtain rfl : promo = true := hp.mpr (hdue.mpr hN)
          rw [if_pos hN]
          exact promotes_counts hk hbit time
        · obtain rfl : promo = false := Bool.eq_false_iff.mpr fun h => hN (hdue.mp (hp.mp h))
          rw [if_neg hN]
          refine setWin_counts hbit (fun v hv _ => ?_) fun h => absurd ht (by have := h w hwin; omega)
          rw [hwin] at hv
          cases hv
          rfl
      · have hnot : ¬d.PromotionDue k time := by
          rintro ⟨v, hv, ht', -⟩
          rw [hwin] at hv
          cases hv
          exact ht ht'
        obtain rfl : promo = false := Bool.eq_false_iff.mpr fun h => hnot (hp.mp h)
        simp only [hclose]
        rw [if_neg ht, if_neg (by omega)]
        refine setWin_counts hbit (fun v hv ht' => ?_) fun _ => rfl
        rw [hwin] at hv
        cases hv
        exact absurd ht' ht

/-! ### Reactions (R355) -/

/-- The registers of a reaction. -/
def reactFields (k : Nat) : List Fld :=
  [R.ACC_ACTIVE_SRC (k / 32), R.ACC_SEV_SRC (k / 32), R.ACC_GRACE_SRC (k / 32), R.ACC_STATUS_NOTIFY]

/-- A step of a reaction: it marks the source ACTIVE where `a` and SEV where `v`, and no other source. -/
structure Marked (k : Nat) (a v : Bool) (d e : Dev) : Prop where
  regs : RegsBut (reactFields k) d e
  frame : e = { d with regs := e.regs, hoop := e.hoop, acc := { d.acc with timers := e.acc.timers, safeSrcs := e.acc.safeSrcs } }
  active : ∀ j, j < 192 → e.bit R.ACC_ACTIVE_SRC j = (d.bit R.ACC_ACTIVE_SRC j || (j == k && a))
  sev : ∀ j, j < 192 → e.bit R.ACC_SEV_SRC j = (d.bit R.ACC_SEV_SRC j || (j == k && v))

namespace Marked

theorem refl (k : Nat) (d : Dev) : Marked k false false d d := ⟨.refl _ _, rfl, fun _ _ => by simp, fun _ _ => by simp⟩

theorem trans {f : Dev} {a v b u : Bool} (h : Marked k a v d e) (g : Marked k b u e f) : Marked k (a || b) (v || u) d f where
  regs := h.regs.trans g.regs
  frame := by rw [g.frame, h.frame]
  active j hj := by rw [g.active j hj, h.active j hj, Bool.and_or_distrib_left, Bool.or_assoc]
  sev j hj := by rw [g.sev j hj, h.sev j hj, Bool.and_or_distrib_left, Bool.or_assoc]

theorem ite {a v : Bool} {c : Prop} [Decidable c] (h : Marked k a v d e) :
    Marked k (decide c && a) (decide c && v) d (if c then e else d) := by
  split
  · simp [*]
  · simp [*, refl]

/-- A change outside ACTIVE and SEV. -/
theorem of_apart (hk : k < 192) (hr : RegsBut [R.ACC_GRACE_SRC (k / 32), R.ACC_STATUS_NOTIFY] d e)
    (hf : e = { d with regs := e.regs, hoop := e.hoop, acc := { d.acc with timers := e.acc.timers, safeSrcs := e.acc.safeSrcs } }) :
    Marked k false false d e := by
  have hcut {f : Nat → Fld} {base : Nat} (hbank : IsBank f base) (hb : base = 0x40030020 ∨ base = 0x40030040) (j : Nat)
      (hj : j < 192) : e.bit f j = d.bit f j := by
    refine Dev.bit_congr (hr.get _ fun g hg => .inl ?_)
    simp only [List.mem_cons, List.not_mem_nil, or_false] at hg
    rcases hg with rfl | rfl <;> simp only [hbank.addr, R.ACC_GRACE_SRC, R.ACC_STATUS_NOTIFY] <;> omega
  refine ⟨hr.mono (by simp [reactFields]), hf, fun j hj => ?_, fun j hj => ?_⟩
  · rw [hcut isBank_active (.inl rfl) j hj, Bool.and_false, Bool.or_false]
  · rw [hcut isBank_sev (.inr rfl) j hj, Bool.and_false, Bool.or_false]

end Marked

theorem severe_marked (hk : k < 192) (d : Dev) : Marked k true true d (d.severe k) := by
  have hact := isBank_active.setBit d k true
  have hsev := isBank_sev.setBit (d.setBit R.ACC_ACTIVE_SRC k true) k true
  refine ⟨(hact.mono (by simp [reactFields])).trans (hsev.mono (by simp [reactFields])), ?_, fun j hj => ?_, fun j hj => ?_⟩
  · have hregs : RegsOnly d (d.severe k) := (Dev.setBit_frame _ _ _ _).trans (Dev.setBit_frame _ _ _ _)
    rw [hregs.frame]
  · rw [Dev.severe, Dev.bit_congr (hsev.get _ (by simp only [List.mem_singleton, forall_eq, R.ACC_ACTIVE_SRC, R.ACC_SEV_SRC]; omega)),
      isBank_active.bit_setBit]
    by_cases hjk : j = k <;> simp [hjk]
  · rw [Dev.severe, isBank_sev.bit_setBit]
    by_cases hjk : j = k
    · simp [hjk]
    · rw [if_neg hjk, Dev.bit_congr (hact.get _ (by simp only [List.mem_singleton, forall_eq, R.ACC_ACTIVE_SRC, R.ACC_SEV_SRC]; omega))]
      simp [hjk]

/-- The reaction with its request, its STATUS bit and its mark. -/
theorem reactNotify_marked (hk : k < 192) (d : Dev) : Marked k true false d (d.reactNotify k) ∧
    (d.reactNotify k).get R.ACC_STATUS_NOTIFY = 1 ∧ flagOf 3 0 ∈ (d.reactNotify k).hoop ∧ (d.reactNotify k).acc = d.acc := by
  have hact := isBank_active.setBit d k true
  have hmark : Marked k true false d (d.setBit R.ACC_ACTIVE_SRC k true) := by
    refine ⟨hact.mono (by simp [reactFields]), by rw [(Dev.setBit_frame d _ _ _).frame], fun j hj => ?_, fun j hj => ?_⟩
    · rw [isBank_active.bit_setBit]
      by_cases hjk : j = k <;> simp [hjk]
    · rw [Dev.bit_congr (hact.get _ (by simp only [List.mem_singleton, forall_eq, R.ACC_ACTIVE_SRC, R.ACC_SEV_SRC]; omega))]
      simp
  have hacc : (d.setBit R.ACC_ACTIVE_SRC k true).acc = d.acc := Dev.setBit_acc _ _ _ _
  unfold Dev.reactNotify
  generalize d.setBit R.ACC_ACTIVE_SRC k true = x at *
  refine ⟨hmark.trans (.of_apart hk ((RegsBut.set x R.ACC_STATUS_NOTIFY 1 (by simp) (by decide)).trans (.of_regs rfl)) rfl), ?_,
    List.mem_append_right _ (by simp [flagOf, Dev.islGUARD, Dev.islCORE]), hacc⟩
  exact (Dev.get_congr rfl _).trans (Dev.get_set_self x R.ACC_STATUS_NOTIFY 1 (by decide))

/-- The reaction of a judged report: class `cls`, reaction `react`, its timer `t`. -/
def Dev.reacts (d : Dev) (k cls react : Nat) (t : Timer) : Dev :=
  let d := if cls = 3 then d.severe k else d
  let d := if react = 0 then d else d.reactNotify k
  let d := if react = 2 ∧ (d.timer k).isNone then d.setTimer k (some t) else d
  if react = 3 ∧ !d.acc.safeSrcs.contains k then { d with acc := { d.acc with safeSrcs := d.acc.safeSrcs ++ [k] } } else d

/-- What a reaction does. -/
structure Reacted (d e : Dev) (k cls react : Nat) (t : Timer) : Prop where
  marks : Marked k (react != 0 || cls == 3) (cls == 3) d e
  notify : react ≠ 0 → e.get R.ACC_STATUS_NOTIFY = 1 ∧ flagOf 3 0 ∈ e.hoop
  timer : e.timer k = if react = 2 ∧ d.timer k = none then some t else d.timer k
  safe : react = 3 → k ∈ e.acc.safeSrcs
  apart : react ≠ 3 → e.acc.safeSrcs = d.acc.safeSrcs

/-- A timer is put in place (R357). -/
def Dev.putTimer (d : Dev) (k : Nat) (t : Timer) : Dev :=
  { d with acc := { d.acc with timers := Sparse.put none d.acc.timers k (some t) } }

theorem setTimer_some (d : Dev) (k : Nat) (t : Timer) :
    d.setTimer k (some t) = (d.putTimer k t).setBit R.ACC_GRACE_SRC k t.running := rfl

theorem Dev.timer_setTimer (d : Dev) (k : Nat) (t : Timer) : (d.setTimer k (some t)).timer k = some t := by
  rw [setTimer_some, Dev.timer_congr (d := d.putTimer k t) (by rw [Dev.setBit_acc])]
  simp [Dev.timer, Dev.putTimer, Sparse.at', Sparse.put]

/-- The start of a timer marks no source. -/
theorem setTimer_marked (hk : k < 192) (d : Dev) (t : Timer) : Marked k false false d (d.setTimer k (some t)) := by
  have hset := isBank_grace.setBit (d.putTimer k t) k t.running
  refine .of_apart hk ((RegsBut.of_regs rfl).trans (hset.mono (by simp))) ?_
  rw [setTimer_some, (Dev.setBit_frame (d.putTimer k t) _ _ _).frame]
  rfl

theorem setTimer_notify (d : Dev) (t : Timer) :
    (d.setTimer k (some t)).get R.ACC_STATUS_NOTIFY = d.get R.ACC_STATUS_NOTIFY := by
  rw [setTimer_some, (isBank_grace.setBit (d.putTimer k t) k t.running).get _ (by
    simp only [List.mem_singleton, forall_eq, R.ACC_GRACE_SRC, R.ACC_STATUS_NOTIFY]; omega)]
  exact Dev.get_congr rfl _

/-- The request for a reaction, but for the marks of a Severe class. -/
def Dev.notifies (d : Dev) (k react : Nat) : Dev := if react = 0 then d else d.reactNotify k

/-- The timer of a GRACE reaction. -/
def Dev.graces (d : Dev) (k react : Nat) (t : Timer) : Dev :=
  if react = 2 ∧ (d.timer k).isNone then d.setTimer k (some t) else d

/-- The record of a SAFE reaction. -/
def Dev.holdsSafe (d : Dev) (k react : Nat) : Dev :=
  if react = 3 ∧ !d.acc.safeSrcs.contains k then { d with acc := { d.acc with safeSrcs := d.acc.safeSrcs ++ [k] } } else d

theorem reacts_eq (d : Dev) (k cls react : Nat) (t : Timer) :
    d.reacts k cls react t = (((if cls = 3 then d.severe k else d).notifies k react).graces k react t).holdsSafe k react := rfl

theorem Dev.notifies_marked (hk : k < 192) (d : Dev) (react : Nat) : Marked k (react != 0) false d (d.notifies k react) ∧
    (react ≠ 0 → (d.notifies k react).get R.ACC_STATUS_NOTIFY = 1 ∧ flagOf 3 0 ∈ (d.notifies k react).hoop) ∧
    (d.notifies k react).acc = d.acc := by
  unfold Dev.notifies
  obtain ⟨hmark, hnotify, hhoop, hacc⟩ := reactNotify_marked hk d
  by_cases h : react = 0
  · rw [if_pos h, show (react != 0) = false by simp [h]]
    exact ⟨.refl k d, fun h' => absurd h h', rfl⟩
  · rw [if_neg h, show (react != 0) = true by simp [h]]
    exact ⟨hmark, fun _ => ⟨hnotify, hhoop⟩, hacc⟩

theorem Dev.graces_marked (hk : k < 192) (d : Dev) (react : Nat) (t : Timer) : Marked k false false d (d.graces k react t) ∧
    (d.graces k react t).get R.ACC_STATUS_NOTIFY = d.get R.ACC_STATUS_NOTIFY ∧ (d.graces k react t).hoop = d.hoop ∧
    (d.graces k react t).acc.safeSrcs = d.acc.safeSrcs ∧
    (d.graces k react t).timer k = if react = 2 ∧ d.timer k = none then some t else d.timer k := by
  unfold Dev.graces
  simp only [Option.isNone_iff_eq_none]
  split
  · refine ⟨setTimer_marked hk d t, setTimer_notify d t, ?_, ?_, d.timer_setTimer k t⟩
    · rw [setTimer_some, Dev.setBit_hoop, Dev.putTimer]
    · rw [setTimer_some, Dev.setBit_acc, Dev.putTimer]
  · exact ⟨.refl k d, rfl, rfl, rfl, rfl⟩

theorem Dev.holdsSafe_marked (hk : k < 192) (d : Dev) (react : Nat) : Marked k false false d (d.holdsSafe k react) ∧
    (d.holdsSafe k react).regs = d.regs ∧ (d.holdsSafe k react).hoop = d.hoop ∧
    (d.holdsSafe k react).acc.timers = d.acc.timers ∧
    (react = 3 → k ∈ (d.holdsSafe k react).acc.safeSrcs) ∧
    (react ≠ 3 → (d.holdsSafe k react).acc.safeSrcs = d.acc.safeSrcs) := by
  unfold Dev.holdsSafe
  split
  · rename_i h
    exact ⟨.of_apart hk (.of_regs rfl) rfl, rfl, rfl, rfl, fun _ => List.mem_append_right _ (by simp), fun h' => absurd h.1 h'⟩
  · rename_i h
    exact ⟨.refl k d, rfl, rfl, rfl, fun h3 => by simpa [h3] using h, fun _ => rfl⟩

theorem Dev.reacts_reacted (hk : k < 192) (d : Dev) (cls react : Nat) (t : Timer) :
    Reacted d (d.reacts k cls react t) k cls react t := by
  rw [reacts_eq]
  have hsev : Marked k (decide (cls = 3) && true) (decide (cls = 3) && true) d (if cls = 3 then d.severe k else d) :=
    .ite (severe_marked hk d)
  have hacc : (if cls = 3 then d.severe k else d).acc = d.acc := by
    split
    · rw [Dev.severe, Dev.setBit_acc, Dev.setBit_acc]
    · rfl
  generalize (if cls = 3 then d.severe k else d) = a at *
  obtain ⟨hnm, hnotify, hnacc⟩ := a.notifies_marked hk react
  generalize a.notifies k react = b at *
  obtain ⟨hgm, hgnotify, hghoop, hgsafe, hgtimer⟩ := b.graces_marked hk react t
  generalize b.graces k react t = c at *
  obtain ⟨hsm, hsregs, hshoop, hstimer, hin, hout⟩ := c.holdsSafe_marked hk react
  have hbacc : b.acc = d.acc := hnacc.trans hacc
  refine ⟨?_, fun h => ?_, ?_, hin, fun h => ?_⟩
  · have := ((hsev.trans hnm).trans hgm).trans hsm
    simpa [Bool.or_comm, Bool.beq_eq_decide_eq] using this
  · rw [Dev.get_congr hsregs, hgnotify, hshoop, hghoop]
    exact hnotify h
  · rw [Dev.timer_congr hstimer, hgtimer, Dev.timer_congr (d := d) (by rw [hbacc])]
  · rw [hout h, hgsafe, hbacc]

/-! ### The judgement of one report -/

/-- The report comes from the lane that is not the active one (R360). -/
def Dev.standbyReport (d : Dev) (r : Report) : Bool := r.lane != 2 && r.lane != d.judgeLane

/-- The count of a report (R351). -/
def countField (standby : Bool) (k : Nat) : Fld := if standby then R.ACC_SRC_CNT_STANDBY k else R.ACC_SRC_CNT_EVENTS k

/-- The log entry of a judged report. -/
def judgedEntry (r : Report) (standby : Bool) (cls react : Nat) (promo : Bool) : LogEntry :=
  { src := r.src, cls := cls, react := react, lane := r.lane, promoted := promo, forced := r.forced, rep := 0,
    stamp := BitVec.ofNat 32 r.time, ctx := r.ctx, esc := false, standby := standby, mode := 0, lastDt := 0, seq := 0,
    closed := false }

/-- The class of a report, promoted or not (R352). -/
def Dev.classOf (d : Dev) (k : Nat) (promo : Bool) : Nat := if promo then 3 else d.srcClass k

/-- The reaction of a report, promoted or not (R352). -/
def Dev.reactionOf (d : Dev) (k : Nat) (promo : Bool) : Nat :=
  if promo then max (d.srcReaction k) (d.act R.ACC_CTRL_PROMO_REACT) else d.srcReaction k

theorem judge_disabled (h : d.act (R.ACC_SRC_CFG_EN r.src) = 0) :
    d.judge r = (d.incSat (countField (d.standbyReport r) r.src), false) := by
  have hact : (d.incSat (countField (d.standbyReport r) r.src)).act (R.ACC_SRC_CFG_EN r.src) = 0 := h
  simp only [Dev.judge]
  exact if_pos hact

theorem judge_standby (h : d.act (R.ACC_SRC_CFG_EN r.src) ≠ 0) (hs : d.standbyReport r = true) :
    d.judge r = ((d.incSat (R.ACC_SRC_CNT_STANDBY r.src)).stage (judgedEntry r true (d.srcClass r.src) 0 false), false) := by
  have hact : ¬(d.incSat (R.ACC_SRC_CNT_STANDBY r.src)).act (R.ACC_SRC_CFG_EN r.src) = 0 := h
  have hs' : (r.lane != 2 && r.lane != d.judgeLane) = true := hs
  simp only [Dev.judge, hs', if_true]
  exact if_neg hact

/-- The timer that a report starts. -/
def Dev.reportTimer (d : Dev) (r : Report) (promo : Bool) : Timer :=
  ⟨true, d.act (R.ACC_SRC_CFG_GRACE r.src), r.ctx, r.lane, promo⟩

theorem judge_active (h : d.act (R.ACC_SRC_CFG_EN r.src) ≠ 0) (hs : d.standbyReport r = false) {promo : Bool} {c : Dev}
    (hc : (d.incSat (R.ACC_SRC_CNT_EVENTS r.src)).promote r.src r.time = c) (hcfg : c.cfg = d.cfg)
    (hp : c.bit R.ACC_PROMO_SRC r.src = promo) :
    d.judge r = ((c.reacts r.src (d.classOf r.src promo) (d.reactionOf r.src promo) (d.reportTimer r promo)).stage
      (judgedEntry r false (d.classOf r.src promo) (d.reactionOf r.src promo) promo), d.reactionOf r.src promo == 3) := by
  have hact : ¬(d.incSat (R.ACC_SRC_CNT_EVENTS r.src)).act (R.ACC_SRC_CFG_EN r.src) = 0 := h
  have hs' : (r.lane != 2 && r.lane != d.judgeLane) = false := hs
  have hclass : d.classOf r.src promo = c.classOf r.src promo := by
    simp only [Dev.classOf, Dev.srcClass, Dev.act_congr hcfg]
  have hreact : d.reactionOf r.src promo = c.reactionOf r.src promo := by
    simp only [Dev.reactionOf, Dev.srcReaction, Dev.act_congr hcfg]
  have htimer (x : Dev) (hx : x.cfg = c.cfg) : d.reportTimer r promo = x.reportTimer r promo := by
    simp only [Dev.reportTimer, Dev.act_congr (hx.trans hcfg)]
  have hsevere : (if c.classOf r.src promo = 3 then c.severe r.src else c).cfg = c.cfg := by
    split
    · rw [Dev.severe, Dev.setBit_cfg, Dev.setBit_cfg]
    · rfl
  have hnotify : ((if c.classOf r.src promo = 3 then c.severe r.src else c).notifies r.src (c.reactionOf r.src promo)).cfg = c.cfg := by
    rw [← hsevere, Dev.notifies]
    split
    · rfl
    · rw [Dev.reactNotify, Dev.request, Dev.send_cfg, Dev.set_cfg, Dev.setBit_cfg]
  rw [hclass, hreact, htimer _ hnotify]
  subst hp hc
  simp only [Dev.judge, hs', Bool.false_eq_true, if_false]
  exact if_neg hact

/-! ### What a judged report shows (R351 to R355, R360, R364) -/

theorem countField_w (standby : Bool) (k : Nat) : (countField standby k).lo + (countField standby k).w ≤ 32 := by
  cases standby <;> simp [countField, R.ACC_SRC_CNT_STANDBY, R.ACC_SRC_CNT_EVENTS]

theorem get_countField (d : Dev) (standby : Bool) (k : Nat) : (d.incSat (countField standby k)).get (countField standby k) =
    min (d.get (countField standby k) + 1) (if standby then 0xFF else 0xFFFF) := by
  rw [Dev.get_incSat (countField_w standby k)]
  cases standby <;> rfl

/-- Another staging of the same entry is seen where the slots, the FIFO and LOST are the same. -/
theorem StagedAs.congr {x : LogEntry} {f : Dev} (h : StagedAs d e x) (hs : f.acc.staged = e.acc.staged) (hf : f.acc.fifo = e.acc.fifo)
    (ho : f.acc.ovfNext = e.acc.ovfNext) (hl : f.get R.ACC_LOGSTAT_LOST = e.get R.ACC_LOGSTAT_LOST) : StagedAs d f x := by
  obtain ⟨hfree, hslot, hlogged⟩ := h
  constructor <;> simpa only [hs, hf, ho, hl]

/-- An entry staged after a change that left the slots, the FIFO and LOST. -/
theorem StagedAs.of_same {x : LogEntry} {c : Dev} (h : StagedAs c e x) (hs : c.acc.staged = d.acc.staged) (hf : c.acc.fifo = d.acc.fifo)
    (ho : c.acc.ovfNext = d.acc.ovfNext) (hl : c.get R.ACC_LOGSTAT_LOST = d.get R.ACC_LOGSTAT_LOST) : StagedAs d e x := by
  obtain ⟨hfree, hslot, hlogged⟩ := h
  constructor <;> simpa only [← hs, ← hf, ← ho, ← hl]

/-- What is seen of the judgement of a report of the active lane, before its decision acts. -/
structure Judgement (d e : Dev) (r : Report) (promo : Bool) (cls react : Nat) : Prop where
  count : e.get (R.ACC_SRC_CNT_EVENTS r.src) = min (d.get (R.ACC_SRC_CNT_EVENTS r.src) + 1) 0xFFFF
  staged : StagedAs d e (judgedEntry r false cls react promo)
  bit : e.bit R.ACC_PROMO_SRC r.src = promo
  promoted : e.get (R.ACC_SRC_CNT_PROMOTED r.src) = if promo = true ∧ d.bit R.ACC_PROMO_SRC r.src = false then
    min (d.get (R.ACC_SRC_CNT_PROMOTED r.src) + 1) 0xFF else d.get (R.ACC_SRC_CNT_PROMOTED r.src)
  closed : d.bit R.ACC_PROMO_SRC r.src = false → promo = true → e.accWin r.src = none
  inside : promo = false → ∀ w, d.accWin r.src = some w → r.time < d.winClose r.src w →
    e.accWin r.src = some ⟨w.opened, w.count + 1⟩
  opens : promo = false → (∀ w, d.accWin r.src = some w → d.winClose r.src w ≤ r.time) → e.accWin r.src = some ⟨r.time, 1⟩
  active : ∀ j, j < 192 → e.bit R.ACC_ACTIVE_SRC j = (d.bit R.ACC_ACTIVE_SRC j || (j == r.src && (react != 0 || cls == 3)))
  sev : ∀ j, j < 192 → e.bit R.ACC_SEV_SRC j = (d.bit R.ACC_SEV_SRC j || (j == r.src && cls == 3))
  notify : react ≠ 0 → e.get R.ACC_STATUS_NOTIFY = 1 ∧ flagOf 3 0 ∈ e.hoop
  timer : e.timer r.src = if react = 2 ∧ d.timer r.src = none then some (d.reportTimer r promo) else d.timer r.src
  safe : react = 3 → r.src ∈ e.acc.safeSrcs

/-- A decision of SAFE shows the same of the judgement. -/
theorem Judgement.decided {f : Dev} {promo : Bool} {cls react : Nat} (hk : r.src < 192) (h : Judgement d e r promo cls react)
    (hf : Decided e f r.src) : Judgement d f r promo cls react := by
  have hget (i : Nat) (lo w : Nat) (hi : 0x40030000 < i ∧ i < 0x40030060 ∨ 0x40030080 ≤ i ∧ i < 0x40031000) :
      f.get ⟨i, lo, w⟩ = e.get ⟨i, lo, w⟩ :=
    hf.get _ (by simp only [guarded, Bool.or_eq_true, Bool.and_eq_true, beq_iff_eq, decide_eq_true_eq]; omega) (by simp only; omega)
      (by simp only; omega)
  have hbank {g : Nat → Fld} {base : Nat} (hg : IsBank g base) (hb : 0x40030020 ≤ base ∧ base ≤ 0x40030040 ∨ base = 0x40030080)
      (j : Nat) (hj : j < 192) : f.bit g j = e.bit g j := by
    refine Dev.bit_congr (hf.get _ ?_ ?_ ?_) <;>
      simp only [hg.addr, guarded, Bool.or_eq_true, Bool.and_eq_true, beq_iff_eq, decide_eq_true_eq] <;> omega
  have hwins (j : Nat) : f.accWin j = e.accWin j := Dev.accWin_congr (by rw [hf.acc]) j
  have hevents := hget (0x40030A00 + 0x4 * r.src) 0 16 (by omega)
  have hpromoted := hget (0x40030A00 + 0x4 * r.src) 24 8 (by omega)
  exact ⟨hevents.trans h.count, h.staged.congr (by rw [hf.acc]) (by rw [hf.acc]) (by rw [hf.acc]) (hget _ _ _ (by omega)),
    (hbank isBank_promo (by omega) _ hk).trans h.bit, hpromoted.trans h.promoted,
    fun h1 h2 => (hwins _).trans (h.closed h1 h2), fun h1 w h2 h3 => (hwins _).trans (h.inside h1 w h2 h3),
    fun h1 h2 => (hwins _).trans (h.opens h1 h2), fun j hj => (hbank isBank_active (by omega) j hj).trans (h.active j hj),
    fun j hj => (hbank isBank_sev (by omega) j hj).trans (h.sev j hj),
    fun hr => ⟨hf.notify.trans (h.notify hr).1, hf.hoop _ (h.notify hr).2⟩,
    (Dev.timer_congr (by rw [hf.acc]) _).trans h.timer, fun hr => by rw [hf.acc]; exact h.safe hr⟩

/-- The registers of a judgement, but for the count of its reports. -/
def judgeFields (k : Nat) : List Fld :=
  [R.ACC_LOGSTAT_LOST, R.ACC_LOGSTAT_LEVEL, R.ACC_SRC_CNT_PROMOTED k, R.ACC_PROMO_SRC (k / 32),
    R.ACC_ACTIVE_SRC (k / 32), R.ACC_SEV_SRC (k / 32), R.ACC_GRACE_SRC (k / 32), R.ACC_STATUS_NOTIFY]

/-- A judgement changes ACC's registers and state, and adds a request. -/
structure JudgeFrame (d e : Dev) (k : Nat) : Prop where
  regs : RegsBut (R.ACC_SRC_CNT_EVENTS k :: judgeFields k) d e
  frame : e = { d with regs := e.regs, hoop := e.hoop, acc := e.acc }

theorem counts_report (d : Dev) (k : Nat) :
    (d.incSat (R.ACC_SRC_CNT_EVENTS k)).get (R.ACC_SRC_CNT_EVENTS k) = min (d.get (R.ACC_SRC_CNT_EVENTS k) + 1) 0xFFFF ∧
    RegsBut [R.ACC_SRC_CNT_EVENTS k] d (d.incSat (R.ACC_SRC_CNT_EVENTS k)) ∧
    RegsOnly d (d.incSat (R.ACC_SRC_CNT_EVENTS k)) :=
  ⟨get_countField d false k, RegsBut.set _ _ _ (by simp) (countField_w false k), Dev.set_frame _ _ _⟩

/-! ### Registers that a step of the judgement does not touch -/

theorem stage_seen (h : RegsBut stageFields d e) {f : Fld} (hf : f.addr ≠ 0x400300C0) : e.get f = d.get f := by
  refine h.get f fun g hg => .inl ?_
  simp only [stageFields, List.mem_cons, List.not_mem_nil, or_false] at hg
  rcases hg with rfl | rfl <;> exact hf.symm

theorem react_seen (hk : k < 192) (h : RegsBut (reactFields k) d e) {f : Fld}
    (hf : 0x40030060 ≤ f.addr ∧ f.addr < 0x400300A0 ∨ 0x400300C0 ≤ f.addr) : e.get f = d.get f := by
  refine h.get f fun g hg => .inl ?_
  simp only [reactFields, List.mem_cons, List.not_mem_nil, or_false] at hg
  rcases hg with rfl | rfl | rfl | rfl <;>
    simp only [R.ACC_ACTIVE_SRC, R.ACC_SEV_SRC, R.ACC_GRACE_SRC, R.ACC_STATUS_NOTIFY] <;> omega

theorem promote_seen (hk : k < 192) (h : RegsBut (promoteFields k) d e) {f : Fld}
    (hf : f.addr < 0x40030080 ∨ 0x400300A0 ≤ f.addr ∧ (f.addr < 0x40030A00 ∨ f.lo + f.w ≤ 24)) : e.get f = d.get f := by
  refine h.get f fun g hg => ?_
  simp only [promoteFields, List.mem_cons, List.not_mem_nil, or_false] at hg
  rcases hg with rfl | rfl <;> simp only [R.ACC_PROMO_SRC, R.ACC_SRC_CNT_PROMOTED] <;> omega

theorem count_seen (h : RegsBut [R.ACC_SRC_CNT_EVENTS k] d e) {f : Fld} (hf : f.addr < 0x40030A00 ∨ 16 ≤ f.lo) :
    e.get f = d.get f := by
  refine h.get f ?_
  simp only [List.mem_singleton, forall_eq, R.ACC_SRC_CNT_EVENTS]
  omega

theorem judge_judgement (hk : r.src < 192) (hen : d.act (R.ACC_SRC_CFG_EN r.src) ≠ 0) (hs : d.standbyReport r = false)
    (hn : 1 ≤ d.act (R.ACC_SRC_CFG_N r.src)) (hw : ∀ w, d.accWin r.src = some w → 1 ≤ w.count) {promo : Bool}
    (hp : promo = true ↔ d.bit R.ACC_PROMO_SRC r.src = true ∨ d.PromotionDue r.src r.time) :
    ∃ e, d.judge r = (e, d.reactionOf r.src promo == 3) ∧
      Judgement d e r promo (d.classOf r.src promo) (d.reactionOf r.src promo) ∧ JudgeFrame d e r.src ∧
      (d.reactionOf r.src promo ≠ 3 → e.acc.safeSrcs = d.acc.safeSrcs) := by
  obtain ⟨hcount, hregs, hframe⟩ := counts_report d r.src
  generalize ha : d.incSat (R.ACC_SRC_CNT_EVENTS r.src) = a at *
  have hacc : a.acc = d.acc := by rw [hframe.frame]
  have hcfg : a.cfg = d.cfg := by rw [hframe.frame]
  have hbit : a.bit R.ACC_PROMO_SRC r.src = d.bit R.ACC_PROMO_SRC r.src := by
    refine Dev.bit_congr (count_seen hregs ?_)
    simp only [R.ACC_PROMO_SRC]
    omega
  have hwin : a.accWin r.src = d.accWin r.src := Dev.accWin_congr (by rw [hacc]) _
  have hclose (w : Win) : a.winClose r.src w = d.winClose r.src w := by rw [Dev.winClose, Dev.act_congr hcfg, Dev.winClose]
  have hdue : a.PromotionDue r.src r.time ↔ d.PromotionDue r.src r.time := by
    simp only [Dev.PromotionDue, hwin, hclose, Dev.act_congr hcfg]
  obtain ⟨hpbit, hpcount, hclosed, hinside, hopens, hpregs, hpframe⟩ := Dev.promote_counts (d := a) (time := r.time) (promo := promo) hk
    (by rwa [Dev.act_congr hcfg]) (by rwa [hwin]) (by rwa [hbit, hdue])
  generalize hc : a.promote r.src r.time = c at *
  have hccfg : c.cfg = d.cfg := by rw [hpframe, hcfg]
  rw [judge_active hen hs (by rw [ha, hc]) hccfg hpbit]
  have hreact := c.reacts_reacted hk (d.classOf r.src promo) (d.reactionOf r.src promo) (d.reportTimer r promo)
  generalize c.reacts r.src (d.classOf r.src promo) (d.reactionOf r.src promo) (d.reportTimer r promo) = b at *
  obtain ⟨⟨hmregs, hmframe, hactive, hsev⟩, hnotify, htimer, hsafe, hkept⟩ := hreact
  generalize d.classOf r.src promo = cls at *
  generalize d.reactionOf r.src promo = react at *
  have hstaged := b.stage_stagedAs (judgedEntry r false cls react promo)
  have hframes := b.stage_frame (judgedEntry r false cls react promo)
  generalize b.stage (judgedEntry r false cls react promo) = e at *
  obtain ⟨hsregs, hsframe⟩ := hframes
  have hbacc : b.acc.staged = d.acc.staged ∧ b.acc.fifo = d.acc.fifo ∧ b.acc.ovfNext = d.acc.ovfNext := by
    rw [hmframe, hpframe, hacc]
    exact ⟨rfl, rfl, rfl⟩
  have hlost : b.get R.ACC_LOGSTAT_LOST = d.get R.ACC_LOGSTAT_LOST :=
    (react_seen hk hmregs (by decide)).trans ((promote_seen hk hpregs (by decide)).trans (count_seen hregs (by decide)))
  have hmarks {g : Nat → Fld} {base : Nat} (hg : IsBank g base) (hb : base = 0x40030020 ∨ base = 0x40030040) (j : Nat)
      (hj : j < 192) : e.bit g j = b.bit g j ∧ c.bit g j = d.bit g j := by
    have haddr := hg.addr (j / 32)
    exact ⟨Dev.bit_congr (stage_seen hsregs (by omega)),
      (Dev.bit_congr (promote_seen hk hpregs (by omega))).trans (Dev.bit_congr (count_seen hregs (by omega)))⟩
  have hwins (j : Nat) : e.accWin j = c.accWin j := Dev.accWin_congr (by rw [hsframe, hmframe]) j
  have htimers (x y : Dev) (h : x.acc.timers = y.acc.timers) := Dev.timer_congr h r.src
  have hprm : a.get (R.ACC_SRC_CNT_PROMOTED r.src) = d.get (R.ACC_SRC_CNT_PROMOTED r.src) := count_seen hregs (.inr (by simp [R.ACC_SRC_CNT_PROMOTED]))
  refine ⟨e, rfl, ⟨?_, hstaged.of_same hbacc.1 hbacc.2.1 hbacc.2.2 hlost, ?_, ?_, fun h1 h2 => ?_, fun h1 w h2 h3 => ?_,
    fun h1 h2 => ?_, fun j hj => ?_, fun j hj => ?_, fun hr => ?_, ?_, fun hr => ?_⟩, ⟨?_, ?_⟩, fun hr => ?_⟩
  · rw [← hcount]
    exact (stage_seen hsregs (by simp only [R.ACC_SRC_CNT_EVENTS]; omega)).trans
      ((react_seen hk hmregs (by simp only [R.ACC_SRC_CNT_EVENTS]; omega)).trans
        (promote_seen hk hpregs (by simp only [R.ACC_SRC_CNT_EVENTS]; omega)))
  · rw [← hpbit]
    exact (Dev.bit_congr (stage_seen hsregs (by simp only [R.ACC_PROMO_SRC]; omega))).trans
      (Dev.bit_congr (react_seen hk hmregs (by simp only [R.ACC_PROMO_SRC]; omega)))
  · rw [← hbit, ← hprm, ← hpcount]
    exact (stage_seen hsregs (by simp only [R.ACC_SRC_CNT_PROMOTED]; omega)).trans
      (react_seen hk hmregs (by simp only [R.ACC_SRC_CNT_PROMOTED]; omega))
  · rw [hwins, hclosed (hbit.trans h1) h2]
  · rw [hwins, hinside h1 w (hwin.trans h2) (by rwa [hclose])]
  · rw [hwins, hopens h1 fun w hw' => by rw [hclose]; exact h2 w (hwin.symm.trans hw')]
  · obtain ⟨he, hcd⟩ := hmarks isBank_active (.inl rfl) j hj
    rw [he, hactive j hj, hcd]
  · obtain ⟨he, hcd⟩ := hmarks isBank_sev (.inr rfl) j hj
    rw [he, hsev j hj, hcd]
  · rw [stage_seen hsregs (by decide), show e.hoop = b.hoop by rw [hsframe]]
    exact hnotify hr
  · rw [htimers e b (by rw [hsframe]), htimer, htimers c d (by rw [hpframe, hacc])]
  · rw [hsframe]
    exact hsafe hr
  · refine (hregs.mono (by simp)).trans ((hpregs.mono ?_).trans ((hmregs.mono ?_).trans (hsregs.mono ?_))) <;>
      simp [promoteFields, reactFields, stageFields, judgeFields]
  · rw [hsframe, hmframe, hpframe, hframe.frame]
  · rw [show e.acc.safeSrcs = b.acc.safeSrcs by rw [hsframe], hkept hr, hpframe, hacc]

end Sys2Proof.Machine
end

section
/-! ## Reports reach ACC (R16, R109, R351 to R367) -/

namespace Sys2Proof.Machine

variable {s : State} {d e : Dev} {r : Report}

/-- The device with which a report is judged: its word has left the channels, and LANE may be signalled (R109). -/
def Dev.receives (d : Dev) (q : List HEntry) (l : List Nat) : Dev := { d with hoop := q, lc := { d.lc with signals := l } }

theorem merges_judgedEntry {y : LogEntry} {standby : Bool} {cls react : Nat} {promo : Bool} :
    y.merges (judgedEntry r standby cls react promo) = true ↔ y.cls = cls ∧ y.closed = false ∧ y.rep < 0xFFFF ∧
      (BitVec.ofNat 32 r.time - y.stamp).toNat < 1000 ∧ y.esc = false := by
  simp [LogEntry.merges, judgedEntry, stampDist, and_assoc]

theorem sameAs_judgedEntry {y : LogEntry} {standby : Bool} {cls react : Nat} {promo : Bool} :
    y.sameAs (judgedEntry r standby cls react promo) = true ↔ y.src = r.src ∧ y.lane = r.lane := by
  simp [LogEntry.sameAs, judgedEntry]

theorem not_sameAs_judgedEntry {y : LogEntry} {standby : Bool} {cls react : Nat} {promo : Bool} (h : ¬(y.src = r.src ∧ y.lane = r.lane)) :
    y.sameAs (judgedEntry r standby cls react promo) = false := by
  rwa [Bool.eq_false_iff, ne_eq, sameAs_judgedEntry]

/-- Nothing changes where no report waits. -/
theorem exec_faultReport_nothing {c : Fin 14} (h : s.d.take (0x30 + c.val) 3 = none) : exec (.faultReport [c]) s = .next s := by
  change execFaultReport [c] s = _
  simp [execFaultReport, takeReports_nothing h, Dev.judgeAll, State.onDev]

/-- A judgement on the received device is one on the device itself. -/
theorem Judgement.of_receives {q : List HEntry} {l : List Nat} {promo : Bool} {cls react : Nat}
    (h : Judgement (d.receives q l) e r promo cls react) : Judgement d e r promo cls react := by
  have hget (f : Fld) : (d.receives q l).get f = d.get f := Dev.get_congr rfl f
  have hbit (f : Nat → Fld) (j : Nat) : (d.receives q l).bit f j = d.bit f j := Dev.bit_congr (hget _)
  have hclose (w : Win) : (d.receives q l).winClose r.src w = d.winClose r.src w := rfl
  obtain ⟨hcount, hstaged, hp, hpc, hclosed, hinside, hopens, hactive, hsev, hnotify, htimer, hsafe⟩ := h
  simp only [hget, hbit, hclose] at hcount hpc hclosed hinside hopens hactive hsev
  exact ⟨hcount, hstaged.of_same rfl rfl rfl (hget _), hp, hpc, hclosed, hinside, hopens, hactive, hsev, hnotify, htimer, hsafe⟩

/-- A judgement leaves MODE, and the record of the first decision. -/
theorem judge_seen {k : Nat} (h : RegsBut (R.ACC_SRC_CNT_EVENTS k :: judgeFields k) d e) {f : Fld}
    (hf : f.addr < 0x40030000 ∨ f.addr = 0x40030000 ∧ 1 ≤ f.lo) : e.get f = d.get f := by
  refine h.get f fun g hg => ?_
  simp only [judgeFields, List.mem_cons, List.not_mem_nil, or_false] at hg
  rcases hg with rfl | rfl | rfl | rfl | rfl | rfl | rfl | rfl | rfl <;>
    simp only [R.ACC_SRC_CNT_EVENTS, R.ACC_LOGSTAT_LOST, R.ACC_LOGSTAT_LEVEL, R.ACC_SRC_CNT_PROMOTED, R.ACC_PROMO_SRC,
      R.ACC_ACTIVE_SRC, R.ACC_SEV_SRC, R.ACC_GRACE_SRC, R.ACC_STATUS_NOTIFY] <;> omega

theorem judge_mode {k : Nat} (h : RegsBut (R.ACC_SRC_CNT_EVENTS k :: judgeFields k) d e) : e.mode = d.mode :=
  judge_seen h (f := R.SYSCTL_MODE_CUR) (by decide)

theorem judge_first {k : Nat} (h : RegsBut (R.ACC_SRC_CNT_EVENTS k :: judgeFields k) d e) :
    e.get R.ACC_STATUS_FIRST_VALID = d.get R.ACC_STATUS_FIRST_VALID := judge_seen h (by decide)

theorem countField_addr (standby : Bool) (k : Nat) : (countField standby k).addr = 0x40030A00 + 4 * k := by
  cases standby <;> rfl

/-- A received report is counted. -/
theorem counts_receives (d : Dev) (q : List HEntry) (l : List Nat) (standby : Bool) (k : Nat) :
    ((d.receives q l).incSat (countField standby k)).get (countField standby k) =
      min (d.get (countField standby k) + 1) (if standby then 0xFF else 0xFFFF) ∧
    RegsBut [countField standby k] d ((d.receives q l).incSat (countField standby k)) ∧
    RegsOnly (d.receives q l) ((d.receives q l).incSat (countField standby k)) :=
  ⟨get_countField (d.receives q l) standby k,
    (RegsBut.of_regs (e := d.receives q l) rfl).trans (RegsBut.set _ _ _ (by simp) (countField_w standby k)), Dev.set_frame _ _ _⟩

/-- Settles O51: the steps of a judgement (count, promotion, reaction, staging, decision) one after another. -/
theorem reportsAreJudged : Obligations.ReportsAreJudged := by
  refine ⟨fun c s h => exec_faultReport_nothing h, fun c s r d' htake hk => ?_⟩
  obtain ⟨q, rfl⟩ : ∃ q, d' = { s.d with hoop := q } := ⟨_, Dev.take_frame htake⟩
  obtain ⟨l, hreports, hl⟩ := takeReports_one htake
  change s.d.takeReports [c] = ([r], s.d.receives q l) at hreports
  intro k standby cnt counted entry same fits staged close
  have hstandby : (s.d.receives q l).standbyReport r = standby := rfl
  have hcnt : countField standby k = cnt := rfl
  have hget (f : Fld) : (s.d.receives q l).get f = s.d.get f := Dev.get_congr rfl f
  have hstaged (t : State) (cls react : Nat) (promo : Bool) (h : StagedAs s.d t.d (judgedEntry r standby cls react promo)) :
      staged t (entry cls react promo) := by
    obtain ⟨hfree, hslot, hlogged⟩ := h
    refine ⟨fun h1 h2 => hfree h1 fun y hy => not_sameAs_judgedEntry (h2 y hy), fun l y l' h1 h2 h3 => ?_, fun l y l' h1 h2 h3 h4 => ?_⟩
    · obtain ⟨hin, hout⟩ := hslot l y l' h1 (sameAs_judgedEntry.mpr h2) fun z hz => not_sameAs_judgedEntry (h3 z hz)
      exact ⟨fun hf => hin (merges_judgedEntry.mpr hf), fun hf => hout (Bool.eq_false_iff.mpr fun hm => hf (merges_judgedEntry.mp hm))⟩
    · obtain ⟨hin, hout⟩ := hlogged l y l' h1 h2 (sameAs_judgedEntry.mpr h3) fun z hz => not_sameAs_judgedEntry (h4 z hz)
      exact ⟨fun hf => hin (merges_judgedEntry.mpr hf), fun hf => hout (Bool.eq_false_iff.mpr fun hm => hf (merges_judgedEntry.mp hm))⟩
  refine ⟨fun hen => ?_, fun hen hst => ?_, ?_⟩
  · obtain ⟨hcount, hregs, hframe⟩ := counts_receives s.d q l standby k
    rw [hcnt] at hcount hregs hframe
    refine ⟨_, exec_faultReport_one hreports (judge_disabled hen), ⟨hcount, rfl⟩, hregs, ?_, fun h => ?_⟩
    · exact congrArg (fun x => ({ s with d := x } : State)) hframe.frame
    · exact (Dev.incSat_lc _ _ _).trans (congrArg (fun l => ({ s.d.lc with signals := l } : LaneCmp)) (hl h))
  · obtain ⟨hcount, hregs, hframe⟩ := counts_receives s.d q l standby k
    have hjudge := exec_faultReport_one hreports (judge_standby hen (hstandby.trans hst))
    rw [hcnt] at hcount hregs hframe
    rw [show R.ACC_SRC_CNT_STANDBY r.src = cnt by rw [← hcnt, hst]; rfl] at hjudge
    generalize (s.d.receives q l).incSat cnt = a at *
    have hacc : a.acc = s.d.acc := by rw [hframe.frame]; rfl
    have hlost : a.get R.ACC_LOGSTAT_LOST = s.d.get R.ACC_LOGSTAT_LOST := hregs.get _ (by
      simp only [List.mem_singleton, forall_eq, ← hcnt, countField_addr]; simp only [R.ACC_LOGSTAT_LOST]; omega)
    have hst' := a.stage_stagedAs (judgedEntry r true (s.d.srcClass k) 0 false)
    obtain ⟨hsregs, hsframe⟩ := a.stage_frame (judgedEntry r true (s.d.srcClass k) 0 false)
    refine ⟨_, hjudge, ⟨?_, rfl⟩, ?_, ?_, ?_, ?_⟩
    · exact (stage_seen hsregs (by simp only [← hcnt, countField_addr]; omega)).trans hcount
    · have := hstaged { s with d := a.stage (judgedEntry r true (s.d.srcClass k) 0 false) } (s.d.srcClass k) 0 false
      rw [hst] at this
      exact this (hst'.of_same (by rw [hacc]) (by rw [hacc]) (by rw [hacc]) hlost)
    · exact (hregs.mono (by simp)).trans (hsregs.mono (by simp [stageFields]))
    · exact (congrArg (fun x => x.acc.wins) hsframe).trans (by rw [hacc])
    · exact (congrArg (fun x => x.acc.timers) hsframe).trans (by rw [hacc])
  · intro hen hst hn hw was due promo hp cls react
    have hcntE : cnt = R.ACC_SRC_CNT_EVENTS k := by rw [← hcnt, hst]; rfl
    have hstaged' (t : State) := hstaged t cls react promo
    rw [hst] at hstaged'
    obtain ⟨e, hjudge, hseen, hframe, hsafe⟩ := judge_judgement (d := s.d.receives q l) hk hen (hstandby.trans hst) hn hw hp
    have hexec : exec (.faultReport [c]) s = .next { s with d := (if (react == 3) = true then e.safeDecide k else e) } :=
      exec_faultReport_one hreports hjudge
    have hres : Judgement s.d (if (react == 3) = true then e.safeDecide k else e) r promo cls react ∧
        (react ≠ 3 → (if (react == 3) = true then e.safeDecide k else e) = e) ∧
        (react = 3 → Decided e (if (react == 3) = true then e.safeDecide k else e) k) := by
      by_cases hr : react = 3
      · rw [if_pos (beq_iff_eq.mpr hr)]
        have hdec := safeDecide_decided e hk
        exact ⟨hseen.of_receives.decided hk hdec, fun h => absurd hr h, fun _ => hdec⟩
      · rw [if_neg fun h => hr (beq_iff_eq.mp h)]
        exact ⟨hseen.of_receives, fun _ => rfl, fun h => absurd h hr⟩
    generalize (if (react == 3) = true then e.safeDecide k else e) = f at hexec hres
    obtain ⟨hj, hplain, hdecided⟩ := hres
    have hregs : RegsBut (R.ACC_SRC_CNT_EVENTS k :: judgeFields k) s.d e := (RegsBut.of_regs (e := s.d.receives q l) rfl).trans hframe.regs
    refine ⟨_, hexec, ⟨?_, rfl⟩, hstaged' _ hj.staged, hj.bit, hj.promoted, hj.closed,
      fun h => ⟨hj.inside h, hj.opens h⟩, fun j hj' => ⟨hj.active j hj', hj.sev j hj'⟩, hj.notify, hj.timer, fun hr => ?_, fun hr => ?_⟩
    · rw [hcntE, hst]
      exact hj.count
    · rw [hcntE]
      obtain rfl := hplain hr
      exact ⟨judge_mode hregs, by rw [hframe.frame]; rfl, by rw [hframe.frame]; rfl, hsafe hr, hregs⟩
    · obtain ⟨hdacc, hdget, hdnotify, hdhoop, hword, hdriven, hfirst, henters, hstays, hheld⟩ := hdecided hr
      have htime : e.time = s.d.time := by rw [hframe.frame]; rfl
      rw [judge_mode hregs] at hfirst henters hstays hheld
      rw [judge_first hregs] at hfirst
      rw [htime] at hword
      exact ⟨hj.safe hr, hdriven, hfirst, henters, hword, hstays, hheld⟩

end Sys2Proof.Machine
end

section
/-! ## A measurement's request to a converter with an accepted calibration (R187, R191, R506) -/

namespace Sys2Proof.Machine

variable {s : State} {d : Dev} {c k ain : Nat}

/-- A full calibration that is accepted and waits to begin drops an injected request (log entry 162). -/
theorem injTake_calWait (h : (d.adc c).calWait = true) : d.injTake c k ain = d.incSat (R.ADC_CNT_INJ_DROP c) := by
  rw [Dev.injTake]
  exact if_pos (by simp [Dev.calTaken, h])

/-- The Ledger's request of the voltage conversion of a pair (R506). -/
def Dev.voltageRequest (d : Dev) (m : LedMeas) : Dev :=
  ({ d with led := { d.led with meas := some ⟨m.requests + 1⟩ } } : Dev).injTake (d.get R.LEDGER_MCFG_CONV) 2 (d.get R.LEDGER_MCFG_VAIN)

theorem exec_ledgerMeasTrigger_voltage {m : LedMeas} (h : s.d.led.meas = some m) :
    exec (.ledgerMeasTrigger false) s = .next { s with d := s.d.voltageRequest m } := by
  change execLedgerMeasTrigger false s = _
  simp only [execLedgerMeasTrigger, State.onDev, h]
  rfl

/-- The Ledger measures over converter 0 (the reset value of MCFG.CONV), which has accepted a full calibration that waits to
begin; nothing else is under way there. -/
def calibrationWaits : State :=
  { d := { led := { meas := some ⟨0⟩ }, adcs := [(0, { calWait := true })] } }

/-- Refutes O60: its clause of the Ledger's requests (R506) lets the converter take the request where no calibration is in
progress; but a calibration that is accepted and waits to begin drops the request too (R187, R191, log entry 162). -/
theorem not_clocksPowerLedgerAndRepairRuns : ¬ Obligations.ClocksPowerLedgerAndRepairRuns := by
  rintro ⟨-, -, -, -, -, hmeas, -⟩
  obtain ⟨-, -, -, -, hrun⟩ := hmeas false 0 0 0 0 0 calibrationWaits
  obtain ⟨⟨t, hexec, -, -, htaken⟩, -⟩ := hrun ⟨0⟩ rfl
  have hinj : (t.d.adc 0).inj = some (2, 0) := htaken (by decide) (by decide) (by decide) (by decide)
  rw [exec_ledgerMeasTrigger_voltage (m := ⟨0⟩) rfl, Dev.voltageRequest, injTake_calWait (by decide)] at hexec
  cases hexec
  revert hinj
  decide

end Sys2Proof.Machine
end

section
/-! ## What a transition leaves alone

Every block reacts to a change of mode, to a check and to a load in registers of its own. `Within zs d e` says that `e` is
`d` but for registers in the zones `zs` and for state that the statements about start-up do not speak of; one lemma for
each operation names its zones. -/

namespace Sys2Proof.Machine

variable {d e f : Dev}

/-! ### Zones of the register map (R23) -/

/-- The parts of the register map that the blocks keep to. -/
inductive Zone where
  | boot | load | coef | spares | wv | lane | adc | sdf | pwm | first | cond | iso | time | dpl
deriving DecidableEq

/-- First address of a zone, and the address behind its last. -/
def Zone.span : Zone → Nat × Nat
  | boot => (0x40000028, 0x4000002C)
  | load => (0x40004000, 0x40004004)
  | coef => (0x40004044, 0x40004048)
  | spares => (0x40003204, 0x40003208)
  | wv => (0x40008000, 0x4000A000)
  | lane => (0x4000A000, 0x4000B000)
  | adc => (0x40010000, 0x40014000)
  | sdf => (0x40014000, 0x40015000)
  | pwm => (0x40020000, 0x40025000)
  | first => (0x40030000, 0x40030004)
  | cond => (0x40030060, 0x40030078)
  | iso => (0x40031000, 0x40031064)
  | time => (0x4005002C, 0x40050030)
  | dpl => (0x40060800, 0x40061000)

/-- The address lies in one of the zones. -/
def inZones (zs : List Zone) (a : Nat) : Bool := zs.any fun z => decide (z.span.1 ≤ a) && decide (a < z.span.2)

theorem inZones_iff {zs : List Zone} {a : Nat} : inZones zs a = true ↔ ∃ z ∈ zs, z.span.1 ≤ a ∧ a < z.span.2 := by
  simp [inZones]

/-- An address outside more zones lies outside fewer. -/
theorem inZones_subset {zs ws : List Zone} (h : zs ⊆ ws) {a : Nat} (ha : inZones ws a = false) : inZones zs a = false := by
  rw [Bool.eq_false_iff] at ha ⊢
  intro hz
  obtain ⟨z, hz, hspan⟩ := inZones_iff.mp hz
  exact ha (inZones_iff.mpr ⟨z, h hz, hspan⟩)

/-! ### Changes inside zones -/

/-- Registers change in these zones alone; SYSCTL's own state, the Pattern, TIME, the repair map and ACC's own state stay. -/
structure Within (zs : List Zone) (d e : Dev) : Prop where
  regs : ∀ a, inZones zs a = false → e.rdw a = d.rdw a
  sys : e.sys = d.sys
  pat : e.pat = d.pat
  time : e.time = d.time
  repair : e.repair = d.repair
  acc : e.acc = d.acc

namespace Within

variable {zs ws : List Zone}

theorem refl (d : Dev) : Within zs d d := ⟨fun _ _ => rfl, rfl, rfl, rfl, rfl, rfl⟩

theorem trans (h : Within zs d e) (g : Within zs e f) : Within zs d f :=
  ⟨fun a ha => (g.regs a ha).trans (h.regs a ha), g.sys.trans h.sys, g.pat.trans h.pat, g.time.trans h.time,
    g.repair.trans h.repair, g.acc.trans h.acc⟩

theorem mono (h : Within zs d e) (hs : zs ⊆ ws) : Within ws d e :=
  ⟨fun a ha => h.regs a (inZones_subset hs ha), h.sys, h.pat, h.time, h.repair, h.acc⟩

theorem ite {c : Prop} [Decidable c] (h : Within zs d e) (g : Within zs d f) : Within zs d (if c then e else f) := by
  split
  · exact h
  · exact g

theorem foldl {α : Type} {g : Dev → α → Dev} : ∀ (l : List α) (d : Dev), (∀ d, ∀ x ∈ l, Within zs d (g d x)) →
    Within zs d (l.foldl g d)
  | [], d, _ => .refl d
  | x :: l, d, h => (h d x (by simp)).trans (foldl l _ fun d y hy => h d y (by simp [hy]))

/-- A field outside the zones reads as before. -/
theorem get (h : Within zs d e) {g : Fld} (hg : inZones zs g.addr = false) : e.get g = d.get g := by
  rw [Dev.get, h.regs _ hg, Dev.get]

theorem mode (h : Within zs d e) (hm : inZones zs 0x40000010 = false) : e.mode = d.mode := h.get hm

/-- A change of other state of the device. -/
theorem other (hr : e.regs = d.regs) (hs : e.sys = d.sys) (hp : e.pat = d.pat) (ht : e.time = d.time)
    (hm : e.repair = d.repair) (ha : e.acc = d.acc) : Within zs d e :=
  ⟨fun a _ => Dev.rdw_congr hr a, hs, hp, ht, hm, ha⟩

/-- A change of registers alone. -/
theorem ofRegs (he : e = { d with regs := e.regs }) (hr : ∀ a, inZones zs a = false → e.rdw a = d.rdw a) : Within zs d e :=
  ⟨hr, by rw [he], by rw [he], by rw [he], by rw [he], by rw [he]⟩

theorem set (d : Dev) {g : Fld} (v : Nat) (hg : inZones zs g.addr = true) : Within zs d (d.set g v) :=
  .ofRegs rfl fun a ha => Dev.rdw_set_of_ne d v fun h => by
    rw [h, hg] at ha
    cases ha

theorem setB (d : Dev) {g : Fld} (b : Bool) (hg : inZones zs g.addr = true) : Within zs d (d.setB g b) := .set d _ hg

theorem setBit (d : Dev) {g : Nat → Fld} (i : Nat) (b : Bool) (hg : inZones zs (g (i / 32)).addr = true) :
    Within zs d (d.setBit g i b) := .ite (.refl d) (.set d _ hg)

theorem send (d : Dev) (ch recv : Nat) (w : HWord) : Within zs d (d.send ch recv w) := .other rfl rfl rfl rfl rfl rfl

theorem raise (d : Dev) (isl src ctx lane : Nat) : Within zs d (d.raise isl src ctx lane) := .send d _ _ _

theorem request (d : Dev) (isl n : Nat) : Within zs d (d.request isl n) := .send d _ _ _

theorem setLeg (d : Dev) (n : Nat) (l : Leg) : Within zs d (d.setLeg n l) := .other rfl rfl rfl rfl rfl rfl

theorem setLane (d : Dev) (n : Nat) (l : Lane) : Within zs d (d.setLane n l) := .other rfl rfl rfl rfl rfl rfl

end Within

/-- A register whose place in a zone is a matter of arithmetic. -/
theorem inZones_cons {z : Zone} {zs : List Zone} {a : Nat} (h : z.span.1 ≤ a) (h' : a < z.span.2) : inZones (z :: zs) a = true :=
  inZones_iff.mpr ⟨z, by simp, h, h'⟩

namespace Within

/-! ### Conditions and relays (R347, R391 to R399) -/

theorem setCond (d : Dev) {src : Nat} (b : Bool) (h : src < 192) : Within [.cond] d (d.setCond src b) :=
  .setBit d src b (inZones_cons (by simp [Zone.span, R.ACC_COND_SRC]) (by simp only [Zone.span, R.ACC_COND_SRC]; omega))

theorem beginCond (d : Dev) (isl : Nat) {src : Nat} (ctx : Nat) (h : src < 192) : Within [.cond] d (d.beginCond isl src ctx) :=
  .ite (.refl d) ((setCond d true h).trans (.raise _ _ _ _ _))

theorem drive (d : Dev) (chain : Nat) (on : Bool) : Within [.iso] d (d.drive chain on) := by
  have hcmd : inZones [.iso] (Dev.isoCmd chain).addr = true := by
    unfold Dev.isoCmd
    split <;> decide
  exact .ite (.refl d) ((Within.set d _ hcmd).trans (.other rfl rfl rfl rfl rfl rfl))

theorem openBoth (d : Dev) : Within [.iso] d d.openBoth :=
  (Within.other (d := d) (e := { d with iso := { d.iso with want := [] } }) rfl rfl rfl rfl rfl rfl).trans
    ((drive _ 0 false).trans (drive _ 1 false))

theorem rbCheck (d : Dev) {chain : Nat} (hc : chain < 2) : Within [.cond] d (d.rbCheck chain) := by
  refine .ite (.refl d) ?_
  dsimp only
  split
  · exact beginCond d _ _ (by omega)
  · exact setCond d false (by omega)

theorem rbSync (d : Dev) : Within [.iso, .cond] d d.rbSync :=
  (Within.set d (g := R.ISO_STATUS_RB_A) _ (by decide)).trans ((Within.set _ (g := R.ISO_STATUS_RB_B) _ (by decide)).trans
    (((rbCheck _ (by decide)).trans (rbCheck _ (by decide))).mono (by decide)))

theorem weldEnd (d : Dev) (result : Nat) : Within [.iso] d (d.weldEnd result) :=
  (Within.other (d := d) (e := { d with iso := { d.iso with weld := none } }) rfl rfl rfl rfl rfl rfl).trans
    ((Within.set _ (g := R.ISO_STATUS_STEP) 0 (by decide)).trans (.set _ (g := R.ISO_WELD_RESULT) result (by decide)))

theorem weldAbandon (d : Dev) (reason : Nat) : Within [.iso, .cond] d (d.weldAbandon reason) := by
  have hend : Within [.iso] d (((d.openBoth.weldEnd 4).set R.ISO_WELD_REASON reason).raise Dev.islGUARD 94 reason) :=
    (openBoth d).trans ((weldEnd _ 4).trans ((Within.set _ (g := R.ISO_WELD_REASON) reason (by decide)).trans (.raise _ _ _ _ _)))
  have hcheck (x : Dev) : Within [.cond] x x.rbResume := (rbCheck x (by decide)).trans (rbCheck _ (by decide))
  exact .ite ((hend.mono (by decide)).trans ((hcheck _).mono (by decide))) (.refl d)

theorem isoMode (d : Dev) : Within [.iso, .cond] d d.isoMode :=
  (Within.ite (.refl d) (weldAbandon d 6)).trans (.ite ((openBoth _).mono (by decide)) (.refl _))

/-! ### Lanes (R139, R322) -/

theorem laneSync (d : Dev) {n : Nat} (hn : n < 2) : Within [.wv] d (d.laneSync n) := by
  refine .ofRegs (Dev.laneSync_frame d n) fun a ha => (RegsBut.laneSync d n).rdw fun g hg h => ?_
  have hin : inZones [.wv] g.addr = true := by
    refine inZones_cons ?_ ?_ <;> simp only [laneSyncFields, List.mem_cons, List.not_mem_nil, or_false] at hg <;>
      rcases hg with rfl | rfl | rfl | rfl <;>
      simp only [Zone.span, R.WV_STATUS_TAGS_FREE, R.WV_WINDOW_MIN_FREE, R.WV_LS_RUN_RUNNING, R.WV_LS_RUN_PENDING] <;> omega
  rw [← h, hin] at ha
  cases ha

/-- A register of a lane's page. -/
theorem setWv (d : Dev) {g : Fld} {n k : Nat} (v : Nat) (hn : n < 2) (hg : g.addr = 0x40008000 + k + 0x1000 * n)
    (hk : k < 0x1000) : Within [.wv] d (d.set g v) :=
  .set d v (inZones_cons (by simp only [Zone.span]; omega) (by simp only [Zone.span]; omega))

theorem stopLane (d : Dev) {n : Nat} (hn : n < 2) : Within [.wv] d (d.stopLane n) :=
  (setLane d n _).trans ((setWv _ (k := 0) 0 hn rfl (by decide)).trans (laneSync _ hn))

theorem startLane (d : Dev) {n : Nat} (hn : n < 2) : Within [.wv] d (d.startLane n) :=
  (setLane d n _).trans ((setWv _ (k := 0) 1 hn rfl (by decide)).trans
    ((setWv _ (k := 0x08) 256 hn rfl (by decide)).trans (laneSync _ hn)))

theorem lanesStop (d : Dev) : Within [.wv, .lane] d d.lanesStop := by
  have hhold : Within [.wv, .lane] d (({ d with lc := {} } : Dev).set R.LANE_STATUS_HOLD 0) :=
    (Within.other (d := d) (e := { d with lc := {} }) rfl rfl rfl rfl rfl rfl).trans (.set _ _ (by decide))
  exact hhold.trans (((stopLane _ (by decide)).trans (stopLane _ (by decide))).mono (by decide))

theorem withdraw (d : Dev) : Within [.wv] d d.withdraw := by
  refine foldl [0, 1] d fun d n hn => (setLane d n _).trans (laneSync _ ?_)
  simp only [List.mem_cons, List.not_mem_nil, or_false] at hn
  omega

theorem coefSettle (d : Dev) : Within [.coef] d d.coefSettle := by
  unfold Dev.coefSettle
  split
  · exact .refl d
  · exact .ite (.refl d) ((Within.other (d := d) (e := { d with cfg := { d.cfg with coef := none } }) rfl rfl rfl rfl rfl rfl).trans
      ((Within.set _ _ (by decide)).trans (.request _ _ _)))

theorem coloPeers (d : Dev) : Within [.cond, .dpl] d d.coloPeers := by
  have hdiff : Within [.cond, .dpl] d
      ((List.range 32).foldl (fun d k => d.setB (R.DPL_PEER_STAT_COLO_DIFF k) (d.peerDiffers k)) d) := by
    refine foldl _ d fun d k hk => .setB d _ (inZones_iff.mpr ⟨.dpl, by decide, ?_⟩)
    have := List.mem_range.mp hk
    simp only [Zone.span, R.DPL_PEER_STAT_COLO_DIFF]
    omega
  exact hdiff.trans (.ite ((beginCond _ _ _ (by decide)).mono (by decide)) ((setCond _ _ (by decide)).mono (by decide)))

/-! ### Legs (R248 to R262) -/

theorem softoffBall (d : Dev) : Within [.pwm] d d.softoffBall := .set d _ (by decide)

section
variable {n : Nat} (hn : n < 48)
include hn

/-- A register of a leg's page. -/
theorem setLegReg (d : Dev) {g : Fld} {k : Nat} (v : Nat) (hg : g.addr = 0x40020000 + k + 0x100 * n) (hk : k < 0x100) :
    Within [.pwm] d (d.set g v) :=
  .set d v (inZones_cons (by simp only [Zone.span]; omega) (by simp only [Zone.span]; omega))

theorem shoot (d : Dev) : Within [.pwm] d (d.shoot n) := by
  have hbit (e : Dev) : Within [.pwm] e (e.setBit Dev.shootReg n true) := .setBit e n true (by
    unfold Dev.shootReg
    split <;> decide)
  have hset : Within [.pwm] d (((d.incSat (R.PWM_LEG_CNT_SHOOT n)).set (R.PWM_LEG_STAT_SHOOT n) 1).setBit Dev.shootReg n true) :=
    (setLegReg hn d (k := 0x2C) _ rfl (by decide)).trans ((setLegReg hn _ (k := 0x28) 1 rfl (by decide)).trans (hbit _))
  exact .ite (hset.trans (.raise _ _ _ _ _)) hset

theorem legCut (d : Dev) : Within [.pwm] d (d.legCut n) :=
  .ite (.ite ((setLeg d n _).trans (shoot hn _)) (setLeg d n _)) (.refl d)

theorem toState (d : Dev) (state cause : Nat) : Within [.pwm] d (d.toState n state cause) := by
  have hbit (e : Dev) (b : Bool) : Within [.pwm] e (e.setBit Dev.hizReg n b) := .setBit e n b (by
    unfold Dev.hizReg
    split <;> decide)
  have hcut : Within [.pwm] d (if state = 1 then d else (d.legCut n).legOff n) :=
    .ite (.refl d) ((legCut hn d).trans (setLeg _ n _))
  exact hcut.trans ((setLegReg hn _ (k := 0x28) state rfl (by decide)).trans
    ((setLegReg hn _ (k := 0x28) cause rfl (by decide)).trans ((hbit _ _).trans (softoffBall _))))

theorem disarm (d : Dev) : Within [.pwm] d (d.disarm n) :=
  (setLeg d n _).trans (setLegReg hn _ (k := 0x04) 0 rfl (by decide))

theorem legSync (d : Dev) : Within [.pwm] d (d.legSync n) := by
  have hoff (cause : Nat) : Within [.pwm] d ((d.disarm n).toState n 2 cause) := (disarm hn d).trans (toState hn _ _ _)
  refine .ite (.refl d) ?_
  split
  · exact hoff _
  · exact .ite (hoff 2) (.ite (hoff 1) (.ite (toState hn d 0 0) (.refl d)))

theorem legRequest (d : Dev) (en : Bool) : Within [.pwm] d (d.legRequest n en) := by
  refine .ite ?_ (.ite (.raise d _ _ _ _) (.ite ?_ (.refl d)))
  · exact .ite ((disarm hn d).trans (toState hn _ 0 0)) (disarm hn d)
  · exact (setLeg d n _).trans (setLegReg hn _ (k := 0x04) 1 rfl (by decide))

end

theorem legsMode (d : Dev) : Within [.pwm] d d.legsMode :=
  foldl (List.range 48) d fun d _ hn =>
    (Within.ite (.refl d) (legRequest (List.mem_range.mp hn) d false)).trans (legSync (List.mem_range.mp hn) _)

theorem clearTrips (d : Dev) : Within [.pwm] d d.clearTrips :=
  (Within.other (d := d) (e := { d with gsup := { d.gsup with softoff := [] } }) rfl rfl rfl rfl rfl rfl).trans
    (foldl (List.range 48) _ fun _ _ hn => (setLeg _ _ _).trans (legSync (List.mem_range.mp hn) _))

theorem pwmEnable (d : Dev) : Within [.pwm] d d.pwmEnable :=
  .ite (.refl d) ((Within.set d _ (by decide)).trans
    (foldl (List.range 48) _ fun d n hn => (setLeg d n _).trans (legSync (List.mem_range.mp hn) _)))

/-! ### Sigma-delta channels and the Ledger (R226, R507) -/

theorem setSd (d : Dev) (n : Nat) (u : SdCh) : Within zs d (d.setSd n u) := .other rfl rfl rfl rfl rfl rfl

theorem sdModeLeave (d : Dev) : Within [.sdf] d d.sdModeLeave := by
  refine foldl (List.range 24) d fun d n hn => ?_
  have hlt := List.mem_range.mp hn
  have hset (e : Dev) (g : Fld) (v : Nat) (hg : g = R.SDF_CH_RS_CTRL_EN n ∨ g = R.SDF_CH_RS_CTRL_ACTIVE n) :
      Within [.sdf] e (e.set g v) := by
    refine .set e v (inZones_cons ?_ ?_) <;> rcases hg with rfl | rfl <;>
      simp only [Zone.span, R.SDF_CH_RS_CTRL_EN, R.SDF_CH_RS_CTRL_ACTIVE] <;> omega
  split
  · exact .ite (hset d _ 0 (.inl rfl)) (.ite (.refl d) ((setSd d n _).trans ((hset _ _ 0 (.inr rfl)).trans (hset _ _ 0 (.inl rfl)))))
  · exact .refl d

theorem ledgerMode (d : Dev) : Within zs d d.ledgerMode :=
  .ite ((Within.other (d := d) (e := { d with led := { d.led with meas := none } }) rfl rfl rfl rfl rfl rfl).trans
    (.raise _ _ _ _ _)) (.refl d)

end Within

end Sys2Proof.Machine
end

section
/-! ## A transition (R38, R42, R47) -/

namespace Sys2Proof.Machine

variable {d e f : Dev} {zs ws : List Zone}

namespace Within

/-! ### Both lanes start (R62 step 12, R322) -/

theorem setLaneState (d : Dev) (n code : Nat) : Within [.lane, .coef] d (d.setLaneState n code) := by
  have hstate : inZones [.lane, .coef] (if n = 0 then R.LANE_STATUS_STATE_A else R.LANE_STATUS_STATE_B).addr = true := by
    split <;> decide
  exact .ite (.refl d) ((Within.set d _ hstate).trans ((request _ _ _).trans ((coefSettle _).mono (by decide))))

theorem laneStatus (d : Dev) : Within [.lane, .cond, .dpl] d d.laneStatus := by
  have hactive : Within [.lane, .cond, .dpl] d (if d.laneState 0 = 1 then d.set R.LANE_STATUS_ACTIVE 0
      else if d.laneState 1 = 1 then d.set R.LANE_STATUS_ACTIVE 1 else d) :=
    .ite (.set d _ (by decide)) (.ite (.set d _ (by decide)) (.refl d))
  exact hactive.trans ((Within.ite (.refl _) ((coloPeers _).mono (by decide))).trans (.setB _ _ (by decide)))

theorem lanesStart (d : Dev) : Within [.wv, .lane, .coef, .cond, .dpl] d d.lanesStart :=
  (((startLane d (by decide)).trans (startLane _ (by decide))).mono (by decide)).trans
    ((((setLaneState _ 0 1).trans (setLaneState _ 1 2)).mono (by decide)).trans ((laneStatus _).mono (by decide)))

/-- The reports of the converters out of service (R180). -/
theorem adcReports (d : Dev) : Within zs d
    ((List.range 4).foldl (fun d c => if d.adcOut c then d.raise (adcIsland c) 58 c else d) d) :=
  foldl _ d fun d _ _ => .ite (.raise d _ _ _ _) (.refl d)

end Within

/-! ### What a transition keeps -/

/-- SYSCTL's own state but for what belongs to the mode: the previous modes, the SAFE line, the check, the windows. -/
def Sys.lasting (x : Sys) : Sys :=
  { x with before9 := 0, from8 := false, safeDriven := false, safeHigh := none, safeAt := 0, seen3 := false, bistDone := false,
           startup := false, calDone := [], profWait := [], coresOut := false }

theorem Sys.lasting_cores (x : Sys) : { x with coresOut := false }.lasting = x.lasting := rfl

theorem Sys.lasting_check (x : Sys) (b : Bool) :
    { x with bistDone := false, startup := b, calDone := [] }.lasting = x.lasting := rfl

theorem Sys.lasting_safe (x : Sys) (t : Nat) :
    { x with safeDriven := true, safeHigh := none, safeAt := t }.lasting = x.lasting := rfl

theorem Sys.lasting_windows (x : Sys) (l : List Nat) : { x with profWait := l }.lasting = x.lasting := rfl

/-- As `Within`, but for the state of SYSCTL that belongs to the mode. -/
structure Enters (zs : List Zone) (d e : Dev) : Prop where
  regs : ∀ a, inZones zs a = false → e.rdw a = d.rdw a
  sys : e.sys.lasting = d.sys.lasting
  pat : e.pat = d.pat
  time : e.time = d.time
  repair : e.repair = d.repair
  acc : e.acc = d.acc

theorem Within.enters (h : Within zs d e) : Enters zs d e :=
  ⟨h.regs, congrArg Sys.lasting h.sys, h.pat, h.time, h.repair, h.acc⟩

namespace Enters

theorem refl (d : Dev) : Enters zs d d := (Within.refl d).enters

theorem trans (h : Enters zs d e) (g : Enters zs e f) : Enters zs d f :=
  ⟨fun a ha => (g.regs a ha).trans (h.regs a ha), g.sys.trans h.sys, g.pat.trans h.pat, g.time.trans h.time,
    g.repair.trans h.repair, g.acc.trans h.acc⟩

theorem mono (h : Enters zs d e) (hs : zs ⊆ ws) : Enters ws d e :=
  ⟨fun a ha => h.regs a (inZones_subset hs ha), h.sys, h.pat, h.time, h.repair, h.acc⟩

theorem get (h : Enters zs d e) {g : Fld} (hg : inZones zs g.addr = false) : e.get g = d.get g := by
  rw [Dev.get, h.regs _ hg, Dev.get]

theorem withSys (d : Dev) {x : Sys} (h : x.lasting = d.sys.lasting) : Enters zs d { d with sys := x } :=
  ⟨fun _ _ => rfl, h, rfl, rfl, rfl, rfl⟩

theorem thenSys {x : Sys} (h : Enters zs d e) (hx : x.lasting = e.sys.lasting) : Enters zs d { e with sys := x } :=
  h.trans (withSys e hx)

end Enters

/-! ### What starts with a mode (R47, R62, R85, R417) -/

/-- The boot slot and the failures of a load start anew. -/
def Dev.clearLoad (d : Dev) : Dev :=
  let d := (d.set R.SYSCTL_BOOT_SLOT (b2n (d.get R.SYSCTL_BOOT_PINS == 1))).set R.SYSCTL_BOOT_FAIL 0
  ((d.set R.CFG_STATUS_ERR 0).set R.CFG_STATUS_SECTION 0).set R.CFG_STATUS_NOSECT 0

/-- A new load starts with M1. -/
def Dev.startLoad (d : Dev) : Dev :=
  ({ d.lanesStop with sys := { d.lanesStop.sys with coresOut := false } } : Dev).clearLoad

/-- A new check starts with M2. -/
def Dev.startCheck (d : Dev) (old : Nat) : Dev :=
  { d.lanesStop with sys := { d.lanesStop.sys with bistDone := false, startup := old == 1, calDone := [] } }

/-- The entry to M3, from M2 with the lanes. -/
def Dev.startStandby (d : Dev) (old : Nat) : Dev :=
  let d : Dev := { d with sys := { d.sys with seen3 := true, coresOut := d.sys.coresOut || old == 2 } }
  if old = 2 then
    (List.range 4).foldl (fun d c => if d.adcOut c then d.raise (adcIsland c) 58 c else d) d.clearTrips.lanesStart
  else d

/-- The entry to M10. -/
def Dev.startSafe (d : Dev) : Dev :=
  { d.setCond 79 false with sys := { d.sys with safeDriven := true, safeHigh := none, safeAt := d.time.short } }

theorem modeStart_one (d : Dev) (old : Nat) : d.modeStart old 1 = d.startLoad := if_pos rfl

theorem modeStart_two (d : Dev) (old : Nat) : d.modeStart old 2 = d.startCheck old := rfl

theorem modeStart_three (d : Dev) (old : Nat) : d.modeStart old 3 = d.startStandby old := rfl

theorem modeStart_ten (d : Dev) (old : Nat) : d.modeStart old 10 = d.startSafe := rfl

theorem modeStart_other (d : Dev) (old : Nat) {m : Nat} (h1 : m ≠ 1) (h2 : m ≠ 2) (h3 : m ≠ 3) (h10 : m ≠ 10) :
    d.modeStart old m = d := by
  rw [Dev.modeStart, if_neg h1, if_neg h2, if_neg h3, if_neg h10]

/-- Zones of a transition to any mode but M1, and those of the load that starts with M1. -/
def entryZones : List Zone := [.coef, .wv, .lane, .sdf, .pwm, .first, .cond, .iso, .dpl]

def modeZones (m : Nat) : List Zone := if m = 1 then .boot :: .load :: entryZones else entryZones

theorem entryZones_subset (m : Nat) : entryZones ⊆ modeZones m := by
  unfold modeZones
  split
  · decide
  · exact fun _ h => h

namespace Enters

theorem clearLoad (d : Dev) : Within (modeZones 1) d d.clearLoad := by
  have hset (x : Dev) (g : Fld) (v : Nat) (hg : inZones (modeZones 1) g.addr = true) : Within (modeZones 1) x (x.set g v) :=
    .set x v hg
  exact ((((hset _ _ _ (by decide)).trans (hset _ _ _ (by decide))).trans (hset _ _ _ (by decide))).trans
    (hset _ _ _ (by decide))).trans (hset _ _ _ (by decide))

theorem startLoad (d : Dev) : Enters (modeZones 1) d d.startLoad :=
  (((Within.lanesStop d).mono (by decide)).enters.thenSys (Sys.lasting_cores _)).trans (clearLoad _).enters

theorem startCheck (d : Dev) (old : Nat) : Enters entryZones d (d.startCheck old) :=
  ((Within.lanesStop d).mono (by decide)).enters.thenSys (Sys.lasting_check _ _)

theorem startStandby (d : Dev) (old : Nat) : Enters entryZones d (d.startStandby old) := by
  refine (withSys d (x := { d.sys with seen3 := true, coresOut := d.sys.coresOut || old == 2 }) rfl).trans (Within.enters ?_)
  exact .ite (((Within.clearTrips _).mono (by decide)).trans (((Within.lanesStart _).mono (by decide)).trans
    (.adcReports _))) (.refl _)

theorem startSafe (d : Dev) : Enters entryZones d d.startSafe := by
  refine ((Within.setCond d (src := 79) false (by decide)).mono (by decide)).enters.thenSys ?_
  rw [Dev.setCond_sys, Sys.lasting_safe]

theorem modeStart (d : Dev) (old m : Nat) : Enters (modeZones m) d (d.modeStart old m) := by
  by_cases h1 : m = 1
  · rw [h1, modeStart_one]
    exact startLoad d
  refine Enters.mono ?_ (entryZones_subset m)
  by_cases h2 : m = 2
  · rw [h2, modeStart_two]
    exact startCheck d old
  by_cases h3 : m = 3
  · rw [h3, modeStart_three]
    exact startStandby d old
  by_cases h10 : m = 10
  · rw [h10, modeStart_ten]
    exact startSafe d
  rw [modeStart_other d old h1 h2 h3 h10]
  exact refl d

end Enters

/-! ### The transition -/

/-- What every block does in a new mode. -/
theorem settleMode_within (d : Dev) (m : Nat) :
    Within [.wv, .sdf, .pwm, .cond, .iso] { d with sys := { d.sys with profWait := [0, 1] } } (d.settleMode m) := by
  have hblocks : Within [.wv, .sdf, .pwm, .cond, .iso] d
      (if [1, 2, 11].contains m then d.withdraw.legsMode.isoMode else d.withdraw.legsMode.isoMode.sdModeLeave).ledgerMode :=
    ((Within.withdraw d).mono (by decide)).trans (((Within.legsMode _).mono (by decide)).trans
      (((Within.isoMode _).mono (by decide)).trans ((Within.ite (.refl _) ((Within.sdModeLeave _).mono (by decide))).trans
        (.ledgerMode _))))
  obtain ⟨hr, hs, hp, ht, hm, ha⟩ := hblocks
  exact ⟨hr, congrArg (fun x : Sys => { x with profWait := [0, 1] }) hs, hp, ht, hm, ha⟩

/-- The first decision of SAFE is forgotten with M10 (R359). -/
def Dev.leaveMode (d : Dev) (old : Nat) : Dev := if old = 10 then d.set R.ACC_STATUS_FIRST_VALID 0 else d

theorem enterMode_steps (d : Dev) (m cause : Nat) :
    d.enterMode m cause = (((d.atMode m cause).leaveMode d.mode).modeStart d.mode m).settleMode m := rfl

/-- MODE after a transition, and what the transition leaves alone. -/
structure Entered (d e : Dev) (m cause : Nat) : Prop where
  mode : e.mode = m
  prev : e.get R.SYSCTL_MODE_PREV = d.mode
  cause : e.get R.SYSCTL_MODE_CAUSE = cause
  regs : ∀ a, inZones (modeZones m) a = false → a ≠ 0x40000010 → e.rdw a = d.rdw a
  sys : e.sys.lasting = d.sys.lasting
  pat : e.pat = d.pat
  time : e.time = d.time
  repair : e.repair = d.repair
  acc : e.acc = d.acc

theorem Entered.get {m cause : Nat} (h : Entered d e m cause) {g : Fld} (hg : inZones (modeZones m) g.addr = false)
    (hm : g.addr ≠ 0x40000010) : e.get g = d.get g := by
  rw [Dev.get, h.regs _ hg hm, Dev.get]

/-- MODE stands in no zone. -/
theorem mode_notIn (m : Nat) : inZones (modeZones m) 0x40000010 = false := by
  unfold modeZones
  split <;> decide

/-- After MODE has taken the new mode, no step of the transition writes it. -/
theorem afterMode_enters (d : Dev) (old m : Nat) :
    Enters (modeZones m) d (((d.leaveMode old).modeStart old m).settleMode m) := by
  have hleave : Enters (modeZones m) d (d.leaveMode old) :=
    (((Within.ite (.set d 0 (by decide)) (.refl d) : Within entryZones d (d.leaveMode old))).mono (entryZones_subset m)).enters
  refine hleave.trans ((Enters.modeStart _ old m).trans ?_)
  generalize (d.leaveMode old).modeStart old m = x
  exact (Enters.withSys x (Sys.lasting_windows _ [0, 1])).trans
    (((settleMode_within x m).mono (by decide : _ ⊆ entryZones)).mono (entryZones_subset m)).enters

theorem enterMode_entered (d : Dev) {m cause : Nat} (hm : m < 16) (hc : cause < 256) :
    Entered d (d.enterMode m cause) m cause := by
  obtain ⟨hcur, hprev, hcause⟩ := d.atMode_get hm hc
  have h := afterMode_enters (d.atMode m cause) d.mode m
  rw [← enterMode_steps] at h
  exact ⟨(h.get (mode_notIn m)).trans hcur, (h.get (mode_notIn m)).trans hprev, (h.get (mode_notIn m)).trans hcause,
    fun a ha hne => (h.regs a ha).trans (d.atMode_rdw m cause hne), h.sys, h.pat, h.time, h.repair, h.acc⟩

end Sys2Proof.Machine
end

section
/-! ## Mode requests (R37 to R46, R545) -/

namespace Sys2Proof.Machine

variable {d e : Dev} {s : State}

/-! ### MODE_STAT -/

/-- A write of MODE_REQ clears the answer to the one before it (R545). -/
def Dev.unanswered (d : Dev) : Dev := (d.set R.SYSCTL_MODE_STAT_REFUSED 0).set R.SYSCTL_MODE_STAT_REASON 0

theorem Dev.unanswered_get (d : Dev) {g : Fld} (hg : g.addr ≠ 0x40000018) : d.unanswered.get g = d.get g := by
  rw [Dev.unanswered, Dev.get_set_of_disjoint _ _ (by decide) (.inl hg), Dev.get_set_of_disjoint _ _ (by decide) (.inl hg)]

theorem Dev.unanswered_busy (d : Dev) : d.unanswered.get R.SYSCTL_MODE_STAT_BUSY = d.get R.SYSCTL_MODE_STAT_BUSY := by
  rw [Dev.unanswered, Dev.get_set_of_disjoint _ _ (by decide) (by decide), Dev.get_set_of_disjoint _ _ (by decide) (by decide)]

theorem Dev.unanswered_answer (d : Dev) :
    d.unanswered.get R.SYSCTL_MODE_STAT_REFUSED = 0 ∧ d.unanswered.get R.SYSCTL_MODE_STAT_REASON = 0 := by
  unfold Dev.unanswered
  refine ⟨?_, Dev.get_set_self _ _ _ (by decide)⟩
  rw [Dev.get_set_of_disjoint _ _ (by decide) (by decide)]
  exact Dev.get_set_self _ _ _ (by decide)

/-- The fields of an answer. -/
def answerFields : List Fld := [R.SYSCTL_MODE_STAT_REFUSED, R.SYSCTL_MODE_STAT_REASON]

theorem RegsBut.unanswered (d : Dev) : RegsBut answerFields d d.unanswered :=
  (RegsBut.set d R.SYSCTL_MODE_STAT_REFUSED 0 (by decide) (by decide)).trans
    (RegsBut.set _ R.SYSCTL_MODE_STAT_REASON 0 (by decide) (by decide))

/-- A refusal: its reason, and nothing else changes. -/
structure Dev.Refused (d e : Dev) (reason : Nat) : Prop where
  refused : e.get R.SYSCTL_MODE_STAT_REFUSED = 1
  reason : e.get R.SYSCTL_MODE_STAT_REASON = reason
  regs : RegsBut answerFields d e
  frame : e = { d with regs := e.regs }

theorem Dev.refuseReq_refused (d : Dev) {reason : Nat} (h : reason < 16) : d.Refused (d.refuseReq reason) reason := by
  refine ⟨?_, ?_, ?_, ?_⟩
  · rw [Dev.refuseReq, Dev.get_set_of_disjoint _ _ (by decide) (by decide)]
    exact Dev.get_set_self _ _ _ (by decide)
  · rw [Dev.refuseReq, Dev.get_set_self _ _ _ (by decide)]
    exact Nat.mod_eq_of_lt h
  · exact (RegsBut.set d R.SYSCTL_MODE_STAT_REFUSED 1 (by decide) (by decide)).trans
      (RegsBut.set _ R.SYSCTL_MODE_STAT_REASON reason (by decide) (by decide))
  · exact ((Dev.set_frame d _ _).trans (Dev.set_frame _ _ _)).frame

theorem Dev.unanswered_refused (d : Dev) {reason : Nat} (h : reason < 16) : d.Refused (d.unanswered.refuseReq reason) reason := by
  obtain ⟨hrefused, hreason, hregs, hframe⟩ := d.unanswered.refuseReq_refused h
  exact ⟨hrefused, hreason, (RegsBut.unanswered d).trans hregs, hframe.trans rfl⟩

/-! ### The tests of a request (R545) -/

/-- A request starts this transition (R37, R38). -/
theorem started_iff {cur target : Nat} : (Dev.requestable cur target || Dev.carriedOut cur target) = true ↔
    (cur, target) ∈ [(3, 4), (3, 8), (5, 6), (6, 5), (5, 7), (6, 7), (7, 4), (3, 1), (10, 2), (11, 2), (3, 11)] ∨
      (target = 3 ∧ 4 ≤ cur ∧ cur ≤ 9) := by
  simp only [Dev.requestable, Dev.carriedOut, Bool.or_eq_true, List.contains_iff_mem, Bool.and_eq_true, beq_iff_eq,
    decide_eq_true_eq, and_assoc]
  rw [or_right_comm, ← List.mem_append]
  rfl

/-- The exit conditions of a transition that a request starts (R38, R66). -/
def Dev.ExitOk (d : Dev) (target : Nat) : Prop :=
  (d.mode = 3 ∧ target = 1 → d.stagedPending = false) ∧
  (d.mode = 3 ∧ target = 11 ∨ d.mode = 11 → d.relaysReadOpen = true) ∧
  (d.mode = 10 → d.accClear = true ∧ d.safeNHigh = true ∧ d.relaysReadOpen = true)

/-- The black-start strap, which M8 asks for. -/
def Dev.StrapOk (d : Dev) (target : Nat) : Prop := target = 8 → (d.get R.ISO_SEAL_LATCHED).testBit 7 = true

theorem requestReason_unstarted {target : Nat}
    (h : ¬(Dev.requestable d.mode target || Dev.carriedOut d.mode target) = true) : d.requestReason target = 2 := by
  rw [Dev.requestReason]
  exact if_pos (by simpa using h)

section
variable {target : Nat} (hstart : (Dev.requestable d.mode target || Dev.carriedOut d.mode target) = true)
include hstart

theorem notUnstarted : ¬(!Dev.requestable d.mode target && !Dev.carriedOut d.mode target) = true := by
  rw [← Bool.not_or, hstart]
  decide

theorem requestReason_strap (hs : ¬d.StrapOk target) : d.requestReason target = 4 := by
  simp only [Dev.StrapOk, Classical.not_imp, Bool.not_eq_true] at hs
  exact (if_neg (notUnstarted hstart)).trans (if_pos (by simpa using hs))

/-- The tests after the strap name REASON 6 together, or none. -/
theorem requestReason_exit (hs : d.StrapOk target) :
    (d.ExitOk target → d.requestReason target = 0) ∧ (¬d.ExitOk target → d.requestReason target = 6) := by
  have hstrap : ¬(target = 8 ∧ (!(d.get R.ISO_SEAL_LATCHED).testBit 7) = true) := by
    rintro ⟨h8, hbit⟩
    rw [hs h8] at hbit
    cases hbit
  rw [show d.requestReason target = _ from (if_neg (notUnstarted hstart)).trans (if_neg hstrap)]
  refine ⟨fun ⟨hstaged, hrelays, hsafe⟩ => ?_, fun hexit => ?_⟩
  · rw [if_neg, if_neg, if_neg, if_neg]
    · rintro ⟨h10, h⟩
      obtain ⟨hacc, hhigh, hopen⟩ := hsafe h10
      rw [hacc, hhigh, hopen] at h
      cases h
    · rintro ⟨h11, h⟩
      rw [hrelays (.inr h11)] at h
      cases h
    · rintro ⟨h3, h11, h⟩
      rw [hrelays (.inl ⟨h3, h11⟩)] at h
      cases h
    · rintro ⟨h3, h1, h⟩
      rw [hstaged ⟨h3, h1⟩] at h
      cases h
  · split_ifs with hstaged hservice hcheck hsafe
    · rfl
    · rfl
    · rfl
    · rfl
    · refine absurd ⟨fun ⟨h3, h1⟩ => ?_, fun h => ?_, fun h10 => ?_⟩ hexit
      · exact Bool.eq_false_iff.mpr fun h => hstaged ⟨h3, h1, h⟩
      · by_contra hclosed
        simp only [Bool.not_eq_true] at hclosed
        rcases h with ⟨h3, h11⟩ | h11
        · exact hservice ⟨h3, h11, by rw [hclosed]; rfl⟩
        · exact hcheck ⟨h11, by rw [hclosed]; rfl⟩
      · by_contra hopen
        refine hsafe ⟨h10, ?_⟩
        rw [Bool.not_eq_true', Bool.eq_false_iff]
        simpa only [ne_eq, Bool.and_eq_true, and_assoc] using hopen

end

/-- The tests read nothing that an answer changes. -/
theorem unanswered_requestReason (d : Dev) (target : Nat) : d.unanswered.requestReason target = d.requestReason target := by
  have hmode : d.unanswered.mode = d.mode := d.unanswered_get (by decide)
  have hopen : d.unanswered.relaysReadOpen = d.relaysReadOpen := by
    rw [Dev.relaysReadOpen, d.unanswered_get (by decide), d.unanswered_get (by decide), Dev.relaysReadOpen]
  have hsev (i : Nat) : d.unanswered.get (R.ACC_SEV_SRC i) = d.get (R.ACC_SEV_SRC i) :=
    d.unanswered_get (by simp only [R.ACC_SEV_SRC]; omega)
  have hactive (k : Nat) : d.unanswered.bit R.ACC_ACTIVE_SRC k = d.bit R.ACC_ACTIVE_SRC k :=
    Dev.bit_congr (d.unanswered_get (by simp only [R.ACC_ACTIVE_SRC]; omega))
  have hclear : d.unanswered.accClear = d.accClear := by
    simp only [Dev.accClear, hsev, hactive]
    rfl
  have hstaged : d.unanswered.stagedPending = d.stagedPending := rfl
  have hhigh : d.unanswered.safeNHigh = d.safeNHigh := rfl
  simp only [Dev.requestReason, hmode, hopen, hclear, hstaged, hhigh, d.unanswered_get (g := R.ISO_SEAL_LATCHED) (by decide)]

/-! ### The request -/

/-- The key of a target (R43). -/
def requestKey (target : Nat) : Nat := if target = 11 then 0x5E11 else 0xA5C3

/-- A request stands already. -/
def Dev.requestBusy (d : Dev) : Bool := d.isSet R.SYSCTL_MODE_TRANSIT || d.isSet R.SYSCTL_MODE_STAT_BUSY

/-- A request in the order of its tests. -/
theorem modeRequest_eq (d : Dev) (key target : Nat) (pre : Bool) :
    d.modeRequest key target pre =
      if key ≠ requestKey target then d.unanswered.refuseReq 1
      else if d.requestBusy then d.unanswered.refuseReq 3
      else if d.requestReason target ≠ 0 then d.unanswered.refuseReq (d.requestReason target)
      else if pre then d.unanswered.refuseReq 5
      else if Dev.carriedOut d.mode target then d.unanswered.enterMode target 1
      else d.unanswered.forward target := by
  have hmode : d.unanswered.mode = d.mode := d.unanswered_get (by decide)
  have hbusy : d.unanswered.requestBusy = d.requestBusy := by
    rw [Dev.requestBusy, Dev.isSet, Dev.isSet, d.unanswered_get (by decide), d.unanswered_busy, Dev.requestBusy, Dev.isSet, Dev.isSet]
  rw [← unanswered_requestReason, ← hbusy, ← hmode]
  rfl

theorem exec_modeRequest {c : Instr} {target : Nat} {key : BitVec 16} {pre : Bool}
    (hc : (∃ k : Fin 6, c = .modeReqControl key k pre ∧ target = 4 + k.val) ∨ (c = .modeReqStop key pre ∧ target = 3) ∨
      (c = .modeReqReload key pre ∧ target = 1) ∨ (c = .modeReqCheck key pre ∧ target = 2) ∨
      (c = .modeReqService key pre ∧ target = 11) ∨
      (∃ k : Fin 16, c = .modeReqForbidden key k ∧ pre = false ∧ target = k.val)) :
    target < 16 ∧ exec c s = .next (s.onDev fun d => d.modeRequest key.toNat target pre) := by
  rcases hc with ⟨k, rfl, rfl⟩ | ⟨rfl, rfl⟩ | ⟨rfl, rfl⟩ | ⟨rfl, rfl⟩ | ⟨rfl, rfl⟩ | ⟨k, rfl, rfl, rfl⟩
  · exact ⟨by omega, rfl⟩
  · exact ⟨by decide, rfl⟩
  · exact ⟨by decide, rfl⟩
  · exact ⟨by decide, rfl⟩
  · exact ⟨by decide, rfl⟩
  · exact ⟨k.isLt, rfl⟩

/-- The key as the bus carries it. -/
theorem requestKey_iff {key : BitVec 16} {target : Nat} :
    key = (if target = 11 then 0x5E11 else 0xA5C3) ↔ key.toNat = requestKey target := by
  unfold requestKey
  split
  · exact ⟨congrArg BitVec.toNat, fun h => BitVec.eq_of_toNat_eq h⟩
  · exact ⟨congrArg BitVec.toNat, fun h => BitVec.eq_of_toNat_eq h⟩

theorem requestBusy_iff : d.requestBusy = true ↔ d.get R.SYSCTL_MODE_TRANSIT ≠ 0 ∨ d.get R.SYSCTL_MODE_STAT_BUSY ≠ 0 := by
  simp [Dev.requestBusy, Dev.isSet]

/-- The answer of a request that passes its tests stays clear. -/
theorem passed_answer (d : Dev) {target : Nat} (h : target < 16) :
    (d.unanswered.enterMode target 1).get R.SYSCTL_MODE_STAT_REFUSED = 0 ∧
    (d.unanswered.enterMode target 1).get R.SYSCTL_MODE_STAT_REASON = 0 ∧
    (d.unanswered.forward target).get R.SYSCTL_MODE_STAT_REFUSED = 0 ∧
    (d.unanswered.forward target).get R.SYSCTL_MODE_STAT_REASON = 0 := by
  obtain ⟨hrefused, hreason⟩ := d.unanswered_answer
  have henter := enterMode_entered d.unanswered h (cause := 1) (by decide)
  have hstat : inZones (modeZones target) 0x40000018 = false := by
    unfold modeZones
    split <;> decide
  refine ⟨(henter.get hstat (by decide)).trans hrefused, (henter.get hstat (by decide)).trans hreason, ?_, ?_⟩
  · exact (Dev.get_set_of_disjoint _ _ (by decide) (by decide)).trans hrefused
  · exact (Dev.get_set_of_disjoint _ _ (by decide) (by decide)).trans hreason

/-- Settles O14: `modeRequest_eq` gives the tests in their order, and `requestReason` names the first of its own that fails. -/
theorem refusedModeRequestsSayWhy : Obligations.RefusedModeRequestsSayWhy := by
  intro c target key pre s hc cur started exitOk keyOk busy strapOk refused
  obtain ⟨hlt, hexec⟩ := exec_modeRequest (s := s) hc
  rw [State.onDev, modeRequest_eq] at hexec
  have hrefused {reason : Nat} (hr : reason < 16) (h : exec c s = .next { s with d := s.d.unanswered.refuseReq reason }) :
      refused reason := by
    obtain ⟨hone, hreason, hregs, hframe⟩ := s.d.unanswered_refused hr
    exact ⟨_, h, hone, hreason, hregs.get R.SYSCTL_MODE_CUR (by decide), hregs, congrArg (fun x => { s with d := x }) hframe⟩
  have hstarted : started ↔ (Dev.requestable s.d.mode target || Dev.carriedOut s.d.mode target) = true := started_iff.symm
  refine ⟨fun hk => ?_, fun hk hb => ?_, fun hk hb hs => ?_, fun hk hb hs hstrap => ?_, fun hk hb hs hstrap hx => ?_,
    fun hk hb hs hstrap hx hp => ?_, fun hk hb hs hstrap hx hp => ?_⟩
  · rw [if_pos (mt requestKey_iff.mpr hk)] at hexec
    exact hrefused (by decide) hexec
  all_goals rw [if_neg (not_not.mpr (requestKey_iff.mp hk))] at hexec
  · rw [if_pos (requestBusy_iff.mpr hb)] at hexec
    exact hrefused (by decide) hexec
  all_goals rw [if_neg (mt requestBusy_iff.mp hb)] at hexec
  · rw [requestReason_unstarted (mt hstarted.mpr hs)] at hexec
    exact hrefused (by decide) hexec
  · rw [requestReason_strap (hstarted.mp hs) hstrap] at hexec
    exact hrefused (by decide) hexec
  all_goals obtain ⟨hpass, hfail⟩ := requestReason_exit (hstarted.mp hs) hstrap
  · rw [hfail hx] at hexec
    exact hrefused (by decide) hexec
  all_goals rw [hpass hx, hp] at hexec
  · exact hrefused (by decide) hexec
  · obtain ⟨he, he', hf, hf'⟩ := passed_answer s.d hlt
    refine ⟨_, hexec, ?_⟩
    dsimp only
    split
    · contradiction
    split
    · contradiction
    split
    · exact ⟨he, he'⟩
    · exact ⟨hf, hf'⟩

/-! ### Requests that pass (R37, R38, R46) -/

/-- MODE_STAT as one field. -/
def modeStat : Fld := ⟨0x40000018, 0, 8⟩

/-- Fields inside wider ones. -/
theorem RegsBut.cover {fs gs : List Fld} (h : RegsBut fs d e)
    (hs : ∀ f ∈ fs, ∃ g ∈ gs, f.addr = g.addr ∧ g.lo ≤ f.lo ∧ f.lo + f.w ≤ g.lo + g.w) : RegsBut gs d e := by
  refine fun a j hn => h a j fun f hf ⟨ha, hlo, hhi⟩ => ?_
  obtain ⟨g, hg, hga, hglo, hghi⟩ := hs f hf
  exact hn g hg ⟨hga.symm.trans ha, hglo.trans hlo, hhi.trans_le hghi⟩

theorem requestable_range {cur target : Nat} (h : Dev.requestable cur target = true) :
    3 ≤ cur ∧ cur ≤ 9 ∧ 3 ≤ target ∧ target ≤ 8 := by
  simp only [Dev.requestable, Bool.or_eq_true, List.contains_iff_mem, List.mem_cons, Prod.mk.injEq, List.not_mem_nil,
    or_false, Bool.and_eq_true, beq_iff_eq, decide_eq_true_eq] at h
  omega

theorem requestable_notCarriedOut {cur target : Nat} (h : Dev.requestable cur target = true) :
    Dev.carriedOut cur target = false := by
  have := requestable_range h
  simp only [Dev.carriedOut, List.contains_eq_mem, decide_eq_false_iff_not, List.mem_cons, Prod.mk.injEq, List.not_mem_nil,
    or_false]
  omega

theorem requestable_exitOk {target : Nat} (h : Dev.requestable d.mode target = true) : d.ExitOk target := by
  have := requestable_range h
  exact ⟨fun hx => absurd hx (by omega), fun hx => absurd hx (by omega), fun hx => absurd hx (by omega)⟩

theorem requestBusy_of_free (ht : d.get R.SYSCTL_MODE_TRANSIT = 0) (hb : d.get R.SYSCTL_MODE_STAT_BUSY = 0) :
    d.requestBusy = false := by
  simp [Dev.requestBusy, Dev.isSet, ht, hb]

section
variable {key target : Nat} (hkey : key = requestKey target) (hbusy : d.requestBusy = false)
  (hstrap : d.StrapOk target) (hexit : d.ExitOk target)
include hkey hbusy hstrap hexit

theorem modeRequest_passes (hstart : (Dev.requestable d.mode target || Dev.carriedOut d.mode target) = true) :
    d.modeRequest key target false =
      if Dev.carriedOut d.mode target then d.unanswered.enterMode target 1 else d.unanswered.forward target := by
  rw [modeRequest_eq, if_neg (not_not.mpr hkey), if_neg (by rw [hbusy]; decide),
    (requestReason_exit hstart hstrap).1 hexit]
  rfl

theorem modeRequest_forwards (h : Dev.requestable d.mode target = true) :
    d.modeRequest key target false = d.unanswered.forward target := by
  rw [modeRequest_passes hkey hbusy hstrap hexit (by rw [h]; rfl), requestable_notCarriedOut h]
  rfl

theorem modeRequest_carriesOut (h : Dev.carriedOut d.mode target = true) :
    d.modeRequest key target false = d.unanswered.enterMode target 1 := by
  rw [modeRequest_passes hkey hbusy hstrap hexit (by rw [h, Bool.or_true]), if_pos h]

end

/-- A request that waits in the slot. -/
structure Dev.Waits (d e : Dev) (target : Nat) : Prop where
  slot : e.sys.slot = some target
  busy : e.get R.SYSCTL_MODE_STAT_BUSY = 1
  regs : RegsBut [modeStat] d e
  frame : e = { d with regs := e.regs, sys := e.sys }

theorem Dev.forward_waits (d : Dev) (target : Nat) : d.Waits (d.unanswered.forward target) target where
  slot := by rw [Dev.forward, Dev.set_sys]
  busy := Dev.get_set_self _ _ _ (by decide)
  regs := (((RegsBut.unanswered d).cover (by decide)).trans (.of_regs rfl)).trans
    ((RegsBut.set (fs := [R.SYSCTL_MODE_STAT_BUSY]) _ _ 1 (by decide) (by decide)).cover (by decide))
  frame := rfl

/-- The slot is emptied and the request refused with REASON 7 (R46). -/
theorem Dev.unslot_refused (d : Dev) : (d.unslot.refuseReq 7).sys.slot = none ∧
    (d.unslot.refuseReq 7).get R.SYSCTL_MODE_STAT_BUSY = 0 ∧ (d.unslot.refuseReq 7).get R.SYSCTL_MODE_STAT_REFUSED = 1 ∧
    (d.unslot.refuseReq 7).get R.SYSCTL_MODE_STAT_REASON = 7 ∧ RegsBut [modeStat] d (d.unslot.refuseReq 7) ∧
    d.unslot.refuseReq 7 = { d with regs := (d.unslot.refuseReq 7).regs, sys := (d.unslot.refuseReq 7).sys } := by
  obtain ⟨hrefused, hreason, hregs, hframe⟩ := d.unslot.refuseReq_refused (reason := 7) (by decide)
  have hbusy : d.unslot.get R.SYSCTL_MODE_STAT_BUSY = 0 := Dev.get_set_self _ _ _ (by decide)
  have hunslot : RegsBut [modeStat] d d.unslot :=
    (RegsBut.of_regs (e := { d with sys := { d.sys with slot := none, profWait := [0, 1] } }) rfl).trans
      ((RegsBut.set (fs := [R.SYSCTL_MODE_STAT_BUSY]) _ _ 0 (by decide) (by decide)).cover (by decide))
  refine ⟨?_, (hregs.get _ (by decide)).trans hbusy, hrefused, hreason, hunslot.trans (hregs.cover (by decide)), rfl⟩
  rw [hframe]
  rfl

theorem exec_modeReqTimeout (s : State) : exec .modeReqTimeout s =
    .next { s with d := if s.d.sys.slot.isSome then s.d.unslot.refuseReq 7 else s.d } := rfl

/-- Settles O15: a request that passes is forwarded where the Weave makes the transition, and else carried out. -/
theorem acceptedModeRequestsTakeEffect : Obligations.AcceptedModeRequestsTakeEffect := by
  have hforwards {c : Instr} {s : State} {target : Nat} (hr : Dev.requestable s.d.mode target = true)
      (ht : s.d.get R.SYSCTL_MODE_TRANSIT = 0) (hb : s.d.get R.SYSCTL_MODE_STAT_BUSY = 0) (hs : s.d.StrapOk target)
      (hexec : exec c s = .next { s with d := s.d.modeRequest 0xA5C3 target false }) :
      Gives c s fun t => t.d.sys.slot = some target ∧ t.d.get R.SYSCTL_MODE_STAT_BUSY = 1 ∧ t.d.mode = s.d.mode ∧
        RegsBut [⟨0x40000018, 0, 8⟩] s.d t.d ∧ t = { s with d := { s.d with regs := t.d.regs, sys := t.d.sys } } := by
    have hkey : 0xA5C3 = requestKey target := (if_neg (by have := requestable_range hr; omega)).symm
    rw [modeRequest_forwards hkey (requestBusy_of_free ht hb) hs (requestable_exitOk hr) hr] at hexec
    obtain ⟨hslot, hbusy, hregs, hframe⟩ := s.d.forward_waits target
    exact ⟨_, hexec, hslot, hbusy, hregs.get _ (by decide), hregs, congrArg (fun x => { s with d := x }) hframe⟩
  refine ⟨fun k s hr ht hb hs => ?_, fun s h4 h9 ht hb => ?_, fun c s m ht hb hc => ?_, fun s m hm => ?_, fun s hn => ?_⟩
  · exact hforwards hr ht hb (fun h8 => hs (Fin.ext (show k.val = 4 by omega))) rfl
  · exact hforwards (by simp [Dev.requestable, h4, h9]) ht hb (fun h => absurd h (by decide)) rfl
  · have hcarries {key : Nat} (hkey : key = requestKey m) (hm : m < 16) (hx : s.d.ExitOk m) (hs : s.d.StrapOk m)
        (hco : Dev.carriedOut s.d.mode m = true) (hexec : exec c s = .next { s with d := s.d.modeRequest key m false }) :
        Gives c s fun t => t.d.mode = m ∧ t.d.get R.SYSCTL_MODE_PREV = s.d.mode ∧ t.d.get R.SYSCTL_MODE_CAUSE = 1 ∧
          t.mem = s.mem ∧ t.d.pat = s.d.pat ∧ t.d.time = s.d.time ∧ t.d.repair = s.d.repair := by
      rw [modeRequest_carriesOut hkey (requestBusy_of_free ht hb) hs hx hco] at hexec
      have h := enterMode_entered s.d.unanswered hm (cause := 1) (by decide)
      exact ⟨_, hexec, h.mode, h.prev.trans (s.d.unanswered_get (by decide)), h.cause, rfl, h.pat, h.time, h.repair⟩
    have h8 (h : m ≠ 8) : s.d.StrapOk m := fun h' => absurd h' h
    rcases hc with ⟨rfl, rfl, h3, hst⟩ | ⟨rfl, rfl, h11, hopen⟩ | ⟨rfl, rfl, h10, hacc, hhigh, hopen⟩ | ⟨rfl, rfl, h3, hopen⟩
    · exact hcarries rfl (by decide) ⟨fun _ => hst, fun h => absurd h (by omega), fun h => absurd h (by omega)⟩
        (h8 (by decide)) (by rw [h3]; rfl) rfl
    · exact hcarries rfl (by decide) ⟨fun h => absurd h (by omega), fun _ => hopen, fun h => absurd h (by omega)⟩
        (h8 (by decide)) (by rw [h11]; rfl) rfl
    · exact hcarries rfl (by decide) ⟨fun h => absurd h (by omega), fun h => absurd h (by omega), fun _ => ⟨hacc, hhigh, hopen⟩⟩
        (h8 (by decide)) (by rw [h10]; rfl) rfl
    · exact hcarries rfl (by decide) ⟨fun h => absurd h (by omega), fun _ => hopen, fun h => absurd h (by omega)⟩
        (h8 (by decide)) (by rw [h3]; rfl) rfl
  · have hexec : exec .modeReqTimeout s = .next { s with d := s.d.unslot.refuseReq 7 } := by
      rw [exec_modeReqTimeout, if_pos (by rw [hm]; rfl)]
    obtain ⟨hslot, hbusy, hrefused, hreason, hregs, hframe⟩ := s.d.unslot_refused
    exact ⟨_, hexec, hslot, hbusy, hrefused, hreason, hregs, congrArg (fun x => { s with d := x }) hframe⟩
  · rw [Leads, exec_modeReqTimeout, if_neg (by rw [hn]; decide)]

end Sys2Proof.Machine
end

section
/-! ## The watchdog, the SAFE line, the pad ring and debug hold (R55, R57, R64 to R66, R532) -/

namespace Sys2Proof.Machine

variable {d e : Dev} {s : State}

/-! ### The watchdog (R55) -/

theorem exec_wdogKick (v : Word) (s : State) : exec (.wdogKick v) s =
    .next { s with d := if v = 0xA5C3 then { s.d with sys := { s.d.sys with wdogAt := s.d.time.short } } else s.d } := rfl

/-- The watchdog has expired. -/
def Dev.wdogExpired (d : Dev) : Dev := ({ d with sys := { d.sys with wdogFired := true } } : Dev).raise 0 78 0

theorem exec_wdogExpire (s : State) : exec .wdogExpire s =
    .next { s with d := if (s.d.isSet R.SYSCTL_WDOG_EN && !s.d.sys.wdogFired) = true then s.d.wdogExpired else s.d } := rfl

/-- A second expiry raises nothing. -/
theorem leads_wdogExpire_fired (h : s.d.sys.wdogFired = true) : Leads .wdogExpire s s := by
  rw [Leads, exec_wdogExpire, if_neg (by simp [h])]

theorem gives_wdogExpire (hen : s.d.get R.SYSCTL_WDOG_EN = 1) (hf : s.d.sys.wdogFired = false) :
    Gives .wdogExpire s fun t => Sends s t [reportOf s.d 0 78 0] ∧ t.d.sys.wdogFired = true ∧
      t = { s with d := { s.d with hoop := t.d.hoop, sys := t.d.sys } } ∧ Leads .wdogExpire t t := by
  have hexec : exec .wdogExpire s = .next { s with d := s.d.wdogExpired } := by
    rw [exec_wdogExpire, if_pos (by simp [Dev.isSet, hen, hf])]
  exact ⟨_, hexec, rfl, rfl, rfl, leads_wdogExpire_fired rfl⟩

theorem exec_wdogWarmReset (s : State) : exec .wdogWarmReset s =
    .next (if s.d.sys.wdogFired then s.warm R.SYSCTL_RST_CAUSE_WDOG else s) := rfl

/-! ### SAFE_N (R65, R66, R347) -/

/-- SAFE_N is held low from outside. -/
def Dev.heldLow (d : Dev) : Dev := { d with sys := { d.sys with safeExt := true, safeHigh := none } }

theorem exec_extSafe (s : State) : exec .extSafe s =
    .next { s with d := if s.d.mode ≠ 10 ∧ (!s.d.sys.safeDriven) = true ∧ s.d.sys.held = .none then s.d.heldLow.beginCond 0 79 0
                        else s.d.heldLow } := rfl

theorem RegsBut.setCond (d : Dev) (src : Nat) (b : Bool) : RegsBut [R.ACC_COND_SRC (src / 32)] d (d.setCond src b) :=
  isBank_cond.setBit d src b

/-- A condition begins with one report where it does not stand (R347). -/
theorem beginCond_begins (d : Dev) (isl src ctx : Nat) :
    (d.beginCond isl src ctx).bit R.ACC_COND_SRC src = true ∧ RegsBut [R.ACC_COND_SRC (src / 32)] d (d.beginCond isl src ctx) ∧
    (d.beginCond isl src ctx).hoop = d.hoop ++ (if d.bit R.ACC_COND_SRC src then [] else [reportOf d isl src ctx]) := by
  refine ⟨d.cond_beginCond isl src ctx, ?_, ?_⟩
  · rcases d.beginCond_cases isl src ctx with ⟨-, h⟩ | ⟨-, h⟩
    · rw [h]
      exact .refl _ _
    · rw [h]
      exact (RegsBut.setCond d src true).trans (.of_regs rfl)
  · rcases d.beginCond_cases isl src ctx with ⟨hb, h⟩ | ⟨hb, h⟩
    · rw [h, if_pos hb, List.append_nil]
    · rw [h, hb, Dev.raise_hoop, Dev.setCond_hoop, Dev.setCond_time]
      rfl

theorem gives_extSafe (s : State) : Gives .extSafe s fun t =>
    let due : Prop := s.d.mode ≠ 10 ∧ s.d.sys.safeDriven = false ∧ s.d.sys.held = .none
    (due → t.d.bit R.ACC_COND_SRC 79 = true ∧ RegsBut [R.ACC_COND_SRC 2] s.d t.d ∧
      Sends s t (if s.d.bit R.ACC_COND_SRC 79 then [] else [reportOf s.d 0 79 0])) ∧
    (¬due → t.d.regs = s.d.regs ∧ Sends s t []) ∧
    t = { s with d := { s.d with
      regs := t.d.regs, hoop := t.d.hoop, sys := { s.d.sys with safeExt := true, safeHigh := none } } } := by
  have hexec := exec_extSafe s
  simp only [Bool.not_eq_true'] at hexec
  by_cases hdue : s.d.mode ≠ 10 ∧ s.d.sys.safeDriven = false ∧ s.d.sys.held = .none
  · rw [if_pos hdue] at hexec
    obtain ⟨hbit, hregs, hhoop⟩ := beginCond_begins s.d.heldLow 0 79 0
    refine ⟨_, hexec, fun _ => ⟨hbit, hregs, hhoop⟩, fun h => absurd hdue h, ?_⟩
    exact congrArg (fun x => { s with d := x }) (Dev.beginCond_eq s.d.heldLow 0 79 0)
  · rw [if_neg hdue] at hexec
    exact ⟨_, hexec, fun h => absurd h hdue, fun _ => ⟨rfl, (List.append_nil _).symm⟩, rfl⟩

theorem exec_safeNRelease (s : State) : exec .safeNRelease s =
    .next { s with d := if s.d.safeNFree then { s.d with sys := { s.d.sys with
      safeDriven := false, safeHigh := if s.d.sys.safeExt then none else some s.d.time.short } } else s.d } := rfl

/-- Since when the line reads high after a change of it. -/
def Dev.lineHigh (d : Dev) (low : Bool) : Option Nat :=
  if low || d.sys.safeDriven then none else d.sys.safeHigh.or (some d.time.short)

/-- A line that is held low again. -/
theorem exec_safeNLineChange_low (s : State) : exec (.safeNLineChange true) s =
    .next { s with d := { s.d with sys := { s.d.sys with safeExt := true, safeHigh := s.d.lineHigh true } } } := rfl

/-- A released line ends the condition. -/
theorem exec_safeNLineChange_released (s : State) : exec (.safeNLineChange false) s =
    .next { s with d := { s.d.setCond 79 false with
      sys := { (s.d.setCond 79 false).sys with safeExt := false, safeHigh := s.d.lineHigh false } } } := by
  change execSafeNLineChange false s = _
  simp only [execSafeNLineChange, State.onDev, Bool.false_eq_true, if_false, Dev.lineHigh]

theorem gives_safeNLineChange (low : Bool) (s : State) : Gives (.safeNLineChange low) s fun t => t.d.sys.safeExt = low ∧
    (low = true ∨ s.d.sys.safeDriven = true → t.d.sys.safeHigh = none) ∧
    (low = false → s.d.sys.safeDriven = false → s.d.sys.safeHigh = none → t.d.sys.safeHigh = some s.d.time.short) ∧
    (low = true → t.d.regs = s.d.regs) ∧
    (low = false → t.d.bit R.ACC_COND_SRC 79 = false ∧ RegsBut [R.ACC_COND_SRC 2] s.d t.d) ∧
    t = { s with d := { s.d with regs := t.d.regs, sys := t.d.sys } } := by
  cases low with
  | true =>
    exact ⟨_, exec_safeNLineChange_low s, rfl, fun _ => rfl, fun h => (by cases h), fun _ => rfl, fun h => (by cases h), rfl⟩
  | false =>
    refine ⟨_, exec_safeNLineChange_released s, rfl, fun h => ?_, fun _ hd hn => ?_, fun h => (by cases h),
      fun _ => ⟨s.d.cond_setCond 79 false, RegsBut.setCond s.d 79 false⟩, ?_⟩
    · exact if_pos (by simpa using h)
    · show s.d.lineHigh false = _
      rw [Dev.lineHigh, if_neg (by simp [hd]), hn]
      rfl
    · exact congrArg (fun x : Dev => ({ s with d := { x with
        sys := { (s.d.setCond 79 false).sys with safeExt := false, safeHigh := s.d.lineHigh false } } } : State))
        (s.d.setCond_eq 79 false)

/-! ### The pad ring (R532, R533) -/

/-- The pad ring after a further fall of a rail, and the count of free values used. -/
def Dev.ringFalls (d : Dev) : PadRing × Nat :=
  match d.sys.ring with
  | .logic => (.hold, d.free)
  | .hold => (if (Config.freeWord d.free).getLsbD 0 then .gone else .hold, d.free + 1)
  | .gone => (.gone, d.free)

theorem exec_powerDown (s : State) : exec .powerDown s =
    .next { s with d := { s.d with free := s.d.ringFalls.2, sys := { s.d.sys with ring := s.d.ringFalls.1 } } } := by
  rw [show exec .powerDown s = execPowerDown s from rfl, execPowerDown, State.onDev, Dev.ringFalls]
  cases h : s.d.sys.ring with
  | logic => rfl
  | hold => rfl
  | gone =>
    dsimp only
    rw [← h]

/-- What stands at a ball without logic. -/
theorem ring_rest (h : d.sys.ring = .hold) (rest l : Level) : d.ring rest l = rest := by rw [Dev.ring, h]

theorem ring_gone (h : d.sys.ring = .gone) (rest l : Level) : d.ring rest l = .unpowered := by rw [Dev.ring, h]

theorem gpioBall_down (h : d.sys.ring ≠ .logic) (p : Nat) :
    d.gpioBall p = some (d.ring .hiZ (if d.padSoftoff p then .drive (d.gsup.softoff.contains p) else .hiZ)) :=
  if_neg fun hx => h hx.1

theorem gives_powerDown (s : State) : Gives .powerDown s fun t =>
    let up : Prop := t.d.sys.ring = .hold
    t = { s with d := { s.d with free := t.d.free, sys := { s.d.sys with ring := t.d.sys.ring } } } ∧
    (up ∨ t.d.sys.ring = .gone) ∧ (s.d.sys.ring = .logic → up ∧ t.d.free = s.d.free) ∧ (s.d.sys.ring = .gone → t = s) ∧
    (∀ leg low, (up → t.d.pwmBall leg low = .hiZ) ∧ (¬up → t.d.pwmBall leg low = .unpowered)) ∧
    (up → t.d.softoffEnBall = .hiZ) ∧ (¬up → t.d.softoffEnBall = .unpowered) ∧
    (∀ p, (up → t.d.gpioBall p = some .hiZ) ∧ (¬up → t.d.gpioBall p = some .unpowered)) ∧
    (∀ c, (up → t.d.rlyBall c = .pulledLow) ∧ (¬up → t.d.rlyBall c = .unpowered)) ∧
    (∀ k, (up → t.d.tpsBall k = .pulledLow) ∧ (¬up → t.d.tpsBall k = .unpowered)) := by
  have hring : s.d.ringFalls.1 = .hold ∨ s.d.ringFalls.1 = .gone := by
    unfold Dev.ringFalls
    split
    · exact .inl rfl
    · dsimp only
      split
      · exact .inr rfl
      · exact .inl rfl
    · exact .inr rfl
  refine ⟨_, exec_powerDown s, ?_⟩
  generalize ht : ({ s with d := { s.d with free := s.d.ringFalls.2, sys := { s.d.sys with ring := s.d.ringFalls.1 } } } : State) = t
  have htr : t.d.sys.ring = s.d.ringFalls.1 := by rw [← ht]
  rw [← htr] at hring
  have hgone (h : t.d.sys.ring ≠ .hold) : t.d.sys.ring = .gone := hring.resolve_left h
  have hdown : t.d.sys.ring ≠ .logic := by
    rcases hring with h | h <;> rw [h] <;> decide
  refine ⟨by rw [← ht], hring, fun h => ?_, fun h => ?_, fun leg low => ⟨fun h => ring_rest h _ _, fun h => ring_gone (hgone h) _ _⟩,
    fun h => ring_rest h _ _, fun h => ring_gone (hgone h) _ _, fun p => ⟨fun h => ?_, fun h => ?_⟩,
    fun c => ⟨fun h => ring_rest h _ _, fun h => ring_gone (hgone h) _ _⟩,
    fun k => ⟨fun h => ring_rest h _ _, fun h => ring_gone (hgone h) _ _⟩⟩
  · rw [htr, ← ht, Dev.ringFalls, h]
    exact ⟨rfl, rfl⟩
  · rw [← ht, Dev.ringFalls, h]
    dsimp only
    rw [← h]
  · rw [gpioBall_down hdown, ring_rest h]
  · rw [gpioBall_down hdown, ring_gone (hgone h)]

/-! ### Debug hold (R57, R64) -/

theorem exec_crystalNotQualified (s : State) : exec .crystalNotQualified s =
    .next { s with d := if s.d.mode = 0 ∧ s.d.sys.held = .none ∧ s.d.sys.debugHold = true ∧
      (!s.d.isSet R.CLK_STAT_XTAL_OK) = true then s.d.enterMode 1 0 else s.d } := rfl

/-- Settles O19: one clause for each command, each by its own lemma. -/
theorem watchdogSafeLineAndDebugHold : Obligations.WatchdogSafeLineAndDebugHold := by
  refine ⟨fun v s => ?_, fun s => ⟨gives_wdogExpire, fun h => ?_⟩, gives_extSafe, fun s => ⟨fun h => ?_, fun h => ?_⟩,
    gives_safeNLineChange, gives_powerDown, fun s h0 hheld hx => ⟨fun h => ?_, fun h => ?_⟩⟩
  · rw [Leads, exec_wdogKick]
    split <;> rfl
  · rw [Leads, exec_wdogWarmReset, h]
    rfl
  · rw [Leads, exec_safeNRelease, h]
    rfl
  · exact ⟨_, by rw [exec_safeNRelease, if_pos h], rfl, rfl, rfl⟩
  · have hexec : exec .crystalNotQualified s = .next { s with d := s.d.enterMode 1 0 } := by
      rw [exec_crystalNotQualified, if_pos ⟨h0, hheld, h, by simp [Dev.isSet, hx]⟩]
    exact ⟨_, hexec, (enterMode_entered s.d (by decide) (by decide)).mode, rfl⟩
  · rw [Leads, exec_crystalNotQualified, if_neg]
    rintro ⟨-, -, hd, -⟩
    rw [h] at hd
    cases hd

end Sys2Proof.Machine
end

section
/-! ## Resets and their release (R50 to R58) -/

namespace Sys2Proof.Machine

variable {d e f : Dev} {s : State}

/-! ### The Pattern store after a reset (R51) -/

theorem find?_filter_key {V : Type} (p : Nat → Bool) (l : List (Nat × V)) (a : Nat) :
    Sparse.find? (l.filter fun c => p c.1) a = if p a then Sparse.find? l a else none := by
  induction l with
  | nil => simp [Sparse.find?]
  | cons c t ih =>
    obtain ⟨b, v⟩ := c
    by_cases hb : p b
    · rw [List.filter_cons_of_pos (by exact hb), Sparse.find?, ih, Sparse.find?]
      by_cases hab : b = a
      · rw [if_pos hab, if_pos hab, if_pos (hab ▸ hb)]
      · rw [if_neg hab, if_neg hab]
    · rw [List.filter_cons_of_neg (by exact hb), ih, Sparse.find?]
      by_cases hab : b = a
      · rw [if_neg (hab ▸ hb), if_neg (hab ▸ hb)]
      · rw [if_neg hab]

theorem Mem.rd_clearPattern (m : Mem) (a : Nat) :
    Mem.rd (clearPattern m) a = if 0x3C000000 ≤ a ∧ a < 0x3C040000 then 0 else Mem.rd m a := by
  unfold Mem.rd Sparse.get clearPattern
  rw [find?_filter_key (fun a => !(decide (0x3C000000 ≤ a) && decide (a < 0x3C040000)))]
  by_cases h : 0x3C000000 ≤ a ∧ a < 0x3C040000
  · rw [if_pos h, if_neg (by simp [h.1, h.2])]
    rfl
  · rw [if_neg h, if_pos (by rw [Bool.not_eq_true', ← Bool.decide_and, decide_eq_false_iff_not]; exact h)]

/-! ### Registers that follow what a reset keeps (R146, R210, R519) -/

namespace RegsOnly

theorem refl (d : Dev) : RegsOnly d d := ⟨rfl⟩

theorem ite {c : Prop} [Decidable c] (h : RegsOnly d e) (g : RegsOnly d f) : RegsOnly d (if c then e else f) := by
  split
  · exact h
  · exact g

theorem foldl {α : Type} {g : Dev → α → Dev} : ∀ (l : List α) (d : Dev), (∀ d, ∀ x ∈ l, RegsOnly d (g d x)) →
    RegsOnly d (l.foldl g d)
  | [], d, _ => .refl d
  | x :: l, d, h => (h d x (by simp)).trans (foldl l _ fun d y hy => h d y (by simp [hy]))

end RegsOnly

/-- Registers that follow the clocks, the spares and the repair map: TIME.STATUS, LEDGER.SPARES, the converters' SLICEMAP and
STATUS, and WVx.MAPs. -/
def Followed (a : Nat) : Prop :=
  a = R.LEDGER_SPARES_STK_A.addr ∨ a = R.TIME_STATUS_BYP.addr ∨
    (∃ n, n < 4 ∧ (a = (R.ADC_SLICEMAP_FAILED n).addr ∨ a = (R.ADC_STATUS_OUT n).addr)) ∨
    ∃ n k, n < 2 ∧ k < 32 ∧ a = (R.WV_MAP_PHYS n k).addr

theorem followed_zones {a : Nat} (h : Followed a) : inZones [.spares, .time, .adc, .wv] a = true := by
  rw [inZones_iff]
  rcases h with rfl | rfl | ⟨n, hn, rfl | rfl⟩ | ⟨n, k, hn, hk, rfl⟩
  · exact ⟨.spares, by decide⟩
  · exact ⟨.time, by decide⟩
  · exact ⟨.adc, by decide, by simp only [Zone.span, R.ADC_SLICEMAP_FAILED]; omega⟩
  · exact ⟨.adc, by decide, by simp only [Zone.span, R.ADC_STATUS_OUT]; omega⟩
  · exact ⟨.wv, by decide, by simp only [Zone.span, R.WV_MAP_PHYS]; omega⟩

/-- Only registers that follow change. -/
structure Follows (d e : Dev) : Prop where
  frame : RegsOnly d e
  regs : ∀ a, ¬Followed a → e.rdw a = d.rdw a

namespace Follows

theorem refl (d : Dev) : Follows d d := ⟨.refl d, fun _ _ => rfl⟩

theorem trans (h : Follows d e) (g : Follows e f) : Follows d f :=
  ⟨h.frame.trans g.frame, fun a ha => (g.regs a ha).trans (h.regs a ha)⟩

theorem foldl {α : Type} {g : Dev → α → Dev} {l : List α} (h : Follows d e) (hg : ∀ f, ∀ x ∈ l, Follows d f → Follows d (g f x)) :
    Follows d (l.foldl g e) :=
  List.foldlRecOn l g h fun f hf x hx => hg f x hx hf

theorem when {c : Prop} [Decidable c] (h : Follows d e) (k : Follows d e → Follows d f) : Follows d (if c then f else e) := by
  split
  · exact k h
  · exact h

theorem set {g : Fld} {v : Nat} (h : Follows d e) (hg : Followed g.addr) : Follows d (e.set g v) :=
  h.trans ⟨Dev.set_frame e g v, fun _ ha => Dev.rdw_set_of_ne e v fun h => ha (h ▸ hg)⟩

theorem within (h : Follows d e) : Within [.spares, .time, .adc, .wv] d e :=
  .ofRegs h.frame.frame fun a ha => h.regs a fun hf => by
    rw [followed_zones hf] at ha
    cases ha

theorem get (h : Follows d e) {g : Fld} (hg : inZones [.spares, .time, .adc, .wv] g.addr = false) : e.get g = d.get g :=
  h.within.get hg

theorem bypSync (h : Follows d e) : Follows d e.bypSync := h.set (.inr (.inl rfl))

theorem sliceSync {c : Nat} (hc : c < 4) (h : Follows d e) : Follows d (e.sliceSync c) := by
  have hmap : Followed (R.ADC_SLICEMAP_FAILED c).addr := .inr (.inr (.inl ⟨c, hc, .inl rfl⟩))
  have hstatus : Followed (R.ADC_STATUS_OUT c).addr := .inr (.inr (.inl ⟨c, hc, .inr rfl⟩))
  exact .when (.when (.set (.set (.set (.set (.set h hmap) hmap) hmap) hmap) hstatus) fun h => .set h hstatus)
    fun h => .set h hstatus

theorem spareSync (h : Follows d e) : Follows d e.spareSync := by
  have hspares : Followed R.LEDGER_SPARES_STK_A.addr := .inl rfl
  exact .foldl (.set (.set (.set (.set (.set (.set (.set h hspares) hspares) hspares) hspares) hspares) hspares) hspares)
    fun _ _ hc h => .sliceSync (List.mem_range.mp hc) h

theorem mapSync (h : Follows d e) : Follows d e.mapSync := by
  refine .foldl h fun _ n hn h => .foldl h fun _ k hk h => ?_
  have hmap : Followed (R.WV_MAP_PHYS n k).addr := by
    refine .inr (.inr (.inr ⟨n, k, ?_, List.mem_range.mp hk, rfl⟩))
    simp only [List.mem_cons, List.not_mem_nil, or_false] at hn
    omega
  exact .set (.set h hmap) hmap

/-- What a reset makes follow. -/
theorem resetSync (d : Dev) : Follows d d.bypSync.spareSync.mapSync :=
  ((refl d).bypSync).spareSync.mapSync

end Follows

/-! ### What a warm reset keeps (R51) -/

/-- The fields share no bit. -/
def Fld.apart (f g : Fld) : Bool := decide (g.addr ≠ f.addr) || decide (g.lo + g.w ≤ f.lo) || decide (f.lo + f.w ≤ g.lo)

theorem get_set_apart (d : Dev) {f g : Fld} (v : Nat) (h : f.lo + f.w ≤ 32) (hd : f.apart g = true) :
    (d.set f v).get g = d.get g :=
  Dev.get_set_of_disjoint d v h (by simpa only [Fld.apart, Bool.or_eq_true, decide_eq_true_eq, or_assoc] using hd)

theorem keepFields_regs (old : Dev) : ∀ (fs : List Fld) (new : Dev), RegsOnly new (Dev.keepFields old new fs) ∧
    ∀ a, a ∉ fs.map Fld.addr → (Dev.keepFields old new fs).rdw a = new.rdw a
  | [], new => ⟨.refl new, fun _ _ => rfl⟩
  | f :: fs, new => by
    obtain ⟨hframe, hregs⟩ := keepFields_regs old fs (new.set f (old.get f))
    refine ⟨(Dev.set_frame new f _).trans hframe, fun a ha => ?_⟩
    simp only [List.map_cons, List.mem_cons, not_or] at ha
    exact (hregs a ha.2).trans (Dev.rdw_set_of_ne new _ ha.1)

theorem get_keepFields_apart (old : Dev) {g : Fld} : ∀ (fs : List Fld) (new : Dev),
    (∀ f ∈ fs, f.lo + f.w ≤ 32 ∧ f.apart g = true) → (Dev.keepFields old new fs).get g = new.get g
  | [], _, _ => rfl
  | f :: fs, new, h => by
    obtain ⟨hw, hd⟩ := h f (by simp)
    exact (get_keepFields_apart old fs _ fun x hx => h x (by simp [hx])).trans (get_set_apart new _ hw hd)

/-- Fields that share no bit are all copied. -/
theorem get_keepFields (old : Dev) {fs : List Fld} (hp : fs.Pairwise (fun f g => g.apart f = true))
    (hw : ∀ f ∈ fs, f.lo + f.w ≤ 32) {g : Fld} (hg : g ∈ fs) (new : Dev) :
    (Dev.keepFields old new fs).get g = old.get g := by
  induction fs generalizing new with
  | nil => cases hg
  | cons f fs ih =>
    rw [List.pairwise_cons] at hp
    rcases List.mem_cons.mp hg with rfl | hg
    · refine (get_keepFields_apart old fs _ fun x hx => ⟨hw x (by simp [hx]), hp.1 x hx⟩).trans ?_
      rw [Dev.get_set_self _ _ _ (hw g (by simp))]
      exact Nat.mod_eq_of_lt (old.get_lt g)
    · exact ih hp.2 (fun x hx => hw x (by simp [hx])) hg _

/-- SYSCTL's state in a warm reset. -/
def Sys.warm (x : Sys) : Sys :=
  { held := .warm, straps := x.straps, debugHold := x.debugHold, safeExt := x.safeExt, ring := x.ring, vddioB := x.vddioB }

/-- A device in a warm reset, before its registers take what is kept. -/
def Dev.warmBase (d : Dev) : Dev :=
  { otp := d.otp, free := d.free, repair := d.repair, dead := d.dead, weak := d.weak, clk := d.clk, sys := d.sys.warm,
    iso := { pins := d.iso.pins } }

/-- Its registers take what is kept and the cause. -/
def Dev.warmRegs (d : Dev) (cause : Fld) : Dev := (Dev.keepFields d d.warmBase Dev.warmKept).set cause 1

theorem warmReset_eq (h : d.sys.held ≠ .powerOn) (cause : Fld) :
    d.warmReset cause = (d.warmRegs cause).bypSync.spareSync.mapSync := if_neg h

theorem warmKept_apart : Dev.warmKept.Pairwise (fun f g => g.apart f = true) := by decide

theorem warmKept_distinct : ∀ f ∈ Dev.warmKept, ∀ g ∈ Dev.warmKept, g ≠ f → f.apart g = true := by decide

theorem warmKept_width : ∀ f ∈ Dev.warmKept, f.lo + f.w ≤ 32 := by decide

theorem warmKept_stays : ∀ f ∈ Dev.warmKept, inZones [.spares, .time, .adc, .wv] f.addr = false := by decide

/-- What a warm reset leaves: the kept fields, the cause, and reset words. -/
structure Dev.WarmlyReset (d e : Dev) (cause : Fld) : Prop where
  frame : RegsOnly d.warmBase e
  causeSet : e.get cause = 1
  kept : ∀ f ∈ Dev.warmKept, f ≠ cause → e.get f = d.get f
  reset : ∀ a, a ∉ Dev.warmKept.map Fld.addr → ¬Followed a → e.rdw a = resetWord a

theorem warmReset_warmlyReset (h : d.sys.held ≠ .powerOn) {cause : Fld} (hc : cause ∈ Dev.warmKept) (hw : cause.w = 1) :
    d.WarmlyReset (d.warmReset cause) cause := by
  rw [warmReset_eq h]
  have hfollow := Follows.resetSync (d.warmRegs cause)
  obtain ⟨hframe, hregs⟩ := keepFields_regs d Dev.warmKept d.warmBase
  refine ⟨(hframe.trans (Dev.set_frame _ _ _)).trans hfollow.frame, ?_, fun f hf hne => ?_, fun a ha hn => ?_⟩
  · rw [hfollow.get (warmKept_stays _ hc), Dev.warmRegs, Dev.get_set_self _ _ _ (warmKept_width _ hc), hw]
    rfl
  · rw [hfollow.get (warmKept_stays _ hf), Dev.warmRegs,
      get_set_apart _ _ (warmKept_width _ hc) (warmKept_distinct _ hc _ hf hne)]
    exact get_keepFields d warmKept_apart warmKept_width hf _
  · rw [hfollow.regs a hn, Dev.warmRegs, Dev.rdw_set_of_ne _ _ fun he => ha (by rw [he]; exact List.mem_map_of_mem hc),
      hregs a ha]
    exact Dev.rdw_of_nil rfl a

theorem State.warm_eq (h : s.d.sys.held ≠ .powerOn) (cause : Fld) :
    s.warm cause = { s with d := s.d.warmReset cause, mem := clearPattern s.mem } := if_neg h

/-- The commands of a warm reset, each with its cause (R50, R54, R55). -/
theorem exec_warm {c : Instr} {cause : Fld}
    (hc : (c = .warmResetPin ∧ cause = R.SYSCTL_RST_CAUSE_WARM_PIN) ∨ (c = .rstReqWarm 0xA5C3 ∧ cause = R.SYSCTL_RST_CAUSE_SW) ∨
      (c = .debugReset ∧ cause = R.SYSCTL_RST_CAUSE_DEBUG) ∨
      (c = .wdogWarmReset ∧ cause = R.SYSCTL_RST_CAUSE_WDOG ∧ s.d.sys.wdogFired = true)) :
    exec c s = .next (s.warm cause) ∧ cause ∈ Dev.warmKept ∧ cause.w = 1 := by
  rcases hc with ⟨rfl, rfl⟩ | ⟨rfl, rfl⟩ | ⟨rfl, rfl⟩ | ⟨rfl, rfl, hf⟩
  · exact ⟨rfl, by decide, rfl⟩
  · exact ⟨rfl, by decide, rfl⟩
  · exact ⟨rfl, by decide, rfl⟩
  · have hexec : exec .wdogWarmReset s = .next (if s.d.sys.wdogFired then s.warm R.SYSCTL_RST_CAUSE_WDOG else s) := rfl
    rw [if_pos hf] at hexec
    exact ⟨hexec, by decide, rfl⟩

theorem exec_rstReqWarm (key : BitVec 16) (s : State) :
    exec (.rstReqWarm key) s = .next (if key = 0xA5C3 then s.warm R.SYSCTL_RST_CAUSE_SW else s) := rfl

/-- Settles O17: a warm reset builds a device anew, copies the kept fields, and only `Followed` registers change after. -/
theorem warmResetsKeepTheAonState : Obligations.WarmResetsKeepTheAonState := by
  refine ⟨fun c cause s hheld hc => ?_, fun key s hk => ?_⟩
  · obtain ⟨hexec, hkept, hw⟩ := exec_warm hc
    obtain ⟨⟨hframe⟩, hcause, hfields, hreset⟩ := warmReset_warmlyReset hheld hkept hw
    rw [State.warm_eq hheld] at hexec
    generalize s.d.warmReset cause = x at hexec hframe hcause hfields hreset
    have hmode : x.mode = 0 := by
      have hword : x.rdw R.SYSCTL_MODE_CUR.addr = resetWord R.SYSCTL_MODE_CUR.addr :=
        hreset _ (by decide) fun hf => absurd (followed_zones hf) (by decide)
      rw [Dev.mode, Dev.get, hword]
      decide
    refine ⟨_, hexec, hmode, by rw [hframe]; rfl, hcause, hfields, fun a ha hsp ht hadc hmap => hreset a ha ?_,
      by rw [hframe]; rfl, by rw [hframe]; rfl, by rw [hframe]; rfl, by rw [hframe]; rfl, by rw [hframe]; rfl,
      by rw [hframe]; rfl, by rw [hframe]; rfl, by rw [hframe]; rfl, by rw [hframe]; rfl, by rw [hframe]; rfl,
      by rw [hframe]; rfl, by rw [hframe]; rfl, rfl, Mem.rd_clearPattern s.mem⟩
    rintro (h | h | ⟨n, hn, h | h⟩ | ⟨n, k, hn, hk, h⟩)
    · exact hsp h
    · exact ht h
    · exact (hadc n hn).1 h
    · exact (hadc n hn).2 h
    · exact hmap n k hn hk h
  · rw [Leads, exec_rstReqWarm, if_neg hk]

/-! ### The power-on reset (R53) -/

/-- A device in a power-on reset, before its cause is recorded. -/
def Dev.coldBase (d : Dev) : Dev :=
  { otp := d.otp, free := d.free, sys := { safeExt := d.sys.safeExt, ring := d.sys.ring }, iso := { pins := d.iso.pins } }

theorem Dev.coldBase_rdw (d : Dev) (a : Nat) : d.coldBase.rdw a = resetWord a := Dev.rdw_of_nil rfl a

/-- What a power-on reset leaves: its cause, and reset words. -/
structure Dev.ColdlyReset (d e : Dev) (cause : Nat) : Prop where
  frame : RegsOnly d.coldBase e
  causeWord : e.rdw 0x40000020 = word cause
  reset : ∀ a, a ≠ 0x40000020 → e.rdw a = resetWord a

theorem powerOnReset_pin (d : Dev) : d.ColdlyReset (d.powerOnReset false) 1 where
  frame := .refl _
  causeWord := (d.coldBase_rdw _).trans (by decide +kernel)
  reset a _ := d.coldBase_rdw a

theorem powerOnReset_brownout (d : Dev) : d.ColdlyReset (d.powerOnReset true) 2 where
  frame := (Dev.set_frame d.coldBase _ _).trans (Dev.set_frame _ _ _)
  causeWord := by
    show ((d.coldBase.set R.SYSCTL_RST_CAUSE_POR 0).set R.SYSCTL_RST_CAUSE_BROWNOUT 1).rdw 0x40000020 = word 2
    simp only [Dev.set, R.SYSCTL_RST_CAUSE_POR, R.SYSCTL_RST_CAUSE_BROWNOUT, Dev.rdw_wrw_self, Dev.coldBase_rdw]
    decide +kernel
  reset a ha := ((Dev.rdw_set_of_ne (d.coldBase.set R.SYSCTL_RST_CAUSE_POR 0) 1 ha).trans
    (Dev.rdw_set_of_ne d.coldBase 0 ha)).trans (d.coldBase_rdw a)

theorem exec_powerOnReset (s : State) : exec .powerOnReset s =
    .next { s with d := s.d.powerOnReset false, mem := clearPattern s.mem } := rfl

theorem exec_vddaonBrownout (s : State) : exec .vddaonBrownout s =
    .next { s with d := s.d.powerOnReset true, mem := clearPattern s.mem } := rfl

theorem gives_coldReset {c : Instr} {cause : Nat} {x : Dev}
    (hexec : exec c s = .next { s with d := x, mem := clearPattern s.mem }) (h : s.d.ColdlyReset x cause) : Gives c s fun t =>
      t.d.mode = 0 ∧ t.d.sys.held = .powerOn ∧ t.d.sys.testStuck = false ∧ t.d.rdw 0x40000020 = word cause ∧
      (∀ a, a ≠ 0x40000020 → t.d.rdw a = resetWord a) ∧ t.d.otp = s.d.otp ∧ t.d.hoop = [] ∧ t.d.time = {} ∧
      t.pending = s.pending ∧ (∀ a, Mem.rd t.mem a = if 0x3C000000 ≤ a ∧ a < 0x3C040000 then 0 else Mem.rd s.mem a) := by
  obtain ⟨⟨hframe⟩, hcause, hreset⟩ := h
  have hmode : x.mode = 0 := by
    rw [Dev.mode, Dev.get, hreset R.SYSCTL_MODE_CUR.addr (by decide)]
    decide
  exact ⟨_, hexec, hmode, by rw [hframe]; rfl, by rw [hframe]; rfl, hcause, hreset, by rw [hframe]; rfl, by rw [hframe]; rfl,
    by rw [hframe]; rfl, rfl, Mem.rd_clearPattern s.mem⟩

/-! ### The release of a power-on reset (R56 to R58, R62, R531) -/

/-- What the release latches. -/
structure Dev.Latched (d : Dev) (straps : BitVec 8) (boot : BitVec 3) (vddioB : Bool) : Prop where
  strapsAre : d.sys.straps = straps
  sealWord : d.get R.ISO_SEAL_LATCHED = straps.toNat
  pins : d.get R.SYSCTL_BOOT_PINS = boot.toNat
  level : d.sys.vddioB = vddioB
  ring : d.sys.ring = .logic
  reserved : d.get R.SYSCTL_RST_CAUSE_BOOT_RSV = if boot = 4 ∨ boot = 5 ∨ boot = 6 then 1 else 0

/-- Where the latched registers and SYSCTL's lasting state are the same, the same is latched. -/
theorem Dev.Latched.congr {straps : BitVec 8} {boot : BitVec 3} {vddioB : Bool} (h : d.Latched straps boot vddioB)
    (hs : e.sys.lasting = d.sys.lasting) (hseal : e.get R.ISO_SEAL_LATCHED = d.get R.ISO_SEAL_LATCHED)
    (hpins : e.get R.SYSCTL_BOOT_PINS = d.get R.SYSCTL_BOOT_PINS)
    (hrsv : e.get R.SYSCTL_RST_CAUSE_BOOT_RSV = d.get R.SYSCTL_RST_CAUSE_BOOT_RSV) : e.Latched straps boot vddioB where
  strapsAre := (congrArg Sys.straps hs : _).trans h.strapsAre
  sealWord := hseal.trans h.sealWord
  pins := hpins.trans h.pins
  level := (congrArg Sys.vddioB hs : _).trans h.level
  ring := (congrArg Sys.ring hs : _).trans h.ring
  reserved := hrsv.trans h.reserved

theorem Within.latched {straps : BitVec 8} {boot : BitVec 3} {vddioB : Bool} {zs : List Zone} (h : Within zs d e)
    (hz : zs ⊆ [.spares, .time, .adc, .wv, .iso, .cond]) (hl : d.Latched straps boot vddioB) : e.Latched straps boot vddioB :=
  have h := h.mono hz
  hl.congr (congrArg Sys.lasting h.sys) (h.get (by decide)) (h.get (by decide)) (h.get (by decide))

section
variable (d : Dev) (straps : BitVec 8) (boot : BitVec 3) (pins : ReleasePins)

/-- The registers of the latched pins. -/
def Dev.latchRegs : Dev :=
  ((((d.set R.ISO_SEAL_LATCHED straps.toNat).set R.ISO_SEAL_LIVE straps.toNat).set R.SYSCTL_BOOT_PINS boot.toNat).setB
    R.SYSCTL_RST_CAUSE_BOOT_RSV (boot.toNat == 4 || boot.toNat == 5 || boot.toNat == 6))

/-- SYSCTL's state at the release. -/
def Sys.latch (x : Sys) : Sys :=
  { x with straps := straps, debugHold := decide (4 ≤ boot.toNat), testStuck := pins.testmode, vddioB := pins.vddioB,
           ring := .logic }

theorem latchPins_eq : d.latchPins straps boot pins = ({ d with sys := d.sys.latch straps boot pins } : Dev).latchRegs straps boot :=
  rfl

theorem latchRegs_mode : (d.latchRegs straps boot).mode = d.mode := by
  rw [Dev.mode, Dev.latchRegs, Dev.setB, Dev.get_set_of_disjoint _ _ (by decide) (by decide),
    Dev.get_set_of_disjoint _ _ (by decide) (by decide), Dev.get_set_of_disjoint _ _ (by decide) (by decide),
    Dev.get_set_of_disjoint _ _ (by decide) (by decide), Dev.mode]

theorem latchPins_frame : d.latchPins straps boot pins =
    { d with regs := (d.latchPins straps boot pins).regs, sys := d.sys.latch straps boot pins } := rfl

omit d straps pins in
theorem reservedBoot : b2n (boot.toNat == 4 || boot.toNat == 5 || boot.toNat == 6) % 2 ^ R.SYSCTL_RST_CAUSE_BOOT_RSV.w =
    if boot = 4 ∨ boot = 5 ∨ boot = 6 then 1 else 0 := by
  revert boot
  decide

theorem latchPins_latched : (d.latchPins straps boot pins).Latched straps boot pins.vddioB := by
  rw [latchPins_eq]
  generalize hx : ({ d with sys := d.sys.latch straps boot pins } : Dev) = x
  have hsys : (x.latchRegs straps boot).sys = d.sys.latch straps boot pins := by
    rw [← hx]
    rfl
  refine ⟨by rw [hsys]; rfl, ?_, ?_, by rw [hsys]; rfl, by rw [hsys]; rfl, ?_⟩
  · rw [Dev.latchRegs, Dev.setB, Dev.get_set_of_disjoint _ _ (by decide) (by decide),
      Dev.get_set_of_disjoint _ _ (by decide) (by decide), Dev.get_set_of_disjoint _ _ (by decide) (by decide),
      Dev.get_set_self _ _ _ (by decide)]
    exact Nat.mod_eq_of_lt straps.isLt
  · rw [Dev.latchRegs, Dev.setB, Dev.get_set_of_disjoint _ _ (by decide) (by decide), Dev.get_set_self _ _ _ (by decide)]
    exact Nat.mod_eq_of_lt boot.isLt
  · rw [Dev.latchRegs, Dev.setB, Dev.get_set_self _ _ _ (by decide)]
    exact reservedBoot boot

end

/-- A released device, before debug hold. -/
def Dev.released (d : Dev) (safeHigh : Option Nat) : Dev :=
  (({ d with sys := { d.sys with held := .none, safeHigh := safeHigh }, repair := d.otpMap } : Dev).set
    R.CLK_STAT_ON_BYP 7).bypSync.spareSync.mapSync.rbSync

/-- The registers and the state that the release leaves; MODE is not among them. -/
structure Dev.Released (d e : Dev) (straps : BitVec 8) (boot : BitVec 3) (vddioB : Bool) : Prop where
  held : e.sys.held = .none
  latched : e.Latched straps boot vddioB
  bypass : e.get R.CLK_STAT_ON_BYP = 7
  repair : e.repair = d.otpMap

theorem released_within (d : Dev) (safeHigh : Option Nat) : Within [.spares, .time, .adc, .wv, .iso, .cond]
    (({ d with sys := { d.sys with held := .none, safeHigh := safeHigh }, repair := d.otpMap } : Dev).set
      R.CLK_STAT_ON_BYP 7) (d.released safeHigh) :=
  ((Follows.resetSync _).within.mono (by decide)).trans ((Within.rbSync _).mono (by decide))

theorem released_mode (d : Dev) (safeHigh : Option Nat) : (d.released safeHigh).mode = d.mode :=
  ((released_within d safeHigh).mode (by decide)).trans (Dev.get_set_of_disjoint _ _ (by decide) (by decide))

theorem released_released {straps : BitVec 8} {boot : BitVec 3} {vddioB : Bool} (h : d.Latched straps boot vddioB)
    (safeHigh : Option Nat) : d.Released (d.released safeHigh) straps boot vddioB := by
  have hw := released_within d safeHigh
  have hsys := hw.sys
  have hget {g : Fld} (hz : inZones [.spares, .time, .adc, .wv, .iso, .cond] g.addr = false) (hg : g.addr ≠ R.CLK_STAT_ON_BYP.addr) :
      (d.released safeHigh).get g = d.get g :=
    (hw.get hz).trans (Dev.get_set_of_disjoint _ _ (by decide) (.inl hg))
  refine ⟨congrArg Sys.held hsys, ⟨(congrArg Sys.straps hsys).trans h.strapsAre, ?_, ?_, (congrArg Sys.vddioB hsys).trans h.level,
    (congrArg Sys.ring hsys).trans h.ring, ?_⟩, (hw.get (by decide)).trans ?_, hw.repair⟩
  · exact (hget (by decide) (by decide)).trans h.sealWord
  · exact (hget (by decide) (by decide)).trans h.pins
  · exact (hget (by decide) (by decide)).trans h.reserved
  · exact Dev.get_set_self _ _ _ (by decide)

/-- A new load keeps the boot pins. -/
theorem clearLoad_pins (d : Dev) : d.clearLoad.get R.SYSCTL_BOOT_PINS = d.get R.SYSCTL_BOOT_PINS := by
  unfold Dev.clearLoad
  rw [get_set_apart _ _ (by decide) (by decide), get_set_apart _ _ (by decide) (by decide),
    get_set_apart _ _ (by decide) (by decide), get_set_apart _ _ (by decide) (by decide),
    get_set_apart _ _ (by decide) (by decide)]

theorem settleMode_get (d : Dev) (m : Nat) {g : Fld} (hg : inZones [.wv, .sdf, .pwm, .cond, .iso] g.addr = false) :
    (d.settleMode m).get g = d.get g :=
  (settleMode_within d m).get hg

theorem get_withSys (d : Dev) (x : Sys) (g : Fld) : ({ d with sys := x } : Dev).get g = d.get g := rfl

theorem startLoad_pins (d : Dev) : d.startLoad.get R.SYSCTL_BOOT_PINS = d.get R.SYSCTL_BOOT_PINS := by
  rw [Dev.startLoad, clearLoad_pins, get_withSys, (Within.lanesStop d).get (by decide)]

/-- The entry to M1 keeps the boot pins. -/
theorem enterMode_one_pins (d : Dev) (cause : Nat) :
    (d.enterMode 1 cause).get R.SYSCTL_BOOT_PINS = d.get R.SYSCTL_BOOT_PINS := by
  have hleave (x : Dev) (old : Nat) : (x.leaveMode old).get R.SYSCTL_BOOT_PINS = x.get R.SYSCTL_BOOT_PINS :=
    (Within.ite (.set x 0 (by decide)) (.refl x) : Within [.first] x (x.leaveMode old)).get (by decide)
  rw [enterMode_steps, settleMode_get _ _ (by decide), modeStart_one,
    startLoad_pins, hleave, Dev.get, d.atMode_rdw 1 cause (by decide), Dev.get]

theorem Entered.released {straps : BitVec 8} {boot : BitVec 3} {vddioB : Bool} {cause : Nat} (h : Entered e f 1 cause)
    (hp : f.get R.SYSCTL_BOOT_PINS = e.get R.SYSCTL_BOOT_PINS) (hr : d.Released e straps boot vddioB) :
    d.Released f straps boot vddioB where
  held := (congrArg Sys.held h.sys).trans hr.held
  latched := hr.latched.congr h.sys (h.get (by decide) (by decide)) hp (h.get (by decide) (by decide))
  bypass := (h.get (by decide) (by decide)).trans hr.bypass
  repair := h.repair.trans hr.repair

section
variable (hheld : d.sys.held = .powerOn) (hstuck : d.sys.testStuck = false) (straps : BitVec 8) (boot : BitVec 3) (vddioB : Bool)
include hheld hstuck

theorem release_testmode : d.release straps boot ⟨true, vddioB⟩ = d.latchPins straps boot ⟨true, vddioB⟩ := by
  simp only [Dev.release, hheld, hstuck, Bool.false_eq_true, if_false, if_true]

theorem release_run : d.release straps boot ⟨false, vddioB⟩ =
    if 4 ≤ boot.toNat then
      ((d.latchPins straps boot ⟨false, vddioB⟩).released (if d.sys.safeExt then none else some 0)).enterMode 1 0
    else (d.latchPins straps boot ⟨false, vddioB⟩).released (if d.sys.safeExt then none else some 0) := by
  have hhold (safeHigh : Option Nat) :
      ((d.latchPins straps boot ⟨false, vddioB⟩).released safeHigh).sys.debugHold = decide (4 ≤ boot.toNat) :=
    congrArg Sys.debugHold (released_within _ _).sys
  simp only [Dev.released] at hhold ⊢
  simp only [Dev.release, hheld, hstuck, Bool.false_eq_true, if_false, hhold, decide_eq_true_eq]

end

/-- With TESTMODE latched nothing more happens (R531). -/
theorem release_stuck (hheld : d.sys.held = .powerOn) (hstuck : d.sys.testStuck = true) (straps : BitVec 8) (boot : BitVec 3)
    (pins : ReleasePins) : d.release straps boot pins = d := by
  simp only [Dev.release, hheld, hstuck, if_true]

theorem exec_resetRelease (straps : BitVec 8) (boot : BitVec 3) (pins : ReleasePins) (s : State) :
    exec (.resetRelease straps boot pins) s = .next { s with d := s.d.release straps boot pins } := rfl

theorem latchPins_mode (d : Dev) (straps : BitVec 8) (boot : BitVec 3) (pins : ReleasePins) :
    (d.latchPins straps boot pins).mode = d.mode := by
  rw [latchPins_eq, latchRegs_mode]
  rfl

theorem Dev.Latched.spelled {straps : BitVec 8} {boot : BitVec 3} {vddioB : Bool} (h : d.Latched straps boot vddioB) :
    d.sys.straps = straps ∧ d.get R.ISO_SEAL_LATCHED = straps.toNat ∧ d.get R.SYSCTL_BOOT_PINS = boot.toNat ∧
      d.sys.vddioB = vddioB ∧ d.sys.ring = .logic ∧
      d.get R.SYSCTL_RST_CAUSE_BOOT_RSV = (if boot = 4 ∨ boot = 5 ∨ boot = 6 then 1 else 0) :=
  ⟨h.strapsAre, h.sealWord, h.pins, h.level, h.ring, h.reserved⟩

/-- The device after a release without TESTMODE, in M1 for debug hold. -/
theorem release_run_released (hheld : d.sys.held = .powerOn) (hstuck : d.sys.testStuck = false) (hmode : d.mode = 0)
    (straps : BitVec 8) (boot : BitVec 3) (vddioB : Bool) :
    (d.latchPins straps boot ⟨false, vddioB⟩).Released (d.release straps boot ⟨false, vddioB⟩) straps boot vddioB ∧
      (d.release straps boot ⟨false, vddioB⟩).mode = if 4 ≤ boot.toNat then 1 else 0 := by
  have hreleased := released_released (latchPins_latched d straps boot ⟨false, vddioB⟩) (if d.sys.safeExt then none else some 0)
  rw [release_run hheld hstuck]
  by_cases hb : 4 ≤ boot.toNat
  · rw [if_pos hb, if_pos hb]
    have hentered := enterMode_entered ((d.latchPins straps boot ⟨false, vddioB⟩).released (if d.sys.safeExt then none else some 0))
      (m := 1) (cause := 0) (by decide) (by decide)
    exact ⟨hentered.released (enterMode_one_pins _ 0) hreleased, hentered.mode⟩
  · rw [if_neg hb, if_neg hb, released_mode, latchPins_mode, hmode]
    exact ⟨hreleased, rfl⟩

/-- Settles O18: the reset builds a device anew, and the release latches the pins before anything else of it happens. -/
theorem powerOnResetAndItsRelease : Obligations.PowerOnResetAndItsRelease := by
  refine ⟨fun c cause s hc => ?_, fun straps boot vddioB s hheld hstuck hmode => ⟨?_, ?_⟩⟩
  · rcases hc with ⟨rfl, rfl⟩ | ⟨rfl, rfl⟩
    · exact gives_coldReset (exec_powerOnReset s) (powerOnReset_pin s.d)
    · exact gives_coldReset (exec_vddaonBrownout s) (powerOnReset_brownout s.d)
  · have hexec := exec_resetRelease straps boot ⟨true, vddioB⟩ s
    rw [release_testmode hheld hstuck] at hexec
    have hsys : (s.d.latchPins straps boot ⟨true, vddioB⟩).sys = s.d.sys.latch straps boot ⟨true, vddioB⟩ :=
      congrArg Dev.sys (latchPins_frame s.d straps boot ⟨true, vddioB⟩)
    have hheld' : (s.d.latchPins straps boot ⟨true, vddioB⟩).sys.held = .powerOn := (congrArg Sys.held hsys).trans hheld
    refine ⟨_, hexec, (latchPins_mode _ _ _ _).trans hmode, hheld', (latchPins_latched s.d straps boot _).spelled, rfl,
      fun x b p => ?_⟩
    rw [Leads, exec_resetRelease, release_stuck hheld' (congrArg Sys.testStuck hsys)]
  · obtain ⟨hreleased, hto⟩ := release_run_released hheld hstuck hmode straps boot vddioB
    exact ⟨_, exec_resetRelease straps boot _ s, hreleased.held, hreleased.latched.spelled, hreleased.bypass,
      hreleased.repair.trans rfl, hto, rfl⟩

end Sys2Proof.Machine
end

section
/-! ## The self test, the entry to M3 and the profile window (R38, R62, R107, R284, R514) -/

namespace Sys2Proof.Machine

variable {d e f : Dev} {s : State}

/-! ### Repair keeps the mode -/

/-- The mode and SYSCTL's own state stay. -/
structure KeepsMode (d e : Dev) : Prop where
  mode : e.mode = d.mode
  sys : e.sys = d.sys

namespace KeepsMode

theorem refl (d : Dev) : KeepsMode d d := ⟨rfl, rfl⟩

theorem other (h : KeepsMode d e) (hr : f.regs = e.regs) (hs : f.sys = e.sys) : KeepsMode d f :=
  ⟨(Dev.get_congr hr _).trans h.mode, hs.trans h.sys⟩

theorem set {g : Fld} {v : Nat} (h : KeepsMode d e) (hw : g.lo + g.w ≤ 32) (hg : g.apart R.SYSCTL_MODE_CUR = true) :
    KeepsMode d (e.set g v) :=
  ⟨(get_set_apart e v hw hg).trans h.mode, h.sys⟩

theorem follows (h : KeepsMode d e) (hf : Follows e f) : KeepsMode d f :=
  ⟨(hf.get (by decide)).trans h.mode, hf.within.sys.trans h.sys⟩

theorem foldl {α : Type} {g : Dev → α → Dev} (l : List α) (hg : ∀ e x, KeepsMode d e → KeepsMode d (g e x))
    (h : KeepsMode d e) : KeepsMode d (l.foldl g e) :=
  List.foldlRecOn l g h fun e he x _ => hg e x he

theorem spareSync (h : KeepsMode d e) : KeepsMode d e.spareSync := h.follows (Follows.refl e).spareSync

theorem spareGone {entry : Nat} (h : KeepsMode d e) : KeepsMode d (e.spareGone entry) :=
  set (e := e.raise Dev.islGUARD 169 entry) (h.other rfl rfl) (by decide) (by decide)

theorem bindSpare {entry : Nat} {lastOne : Bool} (h : KeepsMode d e) : KeepsMode d (e.bindSpare entry lastOne) := by
  have hbound : KeepsMode d (({ e with repair := e.repair ++ [(word entry, true)] } : Dev).raise Dev.islGUARD 168 entry) :=
    h.other rfl rfl
  unfold Dev.bindSpare
  dsimp only
  split
  · exact hbound.spareGone
  · exact hbound

theorem tapRepair {leg t : Nat} (h : KeepsMode d e) : KeepsMode d (e.tapRepair leg t) := by
  unfold Dev.tapRepair
  split
  · exact h.bindSpare.spareSync
  · have hcoarse : KeepsMode d ((e.setLeg leg { e.leg leg with coarse := true }).raise Dev.islGUARD 171 leg) := h.other rfl rfl
    exact hcoarse.spareGone.spareSync

theorem bistUnit {r : Dev × Bool} {u : BadUnit} (h : KeepsMode d r.1) : KeepsMode d (Dev.bistUnit r u).1 := by
  unfold Dev.bistUnit
  extract_lets +onlyGivenNames x
  have hx : KeepsMode d x := h
  clear_value x
  split
  next =>
    dsimp only
    split
    · split
      · dsimp only
        exact hx.bindSpare.spareSync
      · dsimp only
        exact hx.spareGone.spareSync
    · split
      · dsimp only
        exact hx.spareGone.spareSync
      · dsimp only
        exact hx.spareSync
  next =>
    extract_lets +onlyGivenNames _
    split
    · exact h
    · extract_lets +onlyGivenNames y _ z
      have hy : KeepsMode d y := hx.other rfl rfl
      clear_value y
      have hz : KeepsMode d z := by
        unfold z
        split
        · exact hy.bindSpare
        · exact hy.spareGone
      dsimp only
      exact hz.spareSync
  next =>
    split
    · dsimp only
      exact hx.bindSpare.spareSync
    · extract_lets +onlyGivenNames _ y
      have hy : KeepsMode d y := hx.spareGone
      clear_value y
      split
      · dsimp only
        exact hy.spareSync
      · dsimp only
        exact spareSync (hy.other rfl rfl)
  next => exact hx.tapRepair

theorem bistUnits : ∀ (us : List BadUnit) (r : Dev × Bool), KeepsMode d r.1 → KeepsMode d (us.foldl Dev.bistUnit r).1
  | [], _, h => h
  | _ :: us, _, h => bistUnits us _ h.bistUnit

end KeepsMode

/-! ### What the check shows (R107, R141, R146) -/

/-- A property that each step of a fold establishes for its own element, and that the others keep. -/
theorem foldl_forall {α : Type} {g : Dev → α → Dev} {I : Dev → Prop} {Q : α → Dev → Prop} :
    ∀ (l : List α) (e : Dev), (∀ e, ∀ x ∈ l, I e → I (g e x) ∧ Q x (g e x)) →
      (∀ e, ∀ x ∈ l, ∀ y, I e → Q y e → Q y (g e x)) → I e →
      I (l.foldl g e) ∧ (∀ y, Q y e → Q y (l.foldl g e)) ∧ ∀ x ∈ l, Q x (l.foldl g e)
  | [], _, _, _, hi => ⟨hi, fun _ h => h, fun _ h => by cases h⟩
  | x :: l, e, hstep, hkeep, hi => by
    obtain ⟨hi', hx⟩ := hstep e x (by simp) hi
    obtain ⟨hl, hold, hnew⟩ := foldl_forall l (g e x) (fun e y hy => hstep e y (by simp [hy]))
      (fun e y hy => hkeep e y (by simp [hy])) hi'
    refine ⟨hl, fun y hy => hold y (hkeep e x (by simp) y hi hy), fun y hy => ?_⟩
    rcases List.mem_cons.mp hy with rfl | hy
    · exact hold _ hx
    · exact hnew y hy

theorem servedBy_congr (h : e.repair = d.repair) (n k : Nat) : e.servedBy n k = d.servedBy n k := by
  simp only [Dev.servedBy, Dev.entries, h]

theorem stakeDead_congr (h : e.dead = d.dead) (n p : Nat) : e.stakeDead n p = d.stakeDead n p := by
  simp only [Dev.stakeDead, h]

/-- A binding names a Stake by six bits (R513). -/
theorem servedBy_lt (d : Dev) {n k : Nat} (hk : k < 32) : d.servedBy n k < 64 := by
  have hnext (p q : Nat)
      (h : ((d.entries 1 fun e => bits e 7 1 == n && bits e 0 6 == p).head?.map fun e => bits e 8 6) = some q) : q < 64 := by
    obtain ⟨e, -, rfl⟩ := Option.map_eq_some_iff.mp h
    exact Nat.mod_lt _ (by decide)
  unfold Dev.servedBy
  dsimp only
  split
  next => omega
  next q hq =>
    cases hn : (d.entries 1 fun e => bits e 7 1 == n && bits e 0 6 == q).head?.map fun e => bits e 8 6 with
    | none => exact hnext _ _ hq
    | some p => exact hnext _ _ hn

/-- WVx.MAPs shows what serves a logical Stake. -/
def MapShows (d : Dev) (n k : Nat) (e : Dev) : Prop :=
  e.get (R.WV_MAP_PHYS n k) = d.servedBy n k ∧ (e.get (R.WV_MAP_SPARE n k) = 1 ↔ 32 ≤ d.servedBy n k)

/-- WVx.STATUS.FORMED shows whether every logical Stake is bound to one that passed. -/
def FormShows (d : Dev) (n : Nat) (e : Dev) : Prop :=
  e.get (R.WV_STATUS_FORMED n) = 1 ↔ ∀ k, k < 32 → d.stakeDead n (d.servedBy n k) = false

/-- The same of a lane and a Stake named together. -/
def MapShowsAt (d : Dev) (p : Nat × Nat) (e : Dev) : Prop := p.2 < 32 → MapShows d p.1 p.2 e

/-- The registers of one logical Stake of a lane. -/
def Dev.mapSet (d : Dev) (p : Nat × Nat) : Dev :=
  (d.set (R.WV_MAP_PHYS p.1 p.2) (d.servedBy p.1 p.2)).setB (R.WV_MAP_SPARE p.1 p.2) (decide (32 ≤ d.servedBy p.1 p.2))

theorem mapSync_eq (d : Dev) : d.mapSync = (List.product [0, 1] (List.range 32)).foldl Dev.mapSet d := by
  rw [List.product, List.foldl_flatMap]
  simp only [List.foldl_map]
  rfl

theorem get_setB_self (d : Dev) {g : Fld} (b : Bool) (hw : g.w = 1) (hg : g.lo + g.w ≤ 32) :
    (d.setB g b).get g = 1 ↔ b = true := by
  rw [Dev.setB, Dev.get_set_self _ _ _ hg, hw]
  revert b
  decide

theorem mapSet_repair (d : Dev) (p : Nat × Nat) : (d.mapSet p).repair = d.repair := rfl

theorem mapSet_shows (h : e.repair = d.repair) (p : Nat × Nat) : MapShowsAt d p (e.mapSet p) := by
  intro hk
  unfold MapShows Dev.mapSet
  rw [servedBy_congr h]
  constructor
  · rw [Dev.setB, Dev.get_set_of_disjoint _ _ (by simp [R.WV_MAP_SPARE]) (by simp [R.WV_MAP_PHYS, R.WV_MAP_SPARE]),
      Dev.get_set_self _ _ _ (by simp [R.WV_MAP_PHYS])]
    exact Nat.mod_eq_of_lt (servedBy_lt d hk)
  · rw [get_setB_self _ _ rfl (by simp [R.WV_MAP_SPARE]), decide_eq_true_eq]

/-- Another Stake's registers stay; the own ones show the same again. -/
theorem mapSet_keeps (h : e.repair = d.repair) {p q : Nat × Nat} (hp : p.2 < 32) (hs : MapShowsAt d q e) :
    MapShowsAt d q (e.mapSet p) := by
  intro hq
  by_cases he : (R.WV_MAP_PHYS q.1 q.2).addr = (R.WV_MAP_PHYS p.1 p.2).addr
  · have hsame : q = p := by
      simp only [R.WV_MAP_PHYS] at he
      exact Prod.ext (by omega) (by omega)
    rw [hsame]
    exact mapSet_shows h p hp
  · have hget (g : Fld) (hg : g.addr = (R.WV_MAP_PHYS q.1 q.2).addr) : (e.mapSet p).get g = e.get g := by
      rw [Dev.get, Dev.mapSet, Dev.setB, Dev.rdw_set_of_ne _ _ (by rw [hg]; exact he), Dev.rdw_set_of_ne _ _ (by rw [hg]; exact he), Dev.get]
    rw [MapShows, hget _ rfl, hget (R.WV_MAP_SPARE q.1 q.2) rfl]
    exact hs hq

theorem mapSync_shows (d : Dev) {n k : Nat} (hn : n < 2) (hk : k < 32) : MapShows d n k d.mapSync := by
  have hkeep (e : Dev) (p : Nat × Nat) (hp : p ∈ List.product [0, 1] (List.range 32)) (q : Nat × Nat)
      (he : e.repair = d.repair) (hq : MapShowsAt d q e) : MapShowsAt d q (e.mapSet p) :=
    mapSet_keeps he (List.mem_range.mp (List.mem_product.mp hp).2) hq
  obtain ⟨-, -, hshows⟩ := foldl_forall (I := fun e => e.repair = d.repair) (g := Dev.mapSet) (Q := MapShowsAt d) _ d
    (fun e p _ he => ⟨(mapSet_repair e p).trans he, mapSet_shows he p⟩) hkeep rfl
  rw [mapSync_eq]
  refine hshows (n, k) (List.mem_product.mpr ⟨?_, List.mem_range.mpr hk⟩) hk
  simp only [List.mem_cons, List.not_mem_nil, or_false]
  omega

/-- Nothing but FORMED and SPARES_USED of one lane changes. -/
theorem formSync_rdw (d : Dev) {n a : Nat} (h : a ≠ (R.WV_STATUS_FORMED n).addr) : (d.formSync n).rdw a = d.rdw a := by
  rw [Dev.formSync, Dev.rdw_set_of_ne (f := R.WV_STATUS_SPARES_USED n) _ _ h, Dev.setB, Dev.rdw_set_of_ne _ _ h]

theorem formSync_shows (d : Dev) (n : Nat) : FormShows d n (d.formSync n) := by
  rw [FormShows, Dev.formSync, Dev.get_set_of_disjoint _ _ (by simp [R.WV_STATUS_SPARES_USED])
    (by simp [R.WV_STATUS_FORMED, R.WV_STATUS_SPARES_USED]), get_setB_self _ _ rfl (by simp [R.WV_STATUS_FORMED])]
  simp only [List.all_map, List.all_eq_true, List.mem_range, Function.comp_apply, Bool.not_eq_true']

/-- What the registers show after the check. -/
structure Shown (d e : Dev) : Prop where
  repair : e.repair = d.repair
  dead : e.dead = d.dead
  forms : ∀ n, n < 2 → FormShows d n e
  maps : ∀ n k, n < 2 → k < 32 → MapShows d n k e

/-- The lanes' pages are not written any more. -/
theorem Shown.trans (h : Shown d e) (hrepair : f.repair = e.repair) (hdead : f.dead = e.dead)
    (hr : ∀ a, inZones [.wv] a = true → f.rdw a = e.rdw a) : Shown d f := by
  have hget {n k : Nat} {g : Fld} (hn : n < 2) (hg : g.addr = 0x40008000 + k + 0x1000 * n) (hk : k < 0x1000) :
      f.get g = e.get g := by
    rw [Dev.get, hr _ (inZones_cons (by simp only [Zone.span]; omega) (by simp only [Zone.span]; omega)), Dev.get]
  refine ⟨hrepair.trans h.repair, hdead.trans h.dead, fun n hn => ?_, fun n k hn hk => ?_⟩
  · rw [FormShows, hget (k := 0) hn rfl (by decide)]
    exact h.forms n hn
  · rw [MapShows, hget (k := 0x180 + 4 * k) hn (by simp only [R.WV_MAP_PHYS]; omega) (by omega),
      hget (k := 0x180 + 4 * k) hn (by simp only [R.WV_MAP_SPARE]; omega) (by omega)]
    exact h.maps n k hn hk

theorem FormShows.congr {n : Nat} (h : FormShows d n f) (hr : e.repair = d.repair) (hd : e.dead = d.dead) : FormShows e n f := by
  simpa only [FormShows, servedBy_congr hr, stakeDead_congr hd] using h

theorem MapShows.congr {n k : Nat} (h : MapShows d n k f) (hr : e.repair = d.repair) : MapShows e n k f := by
  simpa only [MapShows, servedBy_congr hr] using h

theorem formSync_frame (d : Dev) (n : Nat) : RegsOnly d (d.formSync n) := (Dev.set_frame _ _ _).trans (Dev.set_frame _ _ _)

/-- The registers of both lanes follow the bindings. -/
def Dev.showLanes (d : Dev) : Dev := (d.mapSync.formSync 0).formSync 1

theorem showLanes_shown (d : Dev) : Shown d d.showLanes := by
  have hsync := (Follows.refl d).mapSync.frame
  have hzero := formSync_frame d.mapSync 0
  have hone := formSync_frame (d.mapSync.formSync 0) 1
  have hregs {a : Nat} (h0 : a ≠ 0x40008000) (h1 : a ≠ 0x40009000) : d.showLanes.rdw a = d.mapSync.rdw a :=
    (formSync_rdw _ h1).trans (formSync_rdw _ h0)
  have hall := (hsync.trans hzero).trans hone
  refine ⟨by rw [Dev.showLanes, hall.frame], by rw [Dev.showLanes, hall.frame], fun n hn => ?_, fun n k hn hk => ?_⟩
  · obtain rfl | rfl : n = 0 ∨ n = 1 := by omega
    · have hlast : d.showLanes.get (R.WV_STATUS_FORMED 0) = (d.mapSync.formSync 0).get (R.WV_STATUS_FORMED 0) := by
        rw [Dev.get, Dev.showLanes, formSync_rdw _ (by decide), Dev.get]
      rw [FormShows, hlast]
      exact (formSync_shows d.mapSync 0).congr (by rw [hsync.frame]) (by rw [hsync.frame])
    · exact (formSync_shows (d.mapSync.formSync 0) 1).congr (by rw [(hsync.trans hzero).frame]) (by rw [(hsync.trans hzero).frame])
  · have hget (g : Fld) (hg : g.addr = (R.WV_MAP_PHYS n k).addr) : d.showLanes.get g = d.mapSync.get g := by
      rw [Dev.get, hregs (by rw [hg]; simp only [R.WV_MAP_PHYS]; omega) (by rw [hg]; simp only [R.WV_MAP_PHYS]; omega), Dev.get]
    rw [MapShows, hget _ rfl, hget (R.WV_MAP_SPARE n k) rfl]
    exact mapSync_shows d hn hk

theorem KeepsMode.showLanes (h : KeepsMode d e) : KeepsMode d e.showLanes := by
  have hform (x : Dev) (n : Nat) (hn : n < 2) (hx : KeepsMode d x) : KeepsMode d (x.formSync n) := by
    have hne : R.SYSCTL_MODE_CUR.addr ≠ (R.WV_STATUS_FORMED n).addr := by
      simp only [R.SYSCTL_MODE_CUR, R.WV_STATUS_FORMED]
      omega
    refine ⟨?_, by rw [(formSync_frame x n).frame]; exact hx.sys⟩
    rw [Dev.mode, Dev.get, formSync_rdw x hne]
    exact hx.mode
  exact hform _ 1 (by decide) (hform _ 0 (by decide) (h.follows (Follows.refl e).mapSync))

/-! ### The end of the check (R38, R514) -/

/-- The failed units of a check: those found, and the rows marked weak. -/
def Dev.bistUnits (d : Dev) (bad : List BadUnit) : List BadUnit := bad ++ d.weak.filter fun u => !bad.contains u

/-- The device at the start of its repairs. -/
def Dev.bistStart (d : Dev) (bad : List BadUnit) : Dev :=
  { (d.stakesTested (fun _ => true) bad).forgetHits (d.bistUnits bad) with weak := [] }

/-- The units that BIST found failing are repaired. -/
def Dev.bistRepairs (d : Dev) (bad : List BadUnit) : Dev × Bool := (d.bistUnits bad).foldl bistUnit (d.bistStart bad, true)

/-- The device runs with a resource that has no unbound spare. -/
def Dev.showDegraded (d : Dev) : Dev := if d.exhausted then d.set R.SYSCTL_MODE_DEGRADED 1 else d

theorem bist_eq (d : Dev) (bad : List BadUnit) : d.bist bad =
    ((d.usedUp.foldl Dev.spareGone (d.bistRepairs bad).1).spareSync.showLanes.showDegraded, (d.bistRepairs bad).2) := rfl

theorem KeepsMode.showDegraded (h : KeepsMode d e) : KeepsMode d e.showDegraded := by
  unfold Dev.showDegraded
  split
  · exact h.set (by decide) (by decide)
  · exact h

theorem bistStart_keepsMode (d : Dev) (bad : List BadUnit) : KeepsMode d (d.bistStart bad) :=
  (KeepsMode.refl d).other (f := d.bistStart bad) rfl rfl

theorem bist_keepsMode (d : Dev) (bad : List BadUnit) : KeepsMode d (d.bist bad).1 := by
  have hrepairs : KeepsMode d (d.bistRepairs bad).1 := .bistUnits _ _ (bistStart_keepsMode d bad)
  rw [bist_eq]
  dsimp only
  generalize (d.bistRepairs bad).1 = x at hrepairs ⊢
  have hgone : KeepsMode d (d.usedUp.foldl Dev.spareGone x) := hrepairs.foldl _ fun _ _ h => h.spareGone
  exact hgone.spareSync.showLanes.showDegraded

theorem showDegraded_frame (d : Dev) : RegsOnly d d.showDegraded := .ite (Dev.set_frame _ _ _) (.refl _)

theorem Shown.showDegraded (h : Shown d e) : Shown d e.showDegraded := by
  refine h.trans (by rw [(showDegraded_frame e).frame]) (by rw [(showDegraded_frame e).frame]) fun a ha => ?_
  unfold Dev.showDegraded
  split
  · refine Dev.rdw_set_of_ne _ _ fun h => ?_
    rw [h] at ha
    revert ha
    decide
  · rfl

theorem bist_shown (d : Dev) (bad : List BadUnit) : ∃ x, Shown x (d.bist bad).1 := by
  rw [bist_eq]
  dsimp only
  exact ⟨_, (showLanes_shown _).showDegraded⟩

/-- The converters calibrate where M2 follows M1 (R62, R189). -/
def Dev.calibrate (d : Dev) : Dev :=
  if d.sys.startup then
    (List.range 4).foldl (fun d c => if d.adcOut c then d else d.set (R.ADC_STATUS_CAL_BUSY c) 1) d
  else d

theorem calibrate_frame (d : Dev) : RegsOnly d d.calibrate :=
  .ite (.foldl _ _ fun d _ _ => .ite (.refl d) (Dev.set_frame d _ _)) (.refl d)

theorem Within.calibrate (d : Dev) : Within [.adc] d d.calibrate := by
  refine .ite (.foldl _ _ fun d c hc => .ite (.refl d) (.set d _ (inZones_cons ?_ ?_))) (.refl d)
  · simp only [Zone.span, R.ADC_STATUS_CAL_BUSY]
    omega
  · have := List.mem_range.mp hc
    simp only [Zone.span, R.ADC_STATUS_CAL_BUSY]
    omega

/-- The check is done. -/
def Dev.checkDone (d : Dev) : Dev := ({ d with sys := { d.sys with bistDone := true } } : Dev).calibrate

theorem exec_bistComplete {bad : List BadUnit} {e : Dev} {formable : Bool} (hmode : s.d.mode = 2)
    (hdone : s.d.sys.bistDone = false) (hbist : s.d.bist bad = (e, formable)) :
    exec (.bistComplete bad) s = .next { s with d := if formable then e.checkDone else e.failInto10 6 } := by
  rw [show exec (.bistComplete bad) s = execBistComplete bad s from rfl, execBistComplete, State.onDev,
    if_neg (by simp [hmode, hdone]), hbist]
  cases formable with
  | false => simp only [Bool.not_false, Bool.false_eq_true, if_false, if_true]
  | true => simp only [Bool.not_true, Bool.false_eq_true, if_false, if_true, Dev.checkDone, Dev.calibrate]

/-- Registers of the lanes are none of the converters'. -/
theorem adc_of_wv {a : Nat} (h : inZones [.wv] a = true) : inZones [.adc] a = false := by
  simp only [inZones, List.any_cons, List.any_nil, Bool.or_false, Zone.span, Bool.and_eq_true] at h
  simp only [inZones, List.any_cons, List.any_nil, Bool.or_false, Zone.span, Bool.and_eq_false_iff]
  have hlt := of_decide_eq_true h.2
  exact .inl (decide_eq_false (by omega))

theorem checkDone_shown (h : Shown d e) : Shown d e.checkDone := by
  refine h.trans (by rw [Dev.checkDone, (calibrate_frame _).frame]) (by rw [Dev.checkDone, (calibrate_frame _).frame])
    fun a ha => ?_
  rw [Dev.checkDone, (Within.calibrate _).regs a (adc_of_wv ha)]
  exact Dev.rdw_congr rfl a

theorem checkDone_mode (d : Dev) : d.checkDone.mode = d.mode := by
  rw [Dev.checkDone, (Within.calibrate _).mode (by decide), Dev.mode, get_withSys, Dev.mode]

theorem checkDone_done (d : Dev) : d.checkDone.sys.bistDone = true := by
  rw [Dev.checkDone, (Within.calibrate _).sys]

/-- A held decision is fulfilled by the entry to M10 (R359). -/
def Dev.letGo (d : Dev) : Dev := { d with acc := { d.acc with heldSafe := none } }

theorem letGo_get (d : Dev) (g : Fld) : d.letGo.get g = d.get g := rfl

theorem failInto10_eq (d : Dev) (cause : Nat) : d.failInto10 cause = d.letGo.enterMode 10 cause := rfl

/-- A failed check ends in M10. -/
theorem failInto10_safe (h : d.mode ≠ 10) {cause : Nat} (hc : cause < 256) : (d.failInto10 cause).mode = 10 ∧
    (d.failInto10 cause).get R.SYSCTL_MODE_PREV = d.mode ∧ (d.failInto10 cause).get R.SYSCTL_MODE_CAUSE = cause ∧
    (d.failInto10 cause).sys.safeDriven = true := by
  rw [failInto10_eq]
  have hsafe := enterMode_safe (d := d.letGo) h hc
  exact ⟨hsafe.mode, hsafe.prev.trans (letGo_get d _), hsafe.cause, hsafe.safe⟩

theorem Shown.spelled (h : Shown d e) {n : Nat} (hn : n < 2) :
    (e.get (R.WV_STATUS_FORMED n) = 1 ↔ ∀ k, k < 32 → e.stakeDead n (e.servedBy n k) = false) ∧
      ∀ k, k < 32 → e.get (R.WV_MAP_PHYS n k) = e.servedBy n k ∧ (e.get (R.WV_MAP_SPARE n k) = 1 ↔ 32 ≤ e.servedBy n k) :=
  ⟨(h.forms n hn).congr h.repair h.dead, fun k hk => (h.maps n k hn hk).congr h.repair⟩

/-! ### The start of the lanes (R62, R322) -/

/-- A lane's state in LANE.STATUS. -/
def stateFld (n : Nat) : Fld := if n = 0 then R.LANE_STATUS_STATE_A else R.LANE_STATUS_STATE_B

theorem laneState_eq (d : Dev) (n : Nat) : d.laneState n = d.get (stateFld n) := by
  unfold Dev.laneState stateFld
  split <;> rfl

theorem Within.laneState {zs : List Zone} (h : Within zs d e) (hz : inZones zs 0x4000A004 = false) (n : Nat) :
    e.laneState n = d.laneState n := by
  have haddr : (stateFld n).addr = 0x4000A004 := by
    unfold stateFld
    split <;> rfl
  rw [laneState_eq, laneState_eq, h.get (by rw [haddr]; exact hz)]

/-- The state of the lane is written, and nothing else of LANE.STATUS. -/
theorem setLaneState_get (d : Dev) {n code : Nat} (hc : code < 8) : (d.setLaneState n code).laneState n = code ∧
    ∀ g : Fld, g.addr = 0x4000A004 → (stateFld n).apart g = true → (d.setLaneState n code).get g = d.get g := by
  by_cases hsame : d.laneState n = code
  · rw [Dev.setLaneState, if_pos hsame]
    exact ⟨hsame, fun _ _ _ => rfl⟩
  · have hfld : (stateFld n).lo + (stateFld n).w ≤ 32 ∧ (stateFld n).w = 3 ∧ (stateFld n).addr = 0x4000A004 := by
      unfold stateFld
      split <;> decide
    obtain ⟨hlo, hw, haddr⟩ := hfld
    have hset : Within [.coef] (d.set (stateFld n) code) (d.setLaneState n code) := by
      rw [Dev.setLaneState, if_neg hsame]
      exact (Within.request _ _ _).trans (Within.coefSettle _)
    refine ⟨?_, fun g hg happ => ?_⟩
    · rw [hset.laneState (by decide), laneState_eq, Dev.get_set_self _ _ _ hlo, hw]
      exact Nat.mod_eq_of_lt hc
    · rw [hset.get (by rw [hg]; decide), get_set_apart _ _ hlo happ]

/-- Where lane A is ACTIVE, LANE.STATUS says so, and the states stay. -/
theorem laneStatus_active (h : d.laneState 0 = 1) : d.laneStatus.get R.LANE_STATUS_ACTIVE = 0 ∧
    ∀ n, d.laneStatus.laneState n = d.laneState n := by
  have hpeers (c : Prop) [Decidable c] : Within [.cond, .dpl] (d.set R.LANE_STATUS_ACTIVE 0)
      (if c then d.set R.LANE_STATUS_ACTIVE 0 else (d.set R.LANE_STATUS_ACTIVE 0).coloPeers) :=
    .ite (.refl _) (.coloPeers _)
  have hkeeps (x : Dev) (n : Nat) {g : Fld} (v : Nat) (hlo : g.lo + g.w ≤ 32) (hg : ∀ n, g.apart (stateFld n) = true) :
      (x.set g v).laneState n = x.laneState n := by
    rw [laneState_eq, laneState_eq, get_set_apart _ _ hlo (hg n)]
  have hfld {g : Fld} (h0 : g.apart R.LANE_STATUS_STATE_A = true) (h1 : g.apart R.LANE_STATUS_STATE_B = true) (n : Nat) :
      g.apart (stateFld n) = true := by
    unfold stateFld
    split <;> assumption
  simp only [Dev.laneStatus, h, if_true]
  have hwithin := hpeers ((d.set R.LANE_STATUS_ACTIVE 0).get R.LANE_STATUS_ACTIVE = d.get R.LANE_STATUS_ACTIVE)
  generalize (if (d.set R.LANE_STATUS_ACTIVE 0).get R.LANE_STATUS_ACTIVE = d.get R.LANE_STATUS_ACTIVE then
    d.set R.LANE_STATUS_ACTIVE 0 else (d.set R.LANE_STATUS_ACTIVE 0).coloPeers) = x at hwithin
  refine ⟨?_, fun n => ?_⟩
  · rw [Dev.setB, get_set_apart _ _ (by decide) (by decide), hwithin.get (by decide), Dev.get_set_self _ _ _ (by decide),
      Nat.zero_mod]
  · rw [Dev.setB, hkeeps _ _ _ (by decide) (hfld (by decide) (by decide)), hwithin.laneState (by decide),
      hkeeps _ _ _ (by decide) (hfld (by decide) (by decide))]

theorem lanesStart_states (d : Dev) : d.lanesStart.laneState 0 = 1 ∧ d.lanesStart.laneState 1 = 2 ∧
    d.lanesStart.get R.LANE_STATUS_ACTIVE = 0 := by
  unfold Dev.lanesStart
  generalize (d.startLane 0).startLane 1 = x
  obtain ⟨hzero, -⟩ := setLaneState_get x (n := 0) (code := 1) (by decide)
  generalize x.setLaneState 0 1 = y at hzero ⊢
  obtain ⟨hone, hkeeps⟩ := setLaneState_get y (n := 1) (code := 2) (by decide)
  have hactive : (y.setLaneState 1 2).laneState 0 = 1 := by
    rw [laneState_eq, hkeeps (stateFld 0) rfl (by decide), ← laneState_eq, hzero]
  obtain ⟨hstatus, hstates⟩ := laneStatus_active hactive
  exact ⟨(hstates 0).trans hactive, (hstates 1).trans hone, hstatus⟩

theorem startStandby_from2 (d : Dev) : d.startStandby 2 =
    (List.range 4).foldl (fun d c => if d.adcOut c then d.raise (adcIsland c) 58 c else d)
      ({ d with sys := { d.sys with seen3 := true, coresOut := d.sys.coresOut || 2 == 2 } } : Dev).clearTrips.lanesStart := rfl

/-- The lanes and the cores as M3 is entered from M2. -/
structure Standby (d : Dev) : Prop where
  active : d.laneState 0 = 1
  synced : d.laneState 1 = 2
  status : d.get R.LANE_STATUS_ACTIVE = 0
  seen : d.sys.seen3 = true
  cores : d.sys.coresOut = true

theorem startStandby_standby (d : Dev) : Standby (d.startStandby 2) := by
  rw [startStandby_from2]
  have hsys : (d.sys.coresOut || 2 == 2) = true := by simp
  rw [hsys]
  generalize hx : ({ d with sys := { d.sys with seen3 := true, coresOut := true } } : Dev) = x
  have hstart := ((Within.clearTrips x).mono (ws := entryZones) (by decide)).trans ((Within.lanesStart _).mono (by decide))
  have hreports : Within [] x.clearTrips.lanesStart _ := Within.adcReports x.clearTrips.lanesStart
  obtain ⟨hzero, hone, hactive⟩ := lanesStart_states x.clearTrips
  have hsame := (hreports.mono (ws := entryZones) (by decide)).sys.trans hstart.sys
  exact ⟨(hreports.laneState rfl 0).trans hzero, (hreports.laneState rfl 1).trans hone, (hreports.get rfl).trans hactive,
    by rw [hsame, ← hx], by rw [hsame, ← hx]⟩

theorem settleMode_standby (h : Standby d) (m : Nat) : Standby (d.settleMode m) := by
  have hw := settleMode_within d m
  have hwin : Standby ({ d with sys := { d.sys with profWait := [0, 1] } } : Dev) :=
    ⟨h.active, h.synced, h.status, h.seen, h.cores⟩
  exact ⟨(hw.laneState (by decide) 0).trans hwin.active, (hw.laneState (by decide) 1).trans hwin.synced,
    (hw.get (by decide)).trans hwin.status, by rw [hw.sys]; exact hwin.seen, by rw [hw.sys]; exact hwin.cores⟩

theorem enterMode_standby (h : d.mode = 2) (cause : Nat) : Standby (d.enterMode 3 cause) := by
  rw [enterMode_steps, h, modeStart_three]
  exact settleMode_standby (startStandby_standby _) 3

theorem heldResolve_none (h : d.acc.heldSafe = none) : d.heldResolve = d := by
  simp only [Dev.heldResolve, h]

/-- What STANDBY_ENTRY waits for (R62). -/
def State.standbyDue (s : State) : Prop :=
  s.d.mode = 2 ∧ s.d.sys.bistDone = true ∧
    (s.d.sys.startup = false ∨ s.lanesEqual = true ∧ ∀ c, c < 4 → s.d.adcOut c = true ∨ c ∈ s.d.sys.calDone) ∧
    s.d.get R.CFG_STATUS_SPLIT = 0

theorem exec_standbyEntry_due (h : s.standbyDue) : exec .standbyEntry s =
    .next { s with d := (s.d.enterMode 3 (s.d.get R.SYSCTL_MODE_CAUSE)).heldResolve } := by
  obtain ⟨hmode, hdone, hcal, hsplit⟩ := h
  rw [show exec .standbyEntry s = execStandbyEntry s from rfl, execStandbyEntry, State.onDev, if_pos]
  refine ⟨hmode, hdone, ?_, by simp [Dev.isSet, hsplit]⟩
  simpa using hcal

theorem exec_standbyEntry_waits (h : ¬s.standbyDue) : exec .standbyEntry s = .next s := by
  rw [show exec .standbyEntry s = execStandbyEntry s from rfl, execStandbyEntry, State.onDev, if_neg]
  rintro ⟨hmode, hdone, hcal, hsplit⟩
  exact h ⟨hmode, hdone, by simpa using hcal, by simpa [Dev.isSet] using hsplit⟩

/-! ### The profile window (R96, R284) -/

/-- A lane that waits may take its profile words. -/
def State.profileReady (s : State) (n : Nat) : Prop :=
  s.d.get R.CFG_STATUS_LOADED = 1 ∧ s.d.lc.copying = false ∧ s.d.laneState n ∈ [1, 2, 3] ∧ ∀ r ∈ (s.d.lane n).runs, r.ls ≠ 15

theorem profileDue_iff (s : State) (n : Nat) : s.profileDue n = true ↔ n ∈ s.d.sys.profWait ∧ s.profileReady n := by
  have hbit : s.d.isSet R.CFG_STATUS_LOADED = true ↔ s.d.get R.CFG_STATUS_LOADED = 1 := by
    have hlt : s.d.get R.CFG_STATUS_LOADED < 2 := s.d.get_lt _
    simp only [Dev.isSet, bne_iff_ne, ne_eq]
    omega
  simp only [State.profileDue, State.profileReady, Bool.and_eq_true, hbit, List.contains_iff_mem, Bool.not_eq_true',
    List.any_eq_false, beq_iff_eq, and_assoc]

/-- The words of the profile window: the request that waits, and the current and the previous mode. -/
def State.profileReq (s : State) : Word :=
  match s.d.sys.slot with
  | some m => word (m + 256 * (s.d.sys.reqSeq % 256))
  | none => 0

def State.profileCur (s : State) : Word := word (s.d.mode + 16 * s.d.get R.SYSCTL_MODE_PREV)

/-- A lane's profile window. -/
def State.profileAt (s : State) (n : Nat) : Nat := laneBase n + s.d.pat.profOff

/-- Memory with a lane's words. -/
def State.profileMem (s : State) (n : Nat) : Mem :=
  Mem.wrWord (Mem.wrWord s.mem (s.profileAt n + 0xE4) s.profileReq) (s.profileAt n + 0xE8) s.profileCur

/-- The lanes that wait, and memory, change. -/
def State.withProfile (s : State) (m : Mem) (l : List Nat) : State :=
  { s with mem := m, d := { s.d with sys := { s.d.sys with profWait := l } } }

theorem takeProfile_due {n : Nat} (h : s.profileDue n = true) :
    s.takeProfile n = s.withProfile (s.profileMem n) (s.d.sys.profWait.filter (· != n)) := if_pos h

theorem takeProfile_not {n : Nat} (h : ¬s.profileDue n = true) : s.takeProfile n = s := if_neg h

/-- What a lane's turn does. -/
structure ProfileTaken (s t : State) (n : Nat) : Prop where
  frame : t = s.withProfile t.mem t.d.sys.profWait
  waits : ∀ k, k ∈ t.d.sys.profWait → k ∈ s.d.sys.profWait
  others : ∀ k, k ≠ n → k ∈ s.d.sys.profWait → k ∈ t.d.sys.profWait
  taken : s.profileDue n = true → n ∉ t.d.sys.profWait ∧ Mem.word t.mem (s.profileAt n + 0xE4) = s.profileReq ∧
    Mem.word t.mem (s.profileAt n + 0xE8) = s.profileCur
  outside : ∀ a, (s.profileDue n = true → a < s.profileAt n + 0xE4 ∨ s.profileAt n + 0xEC ≤ a) → Mem.rd t.mem a = Mem.rd s.mem a

theorem takeProfile_taken (s : State) (n : Nat) : ProfileTaken s (s.takeProfile n) n := by
  by_cases h : s.profileDue n = true
  · rw [takeProfile_due h]
    refine ⟨rfl, fun k hk => (List.mem_filter.mp hk).1, fun k hne hk => List.mem_filter.mpr ⟨hk, by simpa using hne⟩,
      fun _ => ⟨fun hn => ?_, ?_, ?_⟩, fun a ha => ?_⟩
    · have hne := (List.mem_filter.mp hn).2
      simp at hne
    · exact (Mem.word_wrWord_of_disjoint _ _ (by omega)).trans (Mem.word_wrWord _ _ _)
    · exact Mem.word_wrWord _ _ _
    · have hout := ha h
      show Mem.rd (s.profileMem n) a = _
      rw [State.profileMem, Mem.rd_wrWord, if_neg (by omega), Mem.rd_wrWord, if_neg (by omega)]
  · rw [takeProfile_not h]
    exact ⟨rfl, fun _ h => h, fun _ _ h => h, fun h' => absurd h' h, fun _ _ => rfl⟩

theorem withProfile_ready (s : State) (m : Mem) (l : List Nat) (n : Nat) :
    (s.withProfile m l).profileReady n ↔ s.profileReady n := Iff.rfl

/-- Lane A's turn leaves lane B's words to be taken as before. -/
theorem ProfileTaken.due {t : State} {n k : Nat} (h : ProfileTaken s t n) (hk : k ≠ n) : t.profileDue k = true ↔ s.profileDue k = true := by
  have hready : t.profileReady k ↔ s.profileReady k := by
    rw [h.frame, withProfile_ready]
  rw [profileDue_iff, profileDue_iff, hready]
  exact and_congr_left fun _ => ⟨h.waits k, h.others k hk⟩

theorem ProfileTaken.words {t : State} {n : Nat} (h : ProfileTaken s t n) (k : Nat) :
    t.profileAt k = s.profileAt k ∧ t.profileReq = s.profileReq ∧ t.profileCur = s.profileCur := by
  rw [h.frame]
  exact ⟨rfl, rfl, rfl⟩

/-- Both lanes' turns. -/
structure ProfilesTaken (s t : State) : Prop where
  frame : t = s.withProfile t.mem t.d.sys.profWait
  taken : ∀ n, n < 2 → s.profileDue n = true → n ∉ t.d.sys.profWait ∧ Mem.word t.mem (s.profileAt n + 0xE4) = s.profileReq ∧
    Mem.word t.mem (s.profileAt n + 0xE8) = s.profileCur
  outside : ∀ a, (∀ n, n < 2 → s.profileDue n = true → a < s.profileAt n + 0xE4 ∨ s.profileAt n + 0xEC ≤ a) →
    Mem.rd t.mem a = Mem.rd s.mem a

theorem takeProfiles_taken (s : State) : ProfilesTaken s ((s.takeProfile 0).takeProfile 1) := by
  have hfirst := takeProfile_taken s 0
  generalize s.takeProfile 0 = t at hfirst ⊢
  have hsecond := takeProfile_taken t 1
  generalize t.takeProfile 1 = u at hsecond ⊢
  obtain ⟨hat, hreq, hcur⟩ := hfirst.words 1
  have hdue := hfirst.due (k := 1) (by decide)
  have hapart : s.profileAt 0 + 0xEC ≤ s.profileAt 1 := by
    simp only [State.profileAt, laneBase]
    omega
  have hkept (a : Nat) (ha : a < s.profileAt 1 + 0xE4) : Mem.rd u.mem a = Mem.rd t.mem a :=
    hsecond.outside a fun _ => .inl (by rw [hat]; exact ha)
  have hword (a : Nat) (ha : a + 4 ≤ s.profileAt 1 + 0xE4) : Mem.word u.mem a = Mem.word t.mem a := by
    rw [Mem.word, Mem.num_congr 4 u.mem t.mem a fun b _ hb => hkept b (by omega), Mem.word]
  refine ⟨?_, fun n hn hn' => ?_, fun a ha => ?_⟩
  · rw [hsecond.frame, hfirst.frame]
    rfl
  · obtain rfl | rfl : n = 0 ∨ n = 1 := by omega
    · obtain ⟨hnot, h1, h2⟩ := hfirst.taken hn'
      exact ⟨fun hin => hnot (hsecond.waits 0 hin), (hword _ (by omega)).trans h1, (hword _ (by omega)).trans h2⟩
    · obtain ⟨hnot, h1, h2⟩ := hsecond.taken (hdue.mpr hn')
      rw [hat, hreq] at h1
      rw [hat, hcur] at h2
      exact ⟨hnot, h1, h2⟩
  · refine (hsecond.outside a fun h1 => ?_).trans (hfirst.outside a (ha 0 (by decide)))
    rw [hat]
    exact ha 1 (by decide) (hdue.mp h1)

theorem exec_profileWindowUpdate (s : State) :
    exec .profileWindowUpdate s = .next ((s.takeProfile 0).takeProfile 1) := rfl

/-- Settles O20: the check by what follows the bindings, the entry to M3 by the start of the lanes, the profile window by
the turns of both lanes. -/
theorem checkStandbyAndProfileWindow : Obligations.CheckStandbyAndProfileWindow := by
  refine ⟨fun bad s hmode hdone => ?_, fun s hmode hdone hcal hsplit hheld => ?_, fun s hnot => ?_, fun s _ => ?_⟩
  · have hkeeps := bist_keepsMode s.d bad
    obtain ⟨x, hshown⟩ := bist_shown s.d bad
    have hexec := exec_bistComplete (e := (s.d.bist bad).1) hmode hdone (Prod.mk.eta (p := s.d.bist bad)).symm
    generalize (s.d.bist bad).1 = e at hkeeps hshown hexec
    have he : e.mode = 2 := hkeeps.mode.trans hmode
    refine ⟨fun hok => ?_, fun hbad => ?_⟩
    · rw [hok, if_pos rfl] at hexec
      exact ⟨_, hexec, checkDone_done e, (checkDone_mode e).trans he, rfl, fun n hn => (checkDone_shown hshown).spelled hn⟩
    · rw [hbad, if_neg Bool.false_ne_true] at hexec
      obtain ⟨hten, hprev, hcause, hsafe⟩ := failInto10_safe (d := e) (by omega) (cause := 6) (by decide)
      exact ⟨_, hexec, hten, hprev.trans he, hcause, hsafe, rfl⟩
  · have hexec := exec_standbyEntry_due ⟨hmode, hdone, hcal, hsplit⟩
    have hentered := enterMode_entered s.d (m := 3) (cause := s.d.get R.SYSCTL_MODE_CAUSE) (by decide) (s.d.get_lt _)
    have hstandby := enterMode_standby hmode (s.d.get R.SYSCTL_MODE_CAUSE)
    generalize s.d.enterMode 3 (s.d.get R.SYSCTL_MODE_CAUSE) = e at hexec hentered hstandby
    rw [heldResolve_none (by rw [hentered.acc]; exact hheld)] at hexec
    exact ⟨_, hexec, hentered.mode, hentered.prev.trans hmode, hstandby.active, hstandby.synced, hstandby.status, hstandby.seen,
      hstandby.cores, rfl⟩
  · refine exec_standbyEntry_waits fun hdue => ?_
    obtain ⟨hmode, hdone, hcal, hsplit⟩ := hdue
    rcases hnot with h | h | h | ⟨hstart, h⟩
    · exact h hmode
    · exact Bool.false_ne_true (h.symm.trans hdone)
    · omega
    · rcases hcal with hcal | ⟨hequal, hcal⟩
      · exact Bool.false_ne_true (hcal.symm.trans hstart)
      · rcases h with h | ⟨c, hc, hin, hout⟩
        · exact Bool.false_ne_true (h.symm.trans hequal)
        · rcases hcal c hc with h | h
          · exact Bool.false_ne_true (hin.symm.trans h)
          · exact hout h
  · obtain ⟨hframe, htaken, houtside⟩ := takeProfiles_taken s
    exact ⟨_, exec_profileWindowUpdate s, fun n hn htakes => htaken n hn ((profileDue_iff s n).mpr htakes),
      fun a ha => houtside a fun n hn hdue => ha n hn ((profileDue_iff s n).mp hdue), hframe⟩

end Sys2Proof.Machine
end

section
/-! ## Pattern loads (R56 to R61, R68 to R86, R546) -/

namespace Sys2Proof.Machine

variable {d e f : Dev} {s t : State}

/-! ### What an application leaves alone (R73 to R85) -/

/-- Registers below CFG stay, as does the place of the profile window. -/
structure LoadsInto (d e : Dev) : Prop where
  regs : ∀ a, a < 0x40004000 → e.rdw a = d.rdw a
  prof : e.pat.profOff = d.pat.profOff

namespace LoadsInto

theorem refl (d : Dev) : LoadsInto d d := ⟨fun _ _ => rfl, rfl⟩

theorem other (h : LoadsInto d e) (hr : f.regs = e.regs) (hp : f.pat.profOff = e.pat.profOff) : LoadsInto d f :=
  ⟨fun a ha => (Dev.rdw_congr hr a).trans (h.regs a ha), hp.trans h.prof⟩

theorem wrw {a : Nat} {v : Word} (h : LoadsInto d e) (ha : 0x40004000 ≤ a) : LoadsInto d (e.wrw a v) :=
  ⟨fun b hb => (Dev.rdw_wrw_of_ne e v (by omega)).trans (h.regs b hb), h.prof⟩

theorem set {g : Fld} {v : Nat} (h : LoadsInto d e) (hg : 0x40004000 ≤ g.addr) : LoadsInto d (e.set g v) := h.wrw hg

theorem foldl {α : Type} {g : Dev → α → Dev} {l : List α} (h : LoadsInto d e)
    (hg : ∀ f x, LoadsInto d f → LoadsInto d (g f x)) : LoadsInto d (l.foldl g e) :=
  List.foldlRecOn l g h fun f hf x _ => hg f x hf

theorem when {c : Prop} [Decidable c] (h : LoadsInto d e) (k : LoadsInto d e → LoadsInto d f) :
    LoadsInto d (if c then f else e) := by
  split
  · exact k h
  · exact h

theorem ite {c : Prop} [Decidable c] (h : LoadsInto d e) (k : LoadsInto d f) : LoadsInto d (if c then e else f) := by
  split
  · exact h
  · exact k

theorem within {zs : List Zone} (h : LoadsInto d e) (hw : Within zs e f) (hz : ∀ z ∈ zs, 0x40004000 ≤ z.span.1) :
    LoadsInto d f := by
  refine ⟨fun a ha => (hw.regs a ?_).trans (h.regs a ha), (congrArg Pattern.profOff hw.pat).trans h.prof⟩
  rw [Bool.eq_false_iff]
  intro hin
  obtain ⟨z, hmem, hlo, -⟩ := inZones_iff.mp hin
  have := hz z hmem
  omega

theorem loadFld {g : Fld} {v : Nat} (h : LoadsInto d e) (hg : 0x40004000 ≤ g.addr) : LoadsInto d (e.loadFld g v) := by
  unfold Dev.loadFld
  extract_lets +onlyGivenNames x y
  have hx : LoadsInto d x := h.set hg
  have hy : LoadsInto d y := by
    unfold y
    split
    · exact hx
    · exact hx.other rfl rfl
  exact hy.other rfl rfl

theorem loadLoopset {ls : Nat} {l : List Nat} (h : LoadsInto d e) : LoadsInto d (e.loadLoopset ls l) := by
  unfold Dev.loadLoopset
  extract_lets +onlyGivenNames x y z
  have hz : LoadsInto d z := h.other rfl rfl
  clear_value z
  refine hz.foldl fun f n hf => (hf.wrw ?_).wrw ?_
  · simp only [R.WV_LS_CFG_KIND]
    omega
  · simp only [R.WV_LS_PERIOD_NS]
    omega

theorem adcSync {c : Nat} (h : LoadsInto d e) : LoadsInto d (e.adcSync c) := by
  unfold Dev.adcSync
  extract_lets +onlyGivenNames u x y z
  have hx : LoadsInto d x := h.set (by simp only [R.ADC_STATUS_SEQ_ACTIVE]; omega)
  have hy : LoadsInto d y := hx.set (by simp only [R.ADC_STATUS_INJ_BUSY]; omega)
  have hz : LoadsInto d z := hy.set (by simp only [R.ADC_QSTAT_LEVEL]; omega)
  clear_value z
  split <;> exact (hz.wrw (by omega)).wrw (by omega)

theorem loadAdc {c : Nat} {l : List Nat} (h : LoadsInto d e) : LoadsInto d (e.loadAdc c l) := by
  unfold Dev.loadAdc
  extract_lets +onlyGivenNames m
  have hmap : LoadsInto d ({ e with pat := { e.pat with adc := Sparse.put {} e.pat.adc c m } } : Dev) := h.other rfl rfl
  exact (hmap.set (by simp only [R.ADC_CTRL_EN]; omega)).adcSync

theorem setSd {n : Nat} {u : SdCh} (h : LoadsInto d e) : LoadsInto d (e.setSd n u) := h.other rfl rfl

theorem sdfEnable (h : LoadsInto d e) : LoadsInto d (e.sdfEnable true) := by
  unfold Dev.sdfEnable
  rw [if_pos rfl]
  split
  · exact h
  · extract_lets +onlyGivenNames _ x
    have hset : LoadsInto d (e.set R.SDF_CTRL_EN 1) := h.set (by decide)
    have hx : LoadsInto d x := hset.other rfl rfl
    clear_value x
    exact hx.foldl fun f n hf => hf.setSd

theorem loadSdf {l : List Nat} (h : LoadsInto d e) : LoadsInto d (e.loadSdf l) := by
  unfold Dev.loadSdf
  extract_lets +onlyGivenNames x y
  have hx : LoadsInto d x := h.foldl fun f k hf => hf.loadFld (by simp only [R.SDF_CLK_FREQ]; omega)
  have hy : LoadsInto d y := by
    refine hx.foldl fun f n hf => ?_
    extract_lets +onlyGivenNames r f1 f2
    have h1 : LoadsInto d f1 := (hf.loadFld (by simp only [R.SDF_CH_CFG_EN]; omega)).loadFld (by simp only [R.SDF_CH_CFG_EDGE]; omega)
    have h2 : LoadsInto d f2 := (h1.loadFld (by simp only [R.SDF_CH_CFG_SDC]; omega)).loadFld
      (by simp only [R.SDF_CH_FILT_DCB_EN]; omega)
    exact (h2.loadFld (by simp only [R.SDF_CH_FILT_PRESET]; omega)).loadFld (by simp only [R.SDF_CH_FILT_CORNER]; omega)
  exact hy.sdfEnable

theorem loadPwm {l : List Nat} (h : LoadsInto d e) : LoadsInto d (e.loadPwm l) := by
  unfold Dev.loadPwm
  extract_lets +onlyGivenNames x
  have hx : LoadsInto d x := h.foldl fun f n hf => hf.wrw (by simp only [R.PWM_LEG_MAP_OWNER]; omega)
  exact (hx.within (.pwmEnable x) (by decide)).set (by decide)

/-- A field of a source's configuration. -/
theorem loadSrc {src v : Nat} {g : Fld} (h : LoadsInto d e) (hg : g.addr = 0x40030400 + 0x4 * src) : LoadsInto d (e.loadFld g v) :=
  h.loadFld (by omega)

theorem loadFault {src : Nat} {r : List Nat} (h : LoadsInto d e) : LoadsInto d (e.loadFault src r) := by
  have hnoted (c : Prop) [Decidable c] : LoadsInto d (if c then e else e.set R.CFG_STATUS_FIXED_OVR 1) :=
    .ite h (h.set (by decide))
  unfold Dev.loadFault
  extract_lets +onlyGivenNames b x y z
  have hx : LoadsInto d x := hnoted _
  have hy : LoadsInto d y := (hx.loadSrc (src := src) rfl).loadSrc (src := src) rfl
  have hz : LoadsInto d z := (hy.loadSrc (src := src) rfl).loadSrc (src := src) rfl
  exact (hz.loadSrc (src := src) rfl).loadFld (by simp only [R.ACC_SRC_WIN_W]; omega)

theorem loadIso (h : LoadsInto d e) : LoadsInto d e.loadIso := by
  unfold Dev.loadIso
  extract_lets x
  have hx : LoadsInto d x := by
    dsimp only [x]
    split
    · exact (h.loadFld (by decide)).loadFld (by decide)
    · exact h
  exact (hx.set (by decide)).set (by decide)

theorem loadSection {c : Section} (h : LoadsInto d e) : LoadsInto d (e.loadSection c) := by
  unfold Dev.loadSection
  extract_lets +onlyGivenNames l
  split
  · exact h.other rfl rfl
  · exact h.other rfl rfl
  · extract_lets +onlyGivenNames bs act inits
    exact h.other rfl rfl
  · exact h.loadLoopset
  · exact h.loadAdc
  · exact h.loadSdf
  · exact h.loadPwm
  · exact h.foldl fun f n hf => hf.loadFault
  · exact h.other rfl rfl
  · exact h.other rfl rfl
  · exact h

theorem syncSplit (h : LoadsInto d e) : LoadsInto d e.syncSplit := by
  have hset : LoadsInto d ((e.setB R.CFG_STATUS_SPLIT (e.coloA != e.coloB)).setB R.LANE_STATUS_NOSWITCH (e.coloA != e.coloB)) :=
    (h.set (by decide)).set (by decide)
  unfold Dev.syncSplit
  extract_lets +onlyGivenNames x
  have hx : LoadsInto d x := hset
  clear_value x
  exact (hx.when fun hx => hx.within (.setCond _ _ (by decide)) (by decide)).within (.coloPeers _) (by decide)

theorem takeColophon {lane : Nat} {delta : BitVec 64} (h : LoadsInto d e) : LoadsInto d (e.takeColophon lane delta) := by
  unfold Dev.takeColophon
  extract_lets +onlyGivenNames x y
  have hy : LoadsInto d y := .ite ((h.set (by decide)).set (by decide)) ((h.set (by decide)).set (by decide))
  exact hy.syncSplit

theorem drainColophon (h : LoadsInto d e) : LoadsInto d e.drainColophon := by
  unfold Dev.drainColophon
  extract_lets +onlyGivenNames mine
  have hdrop : LoadsInto d ({ e with hoop := e.hoop.filter fun x => !mine x } : Dev) := h.other rfl rfl
  refine hdrop.foldl fun f x hf => ?_
  split
  · exact hf.takeColophon
  · exact hf

end LoadsInto

/-! ### What an application shows (R85, R98) -/

theorem syncSplit_within (d : Dev) : Within [.lane, .cond, .dpl] (d.setB R.CFG_STATUS_SPLIT (d.coloA != d.coloB)) d.syncSplit := by
  have hnoswitch : Within [.lane, .cond, .dpl] (d.setB R.CFG_STATUS_SPLIT (d.coloA != d.coloB))
      ((d.setB R.CFG_STATUS_SPLIT (d.coloA != d.coloB)).setB R.LANE_STATUS_NOSWITCH (d.coloA != d.coloB)) :=
    .setB _ _ (by decide)
  unfold Dev.syncSplit
  extract_lets +onlyGivenNames x
  have hx : Within [.lane, .cond, .dpl] (d.setB R.CFG_STATUS_SPLIT (d.coloA != d.coloB)) x := hnoswitch
  clear_value x
  exact hx.trans ((Within.ite ((Within.setCond _ _ (by decide)).mono (by decide)) (.refl _)).trans
    ((Within.coloPeers _).mono (by decide)))

/-- One Colophon starts at C0. -/
def Dev.coloStart (c0 : BitVec 64) (d : Dev) (k : Nat) : Dev :=
  (d.wrw (coloLo k) (word c0.toNat)).wrw (coloLo k + 4) (word (c0.toNat / 2 ^ 32))

theorem coloStart_self (c0 : BitVec 64) (d : Dev) (k : Nat) : (Dev.coloStart c0 d k).rdw (coloLo k) = word c0.toNat ∧
    (Dev.coloStart c0 d k).rdw (coloLo k + 4) = word (c0.toNat / 2 ^ 32) :=
  ⟨(Dev.rdw_wrw_of_ne _ _ (by omega)).trans (Dev.rdw_wrw_self _ _ _), Dev.rdw_wrw_self _ _ _⟩

theorem coloStart_other (c0 : BitVec 64) (d : Dev) {k a : Nat} (ha : a < coloLo k) : (Dev.coloStart c0 d k).rdw a = d.rdw a :=
  (Dev.rdw_wrw_of_ne _ _ (by omega)).trans (Dev.rdw_wrw_of_ne _ _ (by omega))

theorem LoadsInto.coloStart {c0 : BitVec 64} {k : Nat} (h : LoadsInto d e) : LoadsInto d (e.coloStart c0 k) :=
  (h.wrw (by simp only [coloLo]; omega)).wrw (by simp only [coloLo]; omega)

/-- CFG after an application: LOADED, and COLO0 at C0. -/
structure ShowsLoad (c0 : BitVec 64) (d : Dev) : Prop where
  loaded : d.get R.CFG_STATUS_LOADED = 1
  low : d.rdw 0x40004010 = word c0.toNat
  high : d.rdw 0x40004014 = word (c0.toNat / 2 ^ 32)

theorem loadDone_eq (d : Dev) (c0 : BitVec 64) (slot : Nat) : d.loadDone c0 slot =
    (((([0, 1, 2].foldl (Dev.coloStart c0) d.drainColophon)).set R.CFG_STATUS_LOADED 1).set R.CFG_STATUS_KEY_SLOT slot).syncSplit := rfl

theorem loadDone_into {c0 : BitVec 64} {slot : Nat} (h : LoadsInto d e) : LoadsInto d (e.loadDone c0 slot) := by
  rw [loadDone_eq]
  have hcolo : LoadsInto d ([0, 1, 2].foldl (Dev.coloStart c0) e.drainColophon) :=
    h.drainColophon.foldl fun _ _ hf => hf.coloStart
  exact ((hcolo.set (by decide)).set (by decide)).syncSplit

theorem loadDone_shows (d : Dev) (c0 : BitVec 64) (slot : Nat) : ShowsLoad c0 (d.loadDone c0 slot) := by
  rw [loadDone_eq]
  generalize hx : [0, 1, 2].foldl (Dev.coloStart c0) d.drainColophon = x
  have hregs {a : Nat} (ha : a = coloLo 0 ∨ a = coloLo 0 + 4) : x.rdw a = (d.drainColophon.coloStart c0 0).rdw a := by
    rw [← hx]
    simp only [List.foldl_cons, List.foldl_nil]
    simp only [coloLo] at ha
    rw [coloStart_other _ _ (by simp only [coloLo]; omega), coloStart_other _ _ (by simp only [coloLo]; omega)]
  have hcfg {a : Nat} (hz : inZones [.lane, .cond, .dpl] a = false) (ha : a ≠ 0x40004000) :
      ((x.set R.CFG_STATUS_LOADED 1).set R.CFG_STATUS_KEY_SLOT slot).syncSplit.rdw a = x.rdw a := by
    rw [(syncSplit_within _).regs a hz, Dev.setB, Dev.rdw_set_of_ne _ _ ha, Dev.rdw_set_of_ne _ _ ha, Dev.rdw_set_of_ne _ _ ha]
  obtain ⟨hlow, hhigh⟩ := coloStart_self c0 d.drainColophon 0
  refine ⟨?_, ((hcfg (by decide) (by decide)).trans (hregs (.inl rfl))).trans hlow,
    ((hcfg (by decide) (by decide)).trans (hregs (.inr rfl))).trans hhigh⟩
  rw [(syncSplit_within _).get (by decide), Dev.setB, get_set_apart _ _ (by decide) (by decide),
    get_set_apart _ _ (by decide) (by decide), Dev.get_set_self _ _ _ (by decide)]
  rfl

/-- The device after an application. -/
structure Applied (d e : Dev) (img : List Nat) : Prop where
  regs : ∀ a, a < 0x40004000 → e.rdw a = d.rdw a
  prof : e.pat.profOff = leAt img 0x1C 4
  shows : ShowsLoad (BitVec.ofNat 64 (beAt img 0x10 8)) e

theorem applyPattern_applied (d : Dev) (img : List Nat) (secs : List Section) : Applied d (d.applyPattern img secs) img := by
  unfold Dev.applyPattern
  extract_lets +onlyGivenNames pat sys d1 d2 clear d3 d4
  have hregs (a : Nat) : d1.rdw a = d.rdw a := Dev.rdw_congr rfl a
  have hprof : d1.pat.profOff = leAt img 0x1C 4 := rfl
  have h2 : LoadsInto d1 d2 := ((LoadsInto.refl d1).set (by decide)).set (by decide)
  have h3 : LoadsInto d1 d3 := by
    refine h2.foldl fun f ls hf => hf.foldl fun f n hf => (hf.wrw ?_).wrw ?_
    · simp only [R.WV_LS_CFG_KIND]
      omega
    · simp only [R.WV_LS_PERIOD_NS]
      omega
  have h4 : LoadsInto d1 d4 := (h3.foldl fun f c hf => hf.loadSection).loadIso
  clear_value d4
  have hdone := loadDone_into (c0 := BitVec.ofNat 64 (beAt img 0x10 8)) (slot := byteAt (bodyOf secs 0xFF 0) 0) h4
  exact ⟨fun a ha => (hdone.regs a ha).trans (hregs a), hdone.prof.trans hprof, loadDone_shows _ _ _⟩

/-! ### Failures (R56, R57, R61, R546) -/

/-- A slot fails with a code: the secondary slot follows, or the load ends in M10. -/
def SlotFails (d e : Dev) (code : Nat) : Prop :=
  (d.get R.SYSCTL_BOOT_FAIL = 0 → e.get R.SYSCTL_BOOT_FAIL = code) ∧
  (d.get R.SYSCTL_BOOT_FAIL ≠ 0 → e.get R.SYSCTL_BOOT_FAIL = d.get R.SYSCTL_BOOT_FAIL) ∧
  (if d.get R.SYSCTL_BOOT_PINS = 0 ∧ d.get R.SYSCTL_BOOT_SLOT = 0 then e.mode = d.mode ∧ e.get R.SYSCTL_BOOT_SLOT = 1
    else e.mode = 10 ∧ e.get R.SYSCTL_MODE_CAUSE = 5)

/-- BOOT.FAIL keeps the first code. -/
def Dev.noteFail (d : Dev) (code : Nat) : Dev :=
  if d.get R.SYSCTL_BOOT_FAIL = 0 then d.set R.SYSCTL_BOOT_FAIL code else d

theorem slotFail_eq (d : Dev) (code : Nat) : d.slotFail code =
    if (d.noteFail code).get R.SYSCTL_BOOT_PINS = 0 ∧ (d.noteFail code).get R.SYSCTL_BOOT_SLOT = 0 then
      (d.noteFail code).set R.SYSCTL_BOOT_SLOT 1
    else (d.noteFail code).failInto10 5 := rfl

theorem noteFail_apart (d : Dev) (code : Nat) {g : Fld} (hg : R.SYSCTL_BOOT_FAIL.apart g = true) :
    (d.noteFail code).get g = d.get g := by
  unfold Dev.noteFail
  split
  · exact get_set_apart _ _ (by decide) hg
  · rfl

theorem noteFail_code (d : Dev) {code : Nat} (hc : code < 256) : (d.noteFail code).get R.SYSCTL_BOOT_FAIL =
    if d.get R.SYSCTL_BOOT_FAIL = 0 then code else d.get R.SYSCTL_BOOT_FAIL := by
  unfold Dev.noteFail
  split
  · rw [Dev.get_set_self _ _ _ (by decide)]
    exact Nat.mod_eq_of_lt hc
  · rfl

theorem noteFail_within (d : Dev) (code : Nat) : Within [.boot] d (d.noteFail code) :=
  .ite (.set d _ (by decide)) (.refl d)

theorem failInto10_entered (d : Dev) {cause : Nat} (hc : cause < 256) : Entered d.letGo (d.failInto10 cause) 10 cause :=
  enterMode_entered d.letGo (by decide) hc

theorem slotFail_fails (d : Dev) {code : Nat} (hc : code < 256) : SlotFails d (d.slotFail code) code := by
  have hcode := noteFail_code d hc
  have hpins : (d.noteFail code).get R.SYSCTL_BOOT_PINS = d.get R.SYSCTL_BOOT_PINS := noteFail_apart d code (by decide)
  have hslot : (d.noteFail code).get R.SYSCTL_BOOT_SLOT = d.get R.SYSCTL_BOOT_SLOT := noteFail_apart d code (by decide)
  have hmode : (d.noteFail code).mode = d.mode := (noteFail_within d code).mode (by decide)
  have hends : (d.slotFail code).get R.SYSCTL_BOOT_FAIL = (d.noteFail code).get R.SYSCTL_BOOT_FAIL ∧
      (if d.get R.SYSCTL_BOOT_PINS = 0 ∧ d.get R.SYSCTL_BOOT_SLOT = 0 then
        (d.slotFail code).mode = d.mode ∧ (d.slotFail code).get R.SYSCTL_BOOT_SLOT = 1
      else (d.slotFail code).mode = 10 ∧ (d.slotFail code).get R.SYSCTL_MODE_CAUSE = 5) := by
    rw [slotFail_eq, hpins, hslot]
    by_cases hnext : d.get R.SYSCTL_BOOT_PINS = 0 ∧ d.get R.SYSCTL_BOOT_SLOT = 0
    · rw [if_pos hnext, if_pos hnext]
      refine ⟨get_set_apart _ _ (by decide) (by decide), ?_, Dev.get_set_self _ _ _ (by decide)⟩
      exact (get_set_apart _ _ (by decide) (by decide)).trans hmode
    · rw [if_neg hnext, if_neg hnext]
      have hentered := failInto10_entered (d.noteFail code) (cause := 5) (by decide)
      exact ⟨(hentered.get (by decide) (by decide)).trans (letGo_get _ _), hentered.mode, hentered.cause⟩
  obtain ⟨hkept, hend⟩ := hends
  rw [hcode] at hkept
  exact ⟨fun h => by rw [hkept, if_pos h], fun h => by rw [hkept, if_neg h], hend⟩

/-- The registers of CFG up to COLO0, and the Pattern, stay where a slot fails. -/
theorem slotFail_cfg (d : Dev) (code : Nat) : (d.slotFail code).pat = d.pat ∧
    ∀ a, 0x40004000 ≤ a → a < 0x40004044 → (d.slotFail code).rdw a = d.rdw a := by
  have hnote := noteFail_within d code
  have hboot {a : Nat} (ha : 0x40004000 ≤ a) : inZones [.boot] a = false := by
    simp only [inZones, List.any_cons, List.any_nil, Bool.or_false, Zone.span, Bool.and_eq_false_iff]
    exact .inr (decide_eq_false (by omega))
  have hregs {a : Nat} (ha : 0x40004000 ≤ a) : (d.noteFail code).rdw a = d.rdw a := hnote.regs a (hboot ha)
  rw [slotFail_eq]
  split
  · exact ⟨hnote.pat, fun a ha _ => (Dev.rdw_set_of_ne _ _ (by simp only [R.SYSCTL_BOOT_SLOT]; omega)).trans (hregs ha)⟩
  · have hentered := failInto10_entered (d.noteFail code) (cause := 5) (by decide)
    refine ⟨hentered.pat.trans hnote.pat, fun a ha hlt => (hentered.regs a ?_ (by omega)).trans (hregs ha)⟩
    rw [Bool.eq_false_iff]
    intro hin
    obtain ⟨z, hz, hlo, hhi⟩ := inZones_iff.mp hin
    have hout : ∀ z ∈ modeZones 10, z.span.2 ≤ 0x40004000 ∨ 0x40004044 ≤ z.span.1 := by decide
    have := hout z hz
    omega

/-- A failure seen from a device with the same SYSCTL. -/
theorem SlotFails.of {code : Nat} (h : SlotFails d f code) (hr : ∀ a, a < 0x40004000 → d.rdw a = e.rdw a) : SlotFails e f code := by
  have hget (g : Fld) (hg : g.addr < 0x40004000) : e.get g = d.get g := by rw [Dev.get, ← hr _ hg, Dev.get]
  have hmode : e.mode = d.mode := hget _ (by decide)
  unfold SlotFails
  rw [hget _ (by decide), hget R.SYSCTL_BOOT_PINS (by decide), hget R.SYSCTL_BOOT_SLOT (by decide), hmode]
  exact h

/-- CFG.STATUS takes the first failure of the load, and nothing else of it changes. -/
structure ErrRecorded (d e : Dev) (x : LoadErr) : Prop where
  regs : ∀ a, a ≠ 0x40004000 → e.rdw a = d.rdw a
  pat : e.pat = d.pat
  loaded : e.get R.CFG_STATUS_LOADED = d.get R.CFG_STATUS_LOADED
  err : d.get R.CFG_STATUS_ERR = 0 → e.get R.CFG_STATUS_ERR = x.err % 256 ∧
    e.get R.CFG_STATUS_NOSECT = if x.sec = none then 1 else 0

/-- The fields of a failure. -/
def Dev.errSet (d : Dev) (x : LoadErr) : Dev :=
  ((d.set R.CFG_STATUS_ERR x.err).set R.CFG_STATUS_SECTION (x.sec.getD 0)).setB R.CFG_STATUS_NOSECT x.sec.isNone

theorem recordErr_first (h : d.get R.CFG_STATUS_ERR = 0) (x : LoadErr) : d.recordErr x = d.errSet x := if_neg (not_not.mpr h)

theorem recordErr_later (h : d.get R.CFG_STATUS_ERR ≠ 0) (x : LoadErr) : d.recordErr x = d := if_pos h

theorem errSet_frame (d : Dev) (x : LoadErr) : RegsOnly d (d.errSet x) :=
  (Dev.set_frame d _ _).trans ((Dev.set_frame _ _ _).trans (Dev.set_frame _ _ _))

theorem errSet_rdw (d : Dev) (x : LoadErr) {a : Nat} (ha : a ≠ 0x40004000) : (d.errSet x).rdw a = d.rdw a := by
  rw [Dev.errSet, Dev.setB, Dev.rdw_set_of_ne _ _ ha, Dev.rdw_set_of_ne _ _ ha, Dev.rdw_set_of_ne _ _ ha]

theorem errSet_apart (d : Dev) (x : LoadErr) {g : Fld} (he : R.CFG_STATUS_ERR.apart g = true)
    (hs : R.CFG_STATUS_SECTION.apart g = true) (hn : R.CFG_STATUS_NOSECT.apart g = true) : (d.errSet x).get g = d.get g := by
  rw [Dev.errSet, Dev.setB, get_set_apart _ _ (by decide) hn, get_set_apart _ _ (by decide) hs, get_set_apart _ _ (by decide) he]

theorem errSet_err (d : Dev) (x : LoadErr) : (d.errSet x).get R.CFG_STATUS_ERR = x.err % 256 := by
  rw [Dev.errSet, Dev.setB, get_set_apart _ _ (by decide) (by decide), get_set_apart _ _ (by decide) (by decide),
    Dev.get_set_self _ _ _ (by decide), show 2 ^ R.CFG_STATUS_ERR.w = 256 from rfl]

theorem errSet_nosect (d : Dev) (x : LoadErr) : (d.errSet x).get R.CFG_STATUS_NOSECT = if x.sec = none then 1 else 0 := by
  rw [Dev.errSet, Dev.setB, Dev.get_set_self _ _ _ (by decide)]
  cases x.sec with
  | none => rfl
  | some n => rfl

theorem recordErr_recorded (d : Dev) (x : LoadErr) : ErrRecorded d (d.recordErr x) x := by
  by_cases h : d.get R.CFG_STATUS_ERR = 0
  · rw [recordErr_first h]
    exact ⟨fun a ha => errSet_rdw d x ha, by rw [(errSet_frame d x).frame],
      errSet_apart d x (by decide) (by decide) (by decide), fun _ => ⟨errSet_err d x, errSet_nosect d x⟩⟩
  · rw [recordErr_later h]
    exact ⟨fun _ _ => rfl, rfl, rfl, fun h' => absurd h' h⟩

/-- The code of BOOT.FAIL for a failed check. -/
def checkCode (x : LoadErr) : Nat := if x.err = 3 then 5 else if x.err = 12 then 4 else 3

theorem checkCode_lt (x : LoadErr) : checkCode x < 256 := by
  unfold checkCode
  split
  · decide
  · split <;> decide

/-- What a failed check leaves. -/
structure CheckFails (d e : Dev) (x : LoadErr) : Prop where
  slot : SlotFails d e (checkCode x)
  pat : e.pat = d.pat
  loaded : e.get R.CFG_STATUS_LOADED = d.get R.CFG_STATUS_LOADED
  colo : ∀ a, 0x40004004 ≤ a → a < 0x40004044 → e.rdw a = d.rdw a
  err : d.get R.CFG_STATUS_ERR = 0 → e.get R.CFG_STATUS_ERR = x.err % 256 ∧
    e.get R.CFG_STATUS_NOSECT = if x.sec = none then 1 else 0

theorem checkFail_fails (d : Dev) (x : LoadErr) : CheckFails d (d.checkFail x) x := by
  obtain ⟨hregs, hpat, hloaded, herr⟩ := recordErr_recorded d x
  have hslot := slotFail_fails (d.recordErr x) (checkCode_lt x)
  obtain ⟨hkept, hcfg⟩ := slotFail_cfg (d.recordErr x) (checkCode x)
  have hfail : d.checkFail x = (d.recordErr x).slotFail (checkCode x) := rfl
  have hget (g : Fld) (hg : g.addr = 0x40004000) : (d.checkFail x).get g = (d.recordErr x).get g := by
    rw [hfail, Dev.get, hcfg _ (by omega) (by omega), Dev.get]
  refine ⟨hslot.of fun a ha => hregs a (by omega), hkept.trans hpat, (hget _ rfl).trans hloaded,
    fun a ha hlt => (hcfg a (by omega) hlt).trans (hregs a (by omega)), fun h => ?_⟩
  rw [hget _ rfl, hget R.CFG_STATUS_NOSECT rfl]
  exact herr h

/-! ### An image that passes the checks (R68, R73, R84) -/

/-- Numbers of more bytes, the most significant first. -/
theorem beNum_append (l k : List Nat) : Crypto.beNum (l ++ k) = Crypto.beNum l * 256 ^ k.length + Crypto.beNum k := by
  have hfrom (k : List Nat) : ∀ n, k.foldl (fun n b => n * 256 + b % 256) n =
      n * 256 ^ k.length + k.foldl (fun n b => n * 256 + b % 256) 0 := by
    induction k with
    | nil => simp
    | cons b k ih =>
      intro n
      rw [List.foldl_cons, ih, List.foldl_cons, ih (0 * 256 + b % 256), List.length_cons, pow_succ]
      ring
  rw [Crypto.beNum, List.foldl_append, hfrom, Crypto.beNum, Crypto.beNum]

theorem beNum_lt (l : List Nat) : Crypto.beNum l < 256 ^ l.length := by
  induction l using List.reverseRecOn with
  | nil => decide
  | append_singleton l b ih =>
    have hb : Crypto.beNum [b] = b % 256 := by simp [Crypto.beNum]
    have := Nat.mod_lt b (show 0 < 256 by decide)
    rw [beNum_append, hb, List.length_append, List.length_singleton, pow_one, pow_succ]
    omega

/-- The eight bytes of a Colophon as two words. -/
theorem beAt_eight {l : List Nat} {i : Nat} (h : i + 8 ≤ l.length) :
    beAt l i 8 = beAt l i 4 * 2 ^ 32 + beAt l (i + 4) 4 ∧ beAt l (i + 4) 4 < 2 ^ 32 := by
  have hlen : ((l.drop (i + 4)).take 4).length = 4 := by simp; omega
  have hsplit : (l.drop i).take 8 = (l.drop i).take 4 ++ (l.drop (i + 4)).take 4 := by
    rw [show 8 = 4 + 4 from rfl, List.take_add, List.drop_drop]
  have hlt := beNum_lt ((l.drop (i + 4)).take 4)
  rw [hlen] at hlt
  refine ⟨?_, hlt⟩
  rw [beAt, hsplit, beNum_append, hlen, beAt, beAt]
  norm_num

/-- The words of COLO0. -/
theorem colophon_words {l : List Nat} (h : 0x18 ≤ l.length) :
    word (BitVec.ofNat 64 (beAt l 0x10 8)).toNat = word (beAt l 0x14 4) ∧
      word ((BitVec.ofNat 64 (beAt l 0x10 8)).toNat / 2 ^ 32) = word (beAt l 0x10 4) := by
  obtain ⟨hsplit, hlt⟩ := beAt_eight (l := l) (i := 0x10) h
  rw [hsplit]
  generalize beAt l 0x10 4 = hi at *
  generalize beAt l (0x10 + 4) 4 = lo at *
  constructor <;> (apply BitVec.eq_of_toNat_eq; simp only [word, BitVec.toNat_ofNat]; omega)

theorem leAt_of_short {l : List Nat} {i : Nat} (h : l.length ≤ i) (n : Nat) : leAt l i n = 0 := by
  rw [leAt, List.drop_eq_nil_of_le h, List.take_nil, List.foldr_nil]

/-- What the checks have shown of an image. -/
structure ImageOk (img : List Nat) (secs : List Section) : Prop where
  long : 0x18 ≤ img.length
  prof : leAt img 0x1C 4 ≤ 0xFFF00
  sections : ∀ c ∈ secs, sectionOk secs (leAt img 0x1C 4) c = true

theorem headerErr_long {img : List Nat} {len : Nat} (h : Dev.headerErr img len = none) : 0x18 ≤ img.length := by
  by_contra hshort
  have hstep : leAt img 0x18 2 ≠ 0x9640 := by
    rw [leAt_of_short (by omega)]
    decide
  revert h
  unfold Dev.headerErr
  rw [if_pos (Or.inl hstep)]
  split
  · simp
  · split
    · simp
    · split <;> simp

theorem sectionsErr_ok {img : List Nat} {secs : List Section} (h : d.sectionsErr img secs = none) :
    leAt img 0x1C 4 ≤ 0xFFF00 ∧ ∀ c ∈ secs, sectionOk secs (leAt img 0x1C 4) c = true := by
  unfold Dev.sectionsErr at h
  split at h
  · cases h
  · simp only [Option.orElse_eq_orElse, Option.orElse_eq_or, Option.or_eq_none_iff, Option.map_eq_none_iff, List.find?_eq_none,
      Bool.not_eq_true, Bool.not_eq_false'] at h
    obtain ⟨-, -, hprof, hsecs, -⟩ := h
    refine ⟨?_, hsecs⟩
    by_contra hlt
    rw [if_pos (.inr (.inr (by omega)))] at hprof
    cases hprof

theorem checkImage_ok {img : List Nat} {len : Nat} {secs : List Section} (h : d.checkImage img len = .ok secs) : ImageOk img secs := by
  unfold Dev.checkImage at h
  split at h
  · cases h
  next hheader =>
    split at h
    · cases h
    next found hfound =>
      split at h
      · cases h
      next hsections =>
        cases h
        obtain ⟨hprof, hok⟩ := sectionsErr_ok hsections
        exact ⟨headerErr_long hheader, hprof, hok⟩

/-! ### Memory after a load (R73, R81) -/

theorem chunks_length (n : Nat) (l : List Nat) : 4 * (Crypto.chunks 4 n l).length ≤ l.length + 3 := by
  induction n generalizing l with
  | zero => simp [Crypto.chunks]
  | succ n ih =>
    rw [Crypto.chunks]
    split
    · simp
    next hne =>
      have hpos : l.length ≠ 0 := fun h => hne (by rw [List.length_eq_zero_iff.mp h]; rfl)
      have hrest := ih (l.drop 4)
      rw [List.length_drop] at hrest
      rw [List.length_cons]
      omega

/-- Every block of a SLOT_INIT payload that passes its check lies inside the lane memory. -/
theorem slotBlocks_inside {prof : Nat} : ∀ (k : Nat) (l : List Nat), slotsOk prof k l = true →
    ∀ x ∈ slotBlocks k l, x.1 + 4 * x.2.2.length ≤ 0x100000
  | 0, _, _, x, hx => by cases hx
  | k + 1, l, h, x, hx => by
    rw [slotBlocks] at hx
    split at hx
    · cases hx
    · simp only [slotsOk, Bool.and_eq_true, Bool.or_eq_true, decide_eq_true_eq] at h
      obtain ⟨⟨⟨-, hin⟩, -⟩, hrest⟩ := h
      rcases List.mem_cons.mp hx with rfl | hx
      · have hwords := chunks_length (((l.drop 8).take (4 * leAt l 4 2)).length / 4 + 1) ((l.drop 8).take (4 * leAt l 4 2))
        rw [List.length_take] at hwords
        simp only [records, List.length_map, List.length_take]
        omega
      · rcases hrest with hempty | hrest
        · rw [List.isEmpty_iff.mp hempty] at hx
          cases k with
          | zero => cases hx
          | succ k => rw [slotBlocks] at hx; simp at hx
        · exact slotBlocks_inside k _ hrest x hx

theorem profileOk_length {l : List Nat} (h : profileOk l = true) : l.length = 224 := by
  by_contra hne
  simp only [profileOk, beq_eq_false_iff_ne.mpr hne, Bool.false_and, Bool.false_eq_true] at h

/-- A profile has 224 bytes; an image without the one that the straps select gives none. -/
theorem profile_length {prof idx : Nat} {secs : List Section} (h : ∀ c ∈ secs, sectionOk secs prof c = true) :
    (bodyOf secs 11 idx).length ≤ 224 := by
  unfold bodyOf
  split
  next c hc =>
    have htype := List.find?_some hc
    have hok := h c (List.mem_of_find?_eq_some hc)
    simp only [Bool.and_eq_true, beq_iff_eq] at htype
    rw [sectionOk, htype.1] at hok
    exact (profileOk_length hok).le
  next => simp

/-- Bytes outside a lane's memory stay. -/
theorem rd_loadLaneMem {img : List Nat} {secs : List Section} (h : ImageOk img secs) (m : Mem) (straps lane : Nat) {a : Nat}
    (ha : a < laneBase lane ∨ laneBase lane + 0x100000 ≤ a) :
    Mem.rd (loadLaneMem m secs (leAt img 0x1C 4) straps lane) a = Mem.rd m a := by
  have hprof := h.prof
  have hlength := profile_length (idx := straps % 16) h.sections
  have hblocks : Mem.rd ((secs.filter fun c => c.type == 3).foldl (fun m c =>
      (slotBlocks (c.body.length / 8 + 1) c.body).foldl (fun m x => Mem.wrWords m (laneBase lane + x.1) x.2.2) m) m) a =
        Mem.rd m a := by
    refine List.foldlRecOn (motive := fun k => Mem.rd k a = Mem.rd m a) _ _ rfl fun k hk c hc => ?_
    obtain ⟨hin, htype⟩ := List.mem_filter.mp hc
    have hok := h.sections c hin
    rw [sectionOk, beq_iff_eq.mp htype] at hok
    refine List.foldlRecOn (motive := fun k => Mem.rd k a = Mem.rd m a) _ _ hk fun k hk x hx => ?_
    have hinside := slotBlocks_inside _ _ hok x hx
    exact (Mem.rd_wrWords_of_outside _ _ _ _ (by omega)).trans hk
  unfold loadLaneMem
  extract_lets base n
  have hn : Mem.rd n a = Mem.rd m a := hblocks
  clear_value n
  rw [Mem.rd_wrBytes_of_outside _ _ _ _ (by simp only [List.length_replicate]; omega), Mem.rd_wrWord, if_neg (by omega),
    Mem.rd_wrBytes_of_outside _ _ _ _ (by omega), hn]

/-- Bytes outside both lanes' memory stay. -/
theorem rd_loadLanes {img : List Nat} {secs : List Section} (h : ImageOk img secs) (m : Mem) (straps : Nat) {a : Nat}
    (ha : a < 0x20000000 ∨ 0x20200000 ≤ a) :
    Mem.rd ([0, 1].foldl (fun m n => loadLaneMem m secs (leAt img 0x1C 4) straps n) m) a = Mem.rd m a := by
  refine List.foldlRecOn (motive := fun k => Mem.rd k a = Mem.rd m a) _ _ rfl fun k hk n hn => ?_
  simp only [List.mem_cons, List.not_mem_nil, or_false] at hn
  exact (rd_loadLaneMem h k straps n (by simp only [laneBase]; omega)).trans hk

/-! ### The outcomes of a load (R84 to R86) -/

/-- Memory with the image in the Pattern store. -/
def State.storeImage (s : State) (img : List Nat) : Mem := Mem.wrBytes s.mem 0x3C000000 (img.take 262144)

theorem rd_storeImage (s : State) {img : List Nat} {i : Nat} (hi : i < img.length) (hs : i < 262144) :
    Mem.rd (s.storeImage img) (0x3C000000 + i) = BitVec.ofNat 8 (img.getD i 0) := by
  have hlt : i < (img.take 262144).length := by simp only [List.length_take]; omega
  rw [State.storeImage, Mem.rd_wrBytes _ _ _ i hlt, List.getElem_take, List.getD_eq_getElem _ _ hi]

theorem rd_storeImage_below (s : State) (img : List Nat) {a : Nat} (ha : a < 0x3C000000) :
    Mem.rd (s.storeImage img) a = Mem.rd s.mem a :=
  Mem.rd_wrBytes_of_outside _ _ _ _ (.inl ha)

/-- The device with the firmware's entry address, and as it enters M2 to run it. -/
def Dev.withEntry (d : Dev) (entry : Word) : Dev := { d with sys := { d.sys with entry := entry } }

def Dev.runFirmware (d : Dev) (entry : Word) : Dev := (d.withEntry entry).enterMode 2 (d.get R.SYSCTL_MODE_CAUSE)

section
variable {img fw sig : List Nat} {len : Nat} {entry : Word} {secs : List Section}

theorem loadImage_error {x : LoadErr} (h : s.d.checkImage img len = .error x) :
    s.loadImage img len fw sig entry = { s with mem := s.storeImage img, d := s.d.checkFail x } := by
  simp only [State.loadImage, h, State.storeImage]

theorem loadImage_ok (h : s.d.checkImage img len = .ok secs) :
    s.loadImage img len fw sig entry = { s with
      mem := [0, 1].foldl (fun m n => loadLaneMem m secs (leAt img 0x1C 4) (s.d.get R.ISO_SEAL_LATCHED) n) (s.storeImage img)
      d := if signed' (pubKey (bodyOf secs 0xFF 0)) sig fw then (s.d.applyPattern img secs).runFirmware entry
        else (s.d.applyPattern img secs).checkFail ⟨12, none⟩ } := by
  simp only [State.loadImage, h, State.storeImage, Dev.runFirmware, Dev.withEntry]
  split <;> rfl

/-- Memory after a load, whatever its outcome. -/
theorem loadImage_mem (s : State) (img fw sig : List Nat) (len : Nat) (entry : Word) {a : Nat}
    (ha : a < 0x20000000 ∨ 0x20200000 ≤ a) :
    Mem.rd (s.loadImage img len fw sig entry).mem a = Mem.rd (s.storeImage img) a := by
  cases h : s.d.checkImage img len with
  | error x => rw [loadImage_error h]
  | ok secs =>
    have hlanes := rd_loadLanes (checkImage_ok h) (s.storeImage img) (s.d.get R.ISO_SEAL_LATCHED) ha
    rw [loadImage_ok h]
    dsimp only
    exact hlanes

/-- The registers of a load that passed its checks. -/
structure Passed (e : Dev) (img : List Nat) : Prop where
  loaded : e.get R.CFG_STATUS_LOADED = 1
  low : e.rdw 0x40004010 = word (beAt img 0x14 4)
  high : e.rdw 0x40004014 = word (beAt img 0x10 4)
  prof : e.pat.profOff = leAt img 0x1C 4

theorem Applied.passed (h : Applied d e img) (hlong : 0x18 ≤ img.length) : Passed e img := by
  obtain ⟨hlow, hhigh⟩ := colophon_words hlong
  exact ⟨h.shows.loaded, h.shows.low.trans hlow, h.shows.high.trans hhigh, h.prof⟩

theorem CheckFails.passed {x : LoadErr} (h : CheckFails e f x) (hp : Passed e img) : Passed f img :=
  ⟨h.loaded.trans hp.loaded, (h.colo _ (by decide) (by decide)).trans hp.low, (h.colo _ (by decide) (by decide)).trans hp.high,
    (congrArg Pattern.profOff h.pat).trans hp.prof⟩

theorem withEntry_passed (hp : Passed d img) (entry : Word) : Passed (d.withEntry entry) img :=
  ⟨(get_withSys d _ _).trans hp.loaded, hp.low, hp.high, hp.prof⟩

theorem Entered.passed {cause : Nat} (h : Entered d e 2 cause) (hp : Passed d img) : Passed e img :=
  ⟨(h.get (by decide) (by decide)).trans hp.loaded, (h.regs _ (by decide) (by decide)).trans hp.low,
    (h.regs _ (by decide) (by decide)).trans hp.high, (congrArg Pattern.profOff h.pat).trans hp.prof⟩

theorem Entered.entryKept {m cause : Nat} (h : Entered d e m cause) : e.sys.entry = d.sys.entry :=
  (congrArg Sys.entry h.sys : e.sys.lasting.entry = d.sys.lasting.entry)

theorem runFirmware_runs (hp : Passed d img) (entry : Word) :
    Passed (d.runFirmware entry) img ∧ (d.runFirmware entry).mode = 2 ∧ (d.runFirmware entry).sys.entry = entry := by
  have hentered := enterMode_entered (d.withEntry entry) (m := 2) (cause := d.get R.SYSCTL_MODE_CAUSE) (by decide) (d.get_lt _)
  rw [Dev.runFirmware]
  exact ⟨hentered.passed (withEntry_passed hp entry), hentered.mode, hentered.entryKept⟩

/-- The image stands in the Pattern store, whatever the outcome. -/
theorem loadImage_stores (s : State) (fw sig : List Nat) (len : Nat) (entry : Word) {i : Nat} (hi : i < img.length)
    (hs : i < 262144) : Mem.rd (s.loadImage img len fw sig entry).mem (0x3C000000 + i) = BitVec.ofNat 8 (img.getD i 0) :=
  (loadImage_mem s img fw sig len entry (.inr (by omega))).trans (rd_storeImage s hi hs)

theorem loadImage_keepsBelow (s : State) (img fw sig : List Nat) (len : Nat) (entry : Word) {a : Nat} (ha : a < 0x20000000) :
    Mem.rd (s.loadImage img len fw sig entry).mem a = Mem.rd s.mem a :=
  (loadImage_mem s img fw sig len entry (.inl ha)).trans (rd_storeImage_below s img (by omega))

/-- The device after a failed check. -/
theorem loadImage_fails {x : LoadErr} (h : s.d.checkImage img len = .error x) :
    CheckFails s.d (s.loadImage img len fw sig entry).d x := by
  rw [loadImage_error h]
  exact checkFail_fails s.d x

/-- The device after a load that passed its checks. -/
theorem loadImage_passes (h : s.d.checkImage img len = .ok secs) :
    Passed (s.loadImage img len fw sig entry).d img ∧
      (if signed' (pubKey (bodyOf secs 0xFF 0)) sig fw then
        (s.loadImage img len fw sig entry).d.mode = 2 ∧ (s.loadImage img len fw sig entry).d.sys.entry = entry
      else SlotFails s.d (s.loadImage img len fw sig entry).d 4) := by
  have happlied := applyPattern_applied s.d img secs
  have hpassed := happlied.passed (checkImage_ok h).long
  rw [loadImage_ok h]
  dsimp only
  generalize s.d.applyPattern img secs = x at happlied hpassed
  by_cases hsigned : signed' (pubKey (bodyOf secs 0xFF 0)) sig fw = true
  · rw [if_pos hsigned, if_pos hsigned]
    exact runFirmware_runs hpassed entry
  · rw [if_neg hsigned, if_neg hsigned]
    have hfails := checkFail_fails x ⟨12, none⟩
    exact ⟨hfails.passed hpassed, hfails.slot.of happlied.regs⟩

/-- A load whose image was judged: the image stands in the Pattern store, and the device shows the outcome. -/
def ImageLoaded (d : Dev) (t : State) (img : List Nat) (len : Nat) (fw sig : List Nat) (entry : Word) : Prop :=
  (∀ i, i < img.length → i < 262144 → Mem.rd t.mem (0x3C000000 + i) = BitVec.ofNat 8 (img.getD i 0)) ∧
  match d.checkImage img len with
  | .error x => SlotFails d t.d (checkCode x) ∧ t.d.pat = d.pat ∧
      (d.get R.CFG_STATUS_ERR = 0 → t.d.get R.CFG_STATUS_ERR = x.err % 256 ∧
        t.d.get R.CFG_STATUS_NOSECT = (if x.sec = none then 1 else 0))
  | .ok secs =>
    t.d.get R.CFG_STATUS_LOADED = 1 ∧ t.d.rdw 0x40004010 = word (beAt img 0x14 4) ∧ t.d.rdw 0x40004014 = word (beAt img 0x10 4) ∧
    t.d.pat.profOff = leAt img 0x1C 4 ∧
    (if signed' (pubKey (bodyOf secs 0xFF 0)) sig fw then t.d.mode = 2 ∧ t.d.sys.entry = entry else SlotFails d t.d 4)

theorem loadImage_loaded (s : State) (img : List Nat) (len : Nat) (fw sig : List Nat) (entry : Word) :
    ImageLoaded s.d (s.loadImage img len fw sig entry) img len fw sig entry := by
  refine ⟨fun i hi hs => loadImage_stores s fw sig len entry hi hs, ?_⟩
  split
  next x hx =>
    have hfails := loadImage_fails (fw := fw) (sig := sig) (entry := entry) hx
    exact ⟨hfails.slot, hfails.pat, hfails.err⟩
  next secs hsecs =>
    obtain ⟨hpassed, hruns⟩ := loadImage_passes (fw := fw) (sig := sig) (entry := entry) hsecs
    exact ⟨hpassed.loaded, hpassed.low, hpassed.high, hpassed.prof, hruns⟩

end

/-! ### The commands (R59, R84 to R86, R546) -/

theorem loads_mode {pins : List Nat} (h : s.d.mode ≠ 1) : s.d.loads pins = false := by
  simp only [Dev.loads, beq_eq_false_iff_ne.mpr h, Bool.false_and]

section
variable {dir : List Nat} (h : s.d.loads [0, 1] = true)
  (hread : Mem.bytes s.mem (0x60000000 + 0x1000 * s.d.get R.SYSCTL_BOOT_SLOT) 32 = dir)
include h hread

theorem exec_patternLoad_bad {code : Nat} (hdir : directoryFail dir = some code) :
    exec .patternLoad s = .next { s with d := s.d.slotFail code } := by
  rw [show exec .patternLoad s = execPatternLoad s from rfl, execPatternLoad]
  simp only [h, Bool.not_true, Bool.false_eq_true, if_false, hread, hdir]
  rfl

theorem exec_patternLoad_good (hdir : directoryFail dir = none) :
    exec .patternLoad s = .next (s.loadImage (Mem.bytes s.mem (0x60000000 + leAt dir 8 4) (leAt dir 0xC 4)) (leAt dir 0xC 4)
      (Mem.bytes s.mem (0x60000000 + leAt dir 0x10 4) (leAt dir 0x14 4))
      (Mem.bytes s.mem (0x60000000 + leAt dir 0x10 4 + leAt dir 0x14 4) 64) (word (leAt dir 0x18 4))) := by
  rw [show exec .patternLoad s = execPatternLoad s from rfl, execPatternLoad]
  simp only [h, Bool.not_true, Bool.false_eq_true, if_false, hread, hdir]

end

theorem exec_patternLoad_off (h : s.d.loads [0, 1] = false) : exec .patternLoad s = .next s := by
  rw [show exec .patternLoad s = execPatternLoad s from rfl, execPatternLoad]
  simp only [h, Bool.not_false, if_true]

theorem exec_flashNoResponse (s : State) :
    exec .flashNoResponse s = .next { s with d := if s.d.loads [0, 1] then s.d.slotFail 1 else s.d } := rfl

section
variable (patLen : Word) (pattern : List Byte) (fwLen entry : Word) (fw sig : List Byte)

/-- The state with the host's firmware in place. -/
def State.hostFirmware (s : State) : State := { s with mem := Mem.wrBytes s.mem 0x10000000 (fw.map BitVec.toNat) }

theorem exec_hostBootImage (h : s.d.loads [2, 3] = true) : exec (.hostBootImage patLen pattern fwLen entry fw sig) s = .next (
    if fwLen.toNat = 0 ∨ fwLen.toNat % 4 ≠ 0 ∨ 0x200000 < fwLen.toNat then { s with d := s.d.slotFail 5 }
    else if entry.toNat < 0x10000000 ∨ 0x10000000 + fwLen.toNat ≤ entry.toNat then { s with d := s.d.slotFail 2 }
    else (s.hostFirmware fw).loadImage (pattern.map BitVec.toNat) patLen.toNat (fw.map BitVec.toNat) (sig.map BitVec.toNat) entry) := by
  rw [show exec (.hostBootImage patLen pattern fwLen entry fw sig) s = execHostBootImage patLen pattern fwLen entry fw sig s from rfl,
    execHostBootImage]
  simp only [h, Bool.not_true, Bool.false_eq_true, if_false]
  rfl

theorem exec_hostBootImage_off (h : s.d.loads [2, 3] = false) :
    exec (.hostBootImage patLen pattern fwLen entry fw sig) s = .next s := by
  rw [show exec (.hostBootImage patLen pattern fwLen entry fw sig) s = execHostBootImage patLen pattern fwLen entry fw sig s from rfl,
    execHostBootImage]
  simp only [h, Bool.not_false, if_true]

end

theorem rd_hostFirmware {fw : List Byte} {i : Nat} (hi : i < fw.length) :
    Mem.rd (s.hostFirmware fw).mem (0x10000000 + i) = fw.getD i 0 := by
  have hlt : i < (fw.map BitVec.toNat).length := by rwa [List.length_map]
  rw [State.hostFirmware, Mem.rd_wrBytes _ _ _ i hlt, List.getElem_map, BitVec.ofNat_toNat, BitVec.setWidth_eq,
    List.getD_eq_getElem _ _ hi]

theorem directoryFail_code {dir : List Nat} {code : Nat} (h : directoryFail dir = some code) : code < 256 := by
  unfold directoryFail at h
  extract_lets at h
  split at h
  · cases h
    decide
  · split at h
    · cases h
      decide
    · cases h

/-- Settles O21: a slot that fails, an image that fails a check, and an application are three devices, each read off once;
memory after a load is the Pattern store but for the lanes' memory. -/
theorem patternLoadsCheckThenApply : Obligations.PatternLoadsCheckThenApply := by
  refine ⟨fun s hloads => ?_, fun patLen pattern fwLen entry fw sig s hloads => ⟨fun hbad => ?_, fun h0 h4 hmax hout => ?_,
    fun h0 h4 hmax hlow hhigh hlen => ?_⟩, fun s p l n e f g hmode => ⟨?_, ?_, ?_⟩⟩
  · intro dir
    have hread : Mem.bytes s.mem (0x60000000 + 0x1000 * s.d.get R.SYSCTL_BOOT_SLOT) 32 = dir := rfl
    clear_value dir
    refine ⟨fun code hdir => ⟨_, exec_patternLoad_bad hloads hread hdir, slotFail_fails s.d (directoryFail_code hdir), rfl⟩,
      ⟨_, exec_flashNoResponse s, ?_, rfl⟩, fun hdir => ⟨_, exec_patternLoad_good hloads hread hdir, loadImage_loaded s _ _ _ _ _⟩⟩
    rw [if_pos hloads]
    exact slotFail_fails s.d (by decide)
  · refine ⟨_, exec_hostBootImage patLen pattern fwLen entry fw sig hloads, ?_⟩
    rw [if_pos hbad]
    exact ⟨slotFail_fails s.d (by decide), rfl⟩
  · refine ⟨_, exec_hostBootImage patLen pattern fwLen entry fw sig hloads, ?_⟩
    rw [if_neg (by omega), if_pos hout]
    exact ⟨slotFail_fails s.d (by decide), rfl⟩
  · have hexec := exec_hostBootImage patLen pattern fwLen entry fw sig hloads
    rw [if_neg (by omega), if_neg (by omega)] at hexec
    refine ⟨_, hexec, loadImage_loaded (s.hostFirmware fw) _ _ _ _ entry, fun i hi => ?_⟩
    rw [loadImage_keepsBelow _ _ _ _ _ _ (by omega)]
    exact rd_hostFirmware (by omega)
  · exact exec_patternLoad_off (loads_mode hmode)
  · rw [Leads, exec_flashNoResponse, if_neg (by rw [loads_mode hmode]; decide)]
  · exact exec_hostBootImage_off p l n e f g (loads_mode hmode)

end Sys2Proof.Machine
end
